-- ==== Sys2Proof/Word.lean ====
section
/-! DEFINITION. The word types of the model and their plainest arithmetic (R6, R11). -/

namespace Sys2Proof

/-- A register, and every 64-bit word of memory (R11). -/
abbrev Word := BitVec 64

/-- A byte of memory. -/
abbrev Byte := BitVec 8

/-- A 32-bit lane, an FP32 value or an instruction word (R94). -/
abbrev Lane := BitVec 32

/-- Bits [hi:lo] of a word as a number (R6). -/
def Word.bits (w : Word) (hi lo : Nat) : Nat := (w.toNat >>> lo) % 2 ^ (hi + 1 - lo)

/-- Bit n of a word (R6). -/
def Word.bit (w : Word) (n : Nat) : Bool := w.toNat.testBit n

/-- A word from a number, modulo 2^64. -/
def word (n : Nat) : Word := BitVec.ofNat 64 n

/-- 1 or 0. -/
def b2n (b : Bool) : Nat := if b then 1 else 0

end Sys2Proof
end

