-- ==== Sys2Proof/Syntax.lean ====
section
/-! DEFINITION. The commands of the block: one constructor of `Instr` per row of spec/opcode_table.json, with the
operands this model gives it (the table gives none). What the environment decides or measures is an operand. -/

namespace Sys2Proof

/-- A cluster of the package (R397): tile and cluster in tile. -/
structure ClusterRef where
  tile : Fin 8
  cluster : Fin 24
  deriving DecidableEq, Repr

/-- A core of the package (R138): tile, cluster in tile, core in cluster. -/
structure CoreRef where
  tile : Fin 8
  cluster : Fin 24
  core : Fin 16
  deriving DecidableEq, Repr

/-- A register page of the catalogue (R585 to R587). -/
inductive PageRef where
  | device (page : Fin 32)
  | tile (tile : Fin 8) (page : Fin 96)
  | cluster (c : ClusterRef)
  | core (k : CoreRef)
  deriving DecidableEq, Repr

/-- Who makes a register access or sends a submission: the host through BAR0, the Keeper, or the task that
runs on a core. -/
inductive Requester where
  | host
  | keeper
  | core (k : CoreRef)
  deriving DecidableEq, Repr

/-- A requester whose request to a home of another node got no response (R413). -/
inductive Sender where
  | core (k : CoreRef) (store : Bool)
  | host
  | rowEngine (c : ClusterRef)
  | stream (tile : Fin 8)
  | dma (tile : Fin 8) (channel : Fin 32)
  /-- The command at a place of the collective and exchange engines' queue. -/
  | collective (index : Nat)
  deriving DecidableEq, Repr

/-- Who returns a response (R133): a bank of a cluster memory, or the home at another node. -/
inductive Responder where
  | bank (c : ClusterRef) (bank : Fin 32)
  | home (node : Fin 320)
  deriving DecidableEq, Repr

/-- What the rate monitors and sensors of one cluster report at the end of a rate window (R24, R26, R35). -/
structure ClusterWindow where
  cl : ClusterRef
  /-- Measured rate of cores 0 to 15 in Mbeat/s. -/
  rates : List Nat
  /-- Measured rate of the memory domain and of the router domain, in Mbeat/s. -/
  memRate : Nat
  routerRate : Nat
  /-- Junction temperature over the window, in 1/16 °C. -/
  temp16 : Nat
  /-- Core-domain power over the window in mW. -/
  power : Nat
  deriving DecidableEq, Repr

/-- A line of an array (R197, R199): a regular row 0 to 15 or column 0 to 63 of array A or B, or its spare row 0, or spare column 0 or 1. -/
structure ArrayLine where
  arrayB : Bool
  column : Bool
  spare : Bool
  line : Fin 64
  deriving DecidableEq, Repr

/-- The array has the line (R199). -/
def ArrayLine.exists? (l : ArrayLine) : Bool :=
  decide (l.line.val < (match l.column, l.spare with | true, false => 64 | false, false => 16 | true, true => 2 | false, true => 1))

/-- A two-way timestamp exchange over a peer port (R56), its times in 1/16 BT ns: `sent` and `back` by this module's counter, when its own
packet left and the neighbour's arrived; `heard` and `answered` by the neighbour's counter, when this module's packet arrived and its own left.
`master` is the master that the neighbour leads to, with its hops and coordinate, if it leads to one (R57, R67). -/
structure BeaconSample where
  sent : Int
  heard : Int
  answered : Int
  back : Int
  master : Option (Nat × Nat)
  deriving DecidableEq, Repr

/-- One-way path delay of an exchange: half the round trip (R56). -/
def BeaconSample.delay16 (x : BeaconSample) : Int := ((x.back - x.sent) - (x.answered - x.heard)) / 2

/-- Offset of this module's counter from the neighbour's in an exchange (R56). -/
def BeaconSample.offset16 (x : BeaconSample) : Int := ((x.sent - x.heard) + (x.back - x.answered)) / 2

/-- A reference input of the master (R68). -/
inductive RefInput where
  | mhz10
  | pps
  deriving DecidableEq, Repr

/-- Result of a training attempt of a peer port (R462, R464). -/
inductive TrainResult where
  /-- Every lane is trained, with the eye margin of each (R497). -/
  | trained (margins : Word)
  | aligned
  deriving DecidableEq, Repr

/-- What a neighbour sends in IDENTIFY (R463). -/
structure NeighbourInfo where
  port : Fin 6
  coord : BitVec 12
  /-- Axis sizes minus 1, cable bound and peer delay, in the layout of `COLL.TORUS`. -/
  torus : BitVec 64
  deriving DecidableEq, Repr

/-- A Welur packet (R453): the header fields and the data words' bytes. -/
structure PeerPacket where
  kind : Fin 16
  vc : Fin 4
  prio : Bool
  dst : BitVec 12
  src : BitVec 12
  hops : Nat
  age : BitVec 16
  group : BitVec 12
  gen : BitVec 8
  epoch : BitVec 16
  mode : Fin 4
  launch : BitVec 32
  seq : BitVec 32
  addr : BitVec 48
  ctr : BitVec 19
  ctrEn : Bool
  inc : BitVec 32
  expert : BitVec 16
  token : BitVec 24
  k : Fin 8
  data : List Byte
  deriving DecidableEq, Repr

/-- A Welur flit as a port receives it (R450, R451): the FEC codewords that were corrected and that could not be, whether its CRC holds, and
the trailer. -/
structure WelurFlit where
  corrected : Nat
  uncorrectable : Nat
  crcOk : Bool
  seq : BitVec 15
  nak : Bool
  ack : BitVec 15
  deriving DecidableEq, Repr

/-- A frame of the mooring chain (R623), without preamble; `crcOk` is whether its CRC holds. -/
structure ChainFrame where
  dst : BitVec 16
  src : BitVec 16
  kind : Byte
  flags : Byte
  seq : BitVec 16
  payload : List Byte
  crcOk : Bool
  deriving DecidableEq, Repr

/-- What VERIFY finds of an image (R644, R650): whether the signature verifies under the key that the header names, and
whether the body's SHA-256 equals DIGEST. -/
structure VerifyResult where
  signature : Bool
  digest : Bool
  deriving DecidableEq, Repr

/-- A discard notice (R523) as it is received. -/
structure Notice where
  launch : Nat
  relaunch : Nat
  code : Nat
  classOf : Nat
  origin : BitVec 12
  info : Nat
  deriving DecidableEq, Repr

/-- What a memory stores of an address (R357): the line at its home, the shadow line or the window copy that stands for it, or a record of a
cluster's side memory (R215). -/
inductive StoredCopy where
  | home (addr : BitVec 48)
  | shadow (addr : BitVec 48)
  | window (addr : BitVec 48)
  | record (cl : ClusterRef) (index : Fin 65536)
  deriving DecidableEq, Repr

/-- The outcome of one stage of bring-up (R641, R642). `other`: VERIFY refuses the active slot's image and accepts the other slot's.
`settings`: the SETTINGS stage finds whether the header and the active copy of the bank hold their CRCs, which generation of the flash mirror is the
newest valid one (0 none, 1 the newer, 2 the older), and the cell's voltage in mV (R636). -/
inductive StageOutcome where
  | ok
  | other
  | settings (bankOk : Bool) (mirror : Fin 3) (cellMv : BitVec 16)
  | fail (cause : Fin 8)
  deriving DecidableEq, Repr

/-- What the power sensors measure over one control window (R663, R673): mean input power in W, input voltage in 10 mV,
input current in 10 mA, hottest junction with its cluster, the outlet temperature, and the floor-load power in mW. -/
structure PowerSample where
  inputW : Nat
  vin : Nat
  iin : Nat
  tj16 : Nat
  tjAt : ClusterRef
  outlet16 : Nat
  floorMW : Nat
  deriving DecidableEq, Repr

/-- What a page's commit, soft reset or error refers to is its page. One constructor per row of the opcode table. -/
inductive Instr where
  -- rates, fences and the Beacon (02, 04)
  | rateWindowEnd (windows : List ClusterWindow) (controlRates : List Nat)
  | unfence (r : Requester) (cl : ClusterRef) (value : Word)
  | arraySelfTest (k : CoreRef) (faulty : Option ArrayLine)
  | floorSelfTestEnd (k : CoreRef)
  | coreRateRead (k : CoreRef)
  | cmRateRead (cl : ClusterRef)
  | beaconSlotBoundary (late : List (Fin 320))
  | streamEjectSignal (node : Fin 320) (stream : Fin 4096)
  | beaconExchange (port : Fin 6) (sample : BeaconSample)
  | beaconStepCorrection (parentTime : Word)
  | parentLost
  | parentFound (port : Fin 6) (sample : BeaconSample)
  | holdoverExpiry
  | noMasterTimeout
  | ppsEdge
  | refInputLost (input : RefInput)
  | refInputTimeout (input : RefInput)
  | epochSet (r : Requester) (value : Word)
  -- slots and placement (07, 12)
  | arm (slot : Fin 64) (value : Word)
  | slotPlacement (slot : Fin 64)
  | rePlacement (slot : Fin 64)
  | effectiveLaunch (slot : Fin 64)
  | taskStart (k : CoreRef)
  | taskEnd (k : CoreRef) (value : Word)
  | tagQuarantineExpiry (cl : ClusterRef) (tag : BitVec 16)
  -- cores (03)
  | scalarInstruction (k : CoreRef)
  | trunaheadWrite (k : CoreRef) (value : Word)
  | tld (k : CoreRef) (td : Fin 8) (inc : Bool)
  | runaheadFetch (k : CoreRef) (td : Fin 8)
  | tst (k : CoreRef) (td : Fin 8) (inc : Bool)
  | tlds (k : CoreRef) (td : Fin 8) (rs1 rs2 : Fin 32)
  | tdw (k : CoreRef) (td : Fin 8) (rs1 : Fin 32) (sub : Fin 8)
  | tdr (k : CoreRef) (td : Fin 8) (rd : Fin 32) (sub : Fin 8)
  | twl (k : CoreRef) (tds : Fin 8)
  | weightFillDone (k : CoreRef)
  | tmma (k : CoreRef) (tdd tds : Fin 8) (twinFault : Bool)
  | tmmaz (k : CoreRef) (tdd tds : Fin 8) (twinFault : Bool)
  | tzero (k : CoreRef) (tdd : Fin 8)
  | tcvt (k : CoreRef) (tdd tds : Fin 8) (rnd : Fin 8)
  | floorBeat (k : CoreRef) (arrayB : Bool)
  | vadd (k : CoreRef) (vd vs1 vs2 : Fin 128)
  | vsub (k : CoreRef) (vd vs1 vs2 : Fin 128)
  | vmul (k : CoreRef) (vd vs1 vs2 : Fin 128)
  | vfma (k : CoreRef) (vd vs1 vs2 : Fin 128)
  | vmax (k : CoreRef) (vd vs1 vs2 : Fin 128)
  | vmin (k : CoreRef) (vd vs1 vs2 : Fin 128)
  | vfunc (k : CoreRef) (vd vs1 code : Fin 128)
  | vred (k : CoreRef) (vd vs1 code : Fin 128)
  | vcvt (k : CoreRef) (vd vs1 code : Fin 128)
  | vld (k : CoreRef) (vd : Fin 128) (rs1 : Fin 32)
  | vst (k : CoreRef) (vd : Fin 128) (rs1 : Fin 32)
  | vsplat (k : CoreRef) (vd : Fin 128) (rs1 : Fin 32)
  | vext (k : CoreRef) (vd : Fin 128) (rd rs2 : Fin 32)
  | vmulx (k : CoreRef) (vd : Fin 128) (rs1 : Fin 32)
  | slotStatRead (k : CoreRef)
  | bankWaitMaxRead (k : CoreRef)
  | memoryResponse (who : Responder)
  | requestTimeout (who : Sender)
  -- row engine (05)
  | reSubmit (r : Requester) (cl : ClusterRef) (value : Word)
  | reFill (cl : ClusterRef)
  | reSmaxStep (cl : ClusterRef)
  | reSmaxFinal (cl : ClusterRef)
  | reDot (cl : ClusterRef)
  | reSmaxBwd (cl : ClusterRef)
  | reMomStep (cl : ClusterRef)
  | reMomFinal (cl : ClusterRef)
  | reSave (cl : ClusterRef)
  | reLoad (cl : ClusterRef)
  -- sync counters and fences (06)
  | signal (r : Requester) (tile : Fin 8) (value : Word)
  | waitValWrite (r : Requester) (tile : Fin 8) (value : Word)
  | waitGo (r : Requester) (tile : Fin 8) (value : Word)
  | waitResLoad (r : Requester)
  | waitTimeout (k : CoreRef)
  | fenceCluster (r : Requester)
  | fenceTile (r : Requester)
  | fenceDevice (r : Requester)
  | fenceFabric (r : Requester)
  | fenceComplete (k : CoreRef)
  | ctrCfgWrite (tile : Fin 8) (value : Word)
  | ctrSet (tile : Fin 8) (value : Word)
  | dbgSelWrite (tile : Fin 8) (value : Word)
  -- Granger and memory (07, 08)
  | shadowMerge (bushel : BitVec 27)
  | heatWindowEnd (tile : Fin 8)
  | migrationSwitch (bushel : BitVec 27)
  | bisnpResponse (bushel : BitVec 27) (line : Fin 32768) (dirty : Option (List Byte))
  | biTimeout (bushel : BitVec 27)
  | queryTask (key : BitVec 56)
  | queryCounterOwner (key : BitVec 56)
  | queryBushel (key : BitVec 56)
  | queryCore (key : BitVec 56)
  | cxlmemRead (addr : BitVec 48) (len : Fin 65) (caches : Bool)
  | cxlmemWrite (addr : BitVec 48) (data : List Byte)
  | memoryEccError (place : StoredCopy) (uncorrectable : Bool)
  | memoryUnusable (tile : Fin 8) (controller : Fin 3)
  | windowCursorVisit (slot : Fin 64)
  | layerArrivalSignal (layer : BitVec 16)
  | streamSubmit (r : Requester) (tile : Fin 8) (value : Word)
  | streamFetch (tile : Fin 8)
  | streamDrop (tile : Fin 8)
  | streamCopy (tile : Fin 8)
  | streamStatRead (tile : Fin 8)
  | dmaGo (r : Requester) (tile : Fin 8) (channel : Fin 32) (value : Word)
  | dmaBurst (tile : Fin 8)
  | dmaShareWindow (tile : Fin 8)
  | dmaComplete (tile : Fin 8) (channel : Fin 32)
  | patrolScrub (tile : Fin 8) (controller : Fin 3) (corrected : Nat)
  -- on-package network (09)
  | openPacketHop (node : Fin 320) (output : Fin 8)
  | stLoad (tile : Fin 8) (value : Word)
  | stLoadDone
  | routerBufferUe (node : Fin 320)
  | routeRewrite
  | bridgeFlitCrcFail (tile : Fin 8) (side : Fin 4)
  | bridgeDown (tile : Fin 8) (side : Fin 4)
  | latMaxRead (tile : Fin 8)
  -- peer fabric (10)
  | welurFlitReceive (port : Fin 6) (flit : WelurFlit)
  | replayTimeout (port : Fin 6)
  | portSignalDetect (port : Fin 6)
  | linkTrainComplete (port : Fin 6) (result : TrainResult)
  | linkIdentify (port : Fin 6) (info : NeighbourInfo)
  | linkTrainTimeout (port : Fin 6)
  | peerLinkLost (port : Fin 6)
  | linkCmdRetrain (port : Fin 6) (value : Word)
  | eqSeedSave (port : Fin 6) (seeds : List Word)
  | peerCredit (port : Fin 6) (credits : Word)
  | peerSlottedReceive (port : Fin 6) (packet : PeerPacket)
  | peerPacketReceive (port : Fin 6) (packet : PeerPacket)
  | groupCreate (value : Word)
  | groupRetire (value : Word)
  | groupQuarantineExpiry (id : BitVec 12)
  | collSubmit (r : Requester) (value : Word)
  | allGather (index : Nat)
  | reduceScatter (index : Nat)
  | allReduce (index : Nat)
  | broadcast (index : Nat)
  | barrier (index : Nat)
  | gatherShard (index : Nat)
  | put (index : Nat)
  | dispatch (index : Nat)
  | combine (index : Nat)
  | collCommandComplete (index : Nat)
  | epochCtrlWrite (value : Word)
  | epochSwitch (value : Word)
  | collStatRead
  -- steps and recovery (11)
  | stepVote
  | stepCommit
  | foghornLoss (r : Requester) (value : Word)
  | nfReport (r : Requester) (value : Word)
  | faultReport (code : Fin 27) (info : BitVec 32) (deferred : Bool)
  | discardNotice (notice : Notice)
  | relaunch
  | stepTimeout
  | stageCopyDone
  | partnerRefreshDone (received : Option (BitVec 12 × Nat)) (ok : Bool)
  | flashWriteDone (ok : Bool)
  | storeDone (value : Word)
  | restore (value : Word)
  | restoreDone (image : List (Nat × Nat × List Byte)) (header : List Word) (sheaves : List (Nat × List Byte)) (error : Fin 6)
  | redoWrite (value : Word)
  | wverWrite (value : Word)
  -- command slots and host (12)
  | abort (slot : Fin 64)
  | release (slot : Fin 64)
  | slotWritebackDone (slot : Fin 64)
  | partialRead (slot : Fin 64) (offset : BitVec 16) (size : Nat)
  | mirrorWrite (slot : Fin 64)
  | uioFailure (addr : BitVec 48) (who : Sender) (write : Bool)
  | ideIntegrityFail
  -- register pages (13)
  | blkCommit (r : Requester) (page : PageRef)
  | packageCommitApply (page : PageRef)
  | blkSoftReset (r : Requester) (page : PageRef)
  | softResetDone (page : PageRef)
  | blkEnableWrite (r : Requester) (page : PageRef) (enable : Bool)
  | errStatClear (page : PageRef) (value : Word)
  | errInjWrite (page : PageRef) (value : Word)
  | registerWrite (r : Requester) (bar2 : Bool) (offset : Nat) (size : Nat) (words : List Word)
  | deviceReset
  -- service chain, firmware and trust (14)
  | keeperWatchdog
  | bypassRelayChange (closes : Bool)
  | chainTailTimeout
  | enum (frame : ChainFrame)
  | setCoord (frame : ChainFrame)
  | chainRead (frame : ChainFrame)
  | chainWrite (frame : ChainFrame)
  | stageBegin (frame : ChainFrame)
  | stageEnd (frame : ChainFrame) (verify : VerifyResult)
  | image (frame : ChainFrame)
  | activate (frame : ChainFrame)
  | confirm (frame : ChainFrame)
  | chainAttest (frame : ChainFrame)
  | chainReset (frame : ChainFrame)
  | enumWaitTimeout
  | activationTime
  | confirmTimeout
  | settingsMirrorWrite (ok : Bool)
  | bringupStageAdvance (outcome : StageOutcome) (ms : Nat)
  | mboxAttest
  | mboxIdentity
  | confirmFw
  | mboxSelfTest (faulty : Option ArrayLine) (retestOk : Bool)
  | mboxFuseLog
  | mboxHealth
  -- power and cooling (15)
  | powerControlWindow (sample : PowerSample)
  | valveLoopTick (inlet16 outlet16 flow : Nat) (opening : Fin 101)
  | protectiveShutdown (cause : Fin 7)
  | inputUndervoltBand
  | pwrStatRead
  -- counters and trace (16)
  | counterBankReset (page : PageRef) (value : Word)
  | sampleSelWrite (page : PageRef) (value : Word)
  | snap (page : PageRef) (value : Word)
  | snapDone (page : PageRef)
  | traceCtrlWrite (value : Word)
  | traceMark (r : Requester) (value : Word)
  | ttraceMark (r : Requester) (tile : Fin 8) (value : Word)
  | traceFifoWrite (stream : Fin 9)
  | traceFullTimeTick
  | traceSampleTick
  | ttraceStatRead (tile : Fin 8)
  -- rows added at the table's end
  | refInputValid (input : RefInput)
  | bridgeTrainingLost (tile : Fin 8) (side : Fin 4)
  | bridgeRetrained (tile : Fin 8) (side : Fin 4) (modules : Fin 16) (lanes : Fin 4096)
  | hostLinkStateChange (state : Fin 3) (width : Fin 32) (rate : Fin 16)
  | chainOutLinkUp
  | inputVoltageRestored
  | inletRange (inlet16 : Nat)
  deriving DecidableEq, Repr

end Sys2Proof
end

