-- ==== Sys2Proof/Decode.lean ====
section
/-! DEFINITION. The decoder of words that spell commands. The opcode table of this block gives no row any bits: a command
comes to the block as an access or an event, never as a word, so no word spells one. -/

namespace Sys2Proof

/-- The command that a word spells by the table's bits: the table gives no row any, so none. -/
def decodeTableWord (_nbits _w : Nat) : Option Instr := none

end Sys2Proof
end

