-- ==== Sys2Proof/Config.lean ====
section
/-! DEFINITION. What an implementation fixes and the spec does not state, and the free values: opaque constants with no
body, so that nothing can be proved of a particular value. -/

namespace Sys2Proof.Config

/-- MAJOR × 256 + MINOR of a block type's BLK_ID (R589 "Per block"). -/
opaque blkVersion : Nat → Nat

/-- EVLINES of a block type (R589 "Per block"); a value above 7 counts as 7. -/
opaque evLines : Nat → Nat

/-- INJ_DATA of a block type other than IDENT (R589 "Per block", R614). -/
opaque injData : Nat → Bool

/-- Serial number and stepping of the part (R614, R615 "Part"). -/
opaque serialLo : Word
opaque serialHi : Word
opaque stepping : BitVec 16

/-- A function of a lane by code, where its result is outside the normal range and R170 does not state it: VFUNC codes 0 to 7, and e^x and
ln x of the row engine as codes 8 and 9 (R128, R220). -/
opaque vfunc : Nat → Lane → Lane

/-- Stored payload of codec block i as the n-th coding made it, beyond the least of 2,048 bytes (R345). -/
opaque codedBytes : Nat → Nat → Nat

/-- Factory fuses (R196): by array, as 2 × core index + array, the spares that they use, the row (0) or a column (1, 2). -/
opaque factorySpare : Nat → Nat → Bool

/-- Choice of a function's result within the 2 units in the last place that R128 and R220 allow, by the same codes. -/
opaque vfuncUlp : Nat → Lane → Nat

/-- The n-th free number, byte and word: choices and values that the spec leaves open. -/
opaque freeNat : Nat → Nat
opaque freeByte : Nat → Byte
opaque freeWord : Nat → Word

/-- SHA-256 and the identity key's signature and certificate, as functions of the bytes they cover (R650, R653, R655). -/
opaque sha256 : List Byte → List Byte
opaque lmsSign : Nat → List Byte → List Byte
opaque identity : List Byte

/-- Conversion of a settings copy from one format to another (R648). -/
opaque convertSettings : Nat → Nat → List (Nat × Word) → List (Nat × Word)

end Sys2Proof.Config
end

