-- ==== Sys2Proof/Machine/State.lean ====
section
/-! DEFINITION. The state of the block as plain data, the reasons a command can stop, and the state after reset.
Every register of the register window has its home in `regs`, keyed by its BAR0 offset; a register that is not listed
there reads its Reset column (`resetWord` in Machine/Pages.lean). State that has no register has a field of its own. -/

namespace Sys2Proof.Machine

/-- The command is out of place for this part: the machine does not fault on any command, so this type has one
constructor that names the only stop: a device address that does not exist. No meaning raises it (safe). -/
inductive Fault where
  /-- Never raised: every address of the 48-bit space has an attribute (R90). Safe. -/
  | noSuchAddress
  deriving DecidableEq, Repr

/-- Why a command has no meaning. -/
inductive Refusal where
  /-- Raised by an arm of `exec` that has no meaning yet. Safe. -/
  | notModelled (mnemonic : String)
  /-- Raised by a command that names a tile, or a node or a page of a tile, that the part does not have (R2, R14): there is no such
  unit to do anything. Safe. -/
  | noSuchUnit
  deriving DecidableEq, Repr

/-- The three parts of the family (R1). -/
inductive Part where
  | d2
  | d4
  | d8
  deriving DecidableEq, Repr

/-- Tiles of a part (R14). -/
def Part.tiles : Part → Nat
  | .d2 => 2
  | .d4 => 4
  | .d8 => 8

/-- Tile columns of a part (R397). -/
def Part.cols : Part → Nat
  | .d2 => 2
  | .d4 => 2
  | .d8 => 4

/-- Tile rows of a part (R397). -/
def Part.rows : Part → Nat
  | .d2 => 1
  | .d4 => 2
  | .d8 => 2

/-- Power envelope in W (R656). -/
def Part.envelope : Part → Nat
  | .d2 => 850
  | .d4 => 1800
  | .d8 => 3600

/-- States of a command slot (R564). -/
inductive SlotState where
  | idle
  | armed
  | launched
  | running
  | draining
  | done
  | faulted
  | aborted
  deriving DecidableEq, Repr

/-- Code of a slot state in STATUS (R564). -/
def SlotState.code : SlotState → Nat
  | .idle => 0
  | .armed => 1
  | .launched => 2
  | .running => 3
  | .draining => 4
  | .done => 5
  | .faulted => 6
  | .aborted => 7

/-- A command-slot page (R558, R559, R572). The fields of STATUS are `state` to `armRes`. -/
structure Slot where
  state : SlotState := .idle
  step : Bool := false
  source : Nat := 0
  code : Nat := 0
  gen : Nat := 0
  att : Nat := 0
  replays : Nat := 0
  armRes : Nat := 0
  launch : Word := 0
  effLaunch : Word := 0
  config : Word := 0
  taskList : Word := 0
  taskCount : Word := 0
  tensorList : Word := 0
  tensorCount : Word := 0
  partialSrc : Word := 0
  armTime : Word := 0
  placeTime : Word := 0
  endTime : Word := 0
  placed : Word := 0
  ended : Word := 0
  layer : Word := 0
  stepNo : Word := 0
  loss : Word := 0
  firstBad : Word := 0
  /-- The step of this arm has had its first effective launch (R504). -/
  launchedOnce : Bool := false
  /-- The slot's mirror line in host memory, its eight words (R575). -/
  mirror : List Word := []
  /-- Beacon time of the last progress write of the mirror (R575). -/
  mirrorTime : Nat := 0
  deriving DecidableEq, Repr, Inhabited

/-- States of a task (R241). -/
inductive TaskState where
  | placed
  | waiting
  | ready
  | running
  | ended
  deriving DecidableEq, Repr

/-- A placed task, or one piece of a split task (R237 to R241, R315). -/
structure Task where
  slot : Nat
  /-- Address of the descriptor. -/
  desc : Nat
  core : CoreRef
  tag : Nat
  gen : Nat
  /-- ATT of the task's step; none in a slot that is not a step (R252). -/
  att : Option Nat
  state : TaskState
  /-- Status code (R246); 0 until the task ends. -/
  status : Nat
  ctrl : Word
  entry : Word
  arg0 : Word
  arg1 : Word
  stack : Word
  place : Word
  workWord : Word
  waits : List Word
  sigs : List Word
  /-- Index of the wait entry under test (R242). -/
  waitIx : Nat
  /-- Estimated work in beats (R299). -/
  work : Nat
  piece : Nat
  pieces : Nat
  exit : Nat
  cause : Nat
  deferred : Bool
  startTime : Nat
  endTime : Nat
  deriving DecidableEq, Repr

/-- One tag of a cluster (R248, R249): the generation that its next assignment takes. -/
structure TagEntry where
  next : Nat := 0
  inUse : Bool := false
  /-- End of the quarantine; none when the tag is free. -/
  quarantine : Option Nat := none
  deriving DecidableEq, Repr, Inhabited

/-- An armed wait in a counter's store (R273, R276). A descriptor wait names its task by slot, descriptor and piece;
a core's wait has `task = none` and its core in the agent word. -/
structure Waiter where
  e : Nat
  agent : Word
  task : Option (Nat × Nat × Nat)
  acquire : Bool
  timeout : Nat
  /-- Index of its entry in the tile's memory wait list (R276); meaningless in a hardware entry. -/
  index : Nat := 0
  deriving DecidableEq, Repr

/-- A sync counter (R262). -/
structure Counter where
  value : Nat := 0
  base : Nat := 0
  cfg : Word := 0
  owner : Word := 0
  orphan : Bool := false
  overflow : Bool := false
  lastWho : Word := 0
  lastTime : Nat := 0
  /-- The eight hardware waiter entries (R273). -/
  hw : List (Option Waiter) := [none, none, none, none, none, none, none, none]
  /-- The memory wait-list entries of this counter, in chain order (R273). -/
  chain : List Waiter := []
  deriving DecidableEq, Repr, Inhabited

/-- An armed wait as its core holds it (R269); `result` once it has ended. -/
structure CoreWait where
  ctr : Nat
  acquire : Bool
  result : Option Nat
  /-- Expected value, and the Beacon time at which the wait ended (R271). -/
  e : Nat := 0
  ended : Nat := 0
  deriving DecidableEq, Repr

/-- Scope of a fence (R283). -/
inductive FenceScope where
  | cluster
  | tile
  | device
  | fabric
  deriving DecidableEq, Repr

/-- One element of a weight block with the scale that applies to it (R147, R208, R209). Codes are raw bits. -/
structure WElem where
  code : Nat
  scale : Nat
  deriving DecidableEq, Repr

/-- A weight block of the arrays (R122, R142): `scaleKind` is the tile's SCALE, `trans` whether it was read
transposed. -/
structure WBlock where
  rows : Nat
  cols : Nat
  fmt : Nat
  scaleKind : Nat
  trans : Bool
  elems : List (List WElem)
  deriving DecidableEq, Repr

/-- A line of a core's L1 (R92): line number (address div 64), its bytes, whether it is dirty, whether the task that brought it in reads and
writes shadow lines (R256), and whether a word of it has an uncorrectable error (R92, R357). -/
structure L1Line where
  line : Nat
  bytes : List Byte
  dirty : Bool
  spec : Bool
  poison : Bool := false
  deriving DecidableEq, Repr

/-- A request that holds a request slot of a core (R132): a run-ahead fetch of a line. -/
structure Request where
  line : Nat
  /-- Age stamp, the low 16 bits of the Beacon copy when the slot was taken (R133). -/
  age : Nat
  /-- Cluster-memory bank in the core's own cluster (R342), or none for another home. -/
  bank : Option Nat
  time : Nat
  deriving DecidableEq, Repr

/-- A core: everything that no register page holds. -/
structure Core where
  /-- x1 to x31; a register that is not listed holds 0. -/
  x : List (Nat × Word) := []
  pc : Word := 0
  /-- Machine mode (the core monitor) or user mode (R89). -/
  machine : Bool := true
  /-- CSRs by address; a CSR that is not listed holds its reset value. -/
  csrs : List (Nat × Word) := []
  /-- W0 to W4 of TDn at 8 × n + word (R98). -/
  tds : List (Nat × Word) := []
  /-- The bytes of vr0 to vr127: byte b of vr n at 256 × n + b (R94). -/
  v : List (Nat × Byte) := []
  /-- Weight stores of the arrays (R147, R149); both arrays hold the same blocks (R145). -/
  active : Option WBlock := none
  shadow : Option WBlock := none
  /-- A fill of the shadow store is in progress (R147). -/
  filling : Bool := false
  l1 : List L1Line := []
  /-- Line of the LR reservation. -/
  reservation : Option Nat := none
  waitVal : Word := 0
  wait : Option CoreWait := none
  /-- A WAIT_RES load is waiting for the armed wait's end (R269). -/
  resLoad : Bool := false
  /-- A fence load that has not completed, and one whose completion its load has not yet returned (R283). -/
  fence : Option FenceScope := none
  fenceDone : Option FenceScope := none
  requests : List Request := []
  /-- A memory instruction waits because every request slot is held (R18, R135). -/
  slotStall : Bool := false
  /-- A store that waits for an entry of a full queue, or for the core's PUTs to complete: BAR0 offset and value (R223, R244, R379, R476). -/
  heldStore : Option (Nat × Word) := none
  /-- Gated cell-beats not yet counted as a unit of 64 (R153), and values that conversions squashed (R173). -/
  gatedRem : Nat := 0
  squashed : Nat := 0
  /-- Run-ahead in progress, by descriptor: the line addresses still to fetch, in order (R116). -/
  ahead : List (Nat × List Nat) := []
  /-- Counted windows below the floor in a row (R40). -/
  lowWindows : Nat := 0
  /-- The array self-test must pass before a release (R194); an array self-test, then a floor self-test is running (R47, R197). -/
  needArrayTest : Bool := false
  arrayTest : Bool := false
  floorTest : Bool := false
  /-- Windows of the floor self-test that have been measured, none before the first whole one begins, and whether one was below the floor
  (R47). -/
  selfWindows : Option Nat := none
  selfLow : Bool := false
  /-- A window of the core has been measured since reset, so that MIN holds a rate (R48). -/
  rateSeen : Bool := false
  /-- Granger's speed evidence f (R296), and whether it has been loaded (R297). -/
  speed : Nat := 0
  speedLoaded : Bool := false
  deriving DecidableEq, Repr, Inhabited

/-- Kinds of open-class packets (R408, R409). -/
inductive PacketKind where
  | request
  | response
  | transit
  deriving DecidableEq, Repr

/-- An open-class packet that waits at an input of a node (R408, R409). -/
structure NetPacket where
  kind : PacketKind
  src : Nat
  dst : Nat
  vc : Nat
  high : Bool
  /-- Age stamp in units of 4 BT ns (R408). -/
  age : Nat
  flits : Nat
  /-- Flits already sent from its node (R417). -/
  progress : Nat
  node : Nat
  port : Nat
  /-- Core whose endpoint the packet is for, if it is one (R436). -/
  toCore : Option Nat := none
  /-- The line a request or response is for, and the bytes of a response; none if the line is poisoned. -/
  line : Nat := 0
  data : List Byte := []
  /-- Peer transit (R447): the port on which the packet leaves, and the packet. -/
  peer : Option (Nat × PeerPacket) := none
  deriving DecidableEq, Repr

/-- A cluster-memory bank (R133): grants and non-core grants of the window, and the requests that its cluster's network port has brought
to it. -/
structure Bank where
  grants : Nat := 0
  nonCore : Nat := 0
  waiting : List NetPacket := []
  deriving DecidableEq, Repr, Inhabited

/-- A cluster: what its register page does not hold. -/
structure Cluster where
  /-- Windows below the floor in a row, of the memory and the router domain (R43). -/
  lowMem : Nat := 0
  lowRouter : Nat := 0
  /-- Junction temperature at the last window, in units of 1/16 degree. -/
  temp16 : Nat := 0
  /-- Beacon time at which the last rate window ended (R26); none before the first. -/
  window : Option Nat := none
  /-- A window of the memory domain has been measured since reset (R396). -/
  cmRateSeen : Bool := false
  /-- Tags of the cluster's tasks (R248, R249). -/
  tags : List (Nat × TagEntry) := []
  /-- Banks of the cluster's memory (R133). -/
  banks : List (Nat × Bank) := []
  /-- Queue of the row engine: descriptor address, ATT and submitter's agent word (R223). -/
  reQueue : List (Nat × Option Nat × Word) := []
  /-- The 65,536 records of the side memory (R215). -/
  side : List (Nat × Word) := []
  /-- Records of the side memory with an uncorrectable error (R225). -/
  sidePoison : List Nat := []
  deriving DecidableEq, Repr, Inhabited

/-- A mapped bushel: its home, pins, marks and evidence (R310, R312, R254, R296). -/
structure Bushel where
  tier : Nat
  tile : Nat
  cluster : Nat
  /-- HBM4 stack in near memory (R343), or place in a cluster's memory (R342). -/
  stack : Nat := 0
  committed : Bool
  tierPin : Option Nat := none
  tilePin : Option Nat := none
  clusterPin : Option Nat := none
  hint : Nat := 0
  expert : Option Nat := none
  /-- Heat in samples and the origin samples of the window by tile (R296). -/
  heat : Nat := 0
  origin : List (Nat × Nat) := []
  /-- Accesses since the last heat sample (R296: one sample per 64). -/
  accesses : Nat := 0
  /-- A shadow bushel of the running step stands for it, allocated on this tile (R255). -/
  shadow : Option Nat := none
  /-- Unwritten lines that wait for the background merge into the adopted shadow (R257). -/
  merging : Nat := 0
  /-- Units of 64 KiB allocated in a compressed tier (R349). -/
  units : Nat := 0
  /-- In a compressed tier, the number of the free values that size its codec blocks, and that of each block coded anew since (R345). -/
  coded : Nat := 0
  blocks : List (Nat × Nat) := []
  deriving DecidableEq, Repr

/-- A migration or evacuation in progress (R353). -/
structure Move where
  bushel : Nat
  tier : Nat
  tile : Nat
  cluster : Nat
  trigger : Nat
  /-- HBM4 stack in the new home, if that is near memory (R343). -/
  stack : Nat := 0
  switching : Bool := false
  /-- Lines whose back-invalidate snoops are unanswered (R353). -/
  snoops : List Nat := []
  start : Nat := 0
  /-- Beacon time at which the snoops were sent (R354). -/
  since : Nat := 0
  deriving DecidableEq, Repr

/-- A window copy of a bushel in near memory of a tile (R366). -/
structure WindowCopy where
  bushel : Nat
  tile : Nat
  /-- HBM4 stack that holds it (R343). -/
  stack : Nat
  layer : Nat
  gathered : Bool
  deriving DecidableEq, Repr

/-- An access of the host or of a device agent to a bushel that is being switched: it is held until the switch ends (R353, R354). -/
inductive HeldAccess where
  | read (addr len : Nat) (caches : Bool)
  | write (addr : Nat) (data : List Byte)
  /-- A packet that a peer port has brought, with the port; its credits are held with it. -/
  | packet (port : Nat) (p : PeerPacket)
  /-- Slotted flits that have reached their destination on a tile. -/
  | flits (tile addr : Nat) (data : List Byte)
  deriving DecidableEq, Repr

/-- Memory and its homes. -/
structure Mem where
  /-- Committed or plain bytes at their homes, by device address. -/
  bytes : List Host.Cell := []
  /-- Bytes of shadow lines (R256), and the lines that the step has written. -/
  shadowBytes : List Host.Cell := []
  shadowLines : List Nat := []
  poison : List Nat := []
  shadowPoison : List Nat := []
  /-- Shadow bushels that placements allocated, by slot: bushel, tile and stack (R255, R343). -/
  shadowAlloc : List (Nat × List (Nat × Nat × Nat)) := []
  /-- Shadow bushels for which a placement found its tile full, by slot: bushel and tile (R255). -/
  shadowWant : List (Nat × List (Nat × Nat)) := []
  /-- Bytes of window copies (R366), and their lines with an uncorrectable error (R357). -/
  windowBytes : List Host.Cell := []
  windowPoison : List Nat := []
  bushels : List (Nat × Bushel) := []
  copies : List WindowCopy := []
  moves : List Move := []
  /-- Accesses that are held, oldest first (R353). -/
  held : List HeldAccess := []
  /-- Lines of the snoop filter, in the order in which they entered it (R552). -/
  snoop : List Nat := []
  /-- Memories that are unusable (R360): 4 × tile + controller. -/
  unusable : List Nat := []
  deriving DecidableEq, Repr, Inhabited

/-- Granger's cursor of one step (R370). -/
structure Cursor where
  slot : Nat
  /-- Visits that are due: layers, forward then backward (true). -/
  plan : List (Nat × Bool)
  /-- Layers visited, with the pass, the oldest first. -/
  visited : List (Nat × Bool) := []
  /-- Arrival signals that wait for their layer to be resident: layer and layer-table entry (R372). -/
  arrivals : List (Nat × Nat) := []
  /-- Arrival signals held until the effective launch: counter ID, KIND and TILE of the agent that sends it (R293, R373). -/
  held : List (Nat × Nat × Nat) := []
  deriving DecidableEq, Repr

/-- Granger's tables (R296, R298, R323). -/
structure Granger where
  /-- Slots whose placement is queued, in order, with the Beacon time at which each was queued (R303). -/
  queue : List (Nat × Nat) := []
  /-- Beacon time at which the last placement ended (R303). -/
  lastEnd : Nat := 0
  /-- Fences and releases since then: core index, time, and whether Granger excluded the core before (R326, R329). -/
  changes : List (Nat × Nat × Bool) := []
  /-- Beats per token by TENSOR × 16 + ROLE, the least recently updated first (R298). -/
  work : List (Nat × Nat) := []
  /-- Share of expert e on tile t at 8 × e + t, in 1/65,536 (R296, R324). -/
  shares : List (Nat × Nat) := []
  /-- Tile that holds each expert's weights (R323). -/
  expertTile : List (Nat × Nat) := []
  /-- Expert moves whose bushels have not all switched: expert and new tile (R325). -/
  expertMoves : List (Nat × Nat) := []
  /-- The cursors of placed steps, in the order of their placements (R370, R373). -/
  cursors : List Cursor := []
  /-- Layers in the order of their last visits, the longest ago first (R371). -/
  order : List Nat := []
  /-- Bushels of window space reserved by tile (R369). -/
  reserved : List (Nat × Nat) := []
  /-- HBM4 stack that the next bushel of a tile takes (R343). -/
  nextStacks : List (Nat × Nat) := []
  /-- Bushels whose pin change has not moved them yet (R319 code 0, R321). -/
  pinMoves : List Nat := []
  /-- A step has committed and no slot has launched since (R321). -/
  afterCommit : Bool := false
  /-- Beacon time at which each tile's last heat window ended (R296). -/
  heatEnd : List (Nat × Nat) := []
  deriving DecidableEq, Repr, Inhabited

/-- A stream command in an engine's queue (R376, R378): its words, the descriptor address (none for Granger's own), ATT and
the submitter's agent word. -/
structure StreamCmd where
  desc : Option Nat
  words : List Word
  att : Option Nat
  who : Word
  layer : Nat := 0
  /-- The bushel whose migration copy this is (R378). -/
  move : Option Nat := none
  deriving DecidableEq, Repr

/-- A DMA channel's progress (R381 to R387). -/
structure DmaChan where
  issued : Nat := 0
  returned : Nat := 0
  started : Nat := 0
  att : Option Nat := none
  /-- Bytes started against the budget of a rate window, and the window's number (R387). -/
  startedInWindow : Int := 0
  window : Nat := 0
  error : Nat := 0
  finishing : Bool := false
  deriving DecidableEq, Repr, Inhabited

/-- A slot entry of a table (R431) and a stream descriptor (R424). -/
structure SlotEntry where
  node : Nat
  slot : Nat
  inPort : Nat
  outPort : Nat
  count : Nat
  stream : Nat
  cleared : Bool := false
  deriving DecidableEq, Repr

/-- A stream of a slot table (R424). -/
structure StreamDesc where
  src : Nat
  dst : Nat
  bytes : Nat
  sync : Nat
  syncEn : Bool
  deriving DecidableEq, Repr

/-- A slot table bank (R429 to R433). -/
structure SlotTable where
  tableId : Nat
  len : Nat
  work : Nat
  guard : Nat
  period : Nat
  rep : Bool
  entries : List SlotEntry
  streams : List StreamDesc
  deriving DecidableEq, Repr

/-- Slotted flits of a stream that wait in a node's input buffer (R423): the bytes they carry. -/
structure SlottedBuf where
  node : Nat
  port : Nat
  stream : Nat
  data : List Byte
  deriving DecidableEq, Repr

/-- The arbiter of an output (R415 to R419): grants and favoured grants of the window, WIN and HQ as the window began with them, and the packet that
holds the output, with its progress. -/
structure Arbiter where
  grants : Nat := 0
  favoured : Nat := 0
  cfg : Option (Nat × Nat) := none
  current : Option NetPacket := none
  deriving DecidableEq, Repr, Inhabited

/-- The on-package network. -/
structure Net where
  bank0 : Option SlotTable := none
  bank1 : Option SlotTable := none
  /-- The address of the image from which a load of the standby bank runs (R433). -/
  loading : Option Nat := none
  buffers : List SlottedBuf := []
  /-- Source and destination cursors by stream, in bytes (R425). -/
  srcCursor : List (Nat × Nat) := []
  dstCursor : List (Nat × Nat) := []
  /-- Flits that an ejecting entry received in a slot and that are not yet signalled, by 4096 × node + stream, the oldest first (R426). -/
  ejected : List (Nat × Nat) := []
  /-- Streams that run as DETOUR for the step (R428). -/
  detours : List Nat := []
  /-- Streams whose entries a rewrite cleared (R438). -/
  clearedStreams : List Nat := []
  packets : List NetPacket := []
  /-- Requests that have reached a home other than a cluster memory and are not answered. -/
  atHome : List NetPacket := []
  arbiters : List (Nat × Arbiter) := []
  /-- Steps of the present slot that slotted flits still take, by 8 × node + output (R420). -/
  heldSteps : List (Nat × Nat) := []
  /-- A rewrite is due after a fence (R438). -/
  rewriteDue : Bool := false
  /-- Fenced crossing links: 4 × tile + side (R437). -/
  downEdges : List Nat := []
  /-- Slots since the step's launch (R421). -/
  slotIndex : Nat := 0
  /-- By 3 × tile: flits that left its outputs, of the open class at + 0 and of the slotted class at + 1, and output steps without credit at + 2
  (R686). -/
  flits : List (Nat × Nat) := []
  /-- Windows below the floor in a row, by control node of a tile (R407). -/
  controlLow : List (Nat × Nat) := []
  /-- Beacon time at which the control nodes' last rate window ended (R26). -/
  controlWindow : Option Nat := none
  deriving DecidableEq, Repr, Inhabited

/-- A peer port's link layer (R451 to R453). -/
structure Port where
  /-- SEQ of the last flit received in order and intact: none yet, as if the one before 0. -/
  rxSeq : Nat := 32767
  /-- Send NAK, and accept no flit until the replayed one arrives (R451). -/
  waitReplay : Bool := false
  txSeq : Nat := 0
  /-- Unacknowledged flits (R451, R452): sequence number, replays, and the packet that the flit carries. -/
  retry : List (Nat × Nat × PeerPacket) := []
  /-- Beacon times of replays within the last BT ms (R452). -/
  replayTimes : List Nat := []
  /-- Credits towards the neighbour by VC, in 64-byte words (R453). -/
  credits : List Nat := [512, 512, 512, 512]
  /-- Packets that wait for credit, for the retry buffer or for ACTIVE (R453, R466). -/
  waiting : List PeerPacket := []
  /-- Window of the arbiter between high and low priority (R454). -/
  arb : Arbiter := {}
  /-- SLOTTED packets received that wait for their injection slot, with its number (R467, R468). -/
  slotted : List (Nat × PeerPacket) := []
  /-- Time at which the port entered DETECT or RETRAIN, or reached ACTIVE (R464, R465). -/
  since : Nat := 0
  /-- Time of the last new ACK, of the last replay, or at which the retry buffer was last empty (R451). -/
  ackSince : Nat := 0
  /-- The training in progress began in RETRAIN (R464). -/
  retraining : Bool := false
  /-- What the port leads to (R57): hops to the master and its coordinate. -/
  lead : Option (Nat × Nat) := none
  deriving DecidableEq, Repr, Inhabited

/-- A live or quarantined collective group entry (R470, R474). -/
structure Group where
  gen : Nat
  defn : Word
  quarantine : Option Nat := none
  deriving DecidableEq, Repr

/-- A collective command (R476 to R484). -/
structure CollCmd where
  desc : Option Nat
  words : List Word
  epoch : Nat
  held : Bool
  executing : Bool
  /-- Number within its group (R478). -/
  number : Nat
  launch : Nat
  att : Option Nat
  who : Word
  /-- Set when the operation's data part is done: the status to report. -/
  result : Option Nat := none
  /-- Layer of a gather that Granger submitted, and the slot of its cursor (R482). -/
  layer : Option (Nat × Nat) := none
  /-- Chunks of other members that have been taken (R478). -/
  got : Nat := 0
  /-- Packets and routes that no ACK has answered (R481, R489, R490): destination address + 2^48 × destination coordinate. -/
  unacked : List Nat := []
  /-- Tile of the attachment that acts (R446), and the detail of a fault that the status causes (R521). -/
  tile : Nat := 0
  info : Nat := 0
  deriving DecidableEq, Repr

/-- Collective and exchange engines. -/
structure Coll where
  groups : List (Nat × Group) := []
  /-- Generation with which an ID was last retired (R472). -/
  retiredGen : List (Nat × Nat) := []
  queue : List CollCmd := []
  /-- Next command number by group, and its value at the launch (R478, R484). -/
  numbers : List (Nat × Nat) := []
  numbersAtLaunch : List (Nat × Nat) := []
  /-- PASS commands that have completed since the last launch, by group and number (R233, R480). -/
  passed : List (Nat × Nat) := []
  /-- Packets received that their commands have not taken. -/
  received : List PeerPacket := []
  /-- Packets held for the NEXT epoch (R495), with the port. -/
  heldPackets : List (Nat × PeerPacket) := []
  /-- Packets of SLOTTED commands that wait for a slot of their stream, with the port (R467, R477). -/
  slottedOut : List (Nat × PeerPacket) := []
  /-- Gather log of the step: tensor address × shard index, with the tag's two words (R235). -/
  gatherLog : List (Nat × Nat × Word × Word) := []
  /-- Weight version of the last commit that changed a bushel (R234). -/
  versions : List (Nat × Nat) := []
  /-- Rows delivered and dropped by receive slot (R487, R488). -/
  xrows : List (Nat × Nat × Nat) := []
  /-- Tokens received by expert and tile since the last commit (R491). -/
  tokens : List (Nat × Nat) := []
  /-- PUTs of a core that have not completed, by core index (R481). -/
  puts : List (Nat × Nat) := []
  deriving DecidableEq, Repr, Inhabited

/-- What one operation of a unit sets off at another: a message on the control network (R401, R405), or the unit's own next action. A message is one
header flit of 32 bits and at most seven payload flits; what they hold is the operation's operands. -/
inductive Todo where
  /-- A signal to a counter: INC, agent word, ATT (R265). -/
  | signal (ctr inc : Nat) (who : Word) (att : Option Nat)
  /-- A counter store's wake message for a waiter: its wait is satisfied, or the counter is orphaned (R274, R278). -/
  | wake (w : Waiter) (orphan : Bool)
  /-- A task tests its next wait entry (R242). -/
  | test (k : Nat × Nat × Nat)
  /-- A task ends with status, exit, cause and DEFERRED; `info` is the fault that the core fence that
  ended it reports, if one did: code and INFO. -/
  | endTask (k : Nat × Nat × Nat) (status exit cause : Nat) (deferred : Bool) (info : Option (Nat × Nat))
  /-- A counter becomes orphaned (R278); `info` as above. -/
  | orphan (ctr : Nat) (info : Option (Nat × Nat))
  /-- A fault is reported to step control (R522). -/
  | fault (code info : Nat)
  /-- A command of the collective engine completes with a status (R481). -/
  | collDone (c : CollCmd) (status : Nat)
  deriving DecidableEq, Repr

/-- Priority class of a message (R405): a fence report is in class 0, and signals, wakes and fault reports are in class 1. A unit's own next action
waits for no message. -/
def Todo.cls : Todo → Nat
  | .fault code _ => if code = 1 then 0 else 1
  | .signal _ _ _ _ => 1
  | .wake _ _ => 1
  | _ => 0

/-- Step control (R503 to R530). -/
structure StepCtl where
  /-- Present attempt number (R252). -/
  att : Nat := 0
  /-- Slot of the running step, and its effective launch time L. -/
  slot : Option Nat := none
  launch : Nat := 0
  /-- Beacon time of the last launch that advanced ATT (R252). -/
  lastAdvance : Option Nat := none
  /-- A fault of the attempt is recorded (R522), with class. -/
  faulted : Option Nat := none
  /-- Deferred faults recorded (R261). -/
  deferred : Nat := 0
  sheafDone : Bool := false
  /-- The sheaf of the step has been written or taken (R504, R538). -/
  sheafAddr : Nat := 0
  lossWritten : Bool := false
  nfSeen : Bool := false
  voted : Bool := false
  /-- The step barrier has completed: mark S (R485, R511). -/
  barrierDone : Bool := false
  /-- Relaunch time L′ of the discarded attempt (R523). -/
  relaunch : Option Nat := none
  noticeCount : Nat := 0
  /-- Steps in which this module takes no part: slot, and the launch time at which it sends the notice of R530. -/
  lost : List (Nat × Nat) := []
  /-- The aborted attempt for which this module still owes a notice (R569): slot and effective launch time. -/
  aborted : Option (Nat × Nat) := none
  /-- A poisoned line or a lost home was met during the commit (R514). -/
  commitFail : Bool := false
  /-- Consumers of the stage that are due: partner, flash, store (R533). -/
  duePartner : Bool := false
  dueFlash : Bool := false
  dueStore : Bool := false
  /-- Consumers of a deferred checkpoint step (R534): 1 partner, 2 flash, 4 store, and 8 for the step itself. -/
  ckptDue : Nat := 0
  /-- The next image goes to the second buffer of the partner's area (R535). -/
  partnerHalf : Bool := false
  /-- Step number of the image in the stage. -/
  stageStep : Nat := 0
  /-- A restore in progress: source and step (R537). -/
  restoring : Option (Nat × Nat) := none
  /-- Steps whose images the local flash and the partner hold, newest first (R533, R535). -/
  flashSteps : List Nat := []
  /-- Straggler bookkeeping of the attempt: last end by core index (R317). -/
  coreEnds : List (Nat × Nat) := []
  /-- Running time and tokens of DONE tasks of the attempt: TENSOR × 16 + ROLE, beats, tokens (R296). -/
  workSamples : List (Nat × Nat × Nat) := []
  deriving DecidableEq, Repr, Inhabited

/-- A frame or event that the module sends upstream (R625 to R627). -/
structure ChainOut where
  /-- The chain address of the sender (R627). -/
  src : Nat
  kind : Nat
  status : Nat
  seq : Nat
  part : Nat
  data : List Byte
  deriving DecidableEq, Repr

/-- Settings, firmware slots and chain state of the Keeper (R617 to R655). Nothing here is reset by a device reset. -/
structure Keeper where
  /-- The settings copies of the bank by byte offset (R632, R635). -/
  copyA : List (Nat × Word) := []
  copyB : List (Nat × Word) := []
  /-- Header fields (R633). -/
  activeB : Bool := false
  confirmed : Bool := true
  pending : Bool := false
  minSvn : Nat := 0
  wdCount : Nat := 0
  pendingT : Nat := 0
  leafQ : Nat := 0
  leafCeil : Nat := 0
  /-- The reservation record can be read (R651). -/
  reservationOk : Bool := true
  /-- Field-fuse log, newest last (R634). -/
  fuseLog : List Word := []
  fuseCount : Nat := 0
  /-- Field-repair records by 2 × core index + array, oldest first (R198, R199). -/
  records : List (Nat × List Nat) := []
  /-- The flash mirror's newest copy, and whether a write is pending (R636). -/
  mirrorCopy : List (Nat × Word) := []
  /-- The older generation of the flash mirror (R636). -/
  mirrorOlder : List (Nat × Word) := []
  mirrorDue : Bool := false
  /-- Bytes of image slots A and B (R644, R645). -/
  imageA : List Host.Cell := []
  imageB : List Host.Cell := []
  /-- Slot states (R638) and the staging in progress: image ID and length. -/
  stateA : Nat := 2
  stateB : Nat := 0
  staging : Option (Nat × Nat) := none
  /-- Activation state, its reset flag and cause (R638). -/
  actState : Nat := 0
  atReset : Bool := false
  actCause : Nat := 0
  /-- Time T of the unconfirmed image's activation (R649). -/
  actT : Nat := 0
  fallback : Bool := false
  /-- EVENT FALLBACK is due at READY (R649). -/
  fallbackEvent : Bool := false
  /-- The previous image's slot is B. -/
  prevB : Bool := false
  /-- The image in the slot that is not active is confirmed (R638). -/
  otherConfirmed : Bool := false
  /-- The active image has not yet taken over the previous slot's settings (R648). -/
  firstBoot : Bool := false
  /-- Last request answered: SEQ and response (R626). -/
  lastSeq : Option Nat := none
  lastResp : List ChainOut := []
  tail : Bool := false
  bypass : Bool := true
  outLink : Bool := false
  /-- Mailbox command in progress (R655). -/
  mboxCmd : Option Nat := none
  restarting : Bool := false
  chainKnown : Bool := false
  deriving DecidableEq, Repr, Inhabited

/-- The package power loop (R663 to R672). -/
structure Power where
  /-- P(w) of the last window, in mW (R663). -/
  prevMW : Nat := 0
  /-- Rate cap that the package power loop sets on every cluster, in Mbeat/s (R663). -/
  cap : Nat := 1900
  /-- Upper bound lowered by the outlet limit, in mW below P_MAX (R672). -/
  outletCut : Nat := 0
  /-- The P_MAX limit of R662 is in force. -/
  undervolt : Bool := false
  /-- Opening of the valve in percent: fully open at reset (R671). -/
  valve : Nat := 100
  /-- Beacon time of the last slot end, and whether a step has launched since floor load was last permitted (R666). -/
  lastEnd : Nat := 0
  stepsSeen : Bool := false
  /-- The tiles are off (R661). -/
  shutdown : Bool := false
  /-- Energy not yet counted, in units of 1 mW for 128 BT µs. -/
  energyRem : Nat := 0
  /-- Beacon time at which the last control window ended (R663). -/
  window : Option Nat := none
  floorRem : Nat := 0
  deriving DecidableEq, Repr, Inhabited

/-- A trace stream (R694 to R698). -/
structure TraceFifo where
  records : List (List Word) := []
  dropped : Nat := 0
  firstDrop : Nat := 0
  /-- The Beacon multiple at which the stream last wrote FULL_TIME, and that at which the counters were last sampled (R696, R697). -/
  ticked : Option Nat := none
  sampled : Option Nat := none
  deriving DecidableEq, Repr, Inhabited

/-- The Beacon timer beside its registers (R52, R61, R64, R704). -/
structure Beacon where
  /-- Consecutive exchanges within ±4 BT ns (R62). -/
  goodExchanges : Nat := 0
  /-- The counter is held until the parent's time reaches it (R61): ticks left. -/
  hold : Nat := 0
  holdoverSince : Nat := 0
  /-- Correction of the tick rate in parts per 10^9 (R60, R68, R72). -/
  rate : Int := 0
  /-- The reference inputs are valid (R68, R704), whatever the role. -/
  valid10M : Bool := false
  validPps : Bool := false
  /-- Which reference inputs are awaited, and the EPOCH_SET value that waits for a pulse edge (R70, R704). -/
  await10M : Bool := false
  awaitPps : Bool := false
  epochPending : Option Word := none
  /-- Ticks left of the 10 s for which a master awaits its inputs (R704), and of the 30 s in which a follower is to find a master (R65). -/
  refWait : Option Nat := none
  noMasterWait : Option Nat := none
  /-- Ticks left before the next timestamp exchange of a port is due (R56), by port. -/
  exchangeWait : List (Nat × Nat) := []
  deriving DecidableEq, Repr, Inhabited

/-- What the last access returned to its requester: nothing, a register word, or bytes with the poison indication. -/
inductive Reply where
  | none
  | word (w : Word)
  | data (bytes : List Byte) (poison : Bool)
  deriving DecidableEq, Repr

/-- What leaves the module: MSI-X vectors raised, chain frames, discard notices, signals and packets to peers, AER errors.
The model's own fields: each list grows at its end. -/
structure Out where
  reply : Reply := .none
  /-- Answers to the host reads that the last switch of a home released, in their order (R353, R354). -/
  released : List Reply := []
  irqs : List Nat := []
  chain : List ChainOut := []
  /-- Frames that the repeater forwards downstream (R620). -/
  down : List ChainFrame := []
  notices : List Notice := []
  packets : List (Nat × PeerPacket) := []
  aer : Nat := 0
  deriving DecidableEq, Repr, Inhabited

/-- The state of the module. -/
structure State where
  /-- The part (R1); no command changes it. -/
  part : Part
  /-- The Beacon counter (R52). -/
  now : Nat
  beacon : Beacon
  /-- Registers of the register window that differ from their Reset column, by BAR0 offset. -/
  regs : List (Nat × Word)
  /-- Command slots 0 to 63 that differ from a slot at reset. -/
  slots : List (Nat × Slot)
  tasks : List Task
  /-- Sync counters by counter ID (R239). -/
  ctrs : List (Nat × Counter)
  /-- Cores by (24 × tile + cluster) × 16 + core. -/
  cores : List (Nat × Core)
  /-- Clusters by 24 × tile + cluster. -/
  clusters : List (Nat × Cluster)
  mem : Mem
  granger : Granger
  /-- Stream command queues by tile (R378). -/
  streams : List (Nat × List StreamCmd)
  /-- DMA channels by 32 × tile + channel. -/
  dmas : List (Nat × DmaChan)
  /-- Round-robin position of each tile's DMA engine (R387). -/
  dmaNext : List (Nat × Nat)
  net : Net
  ports : List (Nat × Port)
  coll : Coll
  /-- The control network: what has been sent and not yet carried out, in the order in which it was sent (R405, R406). -/
  control : List Todo
  step : StepCtl
  keeper : Keeper
  power : Power
  /-- Trace FIFOs by tile; the device stream's at index 8 (R698). -/
  traces : List (Nat × TraceFifo)
  /-- Snapshot records on their way to memory, by the BAR0 offset of their bank's page: address and bytes (R692). -/
  snaps : List (Nat × Nat × List Byte)
  /-- Package-wide commits that tile 0 has accepted and not yet applied, by the page's BAR0 offset: the values to apply by offset, with the
  tag (R604). -/
  commits : List (Nat × List (Nat × Word) × Nat)
  out : Out
  /-- The model's own counter of free values (DESIGN CHOICE, log entry 3). -/
  free : Nat
  /-- Commands that wait, first in first out. -/
  pending : List Instr
  deriving DecidableEq, Repr

/-- The defaults that an image of a part carries (R676), as the words of a settings copy of format 1 by byte offset (R635, R637), with no
chain address. -/
def Part.defaults (p : Part) : List (Nat × Word) :=
  [(0x00, 1), (0x08, 0xFFF), (0x20, word p.envelope), (0x28, 50), (0x60, 0x194100)]

/-- Header bytes of the image that the module starts with (R644): MAGIC, every PARTS bit and SET_FMT 1 (DESIGN CHOICE, log entry 36). -/
def factoryImage : List Host.Cell := [(0, 0x44), (1, 0x43), (2, 0x46), (3, 0x57), (14, 7), (16, 1)]

/-- The module right after reset (R613): every register at its Reset column, every slot IDLE, nothing mapped, the
queue empty. -/
def State.reset : State where
  part := .d8
  now := 0
  beacon := {}
  regs := []
  slots := []
  tasks := []
  ctrs := []
  cores := []
  clusters := []
  mem := {}
  granger := {}
  streams := []
  dmas := []
  dmaNext := []
  net := {}
  ports := []
  coll := {}
  control := []
  step := {}
  keeper := { copyA := Part.defaults .d8, imageA := factoryImage }
  power := {}
  traces := []
  snaps := []
  commits := []
  out := {}
  free := 0
  pending := []

end Sys2Proof.Machine
end

