-- ==== Sys2Proof/Machine/Map.lean ====
section
/-! DEFINITION. Sparse maps as lists of key and value pairs in one canonical form (keys strictly rising), and the record
updates of State. -/

namespace Sys2Proof.Machine

variable {α : Type}

/-- The value at a key, if the key is listed. -/
def mfind : List (Nat × α) → Nat → Option α
  | [], _ => none
  | (k, v) :: t, i => if i = k then some v else mfind t i

/-- The value at a key, or the default. -/
def mget (d : α) (m : List (Nat × α)) (i : Nat) : α := (mfind m i).getD d

/-- List a value at a key, keeping the order of the keys. -/
def minsert (i : Nat) (v : α) : List (Nat × α) → List (Nat × α)
  | [] => [(i, v)]
  | (k, w) :: t => if i < k then (i, v) :: (k, w) :: t else if i = k then (i, v) :: t else (k, w) :: minsert i v t

/-- Drop a key. -/
def merase (i : Nat) (m : List (Nat × α)) : List (Nat × α) := m.filter (fun p => decide (p.1 ≠ i))

/-- Set a key, dropping it when the value is what an unlisted key reads as. -/
def mset [DecidableEq α] (d : α) (m : List (Nat × α)) (i : Nat) (v : α) : List (Nat × α) :=
  if v = d then merase i m else minsert i v m

/-- Keys strictly rise. -/
def Sorted : List (Nat × α) → Bool
  | [] => true
  | [_] => true
  | (a, _) :: (b, w) :: t => decide (a < b) && Sorted ((b, w) :: t)

/-- The canonical form of a map with a default: keys strictly rise and no entry holds the default. -/
def MapWf [DecidableEq α] (d : α) (m : List (Nat × α)) : Bool := Sorted m && m.all (fun p => decide (p.2 ≠ d))

/-- Insert a number into a rising list without repeats. -/
def setInsert (i : Nat) : List Nat → List Nat
  | [] => [i]
  | k :: t => if i < k then i :: k :: t else if i = k then k :: t else k :: setInsert i t

/-- Drop a number from a list. -/
def setErase (i : Nat) (l : List Nat) : List Nat := l.filter (fun j => decide (j ≠ i))

/-- Insert into a list that rises by a key, after equal keys. -/
def insertBy {α : Type} (key : α → Nat) (x : α) : List α → List α
  | [] => [x]
  | y :: l => if key x < key y then x :: y :: l else y :: insertBy key x l

/-- A list in rising order of a key. -/
def sortBy {α : Type} (key : α → Nat) (l : List α) : List α := l.foldl (fun m x => insertBy key x m) []

end Sys2Proof.Machine
end

