-- ==== Sys2Proof/Machine/Pages.lean ====
section
/-! DEFINITION. The page catalogue (R582 to R588) and the register tables of every block: offset, access, writable bits,
named read-only bits and Reset column. -/

namespace Sys2Proof.Machine

/-- Block types (R585 to R587). -/
inductive Block where
  | ident | mbox | settings | power | beacon | hostif | peer | coll | foghorn | step | trace | dctr
  | granger | stream | mc | net | bridge | sync | ttrace | tctr | dma | cluster | core
  deriving DecidableEq, Repr

/-- TYPE of BLK_ID. -/
def Block.typeCode : Block → Nat
  | .ident => 0x01 | .mbox => 0x02 | .settings => 0x03 | .power => 0x04 | .beacon => 0x05 | .hostif => 0x06
  | .peer => 0x07 | .coll => 0x08 | .foghorn => 0x09 | .step => 0x0A | .trace => 0x0B | .dctr => 0x0C
  | .granger => 0x10 | .stream => 0x11 | .mc => 0x12 | .net => 0x13 | .bridge => 0x14 | .sync => 0x15
  | .ttrace => 0x16 | .tctr => 0x17 | .dma => 0x18 | .cluster => 0x20 | .core => 0x21

/-- Access of a register (R11). -/
inductive Acc where
  | ro | rw | rws | w1c | wo
  deriving DecidableEq, Repr

/-- A run of `count` registers of one layout, 8 bytes apart: writable bits, named read-only bits, Reset column. Bits in
neither mask are reserved. -/
structure RegSpec where
  off : Nat
  count : Nat
  acc : Acc
  wmask : Nat
  romask : Nat
  reset : Nat
  deriving DecidableEq, Repr

/-- Bits [hi:lo] set. -/
def bm (hi lo : Nat) : Nat := (2 ^ (hi + 1 - lo) - 1) <<< lo

/-- Every bit set. -/
def all64 : Nat := 2 ^ 64 - 1

/-- A read-only register whose bits are all named or read 0. -/
def ro (off : Nat) (count : Nat := 1) (reset : Nat := 0) : RegSpec := ⟨off, count, .ro, 0, all64, reset⟩

/-- A register with writable bits and reserved others. -/
def rg (acc : Acc) (off wmask : Nat) (reset : Nat := 0) (count : Nat := 1) : RegSpec :=
  ⟨off, count, acc, wmask, 0, reset⟩

/-- The header that every page begins with (R588 to R592, R606 to R609). -/
def headerRegs : List RegSpec :=
  [ ro 0x000, ro 0x008, rg .rw 0x010 (bm 2 0) 1, ro 0x018 1 1, rg .rw 0x020 (bm 31 0), rg .w1c 0x028 (bm 11 0),
    rg .rw 0x030 (bm 11 0), ro 0x038, ⟨0x040, 1, .rw, bm 1 0 + bm 11 8 + bm 31 16, bm 32 32, 0⟩,
    rg .rw 0x048 (bm 16 0) 0 7 ]

/-- R614. -/
def identRegs : List RegSpec :=
  [ro 0x100 6, ro 0x130, ro 0x138, ro 0x140 1 0xFFF, ro 0x148, rg .rw 0x150 all64 0 4]

/-- R654. -/
def mboxRegs : List RegSpec := [rg .wo 0x100 (bm 7 0), rg .rw 0x108 all64 0 4, ro 0x128, ro 0x130]

/-- R637, R638. -/
def settingsRegs : List RegSpec :=
  [ ro 0x100, ro 0x108, rg .rws 0x110 (bm 2 0), rg .rws 0x118 (bm 1 0),
    rg .rws 0x120 (bm 15 0 + bm 31 16 + bm 33 32), rg .rws 0x128 (bm 9 0), rg .rws 0x130 (bm 1 0), rg .rws 0x138 0 0 5,
    rg .rws 0x160 (bm 23 0), rg .rws 0x168 0 0 3, ro 0x180 96, ro 0x700 6 ]

/-- R673, R674. -/
def powerRegs : List RegSpec :=
  [ rg .rws 0x100 (bm 33 0), rg .rws 0x108 (bm 9 0), rg .rws 0x110 (bm 23 0), rg .rws 0x118 (bm 1 0), ro 0x120 9 ]

/-- R71 to R75, R81. -/
def beaconRegs : List RegSpec :=
  [ ro 0x100, rg .rws 0x108 (bm 7 0), ro 0x110, ro 0x118, rg .wo 0x120 all64,
    rg .rws 0x128 (bm 47 0) 0x0000002001400140, rg .rw 0x130 all64 0x4E20, rg .rw 0x138 all64 0xF4240,
    rg .rws 0x140 (bm 3 0 + bm 11 8) 0x803, ro 0x148, ro 0x150 ]

/-- R579, R580. -/
def hostifRegs : List RegSpec :=
  [ ro 0x100, rg .rw 0x108 (bm 31 0) 0x64, rg .rws 0x110 (bm 63 30), rg .rws 0x118 (bm 16 0),
    rg .rws 0x120 (bm 0 0 + bm 63 12), rg .rw 0x128 (bm 31 0) 0xA, rg .rw 0x130 (bm 8 0 + bm 24 16) 0x01FE01FF, ro 0x138,
    ro 0x140 8, ro 0x180 8, ro 0x1C0 6, ro 0x1F0 8 ]

/-- R496, R497. -/
def peerRegs : List RegSpec := [rg .rws 0x100 (bm 1 0), rg .wo 0x108 (bm 0 0), ro 0x110 12]

/-- R498, R499. -/
def collRegs : List RegSpec :=
  [ rg .wo 0x100 (bm 47 0), ro 0x108, rg .rw 0x110 (bm 22 0 + bm 36 24), rg .wo 0x118 (bm 1 0), ro 0x120, ro 0x128,
    ⟨0x130, 1, .rws, bm 35 12, bm 11 0, 0x419000000⟩, rg .rws 0x138 (bm 20 0), rg .rw 0x140 (bm 16 0 + bm 51 32),
    rg .wo 0x148 (bm 0 0), ro 0x150, rg .rws 0x158 (bm 47 6) 0 4, rg .rws 0x178 (bm 15 0), ro 0x180 5 ]

/-- R519, R520. -/
def foghornRegs : List RegSpec :=
  [ rg .rws 0x100 (bm 2 0 + bm 11 8 + bm 31 16 + bm 47 32) 0x0000006000320501, rg .rws 0x108 (bm 31 0), rg .wo 0x110 (bm 31 0),
    rg .wo 0x118 (bm 0 0), rg .rw 0x120 (bm 31 0) 0 3, ro 0x138 2 ]

/-- R542, R543. -/
def stepRegs : List RegSpec :=
  [ rg .rws 0x100 (bm 3 0) 3, rg .rws 0x108 (bm 31 0) 0xF4240, rg .rws 0x110 (bm 31 0) 0x927C0, rg .rws 0x118 (bm 47 0),
    rg .rws 0x120 (bm 63 48 + bm 47 3), rg .rws 0x128 (bm 47 6 + bm 58 48), rg .rws 0x130 (bm 47 21 + bm 59 48),
    rg .rws 0x138 (bm 12 0), rg .rws 0x140 (bm 47 21) 0 2, rg .rws 0x150 all64, rg .wo 0x158 (bm 0 0),
    rg .rw 0x160 (bm 0 0 + bm 47 6), rg .wo 0x168 (bm 1 0 + bm 63 32), ro 0x170 2, rg .rw 0x180 all64, ro 0x188 3,
    ro 0x1A0 2 all64 ]

/-- R700. -/
def traceRegs : List RegSpec :=
  [ rg .rws 0x100 (bm 47 21), rg .rws 0x108 (bm 6 0), rg .rw 0x110 (bm 1 0 + bm 28 16 + bm 63 32), ro 0x118,
    rg .wo 0x120 all64, ro 0x128 10 ]

/-- R688, R689: the bank registers, and `n` counters. -/
def bankRegs (n : Nat) : List RegSpec :=
  [ rg .rw 0x100 (bm 1 0), ro 0x108, rg .wo 0x110 (bm 0 0), ro 0x118, rg .rw 0x120 (bm 5 0), ro 0x128 3, rg .rw 0x140 (bm 47 6),
    rg .wo 0x148 (bm 0 0), ro 0x150, ⟨0x200, n, .rw, bm 28 0, bm 63 48, 0⟩, ro 0x400 n ]

/-- R331 to R334. -/
def grangerRegs : List RegSpec :=
  [ rg .rws 0x100 (bm 3 0), rg .rws 0x108 (bm 1 0), rg .rws 0x110 (bm 3 0 + bm 19 8) 0x32404,
    rg .rws 0x118 (bm 19 0 + bm 28 24) 0x08004014, rg .rws 0x120 (bm 23 0 + bm 47 32) 0x100000E0F020,
    rg .rws 0x128 (bm 15 0) 0x420, rg .rws 0x130 (bm 47 21), rg .rws 0x138 (bm 6 0), ro 0x140 12, rg .wo 0x1A0 all64, ro 0x1A8 2 ]

/-- R392, R393. -/
def streamRegs : List RegSpec :=
  [ rg .wo 0x100 (bm 47 0), ro 0x108, rg .rws 0x110 (bm 47 5), rg .rws 0x118 (bm 15 0), rg .rws 0x120 (bm 6 0) 4, ro 0x128 7 ]

/-- R395. -/
def mcRegs : List RegSpec :=
  [ro 0x100 3, rg .rw 0x118 all64 0x400, rg .rws 0x120 (bm 15 0) 0x18, ro 0x128 3]

/-- R441, R442. -/
def netRegs : List RegSpec :=
  [ rg .rw 0x100 (bm 47 6), rg .wo 0x108 (bm 0 0), rg .rws 0x110 (bm 0 0), ro 0x118 2, rg .rws 0x128 (bm 5 0 + bm 13 8) 0xC10,
    ro 0x130 9 ]

/-- R444. -/
def bridgeRegs : List RegSpec := [ro 0x100 5]

/-- R287 to R292. -/
def syncRegs : List RegSpec :=
  [ rg .wo 0x100 (bm 18 0 + bm 63 32), rg .wo 0x108 all64, rg .wo 0x110 (bm 20 0 + bm 47 32), ro 0x118, rg .wo 0x120 (bm 7 0),
    ro 0x128 4, rg .rw 0x148 (bm 15 0), rg .rw 0x150 (bm 1 0 + bm 42 8), rg .wo 0x158 all64, rg .rws 0x160 (bm 47 12),
    rg .rws 0x168 (bm 23 0), ro 0x170 4, rg .rw 0x190 (bm 15 0), ro 0x198 23 ]

/-- R702. -/
def ttraceRegs : List RegSpec := [rg .wo 0x100 all64, rg .rw 0x108 (bm 16 0) 0 4, ro 0x128 2]

/-- R390, R391. -/
def dmaRegs : List RegSpec :=
  [ rg .rw 0x100 (bm 47 0) 0 2, rg .rw 0x110 (bm 31 0), rg .rw 0x118 (bm 1 0 + bm 13 8 + bm 23 16 + bm 32 32 + bm 48 40) 0x100003F00,
    rg .rw 0x120 (bm 19 0 + bm 63 32), rg .wo 0x128 (bm 0 0), ro 0x130 3 ]

/-- R28 to R34, R227, R228, R396. -/
def clusterRegs : List RegSpec :=
  [ rg .rws 0x100 (bm 2 0), rg .rws 0x108 (bm 31 0) 0x2D9205DC, rg .rws 0x110 (bm 11 0 + bm 27 16 + bm 47 32) 0x076C03520226,
    rg .rws 0x118 (bm 3 0 + bm 11 8) 0x20A, ro 0x120 3, rg .wo 0x138 (bm 15 0), ro 0x140 16, rg .wo 0x200 (bm 47 0), ro 0x208,
    rg .rws 0x210 (bm 47 12), rg .rws 0x218 (bm 21 0), ro 0x220 3, ro 0x300 5 ]

/-- R136 to R141. -/
def coreRegs : List RegSpec := [ro 0x100 2, rg .rws 0x110 (bm 6 0) 0x10, ro 0x118 7]

/-- Block-specific registers of a block. -/
def blockRegs : Block → List RegSpec
  | .ident => identRegs | .mbox => mboxRegs | .settings => settingsRegs | .power => powerRegs | .beacon => beaconRegs
  | .hostif => hostifRegs | .peer => peerRegs | .coll => collRegs | .foghorn => foghornRegs | .step => stepRegs
  | .trace => traceRegs | .dctr => bankRegs 4 | .granger => grangerRegs | .stream => streamRegs | .mc => mcRegs
  | .net => netRegs | .bridge => bridgeRegs | .sync => syncRegs | .ttrace => ttraceRegs | .tctr => bankRegs 64
  | .dma => dmaRegs | .cluster => clusterRegs | .core => coreRegs

/-- The table entry that covers a page offset, in a table. -/
def specIn (off : Nat) : List RegSpec → Option RegSpec
  | [] => none
  | r :: t => if r.off ≤ off && decide (off < r.off + 8 * r.count) then some r else specIn off t

/-- The register at an 8-byte page offset of a block; none at a reserved offset (R584). -/
def specAt (b : Block) (off : Nat) : Option RegSpec :=
  if off < 0x100 then
    match specIn off headerRegs with
    | some r => if 0x048 ≤ off && decide (min 7 (Config.evLines b.typeCode) ≤ (off - 0x048) / 8) then none else some r
    | none => none
  else specIn off (blockRegs b)

/-- The staged register whose active view is at this offset (R588). SETTINGS has registers of its own from 0x700 on, below the
active view. -/
def activeSpec (b : Block) (off : Nat) : Option RegSpec :=
  if 0x800 ≤ off && decide (off < 0xF00) then
    match specIn (off - 0x700) (blockRegs b) with
    | some r => if r.acc = .rws then some r else none
    | none => none
  else none

/-- The block of a page, none for a reserved page (R585 to R587). -/
def pageBlock : PageRef → Option Block
  | .device p =>
    match p.val with
    | 0 => some .ident | 1 => some .mbox | 2 => some .settings | 3 => some .power | 4 => some .beacon | 5 => some .hostif
    | 6 => some .peer | 7 => some .peer | 8 => some .peer | 9 => some .peer | 10 => some .peer | 11 => some .peer
    | 12 => some .coll | 13 => some .foghorn | 14 => some .step | 15 => some .trace
    | _ => some .dctr
  | .tile _ p =>
    match p.val with
    | 0 => some .granger | 1 => some .stream | 2 => some .mc | 3 => some .mc | 4 => some .mc | 5 => some .net
    | 6 => some .bridge | 7 => some .bridge | 8 => some .bridge | 9 => some .bridge | 10 => some .sync | 11 => some .ttrace
    | 12 => some .tctr
    | n => if 64 ≤ n then some .dma else none
  | .cluster _ => some .cluster
  | .core _ => some .core

/-- INSTANCE of BLK_ID (R585 to R587). -/
def pageInst : PageRef → Nat
  | .device p => if 6 ≤ p.val && decide (p.val ≤ 11) then p.val - 6 else if 16 ≤ p.val then p.val - 16 else 0
  | .tile _ p =>
    if 2 ≤ p.val && decide (p.val ≤ 4) then p.val - 2
    else if 6 ≤ p.val && decide (p.val ≤ 9) then p.val - 6
    else if 64 ≤ p.val then p.val - 64 else 0
  | .cluster _ => 0
  | .core k => k.core.val

/-- BAR0 offset of the region of a tile (R582). -/
def tileBase (t : Nat) : Nat := 0x02000000 + t * 0x00800000

/-- BAR0 offset of a page (R582). -/
def pageBase : PageRef → Nat
  | .device p => p.val * 0x1000
  | .tile t p => tileBase t.val + p.val * 0x1000
  | .cluster c => tileBase c.tile.val + 0x100000 + c.cluster.val * 0x20000
  | .core k => tileBase k.tile.val + 0x100000 + k.cluster.val * 0x20000 + (k.core.val + 1) * 0x1000

/-- The tile of a page, if it belongs to one. -/
def pageTile? : PageRef → Option (Fin 8)
  | .device _ => none
  | .tile t _ => some t
  | .cluster c => some c.tile
  | .core k => some k.tile

/-- The page that holds a BAR0 offset of a part; none in a reserved page or region (R582, R583). -/
def pageOf (part : Part) (o : Nat) : Option PageRef :=
  if o < 0x20000 then some (.device (Fin.ofNat 32 (o / 0x1000)))
  else if o < 0x02000000 then none
  else
    let t := (o - 0x02000000) / 0x00800000
    let r := (o - 0x02000000) % 0x00800000
    if part.tiles ≤ t then none
    else if r < 0x60000 then
      let p : PageRef := .tile (Fin.ofNat 8 t) (Fin.ofNat 96 (r / 0x1000))
      if (pageBlock p).isSome then some p else none
    else if r < 0x100000 then none
    else if 0x400000 ≤ r then none
    else
      let c := (r - 0x100000) / 0x20000
      let p := (r - 0x100000) % 0x20000 / 0x1000
      if p = 0 then some (.cluster ⟨Fin.ofNat 8 t, Fin.ofNat 24 c⟩)
      else if p ≤ 16 then some (.core ⟨Fin.ofNat 8 t, Fin.ofNat 24 c, Fin.ofNat 16 (p - 1)⟩)
      else none

/-- Pages by name. -/
abbrev pgIdent : PageRef := .device 0
abbrev pgMbox : PageRef := .device 1
abbrev pgSettings : PageRef := .device 2
abbrev pgPower : PageRef := .device 3
abbrev pgBeacon : PageRef := .device 4
abbrev pgHostif : PageRef := .device 5
abbrev pgPeer (n : Fin 6) : PageRef := .device (Fin.ofNat 32 (6 + n.val))
abbrev pgColl : PageRef := .device 12
abbrev pgFoghorn : PageRef := .device 13
abbrev pgStep : PageRef := .device 14
abbrev pgTrace : PageRef := .device 15
abbrev pgDctr (n : Fin 16) : PageRef := .device (Fin.ofNat 32 (16 + n.val))
abbrev pgGranger (t : Fin 8) : PageRef := .tile t 0
abbrev pgStream (t : Fin 8) : PageRef := .tile t 1
abbrev pgMc (t : Fin 8) (n : Fin 3) : PageRef := .tile t (Fin.ofNat 96 (2 + n.val))
abbrev pgNet (t : Fin 8) : PageRef := .tile t 5
abbrev pgBridge (t : Fin 8) (n : Fin 4) : PageRef := .tile t (Fin.ofNat 96 (6 + n.val))
abbrev pgSync (t : Fin 8) : PageRef := .tile t 10
abbrev pgTtrace (t : Fin 8) : PageRef := .tile t 11
abbrev pgTctr (t : Fin 8) : PageRef := .tile t 12
abbrev pgDma (t : Fin 8) (n : Fin 32) : PageRef := .tile t (Fin.ofNat 96 (64 + n.val))

/-- BLK_CAP of a block (R589, R602, R610, R612): STAGED, SOFT_RESET, DISABLE, INJ_DATA and EVLINES. -/
def blkCap (b : Block) : Nat :=
  let staged := (blockRegs b).any (fun r => decide (r.acc = .rws))
  let soft := [Block.dma, .stream, .coll, .trace, .ttrace, .dctr, .tctr, .cluster].contains b
  let dis := [Block.dma, .trace, .ttrace, .dctr, .tctr].contains b
  let inj := decide (b ≠ .ident) && Config.injData b.typeCode
  b2n staged + 2 * b2n soft + 4 * b2n dis + 8 * b2n inj + 256 * min 7 (Config.evLines b.typeCode)

/-- BLK_ID of a page (R589). -/
def blkId (p : PageRef) (b : Block) : Nat :=
  let level := match p with | .device _ => 0 | .tile _ _ => 1 | .cluster _ => 2 | .core _ => 3
  let cl := match p with | .cluster c => c.cluster.val | .core k => k.cluster.val | _ => 0
  let t := match pageTile? p with | some t => t.val | none => 0
  b.typeCode + pageInst p <<< 8 + t <<< 16 + level <<< 19 + cl <<< 21 + (Config.blkVersion b.typeCode % 65536) <<< 32

/-- IDENT.PART, SHAPE and CAPACITY of a part (R615). -/
def identConst (part : Part) (off : Nat) : Nat :=
  match off with
  | 0x100 => 0x564C4559 + 1 <<< 32 + part.tiles <<< 40 + Config.stepping.toNat <<< 48
  | 0x108 => part.tiles + part.cols <<< 4 + part.rows <<< 8 + 24 <<< 16 + 16 <<< 24 + (2 * part.tiles) <<< 32 + 6 <<< 40 + part.envelope <<< 48
  | 0x110 => 128 + 384 <<< 16 + 16 <<< 32 + (1024 * part.tiles) <<< 48
  | 0x118 => Config.serialLo.toNat
  | 0x120 => Config.serialHi.toNat
  | _ => 0

/-- CORE_ID of a core without its module field (R138). -/
def coreIdx (k : CoreRef) : Nat := (24 * k.tile.val + k.cluster.val) * 16 + k.core.val
def clIdx (c : ClusterRef) : Nat := 24 * c.tile.val + c.cluster.val
def coreAddr (k : CoreRef) : Nat := k.core.val + k.cluster.val <<< 4 + k.tile.val <<< 9
def coreCl (k : CoreRef) : ClusterRef := ⟨k.tile, k.cluster⟩

/-- The cluster and core of an index, inverse to `clIdx` and `coreIdx`. -/
def clAt (i : Nat) : ClusterRef := ⟨Fin.ofNat 8 (i / 24), Fin.ofNat 24 (i % 24)⟩
def coreAt (i : Nat) : CoreRef := ⟨Fin.ofNat 8 (i / 384), Fin.ofNat 24 (i / 16 % 24), Fin.ofNat 16 (i % 16)⟩

/-- Reset column of the register at an offset of a page; the active view of a staged register resets to the same value
(R600, R613). -/
def pageReset (part : Part) (p : PageRef) (off : Nat) : Nat :=
  match pageBlock p with
  | none => 0
  | some b =>
    if off = 0 then blkId p b
    else if off = 8 then blkCap b
    else
      match b with
      | .ident => if 0x100 ≤ off && decide (off ≤ 0x120) then identConst part off else
          match specIn off headerRegs, specIn off identRegs with
          | some r, _ => r.reset
          | _, some r => r.reset
          | _, _ => 0
      | .core => if off = 0x108 then (match p with | .core k => coreAddr k | _ => 0) else
          match specIn off headerRegs, specIn off coreRegs, activeSpec .core off with
          | some r, _, _ => r.reset
          | _, some r, _ => r.reset
          | _, _, some r => r.reset
          | _, _, _ => 0
      | _ =>
          match specIn off headerRegs, specIn off (blockRegs b), activeSpec b off with
          | some r, _, _ => r.reset
          | _, some r, _ => r.reset
          | _, _, some r => r.reset
          | _, _, _ => 0

/-- Reset column of the register at a BAR0 offset. -/
def resetWord (part : Part) (o : Nat) : Word :=
  match pageOf part o with
  | some p => word (pageReset part p (o % 0x1000))
  | none => 0

end Sys2Proof.Machine
end

