-- ==== Sys2Proof/Machine/Ops.lean ====
section
/-! DEFINITION. The named operations over registers, slots, cores, clusters and tasks. Every read and write of a register's home
goes through `regRd` and `regWr`. -/

namespace Sys2Proof.Machine

/-- What a meaning answers. -/
abbrev Out' := Host.Outcome State Fault Refusal

/-! ### Units of the part -/

/-- The part has the tile (R2, R14). -/
def hasTile (s : State) (t : Nat) : Bool := decide (t < s.part.tiles)

/-- The meaning of a command at a tile: a next state, or the refusal of a tile the part lacks. -/
def atTile (s : State) (t : Fin 8) (f : State → State) : Out' :=
  if t.val < s.part.tiles then .next (f s) else .refused .noSuchUnit

/-- The part has the page (R582). -/
def hasPage (s : State) (p : PageRef) : Bool :=
  (pageBlock p).isSome && (match pageTile? p with | some t => hasTile s t.val | none => true)

/-- The meaning of a command at a page. -/
def atPage (s : State) (p : PageRef) (f : State → State) : Out' :=
  if hasPage s p then .next (f s) else .refused .noSuchUnit

/-- Tiles, cores and clusters of the part, by number. -/
def tilesOf (s : State) : List (Fin 8) := (List.finRange 8).filter (fun t => decide (t.val < s.part.tiles))

/-- Cores of the part. -/
def coreCount (s : State) : Nat := 384 * s.part.tiles

/-! ### Words -/

/-- A word with bits [hi:lo] replaced by a number, modulo the field's width. -/
def setBits (w : Word) (hi lo v : Nat) : Word :=
  (w &&& ~~~(word (bm hi lo))) ||| word ((v % 2 ^ (hi + 1 - lo)) <<< lo)

/-- A number limited to a field of n bits: the field saturates. -/
def sat (n v : Nat) : Nat := min v (2 ^ n - 1)

/-! ### Registers -/

/-- A register's value by BAR0 offset. -/
def regRd (s : State) (o : Nat) : Word := mget (resetWord s.part o) s.regs o

/-- Set a register by BAR0 offset. -/
def regWr (s : State) (o : Nat) (v : Word) : State := { s with regs := mset (resetWord s.part o) s.regs o v }

/-- A register of a page. -/
def rd (s : State) (p : PageRef) (off : Nat) : Word := regRd s (pageBase p + off)

/-- Set a register of a page. -/
def wr (s : State) (p : PageRef) (off : Nat) (v : Word) : State := regWr s (pageBase p + off) v

/-- The active value of a staged register (R600). -/
def rdA (s : State) (p : PageRef) (off : Nat) : Word := rd s p (off + 0x700)

/-- A field of a register. -/
def fld (s : State) (p : PageRef) (off hi lo : Nat) : Nat := (rd s p off).bits hi lo

/-- A field of a staged register's active value. -/
def fldA (s : State) (p : PageRef) (off hi lo : Nat) : Nat := (rdA s p off).bits hi lo

/-- Set a field of a register. -/
def setFld (s : State) (p : PageRef) (off hi lo v : Nat) : State := wr s p off (setBits (rd s p off) hi lo v)

/-- Add to a register modulo 2^64. -/
def addReg (s : State) (p : PageRef) (off n : Nat) : State := wr s p off (rd s p off + word n)

/-- Add to a field of n bits from bit lo, saturating. -/
def addFld (s : State) (p : PageRef) (off hi lo n : Nat) : State :=
  setFld s p off hi lo (sat (hi + 1 - lo) (fld s p off hi lo + n))

/-! ### Free values -/

/-- A fresh free number: the counter of free values advances. -/
def freshNat (s : State) : Nat × State := (Config.freeNat s.free, { s with free := s.free + 1 })

/-- A free choice among n alternatives. -/
def choose (s : State) (n : Nat) : Nat × State := (Config.freeNat s.free % max 1 n, { s with free := s.free + 1 })

/-! ### Time -/

/-- The Beacon counter as a word. -/
def nowW (s : State) : Word := word s.now

/-- The first multiple of n at or after a time (R76). -/
def ceilTo (n t : Nat) : Nat := (t + n - 1) / n * n

/-- Slot length of the Beacon schedule (R81). -/
def slotLen (s : State) : Nat := fldA s pgBeacon 0x128 15 0

/-- Bring-up stage (R616). -/
def bootStage (s : State) : Nat := fld s pgIdent 0x138 3 0

/-! ### Slots -/

/-- A command slot. -/
def slot (s : State) (n : Nat) : Slot := mget {} s.slots n

/-- Set a command slot. -/
def setSlot (s : State) (n : Nat) (v : Slot) : State := { s with slots := mset {} s.slots n v }

/-- The slot is IDLE, DONE, FAULTED or ABORTED. -/
def slotQuiet (x : Slot) : Bool :=
  match x.state with
  | .idle | .done | .faulted | .aborted => true
  | _ => false

/-- Every slot is IDLE, DONE, FAULTED or ABORTED (R605). -/
def slotsQuiet (s : State) : Bool := s.slots.all (fun p => slotQuiet p.2)

/-- A slot is in one of the states ARMED, LAUNCHED, RUNNING and DRAINING exactly when not every slot is quiet. -/
def anySlot (s : State) (f : Slot → Bool) : Bool := s.slots.any (fun p => f p.2)

/-- The slot of the running step, while it is RUNNING (R256). -/
def stepRunning (s : State) : Bool :=
  match s.step.slot with
  | some n => decide ((slot s n).state = .running)
  | none => false

/-- A step attempt is in progress: the slot is RUNNING or DRAINING. -/
def stepLive (s : State) : Bool :=
  match s.step.slot with
  | some n => decide ((slot s n).state = .running) || decide ((slot s n).state = .draining)
  | none => false

/-! ### Cores, clusters, counters -/

/-- A core by index. -/
def coreI (s : State) (i : Nat) : Core := mget {} s.cores i

/-- A core. -/
def coreOf (s : State) (k : CoreRef) : Core := coreI s (coreIdx k)

/-- Set a core. -/
def setCore (s : State) (k : CoreRef) (c : Core) : State := { s with cores := mset {} s.cores (coreIdx k) c }

/-- A cluster. -/
def cluster (s : State) (c : ClusterRef) : Cluster := mget {} s.clusters (clIdx c)

/-- Set a cluster. -/
def setCluster (s : State) (c : ClusterRef) (v : Cluster) : State := { s with clusters := mset {} s.clusters (clIdx c) v }

/-- A sync counter by counter ID. -/
def ctr (s : State) (i : Nat) : Counter := mget {} s.ctrs i

/-- Set a sync counter. -/
def setCtr (s : State) (i : Nat) (c : Counter) : State := { s with ctrs := mset {} s.ctrs i c }

/-- CORE_STAT.STATE of a core (R137): 0 IDLE, 1 RUNNING, 2 TRAPPED, 3 FENCED, 4 SELF_TEST. -/
def coreState (s : State) (k : CoreRef) : Nat := fld s (.core k) 0x100 2 0

/-- Set CORE_STAT.STATE. -/
def setCoreState (s : State) (k : CoreRef) (v : Nat) : State := setFld s (.core k) 0x100 2 0 v

/-- The core is fenced or in self-test: it is not available. -/
def coreFenced (s : State) (k : CoreRef) : Bool := decide (coreState s k = 3) || decide (coreState s k = 4)

/-- The requester is a core of a tile that the part lacks. -/
def badRequester (s : State) : Requester → Bool
  | .core k => !hasTile s k.tile.val
  | _ => false

/-- The requester can make an access: a fenced core has stopped issuing (R41), and a core whose store waits issues nothing after it (R223). -/
def issues (s : State) : Requester → Bool
  | .core k => !coreFenced s k && (coreOf s k).heldStore.isNone
  | _ => true

/-- What a requester's access does: nothing, if the requester is a core that issues nothing. -/
def issuedBy (s : State) (r : Requester) (f : State → State) : State := if issues s r then f s else s

/-- The meaning of a command that a requester makes at a tile. -/
def byAt (s : State) (r : Requester) (t : Fin 8) (f : State → State) : Out' :=
  if badRequester s r then .refused .noSuchUnit else atTile s t (fun s => issuedBy s r f)

/-- The meaning of a command that a requester makes at a device page. -/
def byReq (s : State) (r : Requester) (f : State → State) : Out' :=
  if badRequester s r then .refused .noSuchUnit else .next (issuedBy s r f)

/-- The meaning of a command that a requester makes at a page. -/
def byPage (s : State) (r : Requester) (p : PageRef) (f : State → State) : Out' :=
  if badRequester s r then .refused .noSuchUnit else atPage s p (fun s => issuedBy s r f)

/-- The core runs a task. -/
def coreRunning (s : State) (k : CoreRef) : Bool := decide (coreState s k = 1)

/-! ### General registers of a core -/

/-- x[n]; x0 reads 0 (R88). -/
def xRd (c : Core) (n : Nat) : Word := if n = 0 then 0 else mget 0 c.x n

/-- x[n] ← v; a write of x0 is discarded (R88). -/
def xWr (c : Core) (n : Nat) (v : Word) : Core := if n = 0 then c else { c with x := mset 0 c.x n v }

/-- W`sub` of TD`td` (R98). -/
def tdRd (c : Core) (td sub : Nat) : Word := mget 0 c.tds (8 * td + sub)

/-- The writable bits of a descriptor word (R98). -/
def tdMask (sub : Nat) : Nat :=
  match sub with
  | 0 => bm 47 0
  | 1 => bm 31 0 + bm 38 32 + bm 51 40
  | 2 => bm 4 0 + bm 7 6 + bm 14 8 + bm 22 16 + bm 23 23
  | 3 => all64
  | 4 => all64
  | _ => 0

/-- W`sub` of TD`td` ← v; reserved bits are ignored (R98). -/
def tdWr (c : Core) (td sub : Nat) (v : Word) : Core :=
  { c with tds := mset 0 c.tds (8 * td + sub) (v &&& word (tdMask sub)) }

/-- Byte b of vr n, or of a span that starts at vr n (R94, R100). -/
def vByte (c : Core) (n b : Nat) : Byte := mget 0 c.v (256 * n + b)

/-- Set byte b of a span that starts at vr n. -/
def vSetByte (c : Core) (n b : Nat) (v : Byte) : Core := { c with v := mset 0 c.v (256 * n + b) v }

/-- Set the bytes of a span from byte b upwards. -/
def vSetBytes (c : Core) (n b : Nat) : List Byte → Core
  | [] => c
  | x :: t => vSetBytes (vSetByte c n b x) n (b + 1) t

/-- The number that little-endian bytes spell. -/
def leNat : List Byte → Nat
  | [] => 0
  | b :: t => b.toNat + 256 * leNat t

/-- The n little-endian bytes of a number. -/
def leBytes (v : Nat) : Nat → List Byte
  | 0 => []
  | n + 1 => BitVec.ofNat 8 (v % 256) :: leBytes (v / 256) n

/-- One bit of CRC-32C (R234): polynomial 0x1EDC_6F41, reflected. -/
def crcBit (c : Nat) : Nat := if c % 2 = 1 then (c / 2) ^^^ 0x82F63B78 else c / 2

/-- One byte of CRC-32C. -/
def crcByte (c : Nat) (b : Byte) : Nat := crcBit (crcBit (crcBit (crcBit (crcBit (crcBit (crcBit (crcBit (c ^^^ b.toNat))))))))

/-- CRC-32C of bytes, with initial value and final XOR 0xFFFF_FFFF (R234). -/
def crc32c (l : List Byte) : Nat := (l.foldl crcByte 0xFFFFFFFF) ^^^ 0xFFFFFFFF

/-- 32-bit lane i of vr n (R94). -/
def lane (c : Core) (n i : Nat) : Lane :=
  BitVec.ofNat 32 (leNat ((List.range 4).map (fun j => vByte c n (4 * i + j))))

/-- Set 32-bit lane i of vr n. -/
def setLane (c : Core) (n i : Nat) (v : Lane) : Core := vSetBytes c n (4 * i) (leBytes v.toNat 4)

/-! ### Tasks -/

/-- The task that a core runs: the RUNNING task placed on it. -/
def runningTask (s : State) (k : CoreRef) : Option Task :=
  s.tasks.find? (fun t => decide (t.state = .running) && decide (t.core = k))

/-- Two task values are the same piece of the same descriptor of the same slot. -/
def sameTask (a b : Task) : Bool := decide (a.slot = b.slot) && decide (a.desc = b.desc) && decide (a.piece = b.piece)

/-- Replace a task. -/
def setTask (s : State) (t : Task) : State := { s with tasks := s.tasks.map (fun u => if sameTask u t then t else u) }

/-- The task is speculative (CTRL.SPEC). -/
def taskSpec (t : Task) : Bool := t.ctrl.bit 12

/-- The core's present task is speculative. -/
def coreSpec (s : State) (k : CoreRef) : Bool :=
  match runningTask s k with
  | some t => taskSpec t
  | none => false

/-- The agent word of a task, with the ATT that its operations carry (R252, R293). -/
def taskWho (t : Task) : Word :=
  word (1 + t.core.tile.val <<< 4 + t.core.cluster.val <<< 7 + t.core.core.val <<< 12 + t.tag <<< 16 + t.gen <<< 32
    + (t.att.getD 0) <<< 40)

/-- The agent word of a unit other than a task (R293). -/
def unitWho (kind tile unit : Nat) (att : Option Nat) : Word :=
  word (kind + tile <<< 4 + unit <<< 7 + (att.getD 0) <<< 40)

/-- The agent word of a requester and the ATT that its operations carry. -/
def reqWho (s : State) : Requester → Word
  | .host => unitWho 8 0 0 none
  | .keeper => unitWho 9 0 0 none
  | .core k => match runningTask s k with
    | some t => taskWho t
    | none => word (1 + k.tile.val <<< 4 + k.cluster.val <<< 7 + k.core.val <<< 12)

/-- The ATT that a requester's operations carry (R252). -/
def reqAtt (s : State) : Requester → Option Nat
  | .core k => (runningTask s k).bind (fun t => t.att)
  | _ => none

end Sys2Proof.Machine
end

