-- ==== Sys2Proof/Machine/Flags.lean ====
section
/-! DEFINITION. Status flags: error bits with their summaries and vectors (R606 to R609, R578), event counting (R681 to R690) and
trace records (R694 to R698). -/

namespace Sys2Proof.Machine

/-- Raise an MSI-X vector (R576). -/
def irq (s : State) (v : Nat) : State := { s with out := { s.out with irqs := s.out.irqs ++ [v] } }

/-! ### Errors -/

/-- Tile of a page; 0 for a device page. -/
def pageTileNo (p : PageRef) : Nat := match pageTile? p with | some t => t.val | none => 0

/-- Unmasked error bits of the page whose ERR_STAT lies at this offset. -/
def unmasked (s : State) (o : Nat) : Bool := decide ((regRd s o &&& ~~~(regRd s (o + 8))).toNat ≠ 0)

/-- An error sets bit `bit` of a page's ERR_STAT (R606): ERR_FIRST is loaded when ERR_STAT read 0 (R607), and an unmasked error
raises ERR_VEC (R578). The summaries are views of ERR_STAT and ERR_MASK. -/
def logErr (p : PageRef) (bit detail : Nat) (s : State) : State :=
  let stat := rd s p 0x028
  let s := if stat = 0 then
      wr s p 0x038 (word (bit + (detail % 2 ^ 16) <<< 8 + (s.now / 2 ^ 10 % 2 ^ 40) <<< 24))
    else s
  let s := wr s p 0x028 (stat ||| word (2 ^ bit))
  if (rd s p 0x030).bit bit then s else irq s (fld s pgHostif 0x130 8 0)

/-- Names of the ERR_STAT bits (R606). -/
def errAccess : Nat := 0
def errReadOnly : Nat := 1
def errReserved : Nat := 2
def errCommit : Nat := 3
def errState : Nat := 4
def errTile0 : Nat := 5
def errFull : Nat := 6
def errCommand : Nat := 7
def errUe : Nat := 8
def errCe : Nat := 9
def errInjected : Nat := 10
def errReport : Nat := 11

/-- Log an error when a condition holds. -/
def logIf (c : Bool) (p : PageRef) (bit detail : Nat) (s : State) : State := if c then logErr p bit detail s else s

/-- Offsets of ERR_STAT registers that are set and not fully masked. -/
def errOffsets (s : State) : List Nat :=
  (s.regs.filter (fun e => decide (e.1 % 0x1000 = 0x028) && unmasked s e.1)).map (fun e => e.1)

/-- Set the numbered bits. -/
def bitsOf (l : List Nat) : Nat := l.foldl (fun a b => a ||| 2 ^ b) 0

/-- `HOSTIF.TILE_ERRt` (R580). -/
def tileErr (s : State) (t : Nat) : Nat :=
  bitsOf ((errOffsets s).filterMap (fun o => match pageOf s.part o with
    | some (.tile u p) => if u.val = t && decide (p.val < 64) then some p.val else none
    | _ => none))

/-- `HOSTIF.DMA_ERRt`. -/
def dmaErr (s : State) (t : Nat) : Nat :=
  bitsOf ((errOffsets s).filterMap (fun o => match pageOf s.part o with
    | some (.tile u p) => if u.val = t && decide (64 ≤ p.val) then some (p.val - 64) else none
    | _ => none))

/-- `HOSTIF.CLUS_ERRt`. -/
def clusErr (s : State) (t : Nat) : Nat :=
  bitsOf ((errOffsets s).filterMap (fun o => match pageOf s.part o with
    | some (.cluster c) => if c.tile.val = t then some c.cluster.val else none
    | some (.core k) => if k.tile.val = t then some k.cluster.val else none
    | _ => none))

/-- `HOSTIF.ERR_SUM`. -/
def errSum (s : State) : Nat :=
  bitsOf ((errOffsets s).filterMap (fun o => match pageOf s.part o with
    | some (.device p) => some p.val
    | some p => some (32 + pageTileNo p)
    | none => none))

/-! ### Event counters -/

/-- An event line of a page carries an event code: EVENT in [15:0] and EN (R592). -/
def lineSelects (s : State) (p : PageRef) (code line : Nat) : Bool :=
  decide (fld s p (0x048 + 8 * line) 16 0 = code + 0x10000)

/-- LEVEL, page, cluster, core and tile of a page as `CFGn` names them (R689). -/
def pageLevel : PageRef → Nat
  | .device _ => 0
  | .tile _ _ => 1
  | .cluster _ => 2
  | .core _ => 3

def pageNo : PageRef → Nat
  | .device p => p.val
  | .tile _ p => p.val
  | _ => 0

def pageCluster : PageRef → Nat
  | .cluster c => c.cluster.val
  | .core k => k.cluster.val
  | _ => 0

def pageCore : PageRef → Nat
  | .core k => k.core.val
  | _ => 0

/-- A counter's CFG selects an event line of a page (R689); `dev` tells the device bank from a tile's bank. -/
def cfgSelects (dev : Bool) (cfg : Word) (p : PageRef) (line : Nat) : Bool :=
  cfg.bit 27 && decide (cfg.bits 2 0 = line) && decide (cfg.bits 4 3 = pageLevel p)
  && (match p with
      | .device _ => dev && decide (cfg.bits 11 5 = pageNo p)
      | .tile _ _ => decide (cfg.bits 11 5 = pageNo p)
      | .cluster _ => cfg.bit 25 || decide (cfg.bits 16 12 = pageCluster p)
      | .core _ => (cfg.bit 25 || decide (cfg.bits 16 12 = pageCluster p)) && (cfg.bit 26 || decide (cfg.bits 20 17 = pageCore p)))
  && (if dev && decide (pageLevel p ≠ 0) then cfg.bit 24 || decide (cfg.bits 23 21 = pageTileNo p) else true)

/-- Counter m of a bank page adds n modulo 2^64 and counts its wrap (R690). -/
def ctrAdd (s : State) (bank : PageRef) (m n : Nat) : State :=
  let v := (rd s bank (0x400 + 8 * m)).toNat + n
  let s := wr s bank (0x400 + 8 * m) (word v)
  if 2 ^ 64 ≤ v then setFld s bank (0x200 + 8 * m) 63 48 (fld s bank (0x200 + 8 * m) 63 48 + 1) else s

/-- The counters of one bank page that select a line add n. A bank page whose ENABLE is 0 ignores the counting request and logs
STATE (R611). -/
def bankCount (dev : Bool) (bank : PageRef) (counters : Nat) (p : PageRef) (line n : Nat) (s : State) : State :=
  (List.range counters).foldl
    (fun s m =>
      if cfgSelects dev (rd s bank (0x200 + 8 * m)) p line then
        if (rd s bank 0x010).bit 0 then ctrAdd s bank m n else logErr bank errState (0x200 + 8 * m) s
      else s) s

/-- The page's unit is fenced: it counts nothing (R689). -/
def pageFenced (s : State) : PageRef → Bool
  | .core k => coreFenced s k
  | _ => false

/-- The banks that count a line of a page: the tile's own bank and the device bank's sixteen pages (R687, R688). -/
def countLine (s : State) (p : PageRef) (line n : Nat) : State :=
  let s := match pageTile? p with
    | some t => bankCount false (pgTctr t) 64 p line n s
    | none => s
  (List.finRange 16).foldl
    (fun s d => bankCount true (pgDctr d) 4 p line n s) s

/-- n events of a code happen at a page: every selected event line is counted (R681). -/
def event (p : PageRef) (code n : Nat) (s : State) : State :=
  if pageFenced s p then s
  else (List.range 7).foldl (fun s line => if lineSelects s p code line then countLine s p line n else s) s

/-! ### Trace -/

/-- A trace stream's FIFO by tile; the device stream's has index 8. -/
def traceOf (s : State) (i : Nat) : TraceFifo := mget {} s.traces i

/-- Set a trace FIFO. -/
def setTrace (s : State) (i : Nat) (f : TraceFifo) : State := { s with traces := mset {} s.traces i f }

/-- Records that a FIFO holds (R698). -/
def traceDepth : Nat := 1024

/-- Word 0x00 of a record (R695). -/
def traceHead (s : State) (i type : Nat) : Word :=
  word (s.now % 2 ^ 40 + type <<< 40 + (if i = 8 then 2 ^ 51 else i <<< 48))

/-- Records written to stream k are counted in WR0 to WR8; the device stream is stream T (R694, R700). -/
def streamNo (s : State) (i : Nat) : Nat := if i = 8 then s.part.tiles else i

/-- Records lost in a stream since reset: TTRACE.LOST of a tile, and the remainder of TRACE.LOST for the device stream. -/
def lostOf (s : State) (i : Nat) : Nat :=
  if i < 8 then (rd s (pgTtrace (Fin.ofNat 8 i)) 0x130).toNat
  else (rd s pgTrace 0x128).toNat - ((List.range 8).map (fun t => (rd s (pgTtrace (Fin.ofNat 8 t)) 0x130).toNat)).sum

/-- The words of a FULL_TIME record (R696). -/
def fullTimeRec (s : State) (i : Nat) : List Word :=
  [traceHead s i 1, nowW s, rd s pgTrace (0x130 + 8 * streamNo s i),
    word ((rd s pgIdent 0x140).bits 23 12 + sat 32 (lostOf s i) <<< 32)]

/-- Count records lost in a stream (R698, R702). -/
def traceLose (s : State) (i n : Nat) : State :=
  let s := addReg s pgTrace 0x128 n
  if i < 8 then addReg s (pgTtrace (Fin.ofNat 8 i)) 0x130 n else s

/-- The most records since the last read of TTRACE.STAT (R702). -/
def traceHigh (s : State) (i : Nat) : State :=
  if i < 8 then
    let p := pgTtrace (Fin.ofNat 8 i)
    let n := (traceOf s i).records.length
    let s := setFld s p 0x128 10 0 n
    if fld s p 0x128 26 16 < n then setFld s p 0x128 26 16 n else s
  else s

/-- A record enters a stream's FIFO. At a full FIFO it is dropped and counted; after a drop, a LOST and a FULL_TIME record come
before it (R697, R698). -/
def tracePush (s : State) (i : Nat) (r : List Word) : State :=
  let f := traceOf s i
  let rs := if f.dropped = 0 then [r]
    else [[traceHead s i 2, word f.dropped, word f.firstDrop, 0], fullTimeRec s i, r]
  if f.records.length + rs.length ≤ traceDepth then
    traceHigh (setTrace s i { f with records := f.records ++ rs, dropped := 0, firstDrop := 0 }) i
  else
    let s := setTrace s i { f with dropped := f.dropped + 1, firstDrop := if f.dropped = 0 then s.now else f.firstDrop }
    traceLose s i 1

/-- A soft reset empties a stream's FIFO, and the records that it held are lost (R702). -/
def traceEmpty (s : State) (i : Nat) : State :=
  let f := traceOf s i
  let n := f.records.length
  if n = 0 then s
  else traceLose (traceHigh (setTrace s i
    { f with records := [], dropped := f.dropped + n, firstDrop := if f.dropped = 0 then s.now else f.firstDrop }) i) i n

/-- Tracing is enabled for a stream: TRACE.CTRL.EN, a region, and ENABLE of the blocks (R700, R702, R611). -/
def traceOn (s : State) (i : Nat) : Bool :=
  (rd s pgTrace 0x110).bit 0 && (rd s pgTrace 0x118).bit 0 && (rd s pgTrace 0x010).bit 0
  && (if i < 8 then (rd s (pgTtrace (Fin.ofNat 8 i)) 0x010).bit 0 else true)

/-- An event writes a record of a type that CTRL.CLASSES selects (R696). -/
def trace (i type : Nat) (w1 w2 w3 : Word) (s : State) : State :=
  if traceOn s i && (decide (type < 3) || (rd s pgTrace 0x110).bit (16 + type)) then
    tracePush s i [traceHead s i type, w1, w2, w3]
  else s

/-- Index of the device stream's FIFO. -/
def devStream : Nat := 8

end Sys2Proof.Machine
end

