-- ==== Sys2Proof/Machine/Capacity.lean ====
section
/-! DEFINITION. Capacity and occupancy of the tiers (R318, R340, R343, R345, R349, R369). -/

namespace Sys2Proof.Machine

/-- Shadow bushels of a tile (R255), and of one of its stacks. -/
def shadowCount (s : State) (t : Nat) : Nat :=
  ((s.mem.shadowAlloc.flatMap (fun e => e.2)).filter (fun e => decide (e.2.1 = t))).length
def stackShadows (s : State) (t k : Nat) : Nat :=
  ((s.mem.shadowAlloc.flatMap (fun e => e.2)).filter (fun e => decide (e.2.1 = t) && decide (e.2.2 = k))).length

/-! ### Occupancy (R340, R349, R369) -/

/-- Capacities: bushels of an HBM4 stack of 128 GB, units of 64 KiB of the 384 GB of deep memory of a tile, and places of a cluster's memory (R7,
R340). -/
def stackCap : Nat := 128000000000 / 2 ^ 21
def deepCapUnits : Nat := 384000000000 / 65536
def cmCap : Nat := 8

/-- Units of 64 KiB of the pooled window (R580). -/
def poolCapUnits (s : State) : Nat := min 65536 (fldA s pgHostif 0x118 16 0) * 16384

/-- Bushels whose map entries a test selects. -/
def countBushels (s : State) (f : Bushel → Bool) : Nat := (s.mem.bushels.filter (fun e => f e.2)).length

/-- Units of 64 KiB that bushels selected by a test take. -/
def unitsOf (s : State) (f : Bushel → Bool) : Nat := ((s.mem.bushels.filter (fun e => f e.2)).map (fun e => e.2.units)).sum

/-- Moves that a test selects: their targets hold the copies. -/
def countMoves (s : State) (f : Move → Bool) : Nat := (s.mem.moves.filter f).length

/-- A memory controller is unusable (R360). -/
def mcUnusable (s : State) (t n : Nat) : Bool := s.mem.unusable.contains (4 * t + n)

/-- Bushels of a stack of a tile in use: homes, window copies, shadows and the copies of moves. A gathered bushel is its window copy. -/
def stackUsed (s : State) (t k : Nat) : Nat :=
  let copies := s.mem.copies.filter (fun c => decide (c.tile = t) && decide (c.stack = k))
  countBushels s (fun b => decide (b.tier = 1) && decide (b.tile = t) && decide (b.stack = k))
  - (copies.filter (fun c => c.gathered)).length + copies.length + stackShadows s t k
  + countMoves s (fun m => decide (m.tier = 1) && decide (m.tile = t) && decide (m.stack = k))

/-- Window space of a tile that is reserved and holds no copy (R369). -/
def windowLeft (s : State) (t : Nat) : Nat :=
  mget 0 s.granger.reserved t - (s.mem.copies.filter (fun c => decide (c.tile = t))).length

/-- A sum over the stacks of a tile that are not unusable. -/
def overStacks (s : State) (t : Nat) (f : Nat → Nat) : Nat := (if mcUnusable s t 0 then 0 else f 0) + (if mcUnusable s t 1 then 0 else f 1)

/-- Near memory in use on a tile, and its capacity, on stacks that are not unusable (R340, R360, R369). -/
def nearUsed (s : State) (t : Nat) : Nat := overStacks s t (stackUsed s t) + windowLeft s t
def nearCapOf (s : State) (t : Nat) : Nat := overStacks s t (fun _ => stackCap)

/-- Units of deep memory in use on a tile. -/
def deepUsed (s : State) (t : Nat) : Nat :=
  unitsOf s (fun b => decide (b.tier = 2) && decide (b.tile = t))
  + 33 * countMoves s (fun m => decide (m.tier = 2) && decide (m.tile = t))

/-- Units of pooled memory in use. -/
def poolUsed (s : State) : Nat := unitsOf s (fun b => decide (b.tier = 3)) + 33 * countMoves s (fun m => decide (m.tier = 3))

/-- Bushel places of a cluster's memory in use. -/
def cmUsed (s : State) (t c : Nat) : Nat :=
  countBushels s (fun b => decide (b.tier = 0) && decide (b.tile = t) && decide (b.cluster = c))
  + countMoves s (fun m => decide (m.tier = 0) && decide (m.tile = t) && decide (m.cluster = c))

/-- The cluster memory is fenced (R43, R396). -/
def cmFenced (s : State) (c : ClusterRef) : Bool := (rd s (.cluster c) 0x300).bit 8

/-- The cluster's router is fenced: node c of the tile's NET.ROUTER_FENCE (R440, R442). -/
def routerFenced (s : State) (c : ClusterRef) : Bool := (rd s (pgNet c.tile) 0x130).bit c.cluster.val

/-- HI_WATER and LO_WATER in 1/256 of capacity (R332). -/
def hiWater (s : State) : Nat := fldA s (pgGranger 0) 0x120 15 8
def loWater (s : State) : Nat := fldA s (pgGranger 0) 0x120 23 16

/-- Near memory of a tile is below HI_WATER. -/
def nearBelow (s : State) (t : Nat) : Bool := decide (nearUsed s t * 256 < hiWater s * nearCapOf s t)

/-- Room for one more bushel. A compressed bushel takes at most 33 units (R345). -/
def nearRoom (s : State) (t : Nat) : Bool := decide (nearUsed s t < nearCapOf s t)
def deepRoom (s : State) (t : Nat) : Bool := decide (deepUsed s t + 33 ≤ deepCapUnits) && !mcUnusable s t 2
def poolRoom (s : State) : Bool := decide (poolUsed s + 33 ≤ poolCapUnits s)
def cmRoom (s : State) (t c : Nat) : Bool :=
  decide (cmUsed s t c < cmCap) && !cmFenced s ⟨Fin.ofNat 8 t, Fin.ofNat 24 c⟩
  && !routerFenced s ⟨Fin.ofNat 8 t, Fin.ofNat 24 c⟩

/-- The tile with most free near memory, the lowest first. -/
def freestTile (s : State) : Nat :=
  ((tilesOf s).map (fun t => t.val)).foldl
    (fun a t => if nearCapOf s a - nearUsed s a < nearCapOf s t - nearUsed s t then t else a) 0

/-- The lowest tile whose deep memory has room. -/
def deepTile (s : State) : Nat := (((tilesOf s).map (fun t => t.val)).find? (deepRoom s)).getD 0

/-- A home: tier, tile, cluster. -/
abbrev Home := Nat × Nat × Nat

/-- A stack has room for one more bushel. -/
def stackRoom (s : State) (t k : Nat) : Bool := !mcUnusable s t k && decide (stackUsed s t k < stackCap)

/-- The HBM4 stack of the next bushel of a tile: successive bushels take alternate stacks, and one without room is passed over (R343). -/
def nextStack (s : State) (t : Nat) : Nat :=
  let n := mget 0 s.granger.nextStacks t
  if stackRoom s t n then n else 1 - n

/-- The next bushel of a tile takes its stack. -/
def takeStack (s : State) (t : Nat) : Nat × State :=
  let n := nextStack s t
  (n, { s with granger := { s.granger with nextStacks := mset 0 s.granger.nextStacks t (1 - n) } })

/-! ### Compressed bushels (R345, R349) -/

/-- Stored bytes of a codec block: its 64 bytes of the block index, and a payload of 2,048 to 4,096 bytes, free within that (R345). -/
def blockBytes (b : Bushel) (i : Nat) : Nat := 64 + 2048 + Config.codedBytes (mget b.coded b.blocks i) i % 2049

/-- Units of 64 KiB that the stored bytes of a bushel take: 17 to 33. -/
def bushelUnits (b : Bushel) : Nat := (((List.range 512).map (blockBytes b)).sum + 65535) / 65536

/-- A bushel is stored in a tier: in a compressed one it is coded anew, and takes the units that this needs. -/
def storeBushel (tier : Nat) (b : Bushel) (s : State) : Bushel × State :=
  let b := { b with tier := tier, coded := 0, blocks := [], units := 0 }
  if tier < 2 then (b, s)
  else
    let b := { b with coded := s.free }
    ({ b with units := bushelUnits b }, { s with free := s.free + 1 })

/-- The lowest free place of a cluster's memory (R342). -/
def nextPlace (s : State) (t c : Nat) : Nat :=
  let used := (s.mem.bushels.filter (fun e => decide (e.2.tier = 0) && decide (e.2.tile = t) && decide (e.2.cluster = c))).map
    (fun e => e.2.stack)
  ((List.range cmCap).find? (fun p => !used.contains p)).getD 0

/-- Stack or place that a bushel takes in a new home. -/
def placeIn (s : State) (h : Home) : Nat × State :=
  match h.1 with
  | 0 => (nextPlace s h.2.1 h.2.2, s)
  | 1 => takeStack s h.2.1
  | _ => (0, s)

/-! ### Excluded cores (R326) -/

/-- A disable record is in force on a core (R199, R202): KIND 0b11 in either array. -/
def coreDisabled (s : State) (k : CoreRef) : Bool :=
  (mget [] s.keeper.records (2 * coreIdx k) ++ mget [] s.keeper.records (2 * coreIdx k + 1)).any (fun r => decide (r % 4 = 3))

/-- Granger excludes the core (R326). -/
def excluded (s : State) (k : CoreRef) : Bool := coreFenced s k || coreDisabled s k || cmFenced s (coreCl k) || routerFenced s (coreCl k)

/-- Fences and releases of cores are noted, with whether Granger excluded each core before (R326, R329). -/
def noteChange (ks : List CoreRef) (s : State) : State :=
  { s with granger := { s.granger with changes := s.granger.changes ++ ks.map (fun k => (coreIdx k, s.now, excluded s k)) } }

/-- Granger excluded the core at a time since the last placement ended. -/
def excludedAt (s : State) (time : Nat) (k : CoreRef) : Bool :=
  match s.granger.changes.find? (fun e => decide (e.1 = coreIdx k) && decide (time < e.2.1)) with
  | some e => e.2.2
  | none => excluded s k

/-- Cores of a cluster. -/
def clusterCores (c : ClusterRef) : List CoreRef := (List.finRange 16).map (fun n => ⟨c.tile, c.cluster, n⟩)

end Sys2Proof.Machine
end

