-- ==== Sys2Proof/Machine/Geometry.lean ====
section
/-! DEFINITION. The on-package network's nodes, links and routes (R397 to R402, R408, R438), and the flits that its outputs carry (R444, R686). -/

namespace Sys2Proof.Machine

/-! ### Geometry (R397 to R402) -/

/-- A node: router n (0 to 23) or ring stop n − 24 of a tile, as 40 × tile + n (R430). -/
abbrev Node := Nat

def nodeTile (x : Node) : Nat := x / 40
def nodeNo (x : Node) : Nat := x % 40
def isRouter (x : Node) : Bool := decide (nodeNo x < 24)
def stopNo (x : Node) : Nat := nodeNo x - 24

/-- Port codes (R398, R401). -/
def poL : Nat := 0
def poE : Nat := 1
def poW : Nat := 2
def poS : Nat := 3
def poN : Nat := 4
def poR : Nat := 5

/-- Router to which each ring stop attaches (R400). -/
def stopRouters : List Nat := [0, 1, 2, 3, 4, 5, 11, 17, 23, 22, 21, 20, 19, 18, 12, 6]
def stopRouter (n : Nat) : Nat := stopRouters.getD n 0

/-- The ring stop of a perimeter router. -/
def routerStop (c : Nat) : Option Nat := (List.range 16).find? (fun n => decide (stopRouter n = c))

/-- Package coordinates of a router (R397). -/
def nodeX (s : State) (x : Node) : Nat := 6 * (nodeTile x % s.part.cols) + nodeNo x % 6
def nodeY (s : State) (x : Node) : Nat := 4 * (nodeTile x / s.part.cols) + nodeNo x / 6

/-- The router at package coordinates. -/
def routerAt (s : State) (x y : Nat) : Node := 40 * (x / 6 + s.part.cols * (y / 4)) + x % 6 + 6 * (y % 4)

/-- The node and input port that an output port leads to; none for a port that is absent, reserved or leads to the unit. -/
def neighbour (s : State) (a : Node) (p : Nat) : Option (Node × Nat) :=
  if isRouter a then
    let x := nodeX s a
    let y := nodeY s a
    match p with
    | 1 => if x + 1 < 6 * s.part.cols then some (routerAt s (x + 1) y, poW) else none
    | 2 => if 0 < x then some (routerAt s (x - 1) y, poE) else none
    | 3 => if y + 1 < 4 * s.part.rows then some (routerAt s x (y + 1), poN) else none
    | 4 => if 0 < y then some (routerAt s x (y - 1), poS) else none
    | 5 => (routerStop (nodeNo a)).map (fun n => (40 * nodeTile a + 24 + n, poR))
    | _ => none
  else
    let base := 40 * nodeTile a + 24
    match p with
    | 1 => some (base + (stopNo a + 1) % 16, 2)
    | 2 => some (base + (stopNo a + 15) % 16, 1)
    | 5 => some (40 * nodeTile a + stopRouter (stopNo a), poR)
    | _ => none

/-- The side of a tile on which a mesh port crosses to another tile: 0 east, 1 west, 2 south, 3 north. -/
def crossing (s : State) (a : Node) (p : Nat) : Option Nat :=
  match neighbour s a p with
  | some (b, _) => if nodeTile b ≠ nodeTile a then some (p - 1) else none
  | none => none

/-- The tile that a side of a tile faces. -/
def facing (s : State) (t side : Nat) : Option Nat :=
  let c := t % s.part.cols
  let r := t / s.part.cols
  match side with
  | 0 => if c + 1 < s.part.cols then some (t + 1) else none
  | 1 => if 0 < c then some (t - 1) else none
  | 2 => if r + 1 < s.part.rows then some (t + s.part.cols) else none
  | _ => if 0 < r then some (t - s.part.cols) else none

/-- The side that faces back. -/
def backSide (side : Nat) : Nat := if side % 2 = 0 then side + 1 else side - 1

/-- Nodes of the part. -/
def allNodes (s : State) : List Node := List.range (40 * s.part.tiles)

/-! ### Routes (R408, R438) -/

/-- The node is fenced (R442). -/
def nodeFenced (s : State) (x : Node) : Bool := (rd s (pgNet (Fin.ofNat 8 (nodeTile x))) 0x130).bit (nodeNo x)

/-- The link out of a port is fenced with its edge (R437). -/
def linkDown (s : State) (a : Node) (p : Nat) : Bool :=
  match crossing s a p with
  | some side => s.net.downEdges.contains (4 * nodeTile a + side)
  | none => false

/-- The output that X-then-Y routing takes towards a destination; port 0 at it (R408). -/
def plainPort (s : State) (a dst : Node) : Nat :=
  if a = dst then 0
  else if isRouter a then
    let r := if isRouter dst then dst else 40 * nodeTile dst + stopRouter (stopNo dst)
    if a = r then poR
    else if nodeX s a < nodeX s r then poE
    else if nodeX s r < nodeX s a then poW
    else if nodeY s a < nodeY s r then poS
    else poN
  else if !isRouter dst && decide (nodeTile a = nodeTile dst) then
    if (stopNo dst + 16 - stopNo a) % 16 ≤ 8 then 1 else 2
  else poR

/-- Nodes and outputs of the plain route, the first at `a`. -/
def plainPath (s : State) (dst : Node) : Nat → Node → List (Node × Nat)
  | 0, _ => []
  | n + 1, a =>
    let p := plainPort s a dst
    if p = 0 then [(a, 0)]
    else match neighbour s a p with
      | some (b, _) => (a, p) :: plainPath s dst n b
      | none => [(a, p)]

/-- The plain route crosses a fenced node or link. -/
def pathCut (s : State) (a dst : Node) : Bool :=
  (plainPath s dst 64 a).any (fun e => nodeFenced s e.1 || (decide (e.2 ≠ 0) && linkDown s e.1 e.2))

/-- Outputs of a node that lead to a node that is not fenced, over links that are not. -/
def openPorts (s : State) (a : Node) : List (Nat × Node) :=
  [1, 2, 3, 4, 5].filterMap (fun p => match neighbour s a p with
    | some (b, _) => if nodeFenced s b || linkDown s a p then none else some (p, b)
    | none => none)

/-- Nodes within n hops of a set over open links. -/
def spread (s : State) : Nat → List Node → List Node
  | 0, l => l
  | n + 1, l => spread s n ((l.flatMap (fun a => (openPorts s a).map (fun e => e.2))).foldl (fun m b => setInsert b m) l)

/-- Hops from a node to a destination over open links, up to a bound. -/
def hopsTo (s : State) (dst : Node) (a : Node) : Option Nat :=
  (List.range 320).find? (fun n => (spread s n [dst]).contains a)

/-- The output of the rewritten route: the lowest port on a shortest open path (DESIGN CHOICE, log entry 23). -/
def detourPort (s : State) (a dst : Node) : Option Nat :=
  if a = dst then some 0
  else match hopsTo s dst a with
    | none => none
    | some n => (openPorts s a).findSome? (fun e => if (spread s (n - 1) [dst]).contains e.2 then some e.1 else none)

/-- The output and channel that a packet asks for at its node; none while it is held for a rewrite, or has no route. -/
def wants (s : State) (p : NetPacket) : Option (Nat × Nat) :=
  if p.vc = 3 || pathCut s p.node p.dst then
    if s.net.rewriteDue then none else (detourPort s p.node p.dst).map (fun o => (o, 3))
  else some (plainPort s p.node p.dst, p.vc)

/-- The nodes and outputs that a packet crosses on the route in force: the plain one, or the rewritten one (R408, R438). -/
def routePath (s : State) (dst : Node) : Nat → Node → List (Node × Nat)
  | 0, _ => []
  | n + 1, a =>
    if pathCut s a dst then
      match detourPort s a dst with
      | none => []
      | some 0 => [(a, 0)]
      | some p => match neighbour s a p with
        | some (b, _) => (a, p) :: routePath s dst n b
        | none => [(a, p)]
    else plainPath s dst (n + 1) a

/-! ### Homes on the network -/

/-- Node of a home (R401, R430): routers 0 to 23, ring stops 24 to 39. -/
def homeNode (b : Bushel) : Node :=
  match b.tier with
  | 0 => 40 * b.tile + b.cluster
  | 1 => 40 * b.tile + (if b.stack % 2 = 0 then 25 else 33)
  | 2 => 40 * b.tile + 28
  | _ => 36

/-- Node of a core's cluster. -/
def coreNode (k : CoreRef) : Node := 40 * k.tile.val + k.cluster.val

/-- The age stamp of a cluster-memory request (R133) and of a packet (R408). -/
def bankStamp (s : State) : Nat := s.now % 2 ^ 16
def netStamp (s : State) : Nat := s.now / 4 % 2 ^ 16

/-! ### Flits -/

/-- NET page of a node's tile. -/
def pgOfNode (x : Node) : PageRef := pgNet (Fin.ofNat 8 (nodeTile x))

/-- Flits leave an output of a tile, or steps pass for want of credit (R686): 0 open flits, 1 slotted ones, 2 steps. -/
def countFlits (x : Node) (cls n : Nat) (s : State) : State :=
  let k := 3 * nodeTile x + cls
  let old := mget 0 s.net.flits k
  let s := { s with net := { s.net with flits := mset 0 s.net.flits k (old + n) } }
  event (pgOfNode x) (0x100 + cls) ((old + n) / 4 - old / 4) s

/-- Flits cross a bridge (R444). -/
def countBridge (x : Node) (o n : Nat) (s : State) : State :=
  match crossing s x o, neighbour s x o with
  | some side, some (y, _) =>
    let p := pgBridge (Fin.ofNat 8 (nodeTile x)) (Fin.ofNat 4 side)
    let q := pgBridge (Fin.ofNat 8 (nodeTile y)) (Fin.ofNat 4 (backSide side))
    let a := (rd s p 0x110).toNat
    let b := (rd s q 0x118).toNat
    let s := event p 0x100 ((a + n) / 4 - a / 4) (addReg s p 0x110 n)
    event q 0x101 ((b + n) / 4 - b / 4) (addReg s q 0x118 n)
  | _, _ => s

/-- One flit travels from a node to another: every output on its way counts it. -/
def carry (a dst : Node) (s : State) : State :=
  (routePath s dst 64 a).foldl (fun s e => countBridge e.1 e.2 1 (countFlits e.1 0 1 s)) s

end Sys2Proof.Machine
end

