-- ==== Sys2Proof/Machine/Memory.lean ====
section
/-! DEFINITION. Memory: page attributes (R90, R350), homes and their poison (R357, R358), shadow lines (R256), window copies (R366)
and a core's L1 (R92, R283). Bytes are little-endian and addresses are taken modulo 2^48 (R90). -/

namespace Sys2Proof.Machine

/-- Attributes of a page (R90). -/
inductive Attr where
  | memory
  | device
  | unmapped
  deriving DecidableEq, Repr

/-- First device address of the register window (R91). -/
def windowBase : Nat := 0xFFFFF8000000

/-- Where in the window a device address falls: the window is the top 2^27 bytes of the 48-bit space (R91). -/
def windowOffset (a : Nat) : Nat := a % 2 ^ 27

/-- An address modulo 2^48 (R90). -/
def addr48 (a : Nat) : Nat := a % 2 ^ 48

/-- Bushel number of an address (R350). -/
def bushelNo (a : Nat) : Nat := addr48 a / 2 ^ 21

/-- Line number of an address. -/
def lineNo (a : Nat) : Nat := addr48 a / 64

/-- The mapped bushel that holds an address. -/
def bushelAt (s : State) (a : Nat) : Option Bushel := mfind s.mem.bushels (bushelNo a)

/-- Attribute of the page that holds an address. -/
def attrOf (s : State) (a : Nat) : Attr :=
  if windowBase ≤ addr48 a then .device else if (bushelAt s a).isSome then .memory else .unmapped

/-- The address lies in a committed bushel (R254). -/
def committedAt (s : State) (a : Nat) : Bool :=
  match bushelAt s a with | some b => b.committed | none => false

/-- The address lies in a MEMORY bushel that is not committed. -/
def openAt (s : State) (a : Nat) : Bool :=
  match bushelAt s a with | some b => decide (addr48 a < windowBase) && !b.committed | none => false

/-- Addresses a, a + 1, …, a + n − 1 modulo 2^48. -/
def addrs (a n : Nat) : List Nat := (List.range n).map (fun i => addr48 (a + i))

/-- One address of each 4 KiB page that a range touches, the lowest first: the range's first byte, then page starts. -/
def pagesOf (a n : Nat) : List Nat :=
  if n = 0 then []
  else a :: (List.range ((a % 4096 + n - 1) / 4096)).map (fun i => (a / 4096 + 1 + i) * 4096)

/-- Every page that a range touches has an attribute that a test accepts. -/
def rangeAll (a n : Nat) (f : Nat → Bool) : Bool := (pagesOf a n).all f

/-- Every page of a range is MEMORY. -/
def rangeMemory (s : State) (a n : Nat) : Bool := rangeAll a n (fun x => decide (attrOf s x = .memory))

/-- Every page of a range is MEMORY and not committed. -/
def rangeOpen (s : State) (a n : Nat) : Bool := rangeAll a n (openAt s)

/-- Line numbers that a range touches. -/
def linesOf (a n : Nat) : List Nat :=
  if n = 0 then [] else (List.range ((a % 64 + n - 1) / 64 + 1)).map (fun i => lineNo (a / 64 * 64 + 64 * i))

/-! ### Bytes at their homes -/

/-- What a byte that nothing has written reads as (R613 leaves memory undefined; DESIGN CHOICE, log entry 5). -/
def emptyByte : Byte := 0

/-- A byte at its home. -/
def memRd (s : State) (a : Nat) : Byte := mget emptyByte s.mem.bytes (addr48 a)

/-- Set a byte of a list of cells in canonical form. -/
def cellSet (m : List Host.Cell) (a : Nat) (v : Byte) : List Host.Cell := mset emptyByte m a v

/-- Canonical form of a memory: addresses strictly rise and no entry equals what an unlisted address reads as. -/
def cellsWf (m : List Host.Cell) : Bool := MapWf emptyByte m

/-- Every memory of the module is in canonical form. -/
def Memory.wf (m : Mem) : Bool := cellsWf m.bytes && cellsWf m.shadowBytes && cellsWf m.windowBytes

/-- Bytes a, a + 1, … of a list of cells, set in turn. -/
def cellsSet (m : List Host.Cell) (a : Nat) : List Byte → List Host.Cell
  | [] => m
  | v :: t => cellsSet (cellSet m (addr48 a) v) (a + 1) t

/-- A window copy serves reads of the bushel that holds an address (R366). -/
def copyAt (s : State) (a : Nat) : Bool :=
  s.mem.copies.any (fun c => decide (c.bushel = bushelNo a) && !c.gathered)

/-- A byte as an agent other than a speculative task reads it: from the window copy if there is one, else at the home. -/
def plainRd (s : State) (a : Nat) : Byte :=
  if copyAt s a then mget emptyByte s.mem.windowBytes (addr48 a) else memRd s a

/-- The step has written the shadow line of an address (R256). -/
def shadowed (s : State) (a : Nat) : Bool := s.mem.shadowLines.contains (lineNo a)

/-- A byte as a task reads it: a speculative task of the step reads the shadow line if the step has written it (R256). -/
def viewRd (s : State) (spec : Bool) (a : Nat) : Byte :=
  if spec && shadowed s a then mget emptyByte s.mem.shadowBytes (addr48 a) else plainRd s a

/-- The bytes of a range. -/
def readAs (s : State) (spec : Bool) (a n : Nat) : List Byte := (addrs a n).map (viewRd s spec)

/-- The bytes of a range as an engine or the host reads them (R256). -/
def readMem (s : State) (a n : Nat) : List Byte := readAs s false a n

/-- A 64-bit word, little-endian. -/
def rd64 (s : State) (a : Nat) : Word := word (leNat (readMem s a 8))

/-- A line is poisoned in the view of a reader (R357). -/
def poisonedAs (s : State) (spec : Bool) (line : Nat) : Bool :=
  if spec && s.mem.shadowLines.contains line then s.mem.shadowPoison.contains line
  else if copyAt s (64 * line) then s.mem.windowPoison.contains line
  else s.mem.poison.contains line

/-- The first poisoned line that a range touches. -/
def poisonIn (s : State) (spec : Bool) (a n : Nat) : Option Nat := (linesOf a n).find? (poisonedAs s spec)

/-- Numbers of the lines that a range covers whole. -/
def wholeLines (a n : Nat) : List Nat :=
  ((linesOf a n).zip (List.range (linesOf a n).length)).filterMap
    (fun p =>
      let start := a / 64 * 64 + 64 * p.2
      if a ≤ start && decide (start + 64 ≤ a + n) then some p.1 else none)

/-- A write to a line at its home ends every LR reservation of the line. -/
def dropReservations (s : State) (ls : List Nat) : State :=
  (s.cores.filter (fun e => match e.2.reservation with | some l => ls.contains l | none => false)).foldl
    (fun s e => { s with cores := mset {} s.cores e.1 { mget {} s.cores e.1 with reservation := none } }) s

/-- Replace the bytes at the homes. -/
def setBytes (s : State) (a : Nat) (v : List Byte) : State :=
  { s with mem := { s.mem with bytes := cellsSet s.mem.bytes a v } }

/-- Write bytes at their homes. A line that is written whole loses its poison (R357). -/
def writeMem (s : State) (a : Nat) (v : List Byte) : State :=
  let s := setBytes s a v
  let s := { s with mem := { s.mem with poison := s.mem.poison.filter (fun l => !(wholeLines a v.length).contains l) } }
  dropReservations s (linesOf a v.length)

/-- Write a 64-bit word at its home. -/
def wr64 (s : State) (a : Nat) (v : Word) : State := writeMem s a (leBytes v.toNat 8)

/-- Give a line a shadow: the first write to it copies the committed line (R256). -/
def shadowOpen (s : State) (line : Nat) : State :=
  if s.mem.shadowLines.contains line then s
  else { s with mem := { s.mem with
    shadowLines := setInsert line s.mem.shadowLines
    shadowBytes := cellsSet s.mem.shadowBytes (64 * line) (readMem s (64 * line) 64) } }

/-- Write bytes of one line to its shadow line. -/
def shadowWrite (s : State) (a : Nat) (v : List Byte) : State :=
  let s := (linesOf a v.length).foldl shadowOpen s
  let s := { s with mem := { s.mem with
    shadowBytes := cellsSet s.mem.shadowBytes a v
    shadowPoison := s.mem.shadowPoison.filter (fun l => !(wholeLines a v.length).contains l) } }
  dropReservations s (linesOf a v.length)

/-- Drop every shadow line (R258). -/
def dropShadows (s : State) : State :=
  { s with mem := { s.mem with
      shadowBytes := [], shadowLines := [], shadowPoison := []
      bushels := s.mem.bushels.map (fun e => (e.1, { e.2 with shadow := none })) } }

/-- Poison a line at its home. -/
def poisonLine (s : State) (line : Nat) : State := { s with mem := { s.mem with poison := setInsert line s.mem.poison } }

/-! ### Homes -/

/-- The page of the memory that is a bushel's home; pooled memory has none (R310, R340). -/
def homePage (b : Bushel) : Option PageRef :=
  match b.tier with
  | 0 => some (.cluster ⟨Fin.ofNat 8 b.tile, Fin.ofNat 24 b.cluster⟩)
  | 1 => some (pgMc (Fin.ofNat 8 b.tile) (Fin.ofNat 3 (b.stack % 2)))
  | 2 => some (pgMc (Fin.ofNat 8 b.tile) 2)
  | _ => none

/-- Set a bushel of the map. -/
def setBushel (s : State) (n : Nat) (b : Bushel) : State :=
  { s with mem := { s.mem with bushels := minsert n b s.mem.bushels } }

/-- Window copies that a test selects are dropped, with their bytes and poison (R371, R374). A gathered bushel exists only in the window: it is
unmapped (R365). -/
def dropWindow (sel : WindowCopy → Bool) (s : State) : State :=
  let l := s.mem.copies.filter sel
  let gone := fun n => l.any (fun c => decide (c.bushel = n))
  let lost := fun n => l.any (fun c => decide (c.bushel = n) && c.gathered)
  { s with mem := { s.mem with
      copies := s.mem.copies.filter (fun c => !sel c)
      bushels := s.mem.bushels.filter (fun e => !lost e.1)
      windowBytes := s.mem.windowBytes.filter (fun e => !gone (e.1 / 2 ^ 21))
      windowPoison := s.mem.windowPoison.filter (fun x => !gone (x / 32768)) } }

/-- Unmap a bushel. -/
def unmapBushel (s : State) (n : Nat) : State := { s with mem := { s.mem with bushels := merase n s.mem.bushels } }

/-- A ring of a tile's reports lies in MEMORY bushels of the tile's own near memory that are not committed (R335). -/
def ringAt (s : State) (tile : Fin 8) (a : Nat) : Bool :=
  openAt s a && (match bushelAt s a with | some b => decide (b.tier = 1) && decide (b.tile = tile.val) | none => false)

/-- Granger writes one record to a tile's report ring (R336); one that it cannot write is dropped and sets REPORT (R335). -/
def report (tile : Fin 8) (type slotNo : Nat) (att : Nat) (w2 w3 : Word) (s : State) : State :=
  let p := pgGranger tile
  let size := min 64 (fldA s p 0x138 6 0)
  if size = 0 then s
  else
    let seq := fld s p 0x140 31 0
    let a := fldA s p 0x130 47 21 * 2 ^ 21 + seq % (size * 65536) * 32
    let s := setFld s p 0x140 31 0 (seq + 1)
    if ringAt s tile a then
      let s := wr64 s (a + 8) (nowW s)
      let s := wr64 s (a + 16) w2
      let s := wr64 s (a + 24) w3
      wr64 s a (word (type + tile.val <<< 8 + slotNo <<< 11 + att <<< 17 + seq <<< 32))
    else logErr p errReport type s

/-! ### Layer table -/

/-- Entries of the layer table (R362). -/
def ltEntries (s : State) : Nat := fldA s (pgStream 0) 0x118 15 0

/-- Address of layer-table entry i. -/
def ltAddr (s : State) (i : Nat) : Nat := addr48 (fldA s (pgStream 0) 0x110 47 5 * 32 + 32 * i)

/-- Word w of layer-table entry i. -/
def ltWord (s : State) (i w : Nat) : Word := rd64 s (ltAddr s i + 8 * w)

/-- A range touches a bushel. -/
def touches (a n bushel : Nat) : Bool := decide (0 < n) && decide (a / 2 ^ 21 ≤ bushel) && decide (bushel ≤ (a + n - 1) / 2 ^ 21)

/-- A layer-table entry covers a bushel. -/
def entryCovers (s : State) (bushel i : Nat) : Bool := touches ((ltWord s i 0).bits 47 0) ((ltWord s i 1).bits 39 0) bushel

/-- The layer-table entry that covers a bushel, the lowest first. -/
def entryOf (s : State) (bushel : Nat) : Option Nat :=
  (List.range (ltEntries s)).find? (entryCovers s bushel)

/-- The bushel belongs to a STREAM tensor. -/
def streamBushel (s : State) (bushel : Nat) : Bool :=
  (List.range (ltEntries s)).any (fun i => entryCovers s bushel i && (ltWord s i 1).bit 47)

/-! ### Injected errors (R609) -/

/-- Kind of the injection that is armed on a page; 0 for none. -/
def armedKind (s : State) (p : PageRef) : Nat := if (rd s p 0x040).bit 32 then fld s p 0x040 1 0 else 0

/-- The injection takes effect: ARMED clears and INJECTED is set. -/
def takeInjection (p : PageRef) (detail : Nat) (s : State) : State := logErr p errInjected detail (setFld s p 0x040 32 32 0)

/-- A corrected error in a page's storage: it is counted and logged (R357, R395, R396). -/
def correctedError (p : PageRef) (index : Nat) (s : State) : State :=
  let s := logErr p errCe index s
  match pageBlock p with
  | some .mc => event p 0x102 1 (addReg s p 0x108 1)
  | some .cluster => addReg s p 0x308 1
  | _ => s

/-- A read of a page's protected storage: an armed KIND 2 makes it meet a corrected error. -/
def readStorage (p : PageRef) (index : Nat) (s : State) : State :=
  if armedKind s p = 2 then correctedError p index (takeInjection p index s) else s

/-! ### Accesses at a home -/

/-- Granger samples one line access in 64 at each home, but for FREEZE_HEAT (R296, R332). -/
def heatLine (tile : Nat) (s : State) (line : Nat) : State :=
  match bushelAt s (64 * line) with
  | none => s
  | some b =>
    if (rdA s (pgGranger 0) 0x100).bit 1 then s
    else setBushel s (bushelNo (64 * line)) (if b.accesses + 1 < 64 then { b with accesses := b.accesses + 1 }
      else { b with accesses := 0, origin := mset 0 b.origin tile (mget 0 b.origin tile + 1) })

/-- A memory controller counts stored bytes (R395, R686). -/
def mcCount (write : Bool) (p : PageRef) (n : Nat) (s : State) : State :=
  event p (if write then 0x101 else 0x100) (n / 64) (addReg s p (if write then 0x138 else 0x130) n)

/-- One line access in a raw tier. -/
def rawLine (write : Bool) (s : State) (line : Nat) : State :=
  match bushelAt s (64 * line) with
  | none => s
  | some b =>
    match homePage b with
    | none => s
    | some p =>
      let s := if b.tier = 1 then mcCount write p 64 s else s
      if write || decide (2 ≤ b.tier) then s else readStorage p (line % 2 ^ 16) s

/-- The Winnower decompresses or compresses one codec block on a tile (R347, R393). -/
def winnow (out : Bool) (tile stored : Nat) (s : State) : State :=
  let p := pgStream (Fin.ofNat 8 tile)
  if out then event p 0x100 64 (addReg (addReg s p 0x130 4096) p 0x138 stored)
  else addReg (addReg s p 0x140 4096) p 0x148 stored

/-- A codec block of a bushel is coded anew: its size is free within its bounds (R345). -/
def codeBlock (n i : Nat) (s : State) : State :=
  match mfind s.mem.bushels n with
  | none => s
  | some b => { setBushel s n { b with blocks := minsert i s.free b.blocks } with free := s.free + 1 }

/-- Stored bytes of a codec block of a bushel. -/
def storedBlock (s : State) (n i : Nat) : Nat :=
  match mfind s.mem.bushels n with
  | some b => blockBytes b i
  | none => 0

/-- Accesses of one codec block of a compressed tier (R348): a read decompresses it whole; a write that covers part of it reads, decompresses, merges
and recompresses it. -/
def codecBlock (write : Bool) (tile a n : Nat) (s : State) (x : Nat) : State :=
  match bushelAt s x with
  | none => s
  | some b =>
    if b.tier < 2 then s
    else
      let t := if b.tier = 2 then b.tile else tile
      let whole := decide (a ≤ x / 4096 * 4096) && decide (x / 4096 * 4096 + 4096 ≤ a + n)
      let i := x / 4096 % 512
      let mc := fun w k (s : State) => match homePage b with
        | some p => let s := mcCount w p k s; if w then s else readStorage p (x / 64 % 2 ^ 16) s
        | none => s
      let s := if write && whole then s else mc false (blockBytes b i) (winnow true t (blockBytes b i) s)
      if !write then s
      else
        let s := codeBlock (bushelNo x) i s
        let k := storedBlock s (bushelNo x) i
        let s := mc true k (winnow false t k s)
        if whole then s else event (pgStream (Fin.ofNat 8 t)) 0x102 1 s

/-- Accesses of a range at its homes by an agent on a tile. Reads that a window copy serves do not reach the home (R366). -/
def homeTraffic (write : Bool) (tile a n : Nat) (s : State) : State :=
  let ls := (linesOf a n).filter (fun l => write || !copyAt s (64 * l))
  let s := ls.foldl (fun s l => rawLine write (heatLine tile s l) l) s
  (pagesOf a n).foldl (fun s x => if !write && copyAt s x then s else codecBlock write tile a n s x) s

/-- A read of a STREAM bushel that is not resident (R366 to R368) counts in WINDOW_MISS of its home's tile; pooled memory has the reader's. -/
def countMiss (tile : Nat) (s : State) (x : Nat) : State :=
  match bushelAt s x with
  | some b =>
    if b.tier ≠ 1 && !copyAt s x && streamBushel s (bushelNo x) then
      let p := pgStream (Fin.ofNat 8 (if b.tier = 3 then tile else b.tile))
      event p 0x101 1 (addReg s p 0x150 1)
    else s
  | none => s

/-- The same, with the misses of the streaming window: one for each codec block, or 4 KiB, of a read. -/
def homeAccesses (write : Bool) (tile a n : Nat) (s : State) : State :=
  let s := homeTraffic write tile a n s
  if write then s else (pagesOf a n).foldl (countMiss tile) s

/-- One line access at its home. -/
def homeAccess (write : Bool) (tile line : Nat) (s : State) : State := homeAccesses write tile (64 * line) 64 s

/-- A bushel takes a new home, in a stack or place of it (R322, R349): the map switches, MIGRATIONS counts, and a MIGRATE record is written. -/
def switchHome (n : Nat) (h : Home) (place trigger copyNs : Nat) (s : State) : State :=
  match mfind s.mem.bushels n with
  | none => s
  | some b =>
    let (b', s) := storeBushel h.1 { b with tile := h.2.1, cluster := h.2.2, stack := place } s
    let s := setBushel s n b'
    let s := addReg s (pgGranger 0) 0x168 1
    report 0 5 0 s.step.att (word (n + b.tier <<< 27 + h.1 <<< 29 + b.tile <<< 31 + h.2.1 <<< 34 + trigger <<< 37))
      (word (sat 32 copyNs)) s

/-- A bushel of a compressed tier that has no free unit left moves to the tier above at once (R349). -/
def growInto (n : Nat) (h : Home) (s : State) : State :=
  let (place, s) := placeIn s h
  switchHome n h place 6 0 s

/-- A write to a compressed bushel may grow it. A bushel that exceeds its allocation takes further units; with none free it moves to the tier above
(R349). -/
def growBushel (s : State) (n : Nat) : State :=
  match mfind s.mem.bushels n with
  | none => s
  | some b =>
    if b.tier < 2 then s
    else
      let u := bushelUnits b
      if u ≤ b.units then s
      else if (if b.tier = 2 then decide (deepUsed s b.tile + (u - b.units) ≤ deepCapUnits)
               else decide (poolUsed s + (u - b.units) ≤ poolCapUnits s)) then
        setBushel s n { b with units := u }
      else growInto n (if b.tier = 2 then (1, b.tile, 0) else (2, deepTile s, 0)) s

/-- Bushels that a range touches. -/
def bushelsOf (a n : Nat) : List Nat :=
  if n = 0 then [] else (List.range ((a % 2 ^ 21 + n - 1) / 2 ^ 21 + 1)).map (fun i => bushelNo (a / 2 ^ 21 * 2 ^ 21 + 2 ^ 21 * i))

/-- A poisoned read or a new poisoning counts at the home (R358), sets UE there and records the address; a controller whose
count reaches UE_LIMIT declares its memory unusable (R360). -/
def countUe (s : State) (line : Nat) : State :=
  match bushelAt s (64 * line) with
  | none => s
  | some b =>
    match homePage b with
    | none => s
    | some p =>
      if b.tier = 0 then
        logErr p errUe (line % 2 ^ 16) (wr (addReg s p 0x310 1) p 0x318 (word (64 * line)))
      else
        let s := logErr p errUe (line % 2 ^ 16) (wr (addReg s p 0x110 1) p 0x128 (word (64 * line)))
        let s := event p 0x103 1 s
        if rd s p 0x118 ≠ 0 && decide ((rd s p 0x118).toNat ≤ (rd s p 0x110).toNat) then
          let s := setFld s p 0x100 1 0 3
          { s with mem := { s.mem with unusable := setInsert (4 * b.tile + (if b.tier = 1 then b.stack % 2 else 2)) s.mem.unusable } }
        else s

/-- A write to protected storage at a home: an armed KIND 3 stores it with an uncorrectable error, which poisons the line (R357, R609). -/
def writeStorage (shadow : Bool) (line : Nat) (s : State) : State :=
  match bushelAt s (64 * line) with
  | none => s
  | some b =>
    match homePage b with
    | none => s
    | some p =>
      if armedKind s p = 3 then
        let s := takeInjection p (line % 2 ^ 16) s
        let s := if shadow then { s with mem := { s.mem with shadowPoison := setInsert line s.mem.shadowPoison } } else poisonLine s line
        countUe s line
      else s

/-- An agent on a tile writes bytes at their homes: the homes count the accesses, and compressed bushels may grow. -/
def storeHome (tile a : Nat) (v : List Byte) (s : State) : State :=
  let s := homeAccesses true tile a v.length s
  let s := writeMem s a v
  let s := match linesOf a v.length with | l :: _ => writeStorage false l s | [] => s
  (bushelsOf a v.length).foldl growBushel s

/-- A speculative task writes a shadow line (R256). -/
def storeShadow (line : Nat) (v : List Byte) (s : State) : State := writeStorage true line (shadowWrite s (64 * line) v)

/-- New accesses to the bushel that holds an address are held: its map is being switched (R353). -/
def heldAt (s : State) (a : Nat) : Bool := s.mem.moves.any (fun m => m.switching && decide (m.bushel = bushelNo a))

/-- Some access of a range would be held. -/
def heldRange (s : State) (a n : Nat) : Bool := (bushelsOf a n).any (fun b => heldAt s (b * 2 ^ 21))

/-! ### Banks of a cluster memory (R133, R342) -/

/-- Bank of a line of a cluster memory (R342): offset bits [10:6] XOR [15:11]. -/
def bankOf (b : Bushel) (line : Nat) : Nat :=
  let o := b.stack * 2 ^ 21 + 64 * line % 2 ^ 21
  (o / 64 % 32) ^^^ (o / 2048 % 32)

/-- Non-core grants of a window at a bank, and grants of a window (R133). -/
def bankQuota : Nat := 16
def bankWindow : Nat := 64

/-- A grant counts in the window. -/
def countGrant (b : Bank) (nonCore : Bool) : Bank :=
  if bankWindow ≤ b.grants + 1 then { b with grants := 0, nonCore := 0 }
  else { b with grants := b.grants + 1, nonCore := b.nonCore + b2n nonCore }

/-- A bank of a cluster. -/
def bankAt (s : State) (cl : ClusterRef) (n : Nat) : Bank := mget {} (cluster s cl).banks n

/-- Set a bank of a cluster. -/
def setBank (s : State) (cl : ClusterRef) (n : Nat) (b : Bank) : State :=
  let c := cluster s cl
  setCluster s cl { c with banks := mset {} c.banks n b }

/-- A bushel is at home in the memory of a core's own cluster. -/
def ownMemory (cl : ClusterRef) (b : Bushel) : Bool :=
  decide (b.tier = 0) && decide (b.tile = cl.tile.val) && decide (b.cluster = cl.cluster.val)

/-! ### L1 of a core -/

/-- Lines that L1 holds (R92). -/
def l1Lines : Nat := 4096

/-- A line of a core's L1. -/
def l1Find (c : Core) (line : Nat) : Option L1Line := c.l1.find? (fun l => decide (l.line = line))

/-- Replace a line of a core's L1. -/
def l1Put (c : Core) (x : L1Line) : Core :=
  { c with l1 := c.l1.map (fun l => if l.line = x.line then x else l) }

/-- Request slots of a core (R18), and those in use: outstanding requests, and a blocked load (R132, R269). -/
def slotLimit : Nat := 48
def slotsInUse (c : Core) : Nat := min slotLimit (c.requests.length + b2n c.resLoad + b2n c.fence.isSome)

/-- A request takes n slots beside those in use: SLOT_STAT.HIGH follows (R132, R141). -/
def slotUse (k : CoreRef) (n : Nat) (s : State) : State :=
  let used := min slotLimit (slotsInUse (coreOf s k) + n)
  if fld s (.core k) 0x140 13 8 < used then setFld s (.core k) 0x140 13 8 used else s

/-- Responses on their way to a core, of lines that a test selects, fill no line: what their homes read has been overtaken by the core's own
write or acquire (R92, R285). -/
def dropResponses (i : Nat) (sel : Nat → Bool) (s : State) : State :=
  { s with net := { s.net with packets := s.net.packets.map (fun p =>
      if p.kind = .response && decide (p.toCore = some i) && sel p.line then { p with data := [] } else p) } }

/-- A write-back goes to its home: it counts as a core's grant at a bank of the core's own cluster memory (R133), and crosses the network to
any other home (R344). -/
def sendBack (k : CoreRef) (line : Nat) (s : State) : State :=
  let s := dropResponses (coreIdx k) (fun l => decide (l = line)) s
  match bushelAt s (64 * line) with
  | none => s
  | some b =>
    if ownMemory (coreCl k) b then
      let n := bankOf b line
      setBank s (coreCl k) n (countGrant (bankAt s (coreCl k) n) false)
    else carry (homeNode b) (coreNode k) (carry (coreNode k) (homeNode b) s)

/-- An L1 line with an uncorrectable error is written back as poisoned: the home counts the new poisoning (R92, R357, R358). -/
def passPoison (shadow : Bool) (x : L1Line) (s : State) : State :=
  if !x.poison then s
  else if shadow then countUe { s with mem := { s.mem with shadowPoison := setInsert x.line s.mem.shadowPoison } } x.line
  else countUe (poisonLine s x.line) x.line

/-- A dirty line is accepted at its home: at the shadow line if a speculative task wrote it into a committed bushel that has a
shadow (R256), else at the home. A line whose bushel is no longer mapped has no home. -/
def acceptLine (k : CoreRef) (x : L1Line) (s : State) : State :=
  match bushelAt s (64 * x.line) with
  | none => s
  | some b =>
    if b.committed && x.spec then
      if b.shadow.isSome then passPoison true x (storeShadow x.line x.bytes (sendBack k x.line s)) else s
    else passPoison false x (storeHome k.tile.val (64 * x.line) x.bytes (sendBack k x.line s))

/-- Write back the dirty lines of a core's L1 that a test selects, each in a request slot of its own (R132), and invalidate the clean lines
that it selects if `drop` says so. -/
def l1Flush (s : State) (k : CoreRef) (sel : L1Line → Bool) (drop : Bool) : State :=
  let back := (coreOf s k).l1.filter (fun l => l.dirty && sel l)
  let s := if back.isEmpty then s else slotUse k back.length s
  let s := back.foldl (fun s l => acceptLine k l s) s
  let c := coreOf s k
  setCore s k { c with l1 :=
    (c.l1.filter (fun l => l.dirty || !(drop && sel l))).map (fun l => if sel l then { l with dirty := false } else l) }

/-- Write back every dirty line and invalidate every line, those on their way included (R243, R285). -/
def l1Clear (s : State) (k : CoreRef) : State :=
  let s := l1Flush s k (fun _ => true) false
  dropResponses (coreIdx k) (fun _ => true) (setCore s k { coreOf s k with l1 := [] })

/-- Invalidate every clean line, those on their way included (R270, R285). -/
def l1Acquire (s : State) (k : CoreRef) : State :=
  let c := coreOf s k
  dropResponses (coreIdx k) (fun _ => true) (setCore s k { c with l1 := c.l1.filter (fun l => l.dirty) })

/-- A byte of a core's L1. -/
def l1Byte (c : Core) (a : Nat) : Byte :=
  match l1Find c (lineNo a) with
  | some l => l.bytes.getD (addr48 a % 64) emptyByte
  | none => emptyByte

/-- The core writes one byte that its L1 holds. -/
def l1SetByte (c : Core) (spec : Bool) (a : Nat) (v : Byte) : Core :=
  match l1Find c (lineNo a) with
  | some l => l1Put c { l with bytes := l.bytes.set (addr48 a % 64) v, dirty := true, spec := spec }
  | none => c

/-- Lines of ranges that L1 does not hold: each takes a request slot (R132). -/
def missing (s : State) (k : CoreRef) (rs : List (Nat × Nat)) : List Nat :=
  (rs.flatMap (fun r => linesOf r.1 r.2)).filter (fun l => (l1Find (coreOf s k) l).isNone)

/-- Every request slot of the core is held (R18). -/
def slotsFull (s : State) (k : CoreRef) : Bool := decide (slotsInUse (coreOf s k) = slotLimit)

/-- A memory instruction cannot issue: a line that L1 does not hold lies in a bushel that is being switched (R353), or needs a request slot
while all are held (R18). -/
def accessWaits (s : State) (k : CoreRef) (rs : List (Nat × Nat)) : Bool :=
  let ls := missing s k rs
  ls.any (fun l => heldAt s (64 * l)) || (!ls.isEmpty && slotsFull s k)

/-- Reading a line meets a poisoned copy: the one in L1 if L1 holds the line, else the one at its home (R357, R358). -/
def lineBad (s : State) (k : CoreRef) (line : Nat) : Bool :=
  match l1Find (coreOf s k) line with
  | some l => l.poison
  | none => poisonedAs s (coreSpec s k) line

/-- A poisoned line that the core would read in a range. -/
def corePoison (s : State) (k : CoreRef) (a n : Nat) : Option Nat := (linesOf a n).find? (lineBad s k)

/-- A poisoned line that a write of a range would read: lines written whole are not read. -/
def corePoisonStore (s : State) (k : CoreRef) (a n : Nat) : Option Nat :=
  (linesOf a n).find? (fun l => !(wholeLines a n).contains l && lineBad s k l)

end Sys2Proof.Machine
end

