-- ==== Sys2Proof/Machine/Control.lean ====
section
/-! DEFINITION. Task ends, step control's faults and discards, sync counters with their waiters, orphans, and core fences: the
operations that set one another off. Each answers a state and the further operations that it sets off (`Todo`); `run` carries
them out in order. -/

namespace Sys2Proof.Machine

/-! ### Addresses of tasks, slot and step bookkeeping -/

/-- A task's key: slot, descriptor address, piece. -/
abbrev TaskKey := Nat × Nat × Nat

def taskKey (t : Task) : TaskKey := (t.slot, t.desc, t.piece)

/-- The task with a key. -/
def taskAt (s : State) (k : TaskKey) : Option Task := s.tasks.find? (fun t => decide (taskKey t = k))

/-- Own torus coordinate (R615). -/
def ownCoord (s : State) : Nat := (rd s pgIdent 0x140).bits 23 12

/-- Step number: WVER + 1 (R502). -/
def stepNumber (s : State) : Nat := (rd s pgStep 0x180).toNat + 1

/-- `STEP.STAT.PHASE` takes a value, with its STEP_PHASE record (R543, R696). -/
def setPhase (s : State) (ph : Nat) : State :=
  let s := setFld s pgStep 0x178 2 0 ph
  trace devStream 8 (word (ph + (s.step.slot.getD 0) <<< 8 + s.step.att <<< 16)) (word (stepNumber s)) (word s.step.launch) s

/-- PHASE codes (R543). -/
def phIdle : Nat := 0
def phPlacing : Nat := 1
def phRunning : Nat := 2
def phVoted : Nat := 3
def phCommitting : Nat := 4
def phDiscarding : Nat := 5

def phase (s : State) : Nat := fld s pgStep 0x178 2 0

/-- A slot ends in a state with SOURCE and CODE (R565). -/
def endSlot (s : State) (n : Nat) (st : SlotState) (source code : Nat) : State :=
  let s := setSlot s n { slot s n with state := st, source := source, code := code, endTime := nowW s }
  { s with power := { s.power with lastEnd := s.now } }

/-- The core of a waiter's agent word (R293). -/
def whoCore (w : Word) : CoreRef := ⟨Fin.ofNat 8 (w.bits 6 4), Fin.ofNat 24 (w.bits 11 7), Fin.ofNat 16 (w.bits 15 12)⟩

/-! ### Tags -/

/-- Retire a tag: it is quarantined for 256 BT µs (R248, R249). -/
def retireTag (s : State) (t : Task) : State :=
  let cl := cluster s (coreCl t.core)
  let e := mget {} cl.tags t.tag
  if e.inUse && decide (e.next = (t.gen + 1) % 256) then
    setCluster s (coreCl t.core)
      { cl with tags := mset {} cl.tags t.tag { e with inUse := false, quarantine := some (s.now + 256000) } }
  else s

/-! ### RESULT -/

/-- The RESULT word (R238). -/
def resultWord (status exit cause att time : Nat) (deferred : Bool) : Word :=
  word (status % 16 + b2n deferred <<< 4 + (exit % 256) <<< 8 + (att % 256) <<< 16 + (cause % 32) <<< 24
    + (time % 2 ^ 32) <<< 32)

/-- The pieces of a task. -/
def piecesOf (s : State) (t : Task) : List Task :=
  s.tasks.filter (fun u => decide (u.slot = t.slot) && decide (u.desc = t.desc))

/-- Status that RESULT reports for the pieces (R316): DONE when every piece ended DONE, else that of the lowest-numbered piece that
did not. -/
def pieceStatus (ps : List Task) : Option Task :=
  match ps.filter (fun t => decide (t.status ≠ 1)) with
  | [] => none
  | t :: l => some (l.foldl (fun a b => if b.piece < a.piece then b else a) t)

/-- RESULT of a task whose last piece is `last` (R316). -/
def mergedResult (ps : List Task) (last : Task) : Word :=
  let src := (pieceStatus ps).getD last
  resultWord src.status src.exit src.cause (last.att.getD 0) last.endTime (ps.any (fun t => t.deferred))

/-- Write RESULT at the descriptor's home (R244). -/
def writeResult (s : State) (ps : List Task) (last : Task) : State :=
  let a := last.desc + 0x38
  if attrOf s a = .memory then wr64 s a (mergedResult ps last) else s

/-- End of a task that ENDED's words count: [23:0] tasks ended, [47:24] of those other than DONE and SKIPPED (R558, R573). -/
def countEnded (s : State) (n : Nat) (bad : Bool) : State :=
  let x := slot s n
  setSlot s n { x with ended := word ((x.ended.bits 23 0 + 1) % 2 ^ 24 + ((x.ended.bits 47 24 + b2n bad) % 2 ^ 24) <<< 24) }

/-! ### Waiters -/

/-- Tile of a counter ID (R239). -/
def ctrTile (i : Nat) : Fin 8 := Fin.ofNat 8 (i / 2 ^ 16)

/-- SYNC page of a counter's tile. -/
def pgCtr (i : Nat) : PageRef := pgSync (ctrTile i)

/-- Fewer entries of the memory wait list are in use. -/
def wlFree (s : State) (i n : Nat) : State :=
  setFld s (pgCtr i) 0x170 23 0 (fld s (pgCtr i) 0x170 23 0 - n)

/-- Words of a memory wait-list entry (R276). -/
def wlWords (i : Nat) (w : Waiter) (next : Nat) : List Word :=
  [word w.e, w.agent, word (i % 2 ^ 16 + b2n w.acquire <<< 16 + next <<< 40), word w.timeout]

/-- Write 64-bit words at their homes. -/
def wrWords (s : State) (a : Nat) : List Word → State
  | [] => s
  | w :: t => wrWords (wr64 s a w) (a + 8) t

/-- Address of a memory wait-list entry. -/
def wlAddr (s : State) (i index : Nat) : Nat := fldA s (pgCtr i) 0x160 47 12 * 4096 + 32 * index

/-- Index that ends a chain (R276). -/
def wlEnd : Nat := 0xFFFFFF

/-- Entries of a chain, each with the index of the next. -/
def chainLinks : List Waiter → List (Waiter × Nat)
  | [] => []
  | [w] => [(w, wlEnd)]
  | w :: v :: t => (w, v.index) :: chainLinks (v :: t)

/-- The entries that stay on a chain name the next that stays (R276). -/
def relink (i : Nat) (before after : List Waiter) (s : State) : State :=
  ((chainLinks after).filter (fun e => !(chainLinks before).contains e)).foldl
    (fun s e => wrWords s (wlAddr s i e.1.index) (wlWords i e.1 e.2)) s

/-- Drop the waiters of a counter that a test selects. -/
def dropWaiters (s : State) (i : Nat) (f : Waiter → Bool) : State :=
  let c := ctr s i
  let keep := c.chain.filter (fun w => !f w)
  let s := if keep.length < c.chain.length then relink i c.chain keep (wlFree s i (c.chain.length - keep.length)) else s
  setCtr s i { c with
    hw := c.hw.map (fun o => match o with | some w => if f w then none else some w | none => none)
    chain := keep }

/-- Drop the waiters of every counter that a test selects. -/
def dropAllWaiters (s : State) (f : Waiter → Bool) : State := s.ctrs.foldl (fun s e => dropWaiters s e.1 f) s

/-- A waiter belongs to a task: its descriptor wait, or the wait of the core while the task runs there. -/
def waiterOf (t : Task) (w : Waiter) : Bool :=
  match w.task with
  | some k => decide (k = taskKey t)
  | none => decide (t.state = .running) && decide (whoCore w.agent = t.core)

/-! ### Stopping tasks -/

/-- A core gives up its task: it is IDLE unless fenced, and waits for nothing (R118, R247). -/
def freeCore (s : State) (k : CoreRef) : State :=
  let s := if coreFenced s k then s else setCoreState s k 0
  let c := coreOf s k
  setCore s k { c with wait := none, resLoad := false, fence := none, fenceDone := none, ahead := [], slotStall := false, heldStore := none }

/-- A task that has not ended is stopped and ends DISCARDED: its waiters are freed and its signals are not applied (R247). -/
def stopTask (s : State) (t : Task) : State :=
  if t.state = .ended then s
  else
    let s := dropAllWaiters s (waiterOf t)
    let s := if t.state = .running then freeCore s t.core else s
    let t' := { t with state := .ended, status := 5, exit := 0, cause := 0, deferred := false, endTime := s.now }
    let s := setTask s t'
    let s := trace t.core.tile.val 5 (taskWho t) (resultWord 5 0 0 (t.att.getD 0) s.now false) (word t.desc) s
    let ps := piecesOf s t
    if ps.all (fun u => decide (u.state = .ended)) then writeResult (countEnded s t.slot true) ps t' else s

/-- Stop every task of a slot. -/
def stopTasks (s : State) (n : Nat) : State :=
  (s.tasks.filter (fun t => decide (t.slot = n))).foldl stopTask s

/-- Drop what L1s hold of shadow lines: dirty lines that speculative tasks wrote into committed bushels (R41, R258). -/
def dropSpecLines (s : State) (c : Core) : Core :=
  { c with l1 := c.l1.filter (fun l => !(l.spec && committedAt s (64 * l.line))) }

/-- Every core drops its lines of shadow data. -/
def dropAllSpecLines (s : State) : State :=
  s.cores.foldl (fun s' e => { s' with cores := mset {} s'.cores e.1 (dropSpecLines s (coreI s' e.1)) }) s

/-- Retire the tags of a slot's tasks. -/
def retireTags (s : State) (n : Nat) : State :=
  (s.tasks.filter (fun t => decide (t.slot = n))).foldl retireTag s

/-- SHADOW_USE.IN_USE of every tile follows the map. -/
def refreshShadowUse (s : State) : State :=
  (tilesOf s).foldl (fun s t =>
    let n := shadowCount s t.val
    let s := setFld s (pgGranger t) 0x190 12 0 n
    if fld s (pgGranger t) 0x190 28 16 < n then setFld s (pgGranger t) 0x190 28 16 n else s) s

/-- The shadow bushels of a slot's placement are freed; those of the running step with their lines (R257, R258). -/
def freeShadows (n : Nat) (s : State) : State :=
  let s := if s.step.slot = some n then dropShadows s else s
  refreshShadowUse { s with mem := { s.mem with
    shadowAlloc := merase n s.mem.shadowAlloc, shadowWant := merase n s.mem.shadowWant } }

/-- Gathered bushels exist only while the window holds them (R365): drop them (R374). -/
def dropGathered (s : State) : State := dropWindow (fun c => c.gathered) s

/-- A slot's cursor ends. -/
def endCursor (n : Nat) (s : State) : State :=
  { s with granger := { s.granger with cursors := s.granger.cursors.filter (fun c => decide (c.slot ≠ n)) } }

/-! ### The sheaf's end word -/

/-- Write the sheaf's end word: attempts used, OUTCOME and time (R505). -/
def sheafEnd (s : State) (outcome attempts : Nat) : State :=
  if s.step.sheafDone && decide (attrOf s (s.step.sheafAddr + 0x38) = .memory) then
    wr64 s (s.step.sheafAddr + 0x38) (word (attempts % 256 + outcome <<< 8 + (s.now % 2 ^ 32) <<< 32))
  else s

/-- Attempts used by the present step. -/
def attemptsUsed (s : State) : Nat := fld s pgStep 0x178 11 8 + 1

/-! ### Faults -/

/-- Class of a fault code (R521): 0 R, 1 F, 2 J. FOGHORN with reason SPIKE or CEILING is F under SPIKE_ACTION (R517). -/
def faultClass (s : State) (code info : Nat) : Nat :=
  if code = 15 then
    if (rdA s pgFoghorn 0x100).bit 2 && (decide (info = 2) || decide (info = 3)) then 1 else 0
  else if code ≤ 14 then 0
  else if code ≤ 20 || decide (code = 26) then 1
  else 2

/-- `STEP.FAULT`, `STEP.FAULT_TIME` and the FAULT record (R522, R543, R696). -/
def recordFault (s : State) (code info origin time : Nat) : State :=
  let s := wr s pgStep 0x188 (word (code + origin <<< 8 + s.step.att <<< 20 + (info % 2 ^ 32) <<< 32))
  let s := wr s pgStep 0x190 (word time)
  trace devStream 7 (rd s pgStep 0x188) (word time) (rd s pgStep 0x178) s

/-- The relaunch lead that applies (R543). -/
def relaunchLead (s : State) : Nat := min 1000000000 (max 100000 (fldA s pgStep 0x108 31 0))

/-- L′ of a fault (R523). -/
def relaunchTime (s : State) : Nat := ceilTo (max 1 (slotLen s)) (s.now + relaunchLead s)

/-- The step group is enabled (R485). -/
def stepGroupOn (s : State) : Bool := (rdA s pgColl 0x138).bit 20

/-- Send a discard notice on the step group (R523). -/
def sendNotice (s : State) (n : Notice) : State :=
  if stepGroupOn s then { s with out := { s.out with notices := s.out.notices ++ [n] } } else s

/-- Collective commands that the step submitted (R484). -/
def stepCmds (s : State) : List CollCmd := s.coll.queue.filter (fun c => c.att.isSome)

/-- The discard of an attempt (R524): tasks stop, shadows drop, collective commands end DISCARDED and their numbering returns, deferred
faults are dropped, and the gather log is abandoned. -/
def discardActions (s : State) (n : Nat) : State × List Todo :=
  let s := setPhase s phDiscarding
  let s := stopTasks s n
  let s := retireTags s n
  let s := freeShadows n (dropAllSpecLines s)
  let cmds := stepCmds s
  let s := { s with coll := { s.coll with
    numbers := s.coll.numbersAtLaunch, passed := [], gatherLog := [], slottedOut := [], tokens := []
    received := s.coll.received.filter (fun p => decide (p.launch = 0)) } }
  let s := event pgStep 0x101 s.step.deferred s
  let s := endCursor n (dropGathered s)
  let s := { s with
    step := { s.step with deferred := 0, voted := false, barrierDone := false, nfSeen := false, lossWritten := false,
                          coreEnds := [], workSamples := [] } }
  (s, cmds.map (fun c => .collDone c 0x07))

/-- The slot goes back to ARMED for the replay's placement, ahead of queued slots (R526, R565). -/
def armReplay (s : State) (n relaunch : Nat) : State :=
  let x := slot s n
  let s := setSlot s n { x with state := .armed, replays := x.replays + 1, effLaunch := word relaunch }
  let s := addFld s pgStep 0x178 11 8 1
  let s := { s with
    step := { s.step with relaunch := some relaunch, faulted := none }
    granger := { s.granger with queue := (n, s.now) :: s.granger.queue.filter (fun e => decide (e.1 ≠ n)) } }
  setPhase s phPlacing

/-- Placement of a slot declares and runs a step (R502, R566). -/
def runsStep (x : Slot) : Bool := x.step && decide (x.taskCount ≠ 0)

/-- PHASE once the step of a slot is over (R503): PLACING while another step is armed or placed. -/
def restPhase (s : State) (n : Nat) : Nat :=
  if s.slots.any (fun e => decide (e.1 ≠ n) && runsStep e.2 && (decide (e.2.state = .armed) || decide (e.2.state = .launched))) then phPlacing
  else phIdle

/-- The slot of the step ends FAULTED without replay: SOURCE 2 and the code (R526, R565). Class J sets RESTART. -/
def endFaulted (s : State) (n cls code : Nat) : State :=
  let s := sheafEnd s 2 (attemptsUsed s)
  let s := endSlot s n .faulted 2 code
  let s := { s with step := { s.step with slot := none, relaunch := none, faulted := none, sheafDone := false } }
  let s := setFld s pgStep 0x178 11 8 0
  let s := setFld s pgStep 0x178 15 15 0
  let s := if cls = 2 then setFld s pgStep 0x178 12 12 1 else s
  setPhase s (restPhase s n)

/-- An attempt is discarded and replayed, or the slot ends. -/
def discard (s : State) (n cls code relaunch : Nat) : State × List Todo :=
  let (s, l) := discardActions s n
  (if cls = 0 then armReplay s n relaunch else endFaulted s n cls code, l)

/-- A fault of the module's own (R522 to R524, R529, R512). -/
def takeFault (s : State) (code info : Nat) : State × List Todo :=
  match s.step.slot with
  | none => (s, [])
  | some n =>
    if !stepLive s then (s, [])
    else if s.step.faulted.isSome then (event pgStep 0x100 1 s, [])
    else
      let cls := faultClass s code info
      if s.step.voted then
        let s := recordFault s code info (ownCoord s) s.now
        ({ event pgStep 0x100 1 s with step := { s.step with faulted := some cls } }, [])
      else
        let limit := cls = 0 ∧ fldA s pgStep 0x100 3 0 ≤ (slot s n).replays
        let code' := if limit then 19 else code
        let info' := if limit then code else info
        let cls' := if limit then 1 else cls
        let s := recordFault s code' info' (ownCoord s) s.now
        let s := { s with step := { s.step with faulted := some cls', noticeCount := 1 } }
        let l' := relaunchTime s
        let s := sendNotice s ⟨s.step.launch, l', code', cls', BitVec.ofNat 12 (ownCoord s), info'⟩
        discard s n cls' code' l'

/-- A deferred fault of a speculative task is recorded while its step runs (R260, R261). -/
def takeDeferred (s : State) : State :=
  if stepRunning s then { s with step := { s.step with deferred := s.step.deferred + 1 } } else s

/-! ### Completion of collective commands -/

/-- COLL.STAT.QUEUED follows the queue. -/
def collCount (s : State) : State := setFld s pgColl 0x108 6 0 s.coll.queue.length

/-- Field of a command word. -/
def cw (ws : List Word) (i hi lo : Nat) : Nat := (ws.getD i 0).bits hi lo

/-- A collective command completes (R481, R483): STATUS and DONE_TIME are written, then SYNC is signalled if enabled, and a status other
than DONE is logged. Granger's copy of a gather descriptor has neither (R482). Completion of a core's PUT is counted (R283), and a command
tagged with the present epoch signals the drain counter (R493). -/
def collComplete (s : State) (c : CollCmd) (status : Nat) : State × List Todo :=
  let s := { s with coll := { s.coll with queue := s.coll.queue.filter (fun d => decide (d ≠ c)) } }
  let s := collCount s
  let s := setFld s pgColl 0x108 23 16 status
  let s := match c.desc with
    | some a => if c.layer.isNone && decide (attrOf s (a + 0x38) = .memory) then
        wr64 s (a + 0x38) (word (status + (s.now % 2 ^ 32) <<< 32)) else s
    | none => s
  let op := cw c.words 0 3 0
  let who := unitWho (if op = 8 || op = 9 then 6 else 5) c.tile 0 c.att
  let s := trace devStream 6 who (word ((c.desc.getD 0) + status <<< 48)) (word (sat 32 (s.now - c.launch))) s
  let s := if status = 1 then s
    else logErr pgColl errCommand status (wr s pgColl 0x1A0 (word (c.desc.getD 0)))
  let s := if op = 7 && c.who.bits 3 0 = 1 then
      let i := coreIdx (whoCore c.who)
      { s with coll := { s.coll with puts := mset 0 s.coll.puts i (mget 0 s.coll.puts i - 1) } }
    else s
  let fault := decide (status = 0x05) || (decide (0x08 ≤ status) && decide (status ≤ 0x0D))
  let sync := if cw c.words 4 19 19 = 1 && c.layer.isNone then [Todo.signal (cw c.words 4 18 0) (cw c.words 4 63 32) who c.att] else []
  let drain := if (rd s pgColl 0x140).bit 51 && decide (c.epoch = fld s pgColl 0x150 15 0) then
      [Todo.signal (fld s pgColl 0x140 50 32) 1 (unitWho 5 c.tile 0 none) none] else []
  (s, sync ++ drain ++ (if fault && stepRunning s then
    [if status = 0x0A then .fault 7 c.info else .fault 8 status] else []))

/-! ### Signals -/

/-- `TTRACE.WATCHn` of a tile names a counter (R702). -/
def watched (s : State) (i : Nat) : Bool :=
  (List.range 4).any (fun n =>
    let w := rd s (pgTtrace (ctrTile i)) (0x108 + 8 * n)
    w.bit 16 && decide (w.bits 15 0 = i % 2 ^ 16))

/-- A SIGNAL record for a watched counter (R696, R702). -/
def watchSignal (s : State) (i inc : Nat) (who : Word) : State :=
  if watched s i then trace (ctrTile i).val 12 (word (i + inc <<< 32)) who (word (ctr s i).value) s else s

/-- A core's wait ends with a code (R269), unless it has ended. -/
def endWait (s : State) (k : CoreRef) (code : Nat) : State :=
  let c := coreOf s k
  match c.wait with
  | some w =>
    setCore s k { c with wait := some (if w.result.isSome then w else { w with result := some code, ended := s.now }), resLoad := false }
  | none => s

/-- A wait of a core that ended TIMEOUT or ORPHAN in the instant in which a signal satisfies it returns SATISFIED (R271). -/
def sameInstant (s : State) (i : Nat) (c : Core) : Core :=
  match c.wait with
  | some w =>
    if (w.result = some 2 || decide (w.result = some 3)) && decide (w.ctr = i) && decide (w.ended = s.now) && decide (w.e ≤ (ctr s i).value) then
      { c with wait := some { w with result := some 1 } }
    else c
  | none => c

/-- The same for every core whose wait on a counter has ended. -/
def settleInstant (i : Nat) (s : State) : State :=
  (s.cores.filter (fun e => decide (sameInstant s i e.2 ≠ e.2))).foldl
    (fun s e => { s with cores := mset {} s.cores e.1 (sameInstant s i (coreI s e.1)) }) s

/-- Carry out an operation for each element of a list, gathering what is set off. -/
def each {α : Type} (f : State → α → State × List Todo) : List α → State → State × List Todo
  | [], s => (s, [])
  | x :: l, s =>
    let (s, t) := f s x
    let (s, u) := each f l s
    (s, t ++ u)

/-- Every waiter of a counter that its value satisfies is woken: hardware entries, then memory entries in chain order (R274). -/
def wakeSatisfied (s : State) (i : Nat) : State × List Todo :=
  let c := ctr s i
  let sat := fun (w : Waiter) => decide (w.e ≤ c.value)
  let ws := (c.hw.filterMap id).filter sat ++ c.chain.filter sat
  (dropWaiters s i sat, ws.map (fun w => Todo.wake w false))

/-- A signal reaches a counter's store (R253, R265, R281). -/
def doSignal (s : State) (i inc : Nat) (who : Word) (att : Option Nat) : State × List Todo :=
  if !hasTile s (i / 2 ^ 16) then (s, [])
  else if att.isSome && decide (att ≠ some s.step.att) then
    let s := event (pgCtr i) 0x103 1 (addReg s (pgCtr i) 0x180 1)
    (watchSignal s i 0 who, [])
  else
    let c := ctr s i
    let v := c.value + inc
    let v' := min v (2 ^ 64 - 1)
    let s := setCtr s i { c with value := v', overflow := c.overflow || decide (2 ^ 64 ≤ v), lastWho := who, lastTime := s.now }
    let s := if 2 ^ 64 ≤ v then logErr (pgCtr i) errCommand 0 s else s
    let s := event (pgCtr i) 0x100 1 s
    let s := watchSignal s i inc who
    let period := c.cfg.bits 23 8
    let before := (c.value - c.base) / period
    let after := (v' - c.base) / period
    let rel := if c.cfg.bit 1 && decide (period ≠ 0) && decide (before < after) then
        [Todo.signal (c.cfg.bits 42 24) (after - before) who att]
      else []
    let (s, l) := wakeSatisfied (settleInstant i s) i
    (s, l ++ rel)

/-! ### Orphans -/

/-- A task that meets an orphaned counter through a descriptor entry (R278): FENCED if its core is fenced; in a step it waits for the discard, and in
any other slot it ends ORPHANED. -/
def orphanedTask (s : State) (t : Task) : List Todo :=
  if coreFenced s t.core then [.endTask (taskKey t) 6 0 0 false none]
  else if t.att.isSome then []
  else [.endTask (taskKey t) 9 0 0 false none]

/-- A message to a task is stale: the task's tag is quarantined, or has another generation now (R251). -/
def staleTag (s : State) (t : Task) : Bool :=
  let e := mget {} (cluster s (coreCl t.core)).tags t.tag
  e.quarantine.isSome || decide (e.next ≠ (t.gen + 1) % 256)

/-- A stale message is dropped and counted by the tile that drops it (R251). -/
def dropStale (tile : Fin 8) (s : State) : State := event (pgSync tile) 0x104 1 (addReg s (pgSync tile) 0x188 1)

/-- The tag and generation that a waiter's agent word names are those of the task that the core runs; a core without a task waits for itself. -/
def staleWaiter (s : State) (w : Waiter) : Bool :=
  match runningTask s (whoCore w.agent) with
  | some t => staleTag s t || decide (w.agent.bits 31 16 ≠ t.tag % 2 ^ 16) || decide (w.agent.bits 39 32 ≠ t.gen % 2 ^ 8)
  | none => false

/-- A wake message arrives (R251, R274, R278): a task goes on to its next entry or meets the orphan, and a core's wait ends SATISFIED or ORPHAN. -/
def doWake (s : State) (w : Waiter) (orphan : Bool) : State × List Todo :=
  match w.task with
  | some key =>
    match taskAt s key with
    | some t =>
      if staleTag s t then (dropStale t.core.tile s, [])
      else if orphan then (s, orphanedTask s t)
      else (setTask s { t with waitIx := t.waitIx + 1 }, [.test key])
    | none => (dropStale (whoCore w.agent).tile s, [])
  | none => if staleWaiter s w then (dropStale (whoCore w.agent).tile s, []) else (endWait s (whoCore w.agent) (if orphan then 2 else 1), [])

/-- A counter becomes orphaned (R278). -/
def doOrphan (s : State) (i : Nat) (info : Option (Nat × Nat)) : State × List Todo :=
  let c := ctr s i
  if c.orphan then (s, [])
  else
    let ws := c.hw.filterMap id ++ c.chain
    let s := setCtr s i { c with orphan := true }
    let s := dropWaiters s i (fun _ => true)
    (s, ws.map (fun w => Todo.wake w true)
      ++ (if stepRunning s then [match info with | some x => Todo.fault x.1 x.2 | none => .fault 9 i] else []))

/-- Counters that the pieces of a task own (R264, R277). -/
def ownedBy (s : State) (t : Task) : List Nat :=
  let who := (piecesOf s t).map (fun u => (taskWho u).toNat % 2 ^ 40)
  (t.sigs.filter (fun g => g.bit 19)).filterMap (fun g =>
    let o := (ctr s (g.bits 18 0)).owner.toNat
    if o ≠ 0 && who.contains (o % 2 ^ 40) then some (g.bits 18 0) else none)

/-! ### Arming waits -/

/-- Memory wait-list indices in use on a tile. -/
def wlUsed (s : State) (t : Fin 8) : List Nat :=
  (s.ctrs.filter (fun e => decide (ctrTile e.1 = t))).flatMap (fun e => e.2.chain.map (fun w => w.index))

/-- The lowest number that a list does not hold, among 0 to its length. -/
def lowestFree (l : List Nat) : Nat := ((List.range (l.length + 1)).find? (fun n => !l.contains n)).getD 0

/-- The outcome of holding a waiter: held, or no memory entry free (R273, R275). -/
def holdWaiter (s : State) (i : Nat) (w : Waiter) : Option State :=
  let c := ctr s i
  let s := event (pgCtr i) 0x101 1 s
  match (List.range 8).find? (fun n => (c.hw.getD n none).isNone) with
  | some n => some (setCtr s i { c with hw := c.hw.set n (some w) })
  | none =>
    let used := fld s (pgCtr i) 0x170 23 0
    if used < fldA s (pgCtr i) 0x168 23 0 then
      let w := { w with index := lowestFree (wlUsed s (ctrTile i)) }
      let s := match c.chain.getLast? with
        | some p => wrWords s (wlAddr s i p.index) (wlWords i p w.index)
        | none => s
      let s := wrWords s (wlAddr s i w.index) (wlWords i w wlEnd)
      let s := setFld s (pgCtr i) 0x170 23 0 (used + 1)
      let s := if fld s (pgCtr i) 0x170 47 24 < used + 1 then setFld s (pgCtr i) 0x170 47 24 (used + 1) else s
      let s := event (pgCtr i) 0x102 1 s
      some (setCtr s i { ctr s i with chain := c.chain ++ [w] })
    else none

/-- A task tests its next wait entry (R242, R266, R275, R278). -/
def doTest (s : State) (key : TaskKey) : State × List Todo :=
  match taskAt s key with
  | none => (s, [])
  | some t =>
    if t.state ≠ .waiting then (s, [])
    else if t.ctrl.bits 18 16 ≤ t.waitIx then (setTask s { t with state := .ready }, [])
    else
      let w := t.waits.getD t.waitIx 0
      let i := w.bits 18 0
      let c := ctr s i
      let e := if w.bit 19 then c.base + w.bits 63 20 else w.bits 63 20
      if 2 ^ 64 ≤ e then
        (s, .endTask key 7 0 0 false none :: (if t.att.isSome then [.fault 26 i] else []))
      else if e ≤ c.value then (setTask s { t with waitIx := t.waitIx + 1 }, [.test key])
      else if c.orphan then (s, orphanedTask s t)
      else
        match holdWaiter s i ⟨e, taskWho t, some key, true, 0, 0⟩ with
        | some s => (s, [])
        | none =>
          let s := setFld s (pgCtr i) 0x170 48 48 1
          (s, .endTask key 8 0 0 false none :: (if t.att.isSome then [.fault 16 (ctrTile i).val] else []))

/-! ### Ends of tasks -/

/-- MODULE of a global core address: the torus coordinate, where that is valid (R138). -/
def moduleId (s : State) : Nat := if (rd s pgIdent 0x140).bit 24 then ownCoord s else 0

/-- A core's global address. -/
def coreId (s : State) (k : CoreRef) : Nat := coreAddr k + moduleId s <<< 12

/-- Straggler time of the attempt when the last task of the step has ended (R317). -/
def straggler (s : State) (n : Nat) : State :=
  match s.step.coreEnds with
  | [] => s
  | e :: l =>
    let first := l.foldl (fun a b => if b.2 < a then b.2 else a) e.2
    let last := l.foldl (fun a b => if a.2 < b.2 then b else a) e
    let d := sat 32 (last.2 - first)
    let who := coreId s (coreAt last.1)
    let s := wr s (pgGranger 0) 0x198 (word (d + who <<< 32))
    let t := (s.tasks.filter (fun t => decide (t.slot = n) && decide (coreIdx t.core = last.1) && decide (t.endTime = last.2))).head?
    let w3 := match t with | some t => word (t.tag + t.gen <<< 16 + t.ctrl.bits 47 32 <<< 24) | none => 0
    report 0 4 n s.step.att (word (d + who <<< 32)) w3 s

/-- Speed of a core in Mbeat/s: the lesser of f and the cluster's CAP (R297). -/
def speedOf (s : State) (k : CoreRef) : Nat :=
  min (coreOf s k).speed (fld s (.cluster (coreCl k)) 0x120 47 32)

/-- Every piece of every task of a slot has ended. -/
def slotTasksEnded (s : State) (n : Nat) : Bool :=
  (s.tasks.filter (fun t => decide (t.slot = n))).all (fun t => decide (t.state = .ended))

/-- Signals of a task, in entry order (R244). -/
def taskSignals (t : Task) : List Todo :=
  t.sigs.map (fun g => .signal (g.bits 18 0) (g.bits 63 32) (taskWho t) t.att)

/-- A task of a slot that is not a step ended other than DONE or SKIPPED (R567): FIRST_BAD is loaded, every other task of the slot stops
and ends DISCARDED, and the slot ends FAULTED. -/
def failSlot (s : State) (t : Task) (status : Nat) : State :=
  let x := slot s t.slot
  let s := setSlot s t.slot { x with firstBad := if x.firstBad = 0 then word (t.desc + status <<< 48) else x.firstBad }
  let s := stopTasks s t.slot
  let s := retireTags s t.slot
  if (slot s t.slot).state = .running then endSlot s t.slot .faulted 3 3 else s

/-- Evidence of a DONE task with TOKENS not 0 (R296): its pair, beats by its core's f, and tokens; a piece has those of its COUNT (R315). -/
def workSample (s : State) (t : Task) (status : Nat) : List (Nat × Nat × Nat) :=
  let all := t.workWord.bits 24 0
  let piece := t.arg1.bits 47 24
  let tokens := if t.ctrl.bit 13 && decide (all ≠ 0) && decide (piece ≠ 0) then piece else all
  if status = 1 && decide (tokens ≠ 0) then
    [(t.ctrl.bits 47 32 * 16 + t.ctrl.bits 11 8, (s.now - t.startTime) * (coreOf s t.core).speed / 1000, tokens)]
  else []

/-- The task's state as it ends. -/
def closeTask (s : State) (t : Task) (status exit cause : Nat) (deferred : Bool) : State × Task :=
  let s := dropAllWaiters s (waiterOf t)
  let ran := decide (t.state = .running)
  let s := if ran then freeCore s t.core else s
  let t' := { t with state := .ended, status := status, exit := exit, cause := cause, deferred := deferred, endTime := s.now }
  let s := setTask s t'
  let s := trace t.core.tile.val 5 (taskWho t) (resultWord status exit cause (t.att.getD 0) s.now deferred) (word t.desc) s
  let s := if t.att.isSome then
      { s with step := { s.step with
          coreEnds := if ran then mset 0 s.step.coreEnds (coreIdx t.core) s.now else s.step.coreEnds
          workSamples := s.step.workSamples ++ (if ran then workSample s t status else []) } }
    else s
  (s, t')

/-- A task ends (R244, R245, R260, R277, R316, R567). -/
def doEndTask (s : State) (key : TaskKey) (status exit cause : Nat) (deferred : Bool)
    (info : Option (Nat × Nat)) : State × List Todo :=
  match taskAt s key with
  | none => (s, [])
  | some t =>
    if t.state = .ended then (s, [])
    else
      let own := ownedBy s t
      let (s, t') := closeTask s t status exit cause deferred
      let good := decide (status = 1) || decide (status = 2)
      let s := if deferred then takeDeferred s else s
      let orphans := if good || deferred then [] else own.map (fun i => Todo.orphan i info)
      let faults := if !deferred && t.att.isSome && !taskSpec t && (decide (status = 3) || decide (status = 4)) then
          [Todo.fault 5 cause] else []
      let ps := piecesOf s t
      if ps.all (fun u => decide (u.state = .ended)) then
        let allGood := ps.all (fun u => decide (u.status = 1) || decide (u.status = 2))
        let apply := ps.all (fun u => decide (u.status = 1) || decide (u.status = 2) || u.deferred)
        let s := writeResult s ps t'
        let s := countEnded s t.slot (!allGood)
        let s := if taskSpec t then s else ps.foldl retireTag s
        let s := if t.att.isNone && !allGood then failSlot s t ((pieceStatus ps).getD t').status else s
        let s := if slotTasksEnded s t.slot then
            if t.att.isSome then (if good || deferred then straggler s t.slot else s)
            else if (slot s t.slot).state = .running then setSlot s t.slot { slot s t.slot with state := .draining } else s
          else s
        (s, (if apply then taskSignals t else []) ++ orphans ++ faults)
      else (s, orphans ++ faults)

/-! ### Carrying out -/

/-- One operation. -/
def doTodo (s : State) : Todo → State × List Todo
  | .signal i inc who att => doSignal s i inc who att
  | .wake w orphan => doWake s w orphan
  | .test k => doTest s k
  | .endTask k st ex ca d info => doEndTask s k st ex ca d info
  | .orphan i info => doOrphan s i info
  | .fault code info => takeFault s code info
  | .collDone c st => collComplete s c st

/-- What is carried out next: the first of the highest class, since a higher class passes a lower one at every node and one class keeps its order
(R405, R406). -/
def nextTodo (l : List Todo) : Option Todo :=
  match l.find? (fun t => decide (t.cls = 0)) with
  | some t => some t
  | none => l.head?

/-- Take the next operation from the control network. -/
def takeTodo (t : Todo) (s : State) : State := { s with control := s.control.erase t }

/-- Send operations. -/
def send (l : List Todo) (s : State) : State := { s with control := s.control ++ l }

/-- Carry out what the control network holds, with what that sets off; fuel bounds the chain. A message reaches any node within the instant of its
command (R406; log entry 146). -/
def runFuel : Nat → State → State
  | 0, s => s
  | n + 1, s =>
    match nextTodo s.control with
    | none => s
    | some t =>
      let r := doTodo (takeTodo t s) t
      runFuel n (send r.2 r.1)

/-- A bound on the operations that a list can set off: every task ends once and tests each entry once, every counter is orphaned once and wakes each
of its waiters once, every collective command completes once, and a signal's releases pass each counter at most once. -/
def runBound (s : State) (l : List Todo) : Nat :=
  (l.length + s.control.length + 6 * s.tasks.length + s.coll.queue.length + s.cores.length + 4) * (s.ctrs.length + 3)
    + 16 * s.tasks.length + 64

/-- Carry out operations. -/
def run (l : List Todo) (s : State) : State := runFuel (runBound s l) (send l s)

/-- Report a fault to step control. -/
def fault (code info : Nat) (s : State) : State := run [.fault code info] s

/-- Signal a counter. -/
def signal (i inc : Nat) (who : Word) (att : Option Nat) (s : State) : State := run [.signal i inc who att] s

/-! ### Core fences -/

/-- Fence causes (R48). -/
def causeFloor : Nat := 1
def causeThermal : Nat := 2
def causeSelfTest : Nat := 3
def causeFault : Nat := 4

/-- INFO of a FENCE fault for a core (R707). -/
def coreFenceInfo (s : State) (k : CoreRef) (cause : Nat) : Nat :=
  coreId s k + cause <<< 28

/-- The FENCE trace record (R696). -/
def traceFence (tile unit kind cause : Nat) (s : State) : State :=
  trace tile 11 (word (unit + kind <<< 24)) (word cause) 0 s

/-- Every core of a cluster is fenced (R42): FENCE_STAT shows all sixteen. -/
def allFenced (s : State) (cl : ClusterRef) : Bool := decide (fld s (.cluster cl) 0x130 15 0 = 65535)

/-- Registers of a fenced core: STATE, FENCED, CAUSE and FENCE_STAT (R41, R46, R48). VLOOP_STAT.STATE reads ALL_FENCED from the fence of the last core
(R42). -/
def markFenced (s : State) (k : CoreRef) (cause : Nat) : State :=
  let p := PageRef.cluster (coreCl k)
  let s := setCoreState (noteChange [k] s) k 3
  let s := setFld s p (0x140 + 8 * k.core.val) 35 32 (1 + cause <<< 1)
  let s := wr s p 0x130 (rd s p 0x130 ||| word (2 ^ k.core.val))
  if allFenced s (coreCl k) then setFld s p 0x120 50 48 5 else s

/-- Tasks of slots that are not steps that stand on a core, launched and not ended (R567). -/
def standingOn (s : State) (k : CoreRef) : List Task :=
  s.tasks.filter (fun t => decide (t.core = k) && t.att.isNone && (decide (t.state = .waiting) || decide (t.state = .ready)))

/-- Counters that the live step tasks of a core own: one that has not ended, or a speculative one until its step commits or is discarded (R259,
R277). -/
def liveOwned (s : State) (k : CoreRef) : List Nat :=
  (s.tasks.filter (fun t => decide (t.core = k) && t.att.isSome && (decide (t.state ≠ .ended) || taskSpec t))).flatMap (ownedBy s)

/-- A core is fenced (R41, R44, R277, R567), reporting a fault to a RUNNING step; what the fence orphans is reported as FENCE (R278). A core that is
fenced already keeps its CAUSE (R48); a core in self-test stays fenced. -/
def fenceCoreAs (k : CoreRef) (cause : Nat) (rep : Nat × Nat) (s : State) : State :=
  if coreFenced s k then s
  else
    let ran := runningTask s k
    let s := markFenced s k cause
    let c := dropSpecLines s (coreOf s k)
    let s := setCore s k { c with
      wait := none, resLoad := false, fence := none, fenceDone := none, requests := [], ahead := [], slotStall := false, heldStore := none }
    let s := traceFence k.tile.val (coreId s k) 0 cause s
    let fence := (1, coreFenceInfo s k cause)
    let ends := (match ran with | some t => [Todo.endTask (taskKey t) 6 0 0 false (some fence)] | none => [])
      ++ (standingOn s k).map (fun t => Todo.endTask (taskKey t) 6 0 0 false (some fence))
      ++ (liveOwned s k).map (fun i => Todo.orphan i (some fence))
    run (ends ++ (if stepRunning s then [.fault rep.1 rep.2] else [])) s

/-- A core is fenced by a rate monitor, a temperature or a self-test: the fault is FENCE (R44). -/
def fenceCore (k : CoreRef) (cause : Nat) (s : State) : State := fenceCoreAs k cause (1, coreFenceInfo s k cause) s

end Sys2Proof.Machine
end

