-- ==== Sys2Proof/Machine/Moves.lean ====
section
/-! DEFINITION. The choice of a home (R318), the start of moves (R319, R321, R353), lost homes and their
evacuation (R360, R361), and a poisoned read by an agent of the module (R358, R359). -/

namespace Sys2Proof.Machine

/-- The tile of a bushel without a tile pin: of those below HI_WATER with room, the one with most free near memory; of all tiles where there is none
(R318). -/
def nearTile (s : State) : Nat :=
  let l := ((tilesOf s).map (fun t => t.val)).filter (fun t => nearBelow s t && nearRoom s t)
  match l with
  | [] => freestTile s
  | t :: l => l.foldl (fun a t => if nearCapOf s a - nearUsed s a < nearCapOf s t - nearUsed s t then t else a) t

/-- R318: the first place with room for a bushel that no tier pin places. -/
def chooseHome (s : State) (tilePin : Option Nat) (cold : Bool) : Option Home :=
  let t := tilePin.getD (nearTile s)
  let near := if (match tilePin with | some _ => nearRoom s t | none => nearBelow s t && nearRoom s t) then some (1, t, 0) else none
  let deep := if deepRoom s t then some (2, t, 0) else none
  let pool := if tilePin.isNone && poolRoom s then some (3, 0, 0) else none
  ((if cold then [deep, near, pool] else [near, deep, pool]).filterMap id).head?

/-! ### Moves -/

/-- Commands of a tile's engine, the front first. -/
def streamQ (s : State) (t : Nat) : List StreamCmd := mget [] s.streams t

/-- Set a tile's queue; STAT.QUEUED and BUSY follow (R393). -/
def setStreamQ (s : State) (t : Fin 8) (l : List StreamCmd) : State :=
  let s := { s with streams := mset [] s.streams t.val l }
  setFld (setFld s (pgStream t) 0x108 6 0 l.length) (pgStream t) 0x108 8 8 (b2n !l.isEmpty)

/-- The tile whose streaming engine copies a bushel: that of the new home, or of the old one where the new home lies on no tile (R353, R378; DESIGN
CHOICE, log entry 150). -/
def copierOf (b : Bushel) (h : Home) : Fin 8 := Fin.ofNat 8 (if h.1 ≠ 3 then h.2.1 else if b.tier ≠ 3 then b.tile else 0)

/-- Copies of migrations leave the queues of the streaming engines. -/
def dropCopyCmds (f : Nat → Bool) (s : State) : State :=
  let goes := fun (c : StreamCmd) => match c.move with | some n => f n | none => false
  (tilesOf s).foldl (fun s t => if (streamQ s t.val).any goes then setStreamQ s t ((streamQ s t.val).filter (fun c => !goes c)) else s) s

/-- A bushel is being moved. -/
def moving (s : State) (n : Nat) : Bool := s.mem.moves.any (fun m => decide (m.bushel = n))

/-- A move of a bushel may start: that of a committed bushel only between a step's commit and the next effective launch, but for evacuation (R321,
R361). -/
def mayMove (s : State) (b : Bushel) (trigger : Nat) : Bool := !b.committed || s.granger.afterCommit || decide (trigger = 5)

/-- Start a move: the copy joins the queue of a streaming engine (R353, R378). -/
def startMove (s : State) (n : Nat) (h : Home) (trigger : Nat) : State :=
  match mfind s.mem.bushels n with
  | none => s
  | some b =>
    if moving s n || !mayMove s b trigger then s
    else
      let (k, s) := if h.1 = 1 then takeStack s h.2.1 else (0, s)
      let t := copierOf b h
      let s := setStreamQ s t (streamQ s t.val ++ [⟨none, [], none, unitWho 4 t.val 0 none, 0, some n⟩])
      { s with mem := { s.mem with moves := s.mem.moves ++
        [{ bushel := n, tier := h.1, tile := h.2.1, cluster := h.2.2, trigger := trigger, stack := k, start := s.now }] } }

/-- INFO of a fault that names a home: tier in [3:0], tile in [7:4], controller or cluster in [15:8] (DESIGN CHOICE, log entry 9). -/
def homeInfo (b : Bushel) : Nat :=
  b.tier + b.tile <<< 4 + (if b.tier = 0 then b.cluster else if b.tier = 1 then b.stack % 2 else 2) <<< 8

/-- A bushel's evacuation (R360, R361): to the first place with room; a cluster memory's bushel first to near memory of its own tile.
With no room it stays, and EVAC_FAIL is reported. -/
def evacuateOne (s : State) (n : Nat) : State :=
  match mfind s.mem.bushels n with
  | none => s
  | some b =>
    if moving s n then s
    else
      let target := if b.tier = 0 && nearRoom s b.tile then some (1, b.tile, 0)
        else chooseHome s none (decide (b.hint = 2))
      match target with
      | some h => startMove s n h 5
      | none => fault 18 (homeInfo b) s

/-- Evacuate every bushel whose home a test selects. -/
def evacuate (s : State) (f : Bushel → Bool) : State :=
  ((s.mem.bushels.filter (fun e => f e.2)).map (fun e => e.1)).foldl evacuateOne s

/-- The bushel's home is a controller of a tile: 0 and 1 the stacks, 2 deep memory. -/
def homeIs (t n : Nat) (b : Bushel) : Bool :=
  decide (b.tile = t) && (if n = 2 then decide (b.tier = 2) else decide (b.tier = 1) && decide (b.stack % 2 = n))

/-- The tile whose near memory takes what a lost stack held beside bushels: its own, else the lowest with room. -/
def refuge (s : State) (t : Nat) : Option Nat := if nearRoom s t then some t else ((tilesOf s).map (fun u => u.val)).find? (nearRoom s)

/-- A shadow bushel of a slot leaves a lost stack; with no room it stays, and EVAC_FAIL is reported (R360, R361). -/
def rehomeShadow (t k : Nat) (s : State) (e : Nat × Nat) : State :=
  match refuge s t with
  | none => fault 18 (1 + t <<< 4 + k <<< 8) s
  | some u =>
    let (j, s) := takeStack s u
    let move := fun (x : Nat × Nat × Nat) => if x.1 = e.2 then (x.1, u, j) else x
    { s with mem := { s.mem with
      shadowAlloc := s.mem.shadowAlloc.map (fun x => if x.1 = e.1 then (x.1, x.2.map move) else x)
      bushels := s.mem.bushels.map (fun x => if x.1 = e.2 && x.2.shadow.isSome then (x.1, { x.2 with shadow := some u }) else x) } }

/-- A window copy leaves a lost stack; with no room it is dropped, and its home serves its reads (R360, R368). -/
def rehomeCopy (t : Nat) (s : State) (c : WindowCopy) : State :=
  match refuge s t with
  | none => dropWindow (fun x => decide (x = c)) s
  | some u =>
    let (j, s) := takeStack s u
    { s with mem := { s.mem with copies := s.mem.copies.map (fun x => if x = c then { x with tile := u, stack := j } else x) } }

/-- What a stack of a tile holds beside bushels leaves it, in the event in which the stack is lost (DESIGN CHOICE, log entry 147). -/
def clearStack (t k : Nat) (s : State) : State :=
  let shadows := s.mem.shadowAlloc.flatMap (fun e => (e.2.filter (fun x => decide (x.2 = (t, k)))).map (fun x => (e.1, x.1)))
  let copies := s.mem.copies.filter (fun c => !c.gathered && decide (c.tile = t) && decide (c.stack = k))
  refreshShadowUse (copies.foldl (rehomeCopy t) (shadows.foldl (rehomeShadow t k) s))

/-- A memory controller declares its memory unusable, and evacuation begins (R360). -/
def declareUnusable (t n : Nat) (s : State) : State :=
  let s := setFld s (pgMc (Fin.ofNat 8 t) (Fin.ofNat 3 n)) 0x100 1 0 3
  let s := { s with mem := { s.mem with unusable := setInsert (4 * t + n) s.mem.unusable } }
  let s := evacuate s (homeIs t n)
  if n < 2 then clearStack t n s else s

/-- Count a poisoned read or poisoning; evacuation begins when the count makes a memory unusable (R358, R360). -/
def countPoison (line : Nat) (s : State) : State :=
  let before := s.mem.unusable
  let s := countUe s line
  (s.mem.unusable.filter (fun u => !before.contains u)).foldl (fun s u => declareUnusable (u / 4) (u % 4) s) s

/-- A poisoned read is a fault of a RUNNING step: COMMITTED_POISON in a committed bushel, else MEM_UE (R359). -/
def poisonFault (line : Nat) (s : State) : State :=
  if stepRunning s then
    match bushelAt s (64 * line) with
    | some b => fault (if b.committed then 21 else 4) (homeInfo b) s
    | none => s
  else s

/-- A poisoned read by a core, the row engine, the streaming engine or DMA: the home counts it, and on behalf of a step it is a fault (R358,
R359). -/
def meetPoison (line : Nat) (ofStep : Bool) (s : State) : State :=
  let s := countPoison line s
  if ofStep then poisonFault line s else s

/-! ### Fences of cluster memories and routers -/

/-- INFO of a FENCE fault for a unit of a kind (R707). -/
def unitFenceInfo (s : State) (tile cl low kind cause : Nat) : Nat :=
  low + cl <<< 4 + tile <<< 9 + moduleId s <<< 12 + kind <<< 24 + cause <<< 28

/-- A cluster memory is fenced (R43, R360): it keeps answering, and its bushels are evacuated. -/
def fenceMemory (c : ClusterRef) (cause : Nat) (s : State) : State :=
  if cmFenced s c then s
  else
    let info := unitFenceInfo s c.tile.val c.cluster.val 0 1 cause
    let s := setFld (noteChange (clusterCores c) s) (.cluster c) 0x300 9 8 3
    let s := traceFence c.tile.val (info % 2 ^ 24) 1 cause s
    let s := if stepRunning s then fault 1 info s else s
    evacuate s (fun b => decide (b.tier = 0) && decide (b.tile = c.tile.val) && decide (b.cluster = c.cluster.val))

/-- A router or ring stop is fenced (R437, R439, R440): packets and slotted flits inside it are lost, routes are due for a rewrite, and a
fenced router's cluster memory is evacuated. Nodes 0 to 23 are routers and 24 to 39 ring stops. -/
def fenceNode (t : Fin 8) (n : Nat) (cause : Nat) (s : State) : State :=
  if (rd s (pgNet t) 0x130).bit n then s
  else
    let router := decide (n < 24)
    let info := if router then unitFenceInfo s t.val n 0 2 cause else unitFenceInfo s t.val (n - 24) 0 4 cause
    let s := if router then noteChange (clusterCores ⟨t, Fin.ofNat 24 n⟩) s else s
    let s := wr s (pgNet t) 0x130 (rd s (pgNet t) 0x130 ||| word (2 ^ n))
    let node := 40 * t.val + n
    let s := { s with net := { s.net with
      packets := s.net.packets.filter (fun p => decide (p.node ≠ node))
      buffers := s.net.buffers.filter (fun b => decide (b.node ≠ node))
      rewriteDue := true } }
    let s := traceFence t.val (info % 2 ^ 24) (if router then 2 else 4) cause s
    let s := if stepRunning s then fault 1 info s else s
    if router then
      evacuate s (fun b => decide (b.tier = 0) && decide (b.tile = t.val) && decide (b.cluster = n))
    else s

end Sys2Proof.Machine
end

