-- ==== Sys2Proof/Machine/Rates.lean ====
section
/-! DEFINITION. Rate windows, cluster voltage loops, fences of the rate monitors and the release of fenced cores (R21 to R48, R137,
R194 to R202). -/

namespace Sys2Proof.Machine

/-! ### Effective caps and the voltage loop -/

/-- The thermal cap at a junction temperature in 1/16 °C: 1,900 Mbeat/s up to 95 °C, falling by 80 per degree to 1,100 at 105 °C (R24). -/
def thermalCap (temp16 : Nat) : Nat := max 1100 (1900 - 5 * (temp16 - 1520))

/-- A register value that applies within limits. -/
def clampN (lo hi v : Nat) : Nat := max lo (min hi v)

/-- VMIN, VMAX and RATE_MAX as they apply (R31). -/
def vMin (s : State) (p : PageRef) : Nat := max 550 (fldA s p 0x110 11 0)
def vMax (s : State) (p : PageRef) : Nat := min 850 (fldA s p 0x110 27 16)
def rateMax (s : State) (p : PageRef) : Nat := min 1900 (fldA s p 0x110 47 32)

/-- STEP of the voltage loop; 0 applies as 1 (R33). -/
def vStep (s : State) (p : PageRef) : Nat := max 1 (fldA s p 0x118 3 0)

/-- CAP: the least of RATE_MAX, the thermal cap and the package power loop's cap (R34), never below the floor (R24, R38). -/
def capOf (s : State) (p : PageRef) (temp16 : Nat) : Nat := max 1100 (min (rateMax s p) (min (thermalCap temp16) s.power.cap))

/-- Proportional move for an error: the error shifted right by GAIN_SHIFT, limited to STEP (R33, R35). -/
def propMove (shift stp : Nat) (err : Int) : Int := max (-(stp : Int)) (min stp (err / (2 ^ shift : Nat)))

/-- What the slowest unfenced core is to run at in mode 0b00: RATE within its limits, or the floor for SHARE 0 in mode 0b01 (R30). -/
def rateTarget (s : State) (p : PageRef) : Nat :=
  let mode := fldA s p 0x100 1 0
  if mode = 1 then 1100 else clampN 1100 (max 1100 (rateMax s p)) (fldA s p 0x108 15 0)

/-- The loop pursues a power share (R30, R35): SHARE 0 asks for the floor rate instead. -/
def byShare (s : State) (p : PageRef) : Bool := decide (fldA s p 0x100 1 0 = 1) && decide (fldA s p 0x108 31 16 ≠ 0)

/-- Move of the supply in mV that the loop asks for (R35, R39). In mode 0b01 GAIN_SHIFT applies to the power error in mW, for which R33 names no
gain of its own (DESIGN CHOICE, log entry 122). -/
def loopMove (s : State) (p : PageRef) (slowest power cap thermal : Nat) : Int :=
  let stp := vStep s p
  let shift := fldA s p 0x118 11 8
  let toCap := propMove shift stp ((cap : Int) - slowest)
  let toThermal := propMove shift stp ((thermal : Int) - slowest)
  if (rdA s p 0x100).bit 2 then min 0 toThermal
  else
    if byShare s p then
      min toCap (propMove shift stp ((fldA s p 0x108 31 16 : Int) - power))
    else propMove shift stp ((min (rateTarget s p) cap : Nat) - (slowest : Int))

/-- The supply after a move, at most STEP away and towards VMIN and VMAX where it lies outside them (R35). -/
def movedVolt (lo hi stp v : Nat) (d : Int) : Nat :=
  let t := clampN lo hi ((v : Int) + d).toNat
  clampN (v - stp) (v + stp) t

/-- Rates of a window with their cores. -/
def windowRates (w : ClusterWindow) : List (CoreRef × Nat) :=
  (List.finRange 16).map (fun n => (⟨w.cl.tile, w.cl.cluster, n⟩, w.rates.getD n.val 0))

/-- The rates of cores that are not fenced. -/
def unfencedRates (s : State) (w : ClusterWindow) : List Nat :=
  ((windowRates w).filter (fun e => !coreFenced s e.1)).map (fun e => e.2)

/-- The least of a list. -/
def leastOf : List Nat → Option Nat
  | [] => none
  | a :: l => some (l.foldl min a)

/-- The supply in a window: a supply that bring-up has not yet set is VMIN (DESIGN CHOICE, log entry 11). -/
def presentVolt (s : State) (p : PageRef) : Nat := if fld s p 0x120 11 0 = 0 then vMin s p else fld s p 0x120 11 0

/-- The slowest unfenced core, or the power in mode 0b01, is short of what the loop pursues below a rate limit. -/
def shortOf (s : State) (p : PageRef) (r power limit : Nat) : Bool :=
  if byShare s p then decide (power < fldA s p 0x108 31 16) && decide (r < limit) else decide (r < min (rateTarget s p) limit)

/-- The thermal cap is what keeps the loop from what it pursues. -/
def thermalHolds (s : State) (p : PageRef) (r power cap thermal : Nat) : Bool :=
  decide (thermal ≤ cap) &&
    (if byShare s p then decide (power < fldA s p 0x108 31 16) && decide (thermal ≤ r) else decide (thermal < rateTarget s p))

/-- STATE of the loop (R34): the codes are tested in the order ALL_FENCED, FLOOR_GUARD, FROZEN, THERMAL_LIMIT, AT_VMAX, TRACKING. R34 names the
codes only; this order and the conditions of THERMAL_LIMIT and AT_VMAX are the model's (DESIGN CHOICE, log entry 123). -/
def loopState (s : State) (p : PageRef) (slowest : Option Nat) (power cap thermal v : Nat) : Nat :=
  match slowest with
  | none => 5
  | some r =>
    if r < 1100 then 3
    else if (rdA s p 0x100).bit 2 then 2
    else if thermalHolds s p r power cap thermal then 4
    else if v = vMax s p && shortOf s p r power cap then 1
    else 0

/-- The new supply of a window (R35, R37, R42). A frozen supply is lowered for the thermal cap alone, and not below VMIN (R39). With every core
fenced the supply falls to VMIN, also when the loop is frozen (DESIGN CHOICE, log entry 124). -/
def nextVolt (s : State) (p : PageRef) (slowest : Option Nat) (power cap thermal v : Nat) : Nat :=
  match slowest with
  | none => vMin s p
  | some r =>
    if r < 1100 then max v (min 850 (v + vStep s p))
    else if (rdA s p 0x100).bit 2 then max (min v (vMin s p)) (v - (loopMove s p r power cap thermal).natAbs)
    else movedVolt (vMin s p) (vMax s p) (vStep s p) v (loopMove s p r power cap thermal)

/-- A core of the cluster runs its floor self-test: the supply is 0.85 V for it (R47). -/
def selfTesting (s : State) (c : ClusterRef) : Bool :=
  (List.finRange 16).any (fun n => (coreOf s ⟨c.tile, c.cluster, n⟩).floorTest)

/-- VOLTAGE_LOOP_UPDATE and FLOOR_GUARD (R35, R37): VLOOP_STAT and FLOOR_EVENTS of a cluster. -/
def voltageLoop (w : ClusterWindow) (s : State) : State :=
  let p := PageRef.cluster w.cl
  let slowest := leastOf (unfencedRates s w)
  let thermal := thermalCap w.temp16
  let cap := capOf s p w.temp16
  let v := presentVolt s p
  let v' := if selfTesting s w.cl then 850 else nextVolt s p slowest w.power cap thermal v
  let st := loopState s p slowest w.power cap thermal v'
  let s := wr s p 0x120 (word (v' % 4096 + (slowest.getD 0 % 65536) <<< 16 + cap <<< 32 + st <<< 48))
  match slowest with
  | some r => if r < 1100 then event p 0x102 1 (addReg s p 0x128 1) else s
  | none => s

/-! ### Rate monitors -/

/-- CORE_RATEn of a window: RATE, and MIN since the previous read (R48); the first window since reset loads MIN. -/
def noteRate (s : State) (k : CoreRef) (r : Nat) : State :=
  let p := PageRef.cluster (coreCl k)
  let off := 0x140 + 8 * k.core.val
  let c := coreOf s k
  let m := if c.rateSeen then min (fld s p off 31 16) r else r
  setFld (setCore s k { c with rateSeen := true }) p off 31 0 (r % 65536 + (m % 65536) <<< 16)

/-- Granger's filter of a core's speed evidence (R296, R297): f ← f + (m − f) >> RATE_TC. -/
def filterSpeed (s : State) (k : CoreRef) (r : Nat) : State :=
  let c := coreOf s k
  let tc := min 8 (fldA s (pgGranger 0) 0x110 3 0)
  if !c.speedLoaded then setCore s k { c with speed := r, speedLoaded := true }
  else if (rdA s (pgGranger 0) 0x100).bit 0 then s
  else setCore s k { c with speed := ((c.speed : Int) + ((r : Int) - c.speed) / (2 ^ tc : Nat)).toNat }

/-- Count of windows below the floor in a counted window (R40). -/
def countLow (s : State) (k : CoreRef) (r : Nat) : State :=
  let c := coreOf s k
  setCore s k { c with lowWindows := if r < 1100 then c.lowWindows + 1 else 0 }

/-- FLOOR_LOSS_FENCE (R40): in a counted window a core that is below the floor for the second window in a row is fenced. -/
def floorLoss (counted : Bool) (e : CoreRef × Nat) (s : State) : State :=
  if coreFenced s e.1 || !counted then s
  else
    let s := countLow s e.1 e.2
    if 2 ≤ (coreOf s e.1).lowWindows then fenceCore e.1 causeFloor s else s

/-- DOMAIN_FLOOR_FENCE (R43) and CM_RATE (R396). -/
def domainWindow (w : ClusterWindow) (s : State) : State :=
  let c := cluster s w.cl
  let lm := if w.memRate < 1100 then c.lowMem + 1 else 0
  let lr := if w.routerRate < 1100 then c.lowRouter + 1 else 0
  let p := PageRef.cluster w.cl
  let low := if c.cmRateSeen then min (fld s p 0x320 31 16) w.memRate else w.memRate
  let s := wr s p 0x320 (word (w.memRate % 65536 + (low % 65536) <<< 16))
  let s := setCluster s w.cl { c with lowMem := lm, lowRouter := lr, temp16 := w.temp16, window := some s.now, cmRateSeen := true }
  let s := if 2 ≤ lm then fenceMemory w.cl causeFloor s else s
  if 2 ≤ lr then fenceNode w.cl.tile w.cl.cluster.val causeFloor s else s

/-- A window of a core's floor self-test (R47): one through the whole of which the test ran and the supply was 0.85 V counts, and the test is of 64
of them. -/
def selfTestWindow (counted : Bool) (e : CoreRef × Nat) (s : State) : State :=
  let c := coreOf s e.1
  if !c.floorTest then s
  else
    match c.selfWindows with
    | none => setCore s e.1 { c with selfWindows := some 0 }
    | some n =>
      if counted && decide (n < 64) then
        setCore s e.1 { c with selfWindows := some (n + 1), selfLow := c.selfLow || decide (e.2 < 1100) }
      else s

/-- With every core fenced the supply falls to VMIN (R42), but for a core's self-test (R47). -/
def allFencedVolt (cl : ClusterRef) (s : State) : State :=
  if allFenced s cl && !selfTesting s cl then setFld s (.cluster cl) 0x120 11 0 (vMin s (.cluster cl)) else s

/-- One cluster's window: the loop works on the cores that were not fenced in it; then thermal and floor-loss fences take effect. A cluster's window
ends once at a Beacon time. -/
def clusterWindow (s : State) (w : ClusterWindow) : State :=
  if !hasTile s w.cl.tile.val || decide ((cluster s w.cl).window = some s.now) then s
  else
    let counted := decide (fld s (.cluster w.cl) 0x120 11 0 = 850)
    let rates := windowRates w
    let s := rates.foldl (fun s e => filterSpeed (noteRate s e.1 e.2) e.1 e.2) s
    let s := voltageLoop w s
    let s := rates.foldl (fun s e => selfTestWindow counted e s) s
    let s := if 1680 ≤ w.temp16 then rates.foldl (fun s e => fenceCore e.1 causeThermal s) s else s
    let s := rates.foldl (fun s e => floorLoss counted e s) s
    allFencedVolt w.cl (domainWindow w s)

/-- CONTROL_FAIL (R407): a control node below the floor in two windows in a row takes the module out of its job. -/
def controlWindow (s : State) (e : Nat × Nat) : State :=
  let n := mget 0 s.net.controlLow e.1
  let n' := if e.2 < 1100 then n + 1 else 0
  let s := { s with net := { s.net with controlLow := mset 0 s.net.controlLow e.1 n' } }
  if n' = 2 then fault 24 e.1 s else s

/-- The control nodes' windows, once at a Beacon time. -/
def controlWindows (rates : List Nat) (s : State) : State :=
  if rates.isEmpty || decide (s.net.controlWindow = some s.now) then s
  else (List.zip (List.range rates.length) rates).foldl controlWindow { s with net := { s.net with controlWindow := some s.now } }

/-- RATE_WINDOW_END (R26): the rate monitors of the clusters listed close their windows, at a Beacon multiple of 1,024 BT ns; the reports of one time
may come in several commands (DESIGN CHOICE, log entry 90). `controlRates` are those of the control nodes in node order. -/
def rateWindowEnd (windows : List ClusterWindow) (controlRates : List Nat) (s : State) : State :=
  if s.now % 1024 ≠ 0 then s else controlWindows controlRates (windows.foldl clusterWindow s)

def execRateWindowEnd (windows : List ClusterWindow) (controlRates : List Nat) (s : State) : Out' :=
  .next (rateWindowEnd windows controlRates s)

/-! ### Release -/

/-- Architectural registers of a core at their reset values (R137): registers, descriptors, CSRs, weights. -/
def coreRegsReset (c : Core) : Core :=
  { c with x := [], pc := 0, machine := true, csrs := [], tds := [], v := [], active := none, shadow := none, filling := false,
           reservation := none, waitVal := 0, wait := none, resLoad := false, fence := none, fenceDone := none, heldStore := none, slotStall := false }

/-- A release begins (R46, R47, R197): the core's registers return to their reset values, its weights are invalid, and the array self-test
runs first where R194 asks for it. -/
def releaseCore (s : State) (k : CoreRef) : State :=
  let c := coreOf s k
  let s := setCore s k { coreRegsReset c with arrayTest := c.needArrayTest, floorTest := !c.needArrayTest, lowWindows := 0, selfWindows := none, selfLow := false }
  let s := setFld s (.core k) 0x100 3 3 0
  setCoreState s k 4

/-- One bit of an UNFENCE write: a fenced core is released, a core in self-test or not fenced is not affected, and a core with a disable
record stays fenced and is logged (R46, R47, R202). -/
def unfenceOne (cl : ClusterRef) (value : Word) (s : State) (n : Fin 16) : State :=
  let k : CoreRef := ⟨cl.tile, cl.cluster, n⟩
  if value.bit n.val && decide (coreState s k = 3) then
    if coreDisabled s k then logErr (.cluster cl) errState 0x138 s else releaseCore s k
  else s

/-- A write of UNFENCE names cores, and all of them are in a self-test: it has no effect and is not logged (R47). -/
def unfenceSelfTest (cl : ClusterRef) (value : Word) (s : State) : Bool :=
  let named := (List.finRange 16).filter (fun n => value.bit n.val)
  !named.isEmpty && named.all (fun n => decide (coreState s ⟨cl.tile, cl.cluster, n⟩ = 4))

/-- UNFENCE (R46, R47): a write of `CLUSTER.UNFENCE`. -/
def doUnfence (cl : ClusterRef) (value : Word) (s : State) : State :=
  let p := PageRef.cluster cl
  let s := logIf (decide (value.toNat / 2 ^ 16 ≠ 0)) p errReserved 0x138 s
  if slotsQuiet s then (List.finRange 16).foldl (unfenceOne cl value) s
  else if unfenceSelfTest cl value s then s
  else logErr p errState 0x138 s

def execUnfence (r : Requester) (cl : ClusterRef) (value : Word) (s : State) : Out' :=
  byAt s r cl.tile (doUnfence cl value)

/-! ### Self-tests and repair -/

/-- A core stays fenced, or becomes fenced, with cause SELF_TEST (R47, R48, R197). -/
def failSelfTest (k : CoreRef) (s : State) : State :=
  let s := fenceCore k causeSelfTest s
  let s := markFenced s k causeSelfTest
  let c := coreOf s k
  setCore s k { c with arrayTest := false, floorTest := false }

/-- Records of an array as blown (R198). -/
def recordsOf (s : State) (k : CoreRef) (arrayB : Bool) : List Nat := mget [] s.keeper.records (2 * coreIdx k + b2n arrayB)

/-- The record in force for a regular line: the latest blown for it (R200). -/
def repairFor (rs : List Nat) (column : Bool) (line : Nat) : Option Nat :=
  (rs.filter (fun r => decide (r % 4 = (if column then 2 else 1)) && decide (r / 4 % 64 = line))).getLast?

/-- A spare of a kind that neither a field record of the array nor its factory fuses use (R196, R199, R200): the one spare row, or one of the two spare
columns, the lower first. Which spares the factory fuses use is a constant of the part (log entry 12). -/
def freeSpare (array : Nat) (rs : List Nat) (column : Bool) : Option Nat :=
  if column then
    (List.range 2).find? (fun sp => !rs.any (fun r => decide (r % 4 = 2) && decide (r / 256 % 2 = sp)) && !Config.factorySpare array (1 + sp))
  else if rs.any (fun r => decide (r % 4 = 1)) || Config.factorySpare array 0 then none else some 0

/-- The regular line that a faulty line leaves without a working one: itself, or the line that a spare stands for by the record in force (R200). -/
def faultyLine (rs : List Nat) (l : ArrayLine) : Option Nat :=
  if !l.spare then some l.line.val
  else (List.range 64).find? (fun n => match repairFor rs l.column n with
    | some r => !l.column || decide (r / 256 % 2 = l.line.val)
    | none => false)

/-- Blow a record: it is one-time, and it is entered in the field-fuse log (R198, R634). -/
def blowRecord (s : State) (k : CoreRef) (arrayB : Bool) (r : Nat) : State :=
  let entry := word (r + (k.core.val + k.cluster.val <<< 4 + k.tile.val <<< 9) <<< 16 + (s.now / 2 ^ 30 % 2 ^ 32) <<< 32)
  { s with keeper := { s.keeper with
      records := mset [] s.keeper.records (2 * coreIdx k + b2n arrayB) (recordsOf s k arrayB ++ [r])
      fuseLog := s.keeper.fuseLog ++ [entry]
      fuseCount := s.keeper.fuseCount + 1
      mirrorDue := true } }

/-- Cores with a disable record in force (R199, R202), by index. -/
def disabledCores (s : State) : List Nat :=
  ((s.keeper.records.filter (fun e => e.2.any (fun r => decide (r % 4 = 3)))).map (fun e => e.1 / 2)).eraseDups

/-- Totals of `IDENT.REPAIR` (R615): repairs and disabled cores. -/
def refreshRepair (s : State) : State :=
  let all := s.keeper.records.flatMap (fun e => e.2)
  setFld s pgIdent 0x148 31 0 (sat 16 all.length + sat 16 (disabledCores s).length <<< 16)

/-- A frame that the module sends upstream (R625): its SRC is the chain address, 0x0FFF while it has none (R627). -/
def chainSend (kind status seq part : Nat) (data : List Byte) (s : State) : State :=
  let o : ChainOut := ⟨fld s pgIdent 0x140 11 0, kind, status, seq, part, data⟩
  { s with out := { s.out with chain := s.out.chain ++ [o] } }

/-- An EVENT frame (R625, R627). -/
def chainEvent (code : Nat) (s : State) : State := chainSend 0x81 0 0 0 (leBytes code 2) s

/-- The Keeper reports REPAIR_EXHAUSTED (R201), for which R625 gives no frame: it leaves the module under a kind of the model's own. -/
def keeperEvent (code : Nat) (data : List Byte) (s : State) : State := chainSend 0x90 code 0 0 data s

/-- Report code of REPAIR_EXHAUSTED (the spec gives no number; DESIGN CHOICE, log entry 13). -/
def repairExhausted : Nat := 1

/-- FIELD_REPAIR (R198 to R201): a faulty regular line, or the one whose spare is faulty, takes a free spare of its kind; with none free a disable
record is blown if a record is free, and REPAIR_EXHAUSTED is reported. Each array has four records. A line that the array does not have and a spare
that stands for no line need none. -/
def fieldRepair (k : CoreRef) (l : ArrayLine) (s : State) : State :=
  let rs := recordsOf s k l.arrayB
  match (if l.exists? then faultyLine rs l else none) with
  | none => s
  | some n =>
    let s := match (if rs.length < 4 then freeSpare (2 * coreIdx k + b2n l.arrayB) rs l.column else none) with
      | some sp => blowRecord s k l.arrayB ((if l.column then 2 else 1) + n <<< 2 + sp <<< 8 + b2n l.arrayB <<< 9)
      | none =>
        let s := if rs.length < 4 then blowRecord s k l.arrayB (3 + b2n l.arrayB <<< 9) else s
        keeperEvent repairExhausted [] s
    refreshRepair s

/-- Field repair is off at bring-up: SET_FLAGS.REPAIR_DIS (R198, R637). -/
def repairDisabled (s : State) : Bool := (rdA s pgSettings 0x118).bit 0

/-- The module is in the TILES stage of bring-up (R616, R643). -/
def inTilesStage (s : State) : Bool := decide (fld s pgIdent 0x138 3 0 = 5)

/-- The core leaves the fence (R47): IDLE, not FENCED, CAUSE 0, and Granger loads its speed anew (R297). -/
def leaveFence (k : CoreRef) (s : State) : State :=
  let p := PageRef.cluster (coreCl k)
  let s := setCoreState (noteChange [k] s) k 0
  let s := setFld s p (0x140 + 8 * k.core.val) 35 32 0
  let s := wr s p 0x130 (rd s p 0x130 &&& ~~~(word (2 ^ k.core.val)))
  let c := coreOf s k
  setCore s k { c with floorTest := false, speedLoaded := false, lowWindows := 0 }

/-- The core is fenced with cause SELF_TEST and has no disable record: at bring-up it may pass after its repair (R197, R643). -/
def awaitsRetest (s : State) (k : CoreRef) : Bool :=
  inTilesStage s && decide (coreState s k = 3) && !coreDisabled s k
  && decide (fld s (.cluster (coreCl k)) (0x140 + 8 * k.core.val) 35 33 = causeSelfTest)

/-- ARRAY_SELF_TEST (R197): the array self-test of a core completes. A core that passes goes on to the floor self-test of its release; one
that fails stays fenced with cause SELF_TEST, and its faulty line is repaired. At bring-up a repair may be disabled, and a core that passes once
it is repaired is fenced no longer (R643). The test runs in a release, on a fenced core, or in the TILES stage; at any other time there is no test
to complete. -/
def arraySelfTestDone (k : CoreRef) (faulty : Option ArrayLine) (s : State) : State :=
  let c := coreOf s k
  if !(c.arrayTest || inTilesStage s) then s
  else
    match faulty with
    | none =>
      if c.arrayTest then setCore s k { c with arrayTest := false, needArrayTest := false, floorTest := true, selfWindows := none, selfLow := false }
      else if awaitsRetest s k then leaveFence k s
      else s
    | some l =>
      let s := failSelfTest k s
      if inTilesStage s && repairDisabled s then s else fieldRepair k l s

def execArraySelfTest (k : CoreRef) (faulty : Option ArrayLine) (s : State) : Out' :=
  atTile s k.tile (arraySelfTestDone k faulty)

/-- FLOOR_SELF_TEST_END (R47): after 64 rate windows at 0.85 V the core leaves the fence, if no window was below the floor. -/
def floorTestEnd (k : CoreRef) (s : State) : State :=
  let c := coreOf s k
  if !c.floorTest || decide (c.selfWindows ≠ some 64) then s
  else if c.selfLow then failSelfTest k s
  else leaveFence k s

def execFloorSelfTestEnd (k : CoreRef) (s : State) : Out' := atTile s k.tile (floorTestEnd k)

/-! ### Reads with a side effect -/

/-- What a read answers its requester. -/
def reply (w : Word) (s : State) : State := { s with out := { s.out with reply := .word w } }

/-- CORE_RATE_READ (R48): returns the register and resets MIN to the present rate, in one event. -/
def readCoreRate (k : CoreRef) (s : State) : State :=
  let p := PageRef.cluster (coreCl k)
  let off := 0x140 + 8 * k.core.val
  let w := rd s p off
  reply w (setFld s p off 31 16 (w.bits 15 0))

def execCoreRateRead (k : CoreRef) (s : State) : Out' := atTile s k.tile (readCoreRate k)

/-- CM_RATE_READ (R396): returns the register and resets the lowest rate to the present one. -/
def readCmRate (cl : ClusterRef) (s : State) : State :=
  let p := PageRef.cluster cl
  let w := rd s p 0x320
  reply w (setFld s p 0x320 31 16 (w.bits 15 0))

def execCmRateRead (cl : ClusterRef) (s : State) : Out' := atTile s cl.tile (readCmRate cl)

end Sys2Proof.Machine
end

