-- ==== Sys2Proof/Machine/Servo.lean ====
section
/-! DEFINITION. The Beacon servo: exchanges, parents, holdover, step correction, and the master with its reference inputs (R52 to R75,
R704, R705). -/

namespace Sys2Proof.Machine

/-- Servo states (R62). -/
def svFree : Nat := 0
def svAcquire : Nat := 1
def svLocked : Nat := 2
def svHoldover : Nat := 3
def svUnlocked : Nat := 4

def servo (s : State) : Nat := fld s pgBeacon 0x110 2 0
def setServo (s : State) (v : Nat) : State := setFld s pgBeacon 0x110 2 0 v

/-- FIRST_LOCK and STEP_REQUIRED of `BEACON.STAT` (R73). -/
def firstLock (s : State) : Bool := (rd s pgBeacon 0x110).bit 13
def stepRequired (s : State) : Bool := (rd s pgBeacon 0x110).bit 30

/-- The active role is master (R72). -/
def isMaster (s : State) : Bool := (rdA s pgBeacon 0x108).bit 0

/-- REF_SEL selects the 10 MHz input, the 1PPS input (R72). -/
def sel10M (s : State) : Bool := (rdA s pgBeacon 0x108).bit 1
def selPps (s : State) : Bool := (rdA s pgBeacon 0x108).bit 2

/-- A peer port. -/
def port (s : State) (n : Nat) : Port := mget {} s.ports n
def setPort (s : State) (n : Nat) (p : Port) : State := { s with ports := mset {} s.ports n p }

/-- LINK_STAT.STATE of a port (R462). -/
def linkState (s : State) (n : Fin 6) : Nat := fld s (pgPeer n) 0x110 2 0

/-- What an ACTIVE port leads to: hops of this module to the master through it, and the master's coordinate (R57). -/
def portLead (s : State) (n : Fin 6) : Option (Nat × Nat) := if linkState s n = 5 then (port s n.val).lead else none

/-- The port with the fewest hops, the lower number first (R57). -/
def bestPort (s : State) : Option (Fin 6) :=
  (List.finRange 6).foldl (fun a n =>
    match portLead s n with
    | none => a
    | some l => match a with
      | none => some n
      | some m => match portLead s m with
        | some k => if l.1 < k.1 then some n else a
        | none => some n) none

/-- The parent that a follower takes: PARENT_PORT under PARENT_FIX, else the best port, among ports that lead to a master (R57, R72). -/
def chooseParent (s : State) : Option (Fin 6) :=
  if (rdA s pgBeacon 0x108).bit 3 then
    let n : Fin 6 := Fin.ofNat 6 (fldA s pgBeacon 0x108 6 4)
    if (portLead s n).isSome then some n else none
  else bestPort s

/-- The present parent port: none on the master, and none while the servo has no parent. -/
def parentPort (s : State) : Option (Fin 6) :=
  if isMaster s then none
  else
    let n := fld s pgBeacon 0x110 6 4
    if servo s = svAcquire || servo s = svLocked || (decide (servo s = svUnlocked) && stepRequired s) then
      if n < 6 then some (Fin.ofNat 6 n) else none
    else none

/-- PARENT, HOPS and MASTER_COORD follow the parent (R73). -/
def setParent (s : State) (n : Option (Fin 6)) : State :=
  match n with
  | none => setFld (setFld s pgBeacon 0x110 6 4 7) pgBeacon 0x110 12 8 0
  | some n =>
    let l := (portLead s n).getD (0, 0)
    setFld (setFld (setFld s pgBeacon 0x110 6 4 n.val) pgBeacon 0x110 12 8 (sat 5 l.1)) pgBeacon 0x110 27 16 l.2

/-- The count of good exchanges starts again. -/
def clearGood (s : State) : State := { s with beacon := { s.beacon with goodExchanges := 0 } }

/-- The servo enters LOCKED: FIRST_LOCK is set, NO_MASTER clears, and an EPOCH_SET that has not been applied is dropped with the window in
which R70 accepts it (R62, R65, R704). -/
def enterLocked (s : State) : State :=
  let s := setFld (setFld (setServo s svLocked) pgBeacon 0x110 13 13 1) pgBeacon 0x110 29 29 0
  { s with beacon := { s.beacon with goodExchanges := 0, epochPending := none } }

/-- The servo enters ACQUIRE. -/
def enterAcquire (s : State) : State := clearGood (setServo s svAcquire)

/-- The servo enters UNLOCKED with STEP_REQUIRED (R61); from HOLDOVER, that is a fault of a RUNNING step (R64). -/
def enterStepRequired (s : State) : State :=
  let from3 := decide (servo s = svHoldover) && stepRunning s
  let s := clearGood (setFld (setServo s svUnlocked) pgBeacon 0x110 30 30 1)
  if from3 then fault 3 0 s else s

/-- OFFSET and DELAY of an exchange (R74, R497): signed values in 1/16 BT ns. -/
def noteOffset (s : State) (n : Fin 6) (x : BeaconSample) : State :=
  let off := (x.offset16 % 2 ^ 32).toNat
  let del := (x.delay16 % 2 ^ 32).toNat
  setFld (wr s pgBeacon 0x118 (word (off + del <<< 32))) (pgPeer n) 0x168 31 0 del

/-- The servo holds its rate correction (R72). -/
def frozen (s : State) : Bool := (rdA s pgBeacon 0x108).bit 7

/-- The servo sets its rate correction, within ±50 ppm (R60), unless it is frozen (R72). R75 gives the gains no unit: the correction is a free
value (log entry 125). -/
def slew (s : State) : State :=
  if frozen s then s
  else
    { s with
      beacon := { s.beacon with rate := (Config.freeNat s.free % 100001 : Int) - 50000 }
      free := s.free + 1 }

/-- A follower before its first lock loads its counter from the parent in one step (R60): the offset is this counter less the parent's. -/
def loadFromParent (s : State) (x : BeaconSample) : State :=
  { s with now := (((s.now : Int) - x.offset16 / 16) % 2 ^ 64).toNat }

/-- Bounds of R61 and R62 in 1/16 BT ns. -/
def offStep : Nat := 16000
def offLock : Nat := 64
def offKeep : Nat := 96

/-- The servo's state after an exchange with the parent (R60 to R63). Before the first lock the counter is loaded from the parent whenever the offset
lies outside ±4 BT ns (DESIGN CHOICE, log entry 126). -/
def servoState (x : BeaconSample) (s : State) : State :=
  let a := x.offset16.natAbs
  if stepRequired s then s
  else if !firstLock s && decide (offLock < a) then enterAcquire (loadFromParent s x)
  else if offStep < a then enterStepRequired s
  else if servo s = svLocked then (if offKeep < a then enterAcquire s else s)
  else if servo s = svHoldover then (if a ≤ offKeep then enterLocked s else enterAcquire s)
  else if servo s = svAcquire then
    if a ≤ offLock then
      let g := s.beacon.goodExchanges + 1
      if 64 ≤ g then enterLocked s else { s with beacon := { s.beacon with goodExchanges := g } }
    else clearGood s
  else enterAcquire s

/-- SERVO_STATE_CHANGE and STEP_REQUIRED: an exchange with the parent moves the servo, and the offset is removed by slewing (R60). -/
def servoExchange (x : BeaconSample) (s : State) : State := slew (servoState x s)

/-- Follow the master with the lower coordinate: leads to another master are dropped (R67). -/
def dropHigherLeads (s : State) : State :=
  let cs := (List.finRange 6).filterMap (fun n => (portLead s n).map (fun l => l.2))
  match leastOf cs with
  | none => s
  | some c =>
    (List.finRange 6).foldl (fun s n =>
      match (port s n.val).lead with
      | some l => if l.2 = c then s else setPort s n.val { port s n.val with lead := none }
      | none => s) s

/-- ROLE becomes follower, by commit or demotion (R63, R67, R705): a parent is chosen, or the servo is in HOLDOVER or FREE. -/
def takeFollower (s : State) : State :=
  let s := { s with beacon := { s.beacon with await10M := false, awaitPps := false, epochPending := none, refWait := none } }
  let s := dropHigherLeads (setFld s pgBeacon 0x110 15 14 0)
  match chooseParent s with
  | some n => enterAcquire (setParent s (some n))
  | none =>
    let s := setParent s none
    if firstLock s then
      clearGood { setServo s svHoldover with beacon := { s.beacon with holdoverSince := s.now, goodExchanges := 0 } }
    else clearGood (setServo s svFree)

/-- A master whose awaited inputs are all applied or lost enters LOCKED (R704). -/
def masterLock (s : State) : State :=
  if isMaster s && decide (servo s = svAcquire) && !s.beacon.await10M && !s.beacon.awaitPps then enterLocked s else s

/-- ROLE becomes master (R704, R705): the reference inputs that are valid show so, a 10 MHz input that is valid is applied at once, and a selected
input is awaited for 10 s. MASTER_COORD reads the module's own coordinate on the master, and keeps its value with no parent (DESIGN CHOICE, log
entry 127). -/
def takeMaster (s : State) : State :=
  let s := setParent s none
  let s := setFld s pgBeacon 0x110 30 29 0
  let s := setFld s pgBeacon 0x110 27 16 (ownCoord s)
  let s := setFld s pgBeacon 0x110 15 14 (b2n s.beacon.valid10M + 2 * b2n s.beacon.validPps)
  let s := wr s pgBeacon 0x118 0
  let s := { s with beacon := { s.beacon with
    await10M := sel10M s && !s.beacon.valid10M, awaitPps := selPps s, hold := 0, refWait := some 10000000000 } }
  masterLock (enterAcquire s)

/-- A commit changes REF_SEL on a master that still awaits its inputs (R704): an input that is no longer selected is not awaited, and one that is
newly selected is. `had` is whether 1PPS was selected before. -/
def refSelChanged (had : Bool) (s : State) : State :=
  if isMaster s && decide (servo s = svAcquire) then
    masterLock { s with beacon := { s.beacon with
      await10M := sel10M s && !s.beacon.valid10M, awaitPps := selPps s && (!had || s.beacon.awaitPps) } }
  else s

/-- The announcement of another master than the one followed, on this port or another, sets CONFLICT; a master takes note of one of lower coordinate
(R67). -/
def hearMaster (c : Nat) (s : State) : State :=
  let known := (List.finRange 6).filterMap (portLead s)
  if (if isMaster s then decide (c < ownCoord s) else known.any (fun l => decide (l.2 ≠ c))) then setFld s pgBeacon 0x110 28 28 1 else s

/-- What a port's announcement tells: hops through it and the master's coordinate. MASTER_CONFLICT (R67): a module follows the master with the lower
coordinate, and a master that hears one demotes itself. -/
def noteLead (n : Fin 6) (x : BeaconSample) (s : State) : State :=
  let lead := x.master.map (fun m => (m.1 + 1, m.2))
  match x.master with
  | none => setPort s n.val { port s n.val with lead := lead }
  | some m =>
    let s := hearMaster m.2 s
    let s := setPort s n.val { port s n.val with lead := lead }
    if !isMaster s then dropHigherLeads s
    else if m.2 < ownCoord s then takeFollower (setFld s pgBeacon 0x808 0 0 0)
    else s

/-- The module's own BEACON packet of an exchange (R56, R453): its time, and, from a module that is master or has a parent, its hops to the master
and the master's coordinate, so that a master announces its own (R67). The packet's layout is the model's (DESIGN CHOICE, log entry 128). -/
def beaconPacket (s : State) : PeerPacket :=
  let leads := isMaster s || (parentPort s).isSome
  { kind := 2, vc := 0, prio := true, dst := 0, src := BitVec.ofNat 12 (ownCoord s), hops := 0, age := 0, group := 0, gen := 0, epoch := 0, mode := 0,
    launch := 0, seq := 0, addr := 0, ctr := 0, ctrEn := false, inc := 0, expert := 0, token := 0, k := 0,
    data := leBytes s.now 8 ++ (if leads then leBytes (fld s pgBeacon 0x110 12 8) 1 ++ leBytes (fld s pgBeacon 0x110 27 16) 2 else []) }

/-- Both directions of an exchange take place on a trained link, and the next is due 1,024 BT ns later (R56). -/
def exchangeSent (n : Fin 6) (s : State) : State :=
  { s with
    beacon := { s.beacon with exchangeWait := (n.val, 1024) :: s.beacon.exchangeWait }
    out := { s.out with packets := s.out.packets ++ [(n.val, beaconPacket s)] } }

/-- BEACON_EXCHANGE (R56): a timestamp exchange on an ACTIVE port. A follower's parent is chosen anew, and an exchange with the parent moves the
servo. -/
def beaconExchangeDone (n : Fin 6) (x : BeaconSample) (s : State) : State :=
  if linkState s n ≠ 5 || s.beacon.exchangeWait.any (fun e => decide (e.1 = n.val)) then s
  else
    let s := noteLead n x (exchangeSent n s)
    if isMaster s then s
    else
      match chooseParent s with
      | none => s
      | some m =>
        let s := setParent s (some m)
        if m = n then servoExchange x (noteOffset s n x) else s

def execBeaconExchange (port : Fin 6) (sample : BeaconSample) (s : State) : Out' := .next (beaconExchangeDone port sample s)

/-- BEACON_STEP_CORRECTION (R61): only while STEP_REQUIRED and every slot is IDLE, DONE, FAULTED or ABORTED. A counter that is behind
loads the parent's time; one that is ahead is held until the parent's time reaches it. STEP_REQUIRED clears, and the servo enters ACQUIRE, as the hold
begins (DESIGN CHOICE, log entry 129). -/
def stepCorrection (parentTime : Word) (s : State) : State :=
  if stepRequired s && slotsQuiet s then
    let s := if s.now ≤ parentTime.toNat then { s with now := parentTime.toNat }
      else { s with beacon := { s.beacon with hold := s.now - parentTime.toNat } }
    enterAcquire (setFld s pgBeacon 0x110 30 30 0)
  else s

def execBeaconStepCorrection (parentTime : Word) (s : State) : Out' := .next (stepCorrection parentTime s)

/-- PARENT_LOST (R63): a follower in LOCKED or ACQUIRE takes another port that leads to the master and keeps its state; with none it enters
HOLDOVER after a first lock, FREE before one. -/
def parentLost (s : State) : State :=
  match parentPort s with
  | none => s
  | some p =>
    let s := setPort s p.val { port s p.val with lead := none }
    match chooseParent s with
    | some m => setParent s (some m)
    | none =>
      let s := setParent s none
      if servo s = svUnlocked then s
      else if firstLock s then { clearGood (setServo s svHoldover) with
        beacon := { s.beacon with holdoverSince := s.now, goodExchanges := 0 } }
      else clearGood (setServo s svFree)

def execParentLost (s : State) : Out' := .next (parentLost s)

/-- PARENT_FOUND (R63): a follower without a parent finds one on an ACTIVE port; the first exchange decides its state. -/
def parentFound (n : Fin 6) (x : BeaconSample) (s : State) : State :=
  if isMaster s || (parentPort s).isSome || x.master.isNone then s else beaconExchangeDone n x s

def execParentFound (port : Fin 6) (sample : BeaconSample) (s : State) : Out' := .next (parentFound port sample s)

/-- HOLDOVER_EXPIRY (R62, R64): HOLDOVER that lasted longer than HOLDOVER_LIMIT becomes UNLOCKED, a fault of a RUNNING step. -/
def holdoverExpired (s : State) : State :=
  if servo s = svHoldover && decide ((rd s pgBeacon 0x138).toNat < s.now - s.beacon.holdoverSince) then
    let s := setServo s svUnlocked
    if stepRunning s then fault 3 0 s else s
  else s

def execHoldoverExpiry (s : State) : Out' := .next (holdoverExpired s)

/-- NO_MASTER_TIMEOUT (R65): 30 s after peer-link training a follower that has never locked and has no parent reports NO_MASTER, in its status
and, once, by EVENT NO_MASTER (R625). -/
def noMaster (s : State) : State :=
  if !isMaster s && !firstLock s && (parentPort s).isNone && decide (s.beacon.noMasterWait = some 0) then
    chainEvent 7 (setFld { s with beacon := { s.beacon with noMasterWait := none } } pgBeacon 0x110 29 29 1)
  else s

def execNoMasterTimeout (s : State) : Out' := .next (noMaster s)

/-- The nearest multiple of 1,000,000,000 (R68). -/
def nearestSecond (t : Nat) : Nat := (t + 500000000) / 1000000000 * 1000000000 % 2 ^ 64

/-- PPS_EDGE (R68, R70, R704): on a master with 1PPS selected and valid. Before the first lock the counter takes the EPOCH_SET value that
waits for the edge, or is aligned in one step (DESIGN CHOICE, log entry 130); afterwards it is only slewed (R60), which has no step. -/
def ppsEdge (s : State) : State :=
  if isMaster s && selPps s && (rd s pgBeacon 0x110).bit 15 then
    let s := if firstLock s then slew s
      else match s.beacon.epochPending with
        | some v => { s with now := v.toNat, beacon := { s.beacon with epochPending := none } }
        | none => { s with now := nearestSecond s.now }
    masterLock { s with beacon := { s.beacon with awaitPps := false } }
  else s

def execPpsEdge (s : State) : Out' := .next (ppsEdge s)

/-- REF_OK bit of an input (R73). -/
def refBit : RefInput → Nat
  | .mhz10 => 14
  | .pps => 15

/-- An input's validity changes (R68). -/
def setValid (i : RefInput) (v : Bool) (s : State) : State :=
  match i with
  | .mhz10 => { s with beacon := { s.beacon with valid10M := v } }
  | .pps => { s with beacon := { s.beacon with validPps := v } }

/-- REF_INPUT_LOST (R69): a master clears the REF_OK bit and keeps its state. A 10 MHz input that was applied and is lost before the lock is not awaited
again (DESIGN CHOICE, log entry 131). -/
def refLost (i : RefInput) (s : State) : State :=
  let s := setValid i false s
  if isMaster s then setFld s pgBeacon 0x110 (refBit i) (refBit i) 0 else s

def execRefInputLost (input : RefInput) (s : State) : Out' := .next (refLost input s)

/-- REF_INPUT_TIMEOUT (R704): an awaited input that has not become valid within 10 s of the role is treated as lost. -/
def refTimeout (i : RefInput) (s : State) : State :=
  let awaited := match i with
    | .mhz10 => s.beacon.await10M && !s.beacon.valid10M
    | .pps => s.beacon.awaitPps && !s.beacon.validPps
  if isMaster s && awaited && decide (s.beacon.refWait = some 0) then
    let s := refLost i s
    masterLock (match i with
      | .mhz10 => { s with beacon := { s.beacon with await10M := false } }
      | .pps => { s with beacon := { s.beacon with awaitPps := false } })
  else s

def execRefInputTimeout (input : RefInput) (s : State) : Out' := .next (refTimeout input s)

/-- REF_INPUT_VALID (R68, R704): the input is valid; a selected 10 MHz input is applied at once, as the tick rate follows it, the 1PPS input at its
next edge. -/
def refValid (i : RefInput) (s : State) : State :=
  let s := setValid i true s
  if isMaster s then
    let s := setFld s pgBeacon 0x110 (refBit i) (refBit i) 1
    match i with
    | .mhz10 => masterLock (if sel10M s then slew { s with beacon := { s.beacon with await10M := false } } else s)
    | .pps => s
  else s

def execRefInputValid (input : RefInput) (s : State) : Out' := .next (refValid input s)

/-- EPOCH_SET (R70): on a master before its first lock, at the next 1PPS edge if 1PPS is selected and at once otherwise; else ignored with
STATE. -/
def epochSet (value : Word) (s : State) : State :=
  if isMaster s && !firstLock s then
    if selPps s then { s with beacon := { s.beacon with epochPending := some value } }
    else { s with now := value.toNat }
  else logErr pgBeacon errState 0x120 s

def execEpochSet (r : Requester) (value : Word) (s : State) : Out' := byReq s r (epochSet value)

end Sys2Proof.Machine
end

