-- ==== Sys2Proof/Machine/Float.lean ====
section
/-! DEFINITION. Number formats and exact arithmetic: element formats (R155 to R159), rounding (R172, R177, R181), beat sums (R163), binary32
operations (R127, R169) and the functions of VFUNC (R128, R170). -/

namespace Sys2Proof.Machine

/-- An exact value: a NaN, an infinity, or (−1)^neg × m × 2^e; m = 0 is a signed zero. -/
inductive Num where
  | nan
  | inf (neg : Bool)
  | fin (neg : Bool) (m : Nat) (e : Int)
  deriving DecidableEq, Repr

/-- A binary format: exponent bits, mantissa bits, bias, and what the top exponent means: 0 IEEE (infinity and NaN), 1 only S.1…1.1…1 is NaN,
2 every encoding is finite. -/
structure Fmt where
  eb : Nat
  mb : Nat
  bias : Nat
  top : Nat
  deriving DecidableEq, Repr

def fmtFp32 : Fmt := ⟨8, 23, 127, 0⟩
def fmtBf16 : Fmt := ⟨8, 7, 127, 0⟩

/-- Formats by FMT code (R99, R155). -/
def fmtOf : Nat → Fmt
  | 0 => fmtFp32
  | 1 => fmtBf16
  | 2 => ⟨4, 3, 7, 1⟩
  | 3 => ⟨5, 2, 15, 0⟩
  | 4 => ⟨2, 3, 1, 2⟩
  | 5 => ⟨3, 2, 3, 2⟩
  | _ => ⟨2, 1, 1, 2⟩

/-- Value of an encoding (R155, R156). -/
def decodeFmt (f : Fmt) (bits : Nat) : Num :=
  let m := bits % 2 ^ f.mb
  let e := bits / 2 ^ f.mb % 2 ^ f.eb
  let s := decide (bits / 2 ^ (f.mb + f.eb) % 2 = 1)
  let topE := 2 ^ f.eb - 1
  if f.top = 0 && decide (e = topE) then (if m = 0 then .inf s else .nan)
  else if f.top = 1 && decide (e = topE) && decide (m = 2 ^ f.mb - 1) then .nan
  else if e = 0 then .fin s m (1 - (f.bias : Int) - f.mb)
  else .fin s (2 ^ f.mb + m) ((e : Int) - f.bias - f.mb)

/-- Value of a binary32 lane. -/
def f32 (w : Lane) : Num := decodeFmt fmtFp32 w.toNat

/-- Encoding of the largest finite magnitude (R155, R159). -/
def fmaxBits (f : Fmt) : Nat :=
  match f.top with
  | 0 => (2 ^ f.eb - 1) * 2 ^ f.mb - 1
  | 1 => 2 ^ (f.eb + f.mb) - 2
  | _ => 2 ^ (f.eb + f.mb) - 1

/-- The NaN that the device produces in a format (R168). FP6 and FP4 have none. -/
def nanBits (f : Fmt) : Nat :=
  match f.top with
  | 0 => if f.eb = 5 then 0x7F else (2 ^ f.eb - 1) * 2 ^ f.mb + 2 ^ (f.mb - 1)
  | _ => 2 ^ (f.eb + f.mb) - 1

/-- Sign bit of a format. -/
def signBits (f : Fmt) (neg : Bool) : Nat := if neg then 2 ^ (f.eb + f.mb) else 0

/-- floor(log2 (n / d)) of a positive fraction. -/
def ratLog2 (n d : Nat) : Int :=
  let k : Int := (Nat.log2 n : Int) - Nat.log2 d
  let le := if 0 ≤ k then decide (d <<< k.toNat ≤ n) else decide (d ≤ n <<< (-k).toNat)
  if le then k else k - 1

/-- Rounding rules: to nearest even (R177), or stochastic with a draw (R181). -/
inductive Rnd where
  | near
  | stoch (u : Nat)
  deriving DecidableEq, Repr

/-- The integer that n / d rounds to. -/
def roundInt (r : Rnd) (n d : Nat) : Nat :=
  let q := n / d
  let rem := n % d
  match r with
  | .near => if d < 2 * rem || (decide (2 * rem = d) && decide (q % 2 = 1)) then q + 1 else q
  | .stoch u => if 2 ^ 16 ≤ rem * 2 ^ 16 / d + u then q + 1 else q

/-- Scale a fraction by 2^k. -/
def ratScale (n d : Nat) (k : Int) : Nat × Nat := if 0 ≤ k then (n <<< k.toNat, d) else (n, d <<< (-k).toNat)

/-- Magnitude bits that n / d × 2^e rounds to at the precision of a format, with an unbounded exponent range above: none when the rounded
magnitude exceeds the largest finite value (R172, R173). -/
def roundMag (f : Fmt) (r : Rnd) (n d : Nat) (e : Int) : Option Nat :=
  if n = 0 then some 0
  else
    let lg := ratLog2 n d + e
    let emin : Int := 1 - (f.bias : Int)
    let q : Int := max lg emin - f.mb
    let (a, b) := ratScale n d (e - q)
    let m := roundInt r a b
    let bits : Int := if m < 2 ^ f.mb then m else (q + f.mb + f.bias - 1) * 2 ^ f.mb + m
    if (fmaxBits f : Int) < bits then none else some bits.toNat

/-- Round an exact fraction to a format whose overflow is an infinity (R172). -/
def roundIeee (f : Fmt) (r : Rnd) (neg : Bool) (n d : Nat) (e : Int) : Nat :=
  match roundMag f r n d e with
  | some b => signBits f neg + b
  | none => signBits f neg + (2 ^ f.eb - 1) * 2 ^ f.mb

/-- binary32 of an exact value, rounded to nearest even. -/
def toF32 : Num → Lane
  | .nan => 0x7FC00000
  | .inf neg => if neg then 0xFF800000 else 0x7F800000
  | .fin neg m e => BitVec.ofNat 32 (roundIeee fmtFp32 .near neg m 1 e)

/-- BF16 bits of an exact value (R172). -/
def toBf16 (r : Rnd) : Num → Nat
  | .nan => 0x7FC0
  | .inf neg => if neg then 0xFF80 else 0x7F80
  | .fin neg m e => roundIeee fmtBf16 r neg m 1 e

/-- binary32 bits under a rounding rule. -/
def toF32R (r : Rnd) : Num → Nat
  | .nan => 0x7FC00000
  | .inf neg => if neg then 0xFF800000 else 0x7F800000
  | .fin neg m e => roundIeee fmtFp32 r neg m 1 e

/-- Bits of a fraction in FP8, FP6 or FP4, saturating (R173). -/
def satRound (f : Fmt) (r : Rnd) (neg : Bool) (n d : Nat) (e : Int) : Nat :=
  signBits f neg + (roundMag f r n d e).getD (fmaxBits f)

/-- A non-finite value in FP8, FP6 or FP4 (R173). -/
def satNonfinite (f : Fmt) : Num → Nat
  | .inf neg => if f.top = 0 then signBits f neg + (2 ^ f.eb - 1) * 2 ^ f.mb
      else if f.top = 1 then nanBits f else signBits f neg + fmaxBits f
  | _ => if f.top = 2 then fmaxBits f else nanBits f

/-- An exact value is a NaN, is finite, is zero. -/
def Num.isNan : Num → Bool
  | .nan => true
  | _ => false

def Num.isFin : Num → Bool
  | .fin _ _ _ => true
  | _ => false

def Num.isZero : Num → Bool
  | .fin _ 0 _ => true
  | _ => false

def Num.neg? : Num → Bool
  | .nan => false
  | .inf n => n
  | .fin n _ _ => n

/-- Exact product (R166). -/
def nmul : Num → Num → Num
  | .nan, _ => .nan
  | _, .nan => .nan
  | .inf a, .inf b => .inf (a != b)
  | .inf a, .fin b m _ => if m = 0 then .nan else .inf (a != b)
  | .fin a m _, .inf b => if m = 0 then .nan else .inf (a != b)
  | .fin a m e, .fin b n f => .fin (a != b) (m * n) (e + f)

/-- A finite value as an integer multiple of 2^q, for q at most its exponent. -/
def atScale (q : Int) (neg : Bool) (m : Nat) (e : Int) : Int :=
  let v : Int := (m <<< (e - q).toNat : Nat)
  if neg then -v else v

/-- Exact value of an integer times 2^q. -/
def ofInt (v : Int) (q : Int) : Num := .fin (decide (v < 0)) v.natAbs q

/-- Exact sum; equal and opposite values sum to +0, and two zeros of one sign keep it (R127). -/
def nadd : Num → Num → Num
  | .nan, _ => .nan
  | _, .nan => .nan
  | .inf a, .inf b => if a = b then .inf a else .nan
  | .inf a, _ => .inf a
  | _, .inf b => .inf b
  | .fin a m e, .fin b n f =>
    let q := min e f
    let v := atScale q a m e + atScale q b n f
    if v = 0 then .fin (a && b && decide (m = 0) && decide (n = 0)) 0 q else ofInt v q

/-- Negation. -/
def nneg : Num → Num
  | .nan => .nan
  | .inf a => .inf (!a)
  | .fin a m e => .fin (!a) m e

/-- Magnitude. -/
def nabs : Num → Num
  | .nan => .nan
  | .inf _ => .inf false
  | .fin _ m e => .fin false m e

/-- a < b for values that are not NaN, with −0 below +0 (R169). -/
def nlt (a b : Num) : Bool :=
  match a, b with
  | .nan, _ => false
  | _, .nan => false
  | .inf x, .inf y => x && !y
  | .inf x, .fin _ _ _ => x
  | .fin _ _ _, .inf y => !y
  | .fin x m e, .fin y n f =>
    let q := min e f
    let u := atScale q x m e
    let v := atScale q y n f
    if u = 0 && decide (v = 0) then x && !y else decide (u < v)

/-- binary32 operations (R127, R168). -/
def fadd (a b : Lane) : Lane := toF32 (nadd (f32 a) (f32 b))
def fsub (a b : Lane) : Lane := toF32 (nadd (f32 a) (nneg (f32 b)))
def fmul (a b : Lane) : Lane := toF32 (nmul (f32 a) (f32 b))
def ffma (a b c : Lane) : Lane := toF32 (nadd (nmul (f32 a) (f32 b)) (f32 c))

/-- VMAX and VMIN of a lane (R169). -/
def fmax (a b : Lane) : Lane :=
  if (f32 a).isNan || (f32 b).isNan then 0x7FC00000 else if nlt (f32 a) (f32 b) then b else a
def fmin (a b : Lane) : Lane :=
  if (f32 a).isNan || (f32 b).isNan then 0x7FC00000 else if nlt (f32 b) (f32 a) then b else a

/-- Combine pairs of neighbours. -/
def pairUp (f : Lane → Lane → Lane) : List Lane → List Lane
  | a :: b :: l => f a b :: pairUp f l
  | l => l

/-- The fixed binary tree over 64 values, six levels (R129). -/
def tree6 (f : Lane → Lane → Lane) (l : List Lane) : Lane :=
  (pairUp f (pairUp f (pairUp f (pairUp f (pairUp f (pairUp f l)))))).headD 0

/-- Quotient of binary32 values, rounded to nearest even, with IEEE 754 special results. -/
def fdiv (a b : Lane) : Lane :=
  match f32 a, f32 b with
  | .nan, _ => 0x7FC00000
  | _, .nan => 0x7FC00000
  | .inf _, .inf _ => 0x7FC00000
  | .inf x, .fin y _ _ => toF32 (.inf (x != y))
  | .fin x _ _, .inf y => toF32 (.fin (x != y) 0 0)
  | .fin x m e, .fin y n f =>
    if n = 0 then (if m = 0 then 0x7FC00000 else toF32 (.inf (x != y)))
    else BitVec.ofNat 32 (roundIeee fmtFp32 .near (x != y) m n (e - f))

/-! ### Beat sums -/

/-- What a sum of terms with a non-finite one gives (R166). -/
def nonfiniteResult (ts : List Num) : Option Lane :=
  if ts.all Num.isFin then none
  else if ts.any Num.isNan || (ts.contains (.inf true) && ts.contains (.inf false)) then some 0x7FC00000
  else if ts.contains (.inf true) then some 0xFF800000 else some 0x7F800000

/-- Largest floor(log2 |t|) of the non-zero terms. -/
def topExp (ts : List Num) : Option Int :=
  ts.foldl (fun a t => match t with
    | .fin _ m e => if m = 0 then a else
        let k : Int := (Nat.log2 m : Int) + e
        match a with | none => some k | some j => some (max j k)
    | _ => a) none

/-- A term in units of 2^q, truncated towards zero. -/
def truncTerm (q : Int) : Num → Int
  | .fin neg m e =>
    let v := if q ≤ e then m <<< (e - q).toNat else m >>> (q - e).toNat
    if neg then -(v : Int) else v
  | _ => 0

/-- R163: the terms are aligned to the largest, truncated 30 bits below it, summed exactly and rounded once. -/
def beatSum (ts : List Num) : Lane :=
  match nonfiniteResult ts with
  | some r => r
  | none =>
    match topExp ts with
    | none => 0
    | some e =>
      let q := e - 30
      let total := (ts.map (truncTerm q)).foldl (· + ·) 0
      if total = 0 then 0 else toF32 (ofInt total q)

/-! ### Scales -/

/-- Value of an E8M0 block scale (R157). -/
def e8m0 (b : Nat) : Num := if b % 256 = 255 then .nan else .fin false 1 ((b % 256 : Nat) - 127 : Int)

/-- A tally scale is valid when it is a positive normal binary32 value (R183). -/
def tallyValid (w : Nat) : Bool :=
  let e := w / 2 ^ 23 % 256
  decide (w < 2 ^ 31) && decide (0 < e) && decide (e < 255)

/-- Value of a scale by SCALE code: none, E8M0, tally (R161, R165). -/
def scaleNum (kind raw : Nat) : Num :=
  match kind with
  | 1 => e8m0 raw
  | 2 => if tallyValid raw then decodeFmt fmtFp32 raw else .nan
  | _ => .fin false 1 0

/-! ### Random draws -/

/-- R179. -/
def rand64 (key ctr : Nat) : Nat :=
  let m := 2 ^ 64
  let z := (key + ctr * 0x9E3779B97F4A7C15) % m
  let z := (z ^^^ (z >>> 30)) * 0xBF58476D1CE4E5B9 % m
  let z := (z ^^^ (z >>> 27)) * 0x94D049BB133111EB % m
  z ^^^ (z >>> 31)

/-- The n-th draw of an instruction (R179). -/
def draw (key c0 n : Nat) : Nat := (rand64 key ((c0 + n / 4) % 2 ^ 64) >>> (16 * (n % 4))) % 2 ^ 16

/-! ### Functions of VFUNC

Values are approximated in fixed point far below the precision of binary32; the result is then free within the 2 units in the last place
that R128 allows. -/

/-- Fraction bits of the fixed-point approximations. -/
def fxBits : Nat := 200

/-- ln 2 with 200 fraction bits, rounded down. -/
def ln2Fx : Nat := (2 ^ 200 * 693147180559945309417232121458176568075500134360255254120680009493393621969694715605863326996418687) / 10 ^ 99

/-- 2 / √π with 200 fraction bits. -/
def twoOverSqrtPiFx : Nat :=
  (2 ^ 200 * 1128379167095512573896158903121545171688101258657997713688171443421284936882986828973487320404214726886) / 10 ^ 102

/-- Σ r^n / n! for a fixed-point r in [0, 1). -/
def expSeries (r : Nat) : Nat → Nat → Nat → Nat
  | 0, _, acc => acc
  | fuel + 1, term, acc =>
    let n := 61 - (fuel + 1)
    expSeries r fuel (term * r / 2 ^ fxBits / n) (acc + term)

/-- e^r for a fixed-point r in [0, 1). -/
def expFx (r : Nat) : Nat := expSeries r 60 (2 ^ fxBits) 0

/-- A finite value in fixed point, rounded down. -/
def toFx (neg : Bool) (m : Nat) (e : Int) : Int :=
  let k := e + fxBits
  let v : Int := if 0 ≤ k then (m <<< k.toNat : Nat) else (m >>> (-k).toNat : Nat)
  if neg then -v else v

/-- e^t for a fixed-point t: mantissa with 200 fraction bits, and binary exponent. -/
def expReal (t : Int) : Nat × Int :=
  let k := t / (ln2Fx : Int)
  (expFx (t - k * ln2Fx).toNat, k)

/-- Bits of log2 of a fixed-point value in [1, 2), by repeated squaring. -/
def log2Frac : Nat → Nat → Nat → Nat
  | 0, _, acc => acc
  | fuel + 1, x, acc =>
    let y := x * x / 2 ^ fxBits
    if 2 ^ (fxBits + 1) ≤ y then log2Frac fuel (y / 2) (2 * acc + 1) else log2Frac fuel y (2 * acc)

/-- Bits of the integer square root below a bound. -/
def isqrtBits (n : Nat) : Nat → Nat → Nat
  | 0, acc => acc
  | b + 1, acc => if (acc + 2 ^ b) * (acc + 2 ^ b) ≤ n then isqrtBits n b (acc + 2 ^ b) else isqrtBits n b acc

/-- floor of the square root. -/
def isqrt (n : Nat) : Nat := isqrtBits n (Nat.log2 n / 2 + 1) 0

/-- (−1)^n x^(2n+1) / (n! (2n+1)) summed: the erf series without its factor, for a fixed-point x. -/
def erfSeries (x2 : Nat) : Nat → Nat → Nat → Int → Int
  | 0, _, _, acc => acc
  | fuel + 1, n, p, acc =>
    let t : Int := (p / (2 * n + 1) : Nat)
    erfSeries x2 fuel (n + 1) (p * x2 / 2 ^ fxBits / (n + 1)) (if n % 2 = 0 then acc + t else acc - t)

/-- Magnitude n / d × 2^e of a function for a finite argument m × 2^e (its sign apart), and whether the result is negative. -/
abbrev Approx := Bool × Nat × Nat × Int

/-- Approximation of the function that a code selects at a finite non-special argument. -/
def vfuncApprox (code : Nat) (neg : Bool) (m : Nat) (e : Int) : Approx :=
  let t := toFx neg m e
  let big := decide (Int.ofNat (130 * 2 ^ fxBits) < t.natAbs)
  match code with
  | 0 => if big then (false, 1, 1, if neg then -1000 else 1000) else
      let (x, k) := expReal t; (false, x, 2 ^ fxBits, k)
  | 1 => if big && decide (1000 * 2 ^ fxBits < t.natAbs) then (false, 1, 1, if neg then -1000 else 1000) else
      let k := t / (2 ^ fxBits : Nat)
      let f := (t - k * (2 ^ fxBits : Nat)).toNat
      (false, expFx (f * ln2Fx / 2 ^ fxBits), 2 ^ fxBits, k)
  | 2 =>
      let lg := Nat.log2 m
      let x := (m <<< fxBits) >>> lg
      let k : Int := lg + e
      let v : Int := k * (2 ^ 150 : Nat) + (log2Frac 150 x 0 : Nat)
      (decide (v < 0), v.natAbs, 2 ^ 150, 0)
  | 3 => (neg, 1, m, -e)
  | 4 =>
      let e' := if e % 2 = 0 then e else e - 1
      let m' := if e % 2 = 0 then m else 2 * m
      (false, isqrt (2 ^ 240 / m'), 2 ^ 120, -(e' / 2))
  | 5 =>
      if (Nat.log2 m : Int) + e < -30 then (neg, m, 1, e)
      else if big then (neg, 1, 1, 0)
      else
        let (x, k) := expReal (2 * (t.natAbs : Int))
        let y := x <<< k.toNat
        (neg, y - 2 ^ fxBits, y + 2 ^ fxBits, 0)
  | 6 =>
      if big then (if neg then (false, 1, 1, -1000) else (false, 1, 1, 0))
      else
        let (x, k) := expReal (-t)
        let (n, d) := ratScale x (2 ^ fxBits) k
        (false, d, d + n, 0)
  | _ =>
      if (Nat.log2 m : Int) + e < -30 then (neg, m * twoOverSqrtPiFx, 2 ^ fxBits, e)
      else if decide (6 * 2 ^ fxBits < t.natAbs) then (neg, 1, 1, 0)
      else
        let x := t.natAbs
        let s := erfSeries (x * x / 2 ^ fxBits) 200 0 x 0
        (neg, s.toNat * twoOverSqrtPiFx / 2 ^ fxBits, 2 ^ fxBits, 0)

/-- A result below the normal range, or for an exact 0: R128 does not state it. It is free up to the least normal magnitude, so finite (R222) and no
NaN (R168). -/
def tinyLane (code : Nat) (x : Lane) (neg : Bool) : Lane :=
  BitVec.ofNat 32 (signBits fmtFp32 neg + (Config.vfunc code x).toNat % (2 ^ 23 + 1))

/-- A result above the normal range, which R128 does not state: the largest finite magnitude or an infinity. -/
def hugeLane (code : Nat) (x : Lane) (neg : Bool) : Lane :=
  BitVec.ofNat 32 (signBits fmtFp32 neg + fmaxBits fmtFp32 + (Config.vfunc code x).toNat % 2)

/-- Least and greatest magnitude bits within 2 units in the last place of u / v units, for a value of 2^23 to 2^24 units whose 2^23 units have the
bits `b`. Magnitudes below 2^23 units lie half a unit apart, and those above 2^24 two units. -/
def nearBits (b u v : Nat) : Nat × Nat :=
  let lo := (2 * u + v - 1) / v - 4
  let hi := u / v + 2
  ( if 2 ^ 24 ≤ lo then b + (lo + 1) / 2 - 2 ^ 23 else b - (2 ^ 24 - lo),
    if hi ≤ 2 ^ 24 then b + hi - 2 ^ 23 else b + 2 ^ 23 + (hi - 2 ^ 24) / 2 )

/-- A result near an approximation: in the normal range, free within 2 units in the last place of the exact value (R128). -/
def nearApprox (code : Nat) (x : Lane) (a : Approx) : Lane :=
  let lg := ratLog2 a.2.1 a.2.2.1 + a.2.2.2
  if a.2.1 = 0 then tinyLane code x (decide ((Config.vfunc code x).toNat / 2 ^ 31 = 1))
  else if lg < -126 then tinyLane code x a.1
  else if 127 < lg then hugeLane code x a.1
  else
    let (u, v) := ratScale a.2.1 a.2.2.1 (a.2.2.2 - (lg - 23))
    let (lo, hi) := nearBits ((lg + 127).toNat * 2 ^ 23) u v
    let lo := max (2 ^ 23) lo
    let hi := min (fmaxBits fmtFp32) hi
    BitVec.ofNat 32 (signBits fmtFp32 a.1 + (lo + Config.vfuncUlp code x % (hi + 1 - lo)))

/-- VFUNC of one lane (R128, R170). Codes 0 to 7. -/
def vfuncLane (code : Nat) (x : Lane) : Lane :=
  match f32 x with
  | .nan => 0x7FC00000
  | .inf neg =>
    match code with
    | 0 => if neg then 0 else 0x7F800000
    | 1 => if neg then 0 else 0x7F800000
    | 2 => if neg then 0x7FC00000 else 0x7F800000
    | 3 => if neg then 0x80000000 else 0
    | 4 => if neg then 0x7FC00000 else 0
    | 5 => if neg then 0xBF800000 else 0x3F800000
    | 6 => if neg then 0 else 0x3F800000
    | _ => if neg then 0xBF800000 else 0x3F800000
  | .fin neg m e =>
    if m = 0 then
      match code with
      | 2 => 0xFF800000
      | 3 => if neg then 0xFF800000 else 0x7F800000
      | 4 => if neg then 0xFF800000 else 0x7F800000
      | 5 => nearApprox 5 x (false, 0, 1, 0)
      | 7 => nearApprox 7 x (false, 0, 1, 0)
      | _ => nearApprox code x (vfuncApprox code false 0 0)
    else if neg && (decide (code = 2) || decide (code = 4)) then 0x7FC00000
    else nearApprox code x (vfuncApprox code neg m e)

end Sys2Proof.Machine
end

