-- ==== Sys2Proof/Machine/Operands.lean ====
section
/-! DEFINITION. Tile operands: descriptors (R98 to R102), their spans and elements (R94, R100, R101, R158), and the format and shape checks
(R109 to R111, R171, R178, R205, R706). -/

namespace Sys2Proof.Machine

/-- A tile descriptor with its fields read out of W0 to W4 (R98). -/
structure Tile where
  base : Nat
  pitch : Int
  rows : Nat
  cols : Nat
  fmt : Nat
  scale : Nat
  vr : Nat
  svr : Nat
  trans : Bool
  sbase : Nat
  spitch : Int
  rmask : Word
  deriving DecidableEq, Repr

/-- A number of n bits as a signed number. -/
def signedN (n v : Nat) : Int := if v % 2 ^ n < 2 ^ (n - 1) then (v % 2 ^ n : Nat) else (v % 2 ^ n : Nat) - (2 ^ n : Nat)

/-- TDn of a core. -/
def tileOf (c : Core) (n : Nat) : Tile where
  base := (tdRd c n 0).bits 47 0
  pitch := signedN 32 ((tdRd c n 1).bits 31 0)
  rows := (tdRd c n 1).bits 38 32
  cols := (tdRd c n 1).bits 51 40
  fmt := (tdRd c n 2).bits 4 0
  scale := (tdRd c n 2).bits 7 6
  vr := (tdRd c n 2).bits 14 8
  svr := (tdRd c n 2).bits 22 16
  trans := (tdRd c n 2).bit 23
  sbase := (tdRd c n 3).bits 47 0
  spitch := signedN 16 ((tdRd c n 3).bits 63 48)
  rmask := tdRd c n 4

/-- Bits per element by FMT (R99). -/
def fmtBits (fmt : Nat) : Nat :=
  match fmt with
  | 0 => 32
  | 1 => 16
  | 4 => 6
  | 5 => 6
  | 6 => 4
  | _ => 8

/-- Rate class by FMT (R99); 0 for a format that the arrays do not take. -/
def rateClass (fmt : Nat) : Nat :=
  match fmt with
  | 1 => 16
  | 2 => 8
  | 3 => 8
  | 4 => 8
  | 5 => 8
  | 6 => 4
  | _ => 0

/-- K of a rate class (R99). -/
def kOf (cls : Nat) : Nat :=
  match cls with
  | 16 => 32
  | 8 => 64
  | _ => 128

/-- Row bytes RB (R100). -/
def Tile.rb (t : Tile) : Nat := (t.cols * fmtBits t.fmt + 7) / 8

/-- Row stride RSTRIDE (R100). -/
def Tile.rstride (t : Tile) : Nat :=
  if t.rb ≤ 16 then 16 else if t.rb ≤ 32 then 32 else if t.rb ≤ 64 then 64 else if t.rb ≤ 128 then 128 else 256

/-- Registers of the data span (R100). -/
def Tile.dataRegs (t : Tile) : Nat := (t.rows * t.rstride + 255) / 256

/-- Registers of the scale span (R101, R182). -/
def Tile.scaleRegs (t : Tile) : Nat :=
  match t.scale with
  | 1 => (t.rows + 15) / 16
  | 2 => 2
  | _ => 0

/-- Scale bytes of a row with SCALE 0b01 (R101). -/
def Tile.scaleBytes (t : Tile) : Nat := if t.scale = 1 then t.cols / 32 else 0

/-- Rows with a mask bit of 1, in increasing order (R102). -/
def Tile.selected (t : Tile) : List Nat := (List.range t.rows).filter (fun r => t.rmask.bit r)

/-- Address of row r's data bytes and scale bytes in memory, modulo 2^48 (R90, R101). -/
def Tile.rowAddr (t : Tile) (r : Nat) : Nat := (((t.base : Int) + r * t.pitch) % (2 ^ 48 : Nat)).toNat
def Tile.scaleAddr (t : Tile) (r : Nat) : Nat := (((t.sbase : Int) + r * t.spitch) % (2 ^ 48 : Nat)).toNat

/-- Ranges of memory that row r takes: its data bytes and, with SCALE 0b01, its scale bytes (R112, R182). -/
def Tile.ranges (t : Tile) (r : Nat) : List (Nat × Nat) :=
  (t.rowAddr r, t.rb) :: (if t.scale = 1 then [(t.scaleAddr r, t.scaleBytes)] else [])

/-- Spans: first register and length. -/
def Tile.dataSpan (t : Tile) : Nat × Nat := (t.vr, t.dataRegs)
def Tile.scaleSpan (t : Tile) : Nat × Nat := (t.svr, t.scaleRegs)
def Tile.spans (t : Tile) : List (Nat × Nat) := [t.dataSpan, t.scaleSpan]

/-- Two spans share a register. -/
def spansMeet (a b : Nat × Nat) : Bool := decide (a.1 < b.1 + b.2) && decide (b.1 < a.1 + a.2) && decide (0 < a.2) && decide (0 < b.2)

/-- A span of one tile shares a register with a span of another. -/
def tilesMeet (a b : Tile) : Bool := a.spans.any (fun x => b.spans.any (fun y => spansMeet x y))

/-- A tile's own spans overlap (R111). -/
def ownOverlap (t : Tile) : Bool := spansMeet t.dataSpan t.scaleSpan

/-- Effective ROWS and COLS of a source (R204). -/
def Tile.effRows (t : Tile) : Nat := if t.trans then t.cols else t.rows
def Tile.effCols (t : Tile) : Nat := if t.trans then t.rows else t.cols

/-! ### Elements and rows in the register file -/

/-- The bytes of row r of the data span (R100). -/
def rowBytes (c : Core) (t : Tile) (r : Nat) : List Byte :=
  (List.range t.rb).map (fun i => vByte c t.vr (r * t.rstride + i))

/-- Raw element col of row r: bits from col × width of the row (R94, R158). -/
def elemAt (c : Core) (t : Tile) (r col : Nat) : Nat :=
  let w := fmtBits t.fmt
  let o := col * w
  let n := (o % 8 + w + 7) / 8
  (leNat ((List.range n).map (fun i => vByte c t.vr (r * t.rstride + o / 8 + i)))) >>> (o % 8) % 2 ^ w

/-- Number whose bits from i × w are the i-th code. -/
def packCodes (w : Nat) : List Nat → Nat
  | [] => 0
  | x :: l => x % 2 ^ w + packCodes w l <<< w

/-- Set the elements of row r; bits of its row bytes beyond the last element keep their values (R158). -/
def setRow (c : Core) (t : Tile) (r : Nat) (codes : List Nat) : Core :=
  let n := codes.length * fmtBits t.fmt
  let old := leNat (rowBytes c t r)
  vSetBytes c t.vr (r * t.rstride) (leBytes (packCodes (fmtBits t.fmt) codes + old >>> n <<< n) t.rb)

/-- FP32 lane (r, j) of a destination tile (R123). -/
def setElem32 (c : Core) (t : Tile) (r j : Nat) (v : Lane) : Core :=
  vSetBytes c t.vr (r * t.rstride + 4 * j) (leBytes v.toNat 4)

/-- Write a row of the data span as a load does: row bytes, then zeros up to RSTRIDE (R100). -/
def loadRow (c : Core) (t : Tile) (r : Nat) (v : List Byte) : Core :=
  vSetBytes c t.vr (r * t.rstride) (v ++ List.replicate (t.rstride - t.rb) 0)

/-- Scale bytes of row r in registers (R101). -/
def rowScales (c : Core) (t : Tile) (r : Nat) : List Byte := (List.range t.scaleBytes).map (fun i => vByte c t.svr (16 * r + i))

/-- Set the scale bytes of row r. -/
def setRowScales (c : Core) (t : Tile) (r : Nat) (v : List Byte) : Core := vSetBytes c t.svr (16 * r) v

/-- Raw scale that applies to element (r, col) of a stored tile (R101, R182). -/
def rawScale (c : Core) (t : Tile) (r col : Nat) : Nat :=
  match t.scale with
  | 1 => (vByte c t.svr (16 * r + col / 32)).toNat
  | 2 => (lane c t.svr r).toNat
  | _ => 0

/-- Value of an element under its scale (R160, R161, R165, R171). -/
def scaledElem (fmt scaleKind code raw : Nat) : Num := nmul (decodeFmt (fmtOf fmt) code) (scaleNum scaleKind raw)

/-- Exact source value of element (r, col) (R171). -/
def srcValue (c : Core) (t : Tile) (r col : Nat) : Num := scaledElem t.fmt t.scale (elemAt c t r col) (rawScale c t r col)

/-! ### Updates of descriptors -/

/-- Set RMASK of TDn. -/
def setRmask (c : Core) (n : Nat) (m : Word) : Core := tdWr c n 4 m

/-- Bits below ROWS. -/
def lowMask (rows : Nat) : Word := word (2 ^ min 64 rows - 1)

/-- The low `rows` bits of one mask and the others of another. -/
def mergeMask (rows : Nat) (lo hi : Word) : Word := (lo &&& lowMask rows) ||| (hi &&& ~~~(lowMask rows))

/-- Advance BASE and SBASE by ROWS rows (R112). With a tally scale, SBASE stays (R182). -/
def advance (c : Core) (n : Nat) : Core :=
  let t := tileOf c n
  let c := tdWr c n 0 (word (t.rowAddr t.rows))
  if t.scale = 2 then c else tdWr c n 3 (setBits (tdRd c n 3) 47 0 (t.scaleAddr t.rows))

/-! ### Checks -/

/-- FMT and SCALE that no instruction accepts (R110). -/
def badFormat (t : Tile) : Bool :=
  decide (8 ≤ t.fmt) || decide (t.scale = 3) || (decide (t.scale ≠ 0) && !(decide (2 ≤ t.fmt) && decide (t.fmt ≤ 6)))

/-- A failing check: its code and the descriptor that it names (R111, R706). -/
abbrev CheckFail := Nat × Nat

/-- Keep a failing check. -/
def failIf (code td : Nat) (c : Bool) : List CheckFail := if c then [(code, td)] else []

/-- Checks 1 to 5 of one operand (R111). -/
def tileChecks (n : Nat) (t : Tile) : List CheckFail :=
  failIf 1 n (decide (64 < t.rows))
  ++ failIf 2 n (decide (t.cols = 0))
  ++ failIf 3 n (decide (256 < t.rb))
  ++ failIf 4 n (t.spans.any (fun x => decide (0 < x.2) && decide (128 < x.1 + x.2)))
  ++ failIf 5 n (decide (t.scale = 1) && decide (t.cols % 32 ≠ 0))

/-- The failing check that is reported: the lowest code, and of that code the first operand (R109, R706). -/
def lowestFail : List CheckFail → Option CheckFail
  | [] => none
  | x :: l => some (l.foldl (fun a b => if b.1 < a.1 then b else a) x)

/-- Outcome of the checks before an instruction's effect: TILE_FORMAT (27) or TILE_SHAPE (24) with check code and descriptor. -/
inductive CheckResult where
  | pass
  | empty
  | format (td : Nat)
  | shape (code td : Nat)
  deriving DecidableEq, Repr

/-- R109: the empty-tile rule, then the format, then the shape. -/
def checkResult (empty : Bool) (fmt : Option Nat) (fails : List CheckFail) : CheckResult :=
  if empty then .empty
  else match fmt with
    | some td => .format td
    | none => match lowestFail fails with
      | some x => .shape x.1 x.2
      | none => .pass

/-- Checks of an instruction with one descriptor operand; `extra` are its own checks. -/
def checkOne (n : Nat) (t : Tile) (badF : Bool) (extra : List CheckFail) : CheckResult :=
  checkResult (decide (t.rows = 0)) (if badFormat t || badF then some n else none)
    (tileChecks n t ++ failIf 11 n (ownOverlap t) ++ extra)

/-- TLD and TST (R111 check 12). -/
def checkRowMem (n : Nat) (t : Tile) : CheckResult :=
  checkOne n t false (failIf 12 n (decide (t.base % 16 ≠ 0) || decide (t.pitch % 16 ≠ 0)))

/-- TLDS (R111 check 10). -/
def checkTlds (n : Nat) (t : Tile) : CheckResult :=
  checkOne n t false (failIf 10 n (decide (16 < t.rows) || decide (64 < t.rb) || decide (t.scale ≠ 0)))

/-- TZERO. -/
def checkTzero (n : Nat) (t : Tile) : CheckResult := checkOne n t false []

/-- TWL (R110, R111 check 8, R204). -/
def checkTwl (n : Nat) (t : Tile) : CheckResult :=
  checkOne n t (decide (rateClass t.fmt = 0))
    (failIf 8 n (decide (16 < t.effRows) || decide (kOf (rateClass t.fmt) < t.effCols)))

/-- Check 11 of an instruction with a destination and a source (R111, R706): it names the destination, but where the only failure is a
tile whose own spans overlap it names that tile. -/
def overlapChecks (nd : Nat) (d : Tile) (ns : Nat) (a : Tile) (other : Bool) : List CheckFail :=
  failIf 11 nd (tilesMeet d a || other) ++ failIf 11 nd (ownOverlap d) ++ failIf 11 ns (ownOverlap a)

/-- TMMA and TMMAZ (R110, R111, R205, R706); `w` is the weight block that the instruction would use. With no valid weights check 9 decides,
and of checks 6 and 7 only the part that names no weights applies. -/
def checkTmma (nd : Nat) (d : Tile) (na : Nat) (a : Tile) (w : Option WBlock) : CheckResult :=
  let badD := badFormat d || decide (d.fmt ≠ 0)
  let badA := badFormat a || decide (rateClass a.fmt = 0)
    || (match w with | some b => decide (rateClass a.fmt ≠ rateClass b.fmt) | none => false)
  let wchecks := match w with
    | some b => failIf 6 na (decide (a.effCols ≠ b.cols)) ++ failIf 7 nd (decide (d.rows ≠ a.effRows) || decide (d.cols ≠ b.rows))
    | none => failIf 7 nd (decide (d.rows ≠ a.effRows)) ++ failIf 9 na true
  checkResult (decide (d.rows = 0) || decide (a.rows = 0)) (if badD then some nd else if badA then some na else none)
    (tileChecks nd d ++ tileChecks na a ++ wchecks ++ overlapChecks nd d na a false
      ++ failIf 14 nd d.trans ++ failIf 15 na (a.trans && decide (64 < a.cols)))

/-- Spans of a tile include vr127 (R178). -/
def touchesStream (t : Tile) : Bool := t.spans.any (fun x => decide (0 < x.2) && decide (127 < x.1 + x.2))

/-- TCVT (R110, R111, R171, R178, R205). -/
def checkTcvt (nd : Nat) (d : Tile) (ns : Nat) (a : Tile) (stochastic : Bool) : CheckResult :=
  let badD := badFormat d || (decide (d.fmt = 7) && decide (a.fmt ≠ 7))
  let badA := badFormat a || (decide (a.fmt = 7) && decide (d.fmt ≠ 7))
  checkResult (decide (d.rows = 0) || decide (a.rows = 0)) (if badD then some nd else if badA then some ns else none)
    (tileChecks nd d ++ tileChecks ns a ++ overlapChecks nd d ns a (stochastic && (touchesStream d || touchesStream a))
      ++ failIf 13 nd (decide (d.rows ≠ a.rows) || decide (d.cols ≠ a.cols))
      ++ failIf 14 nd d.trans ++ failIf 14 ns a.trans)

end Sys2Proof.Machine
end

