-- ==== Sys2Proof/Machine/Cores.lean ====
section
/-! DEFINITION. How a core issues instructions: outcomes, traps to the core monitor (R89, R109, R140, R260), access checks (R90, R91,
R256, R708), request slots, run-ahead (R116 to R118) and cluster-memory banks (R132 to R135). -/

namespace Sys2Proof.Machine

/-! ### CSRs -/

/-- Value of a CSR that is not listed: TRUNAHEAD resets to 16 (R93), misa reads RV64IMAC with user mode (R88). -/
def csrReset (a : Nat) : Word :=
  match a with
  | 0x800 => 16
  | 0x301 => word (2 ^ 63 + bm 0 0 + bm 2 2 + bm 8 8 + bm 12 12 + bm 20 20)
  | 0x300 => word (2 ^ 33)
  | _ => 0

/-- A CSR's stored value. -/
def csrGet (c : Core) (a : Nat) : Word := mget (csrReset a) c.csrs a

/-- Set a CSR's stored value. -/
def csrSet (c : Core) (a : Nat) (v : Word) : Core := { c with csrs := mset (csrReset a) c.csrs a v }

/-- Numbers of the CSRs that a trap and the tile loads write. -/
def csrMstatus : Nat := 0x300
def csrMtvec : Nat := 0x305
def csrMepc : Nat := 0x341
def csrMcause : Nat := 0x342
def csrMtval : Nat := 0x343
def csrTrunahead : Nat := 0x800
def csrTfaddr : Nat := 0xCC1
def csrTfinfo : Nat := 0xCC2

/-! ### Outcomes and traps -/

/-- Outcome of an instruction: it completes, it completes with a jump, it raises an exception with mtval, check code and descriptor, it
cannot complete yet, or it completes and ends its task. The state of an exception differs from the state before only by what the exception's cause counted elsewhere. -/
inductive IRes where
  | ok (s : State)
  | jump (s : State) (pc : Word)
  | trap (s : State) (cause : Nat) (tval : Word) (check td : Nat)
  | stall (s : State)
  /-- The instruction completes, and a deferred fault with a cause ends its speculative task (R260). -/
  | defer (s : State) (cause : Nat)

/-- Trap entry of a hart (R88): mepc, mcause, mtval, mstatus; pc at mtvec, machine mode. -/
def trapEntry (c : Core) (cause : Nat) (tval : Word) : Core :=
  let st := csrGet c csrMstatus
  let st := setBits st 7 7 (b2n (st.bit 3))
  let st := setBits st 3 3 0
  let st := setBits st 12 11 (if c.machine then 3 else 0)
  let d := csrSet (csrSet (csrSet (csrSet c csrMepc c.pc) csrMcause (word cause)) csrMtval tval) csrMstatus st
  { d with pc := csrGet c csrMtvec &&& ~~~(word 3), machine := true }

/-- A tile exception's record in the core page (R140). -/
def recordTexc (k : CoreRef) (cause check td : Nat) (pc : Word) (s : State) : State :=
  let p := PageRef.core k
  let s := wr s p 0x118 (word (cause + check <<< 8 + td <<< 16))
  let s := wr s p 0x120 (word (pc.bits 47 0))
  wr s p 0x128 (nowW s)

/-- An exception of task code (R89): the core monitor records it and ends the task with TILE_EXCEPTION or TASK_TRAP; the exception of a
speculative task is deferred (R260). -/
def takeTrap (k : CoreRef) (cause : Nat) (tval : Word) (check td : Nat) (s : State) : State :=
  let tile := decide (24 ≤ cause) && decide (cause ≤ 27)
  let pc := (coreOf s k).pc
  let s := if tile then recordTexc k cause check td pc s else s
  let s := setCore s k (trapEntry (coreOf s k) cause tval)
  match runningTask s k with
  | some t => run [.endTask (taskKey t) (if tile then 3 else 4) 0 cause (taskSpec t) none] s
  | none => freeCore s k

/-- The core can issue: it runs a task and waits for no load and no store. -/
def canIssue (s : State) (k : CoreRef) : Bool :=
  coreRunning s k && !(coreOf s k).resLoad && (coreOf s k).fence.isNone && (coreOf s k).heldStore.isNone

/-- The machine-mode counter minstret counts an instruction that completes, unless bit 2 of mcountinhibit is set (R88). -/
def countInstr (c : Core) : Core := if (csrGet c 0x320).bit 2 then c else csrSet c 0xB02 (csrGet c 0xB02 + 1)

/-- A core after an instruction that completes: pc moves on and minstret counts it (R88). -/
def retired (c : Core) (pc : Word) : Core := { countInstr c with pc := pc, slotStall := false }

/-- An instruction completes, and INSTRUCTIONS counts it in user mode (R686). -/
def retire (k : CoreRef) (pc : Word) (s : State) : State :=
  let user := !(coreOf s k).machine
  let s := setCore s k (retired (coreOf s k) pc)
  if user then event (.core k) 0x106 1 s else s

/-- A deferred fault that is no exception ends the core's speculative task: TASK_TRAP with DEFERRED set (R260). -/
def deferFault (k : CoreRef) (cause : Nat) (s : State) : State :=
  match runningTask s k with
  | some t => run [.endTask (taskKey t) 4 0 cause true none] s
  | none => s

/-- What an instruction of a length in bytes leaves. -/
def finish (k : CoreRef) (len : Nat) (pc : Word) (r : IRes) : State :=
  match r with
  | .ok s => retire k (pc + word len) s
  | .jump s t => retire k t s
  | .trap s cause tval check td => takeTrap k cause tval check td s
  | .stall s => s
  | .defer s cause => deferFault k cause (retire k (pc + word len) s)

/-- The core issues a 32-bit tile or vector instruction; a core that cannot issue executes nothing. -/
def issue (k : CoreRef) (f : State → IRes) (s : State) : State :=
  if canIssue s k then finish k 4 (coreOf s k).pc (f s) else s

/-! ### Checks before an instruction's effect -/

/-- mtval of a tile exception that names a descriptor (R108). -/
def tileTval (check td : Nat) : Word := word (check + td <<< 8)

/-- The outcome of an instruction after its format and shape checks (R108, R109). -/
def afterChecks (r : CheckResult) (s : State) (f : State → IRes) : IRes :=
  match r with
  | .pass => f s
  | .empty => .ok s
  | .format td => .trap s 27 (tileTval 0 td) 0 td
  | .shape code td => .trap s 24 (tileTval code td) code td

/-- First address of each page of a range that is not MEMORY (R90). -/
def badPages (s : State) (rs : List (Nat × Nat)) : List Nat :=
  rs.flatMap (fun r => ((pagesOf r.1 r.2).map addr48).filter (fun a => decide (attrOf s a ≠ .memory)))

/-- The least of a list of addresses. -/
def lowest : List Nat → Option Nat
  | [] => none
  | a :: l => some (l.foldl min a)

/-- A step slot is ARMED, LAUNCHED, RUNNING or DRAINING (R708). -/
def stepBusy (s : State) : Bool :=
  anySlot s (fun x => x.step && (match x.state with | .armed | .launched | .running | .draining => true | _ => false))

/-- The core's task may store to the committed bushel that holds an address (R256, R708). -/
def committedOk (s : State) (k : CoreRef) (a : Nat) : Bool :=
  match bushelAt s a with
  | some b => !b.committed || (if coreSpec s k then b.shadow.isSome else !stepBusy s)
  | none => true

/-- First address of each page of a range where a store raises cause 7 under R256. -/
def closedPages (s : State) (k : CoreRef) (rs : List (Nat × Nat)) : List Nat :=
  rs.flatMap (fun r => ((pagesOf r.1 r.2).map addr48).filter (fun a => !committedOk s k a))

/-- The core's present task belongs to a step. -/
def ofStep (s : State) (k : CoreRef) : Bool := (reqAtt s (.core k)).isSome

/-! ### Run-ahead -/

/-- An instruction updates TDn: its run-ahead ends (R118). -/
def endAhead (c : Core) (n : Nat) : Core := { c with ahead := merase n c.ahead }

/-- Run-ahead of TDn ends. -/
def dropAhead (k : CoreRef) (n : Nat) (s : State) : State := setCore s k (endAhead (coreOf s k) n)

/-- D of R116: the lesser of TRUNAHEAD and RUNAHEAD_CAP. -/
def aheadDepth (s : State) (k : CoreRef) : Nat := min (csrGet (coreOf s k) csrTrunahead).toNat (min 64 (fldA s (.core k) 0x110 6 0))

/-- Lines of the load that TDn would perform next (R116). -/
def aheadLines (s : State) (k : CoreRef) (n : Nat) : List Nat :=
  let t := tileOf (coreOf s k) n
  (t.selected.filter (fun r => decide (r < aheadDepth s k))).flatMap (fun r => (t.ranges r).flatMap (fun x => linesOf x.1 x.2))

/-- Run-ahead of TDn begins after a TLD with INC 1. -/
def startAhead (k : CoreRef) (n : Nat) (s : State) : State :=
  let ls := aheadLines s k n
  let c := endAhead (coreOf s k) n
  setCore s k (if ls.isEmpty then c else { c with ahead := minsert n ls c.ahead })

/-- A run-ahead request leaves for its home (R132, R344, R408, R410). -/
def sendAhead (k : CoreRef) (line : Nat) (b : Bushel) (s : State) : State :=
  let own := ownMemory (coreCl k) b
  let s := slotUse k 1 s
  let c := coreOf s k
  let r : Request := ⟨line, (bankStamp s), if own then some (bankOf b line) else none, s.now⟩
  let s := setCore s k { c with requests := c.requests ++ [r] }
  if own then s
  else
    let node := coreNode k
    { s with net := { s.net with packets := s.net.packets ++
        [{ kind := .request, src := node, dst := homeNode b, vc := 0, high := false, age := netStamp s, flits := 1, progress := 0,
           node := node, port := 0, toCore := some (coreIdx k), line := line }] } }

/-- RUNAHEAD_FETCH (R116, R117, R132): the next line of a run-ahead. It stops at a page that is not MEMORY; it takes a slot only while
run-ahead holds fewer than 8 and more than 8 are free; a line that L1 holds needs no request. -/
def runaheadFetch (k : CoreRef) (n : Nat) (s : State) : State :=
  let c := coreOf s k
  match mget [] c.ahead n with
  | [] => s
  | line :: rest =>
    let left := { c with ahead := mset [] c.ahead n rest }
    match bushelAt s (64 * line) with
    | some b =>
      if attrOf s (64 * line) ≠ .memory then addReg (setCore s k (endAhead c n)) (.core k) 0x138 1
      else if (l1Find c line).isSome then setCore s k left
      else if 8 ≤ c.requests.length || decide (slotLimit - slotsInUse c ≤ 8) then s
      else sendAhead k line b (setCore s k left)
    | none => addReg (setCore s k (endAhead c n)) (.core k) 0x138 1

def execRunaheadFetch (k : CoreRef) (td : Fin 8) (s : State) : Out' := atTile s k.tile (runaheadFetch k td.val)

/-- TRUNAHEAD takes a value; above 64 it stores 64 (R93). -/
def setTrunahead (c : Core) (v : Word) : Core := csrSet c csrTrunahead (word (min 64 v.toNat))

def execTrunaheadWrite (k : CoreRef) (value : Word) (s : State) : Out' :=
  atTile s k.tile (issue k (fun s => .ok (setCore s k (setTrunahead (coreOf s k) value))))

/-! ### Responses -/

/-- Age stamp a is older than age stamp b (R414). -/
def older (a b : Nat) : Bool :=
  let d := (b + 2 ^ 16 - a % 2 ^ 16) % 2 ^ 16
  decide (1 ≤ d) && decide (d ≤ 32767)

/-- The oldest of a list by age stamp; equal stamps go to the earlier in the list. -/
def oldest {α : Type} (age : α → Nat) : List α → Option α
  | [] => none
  | x :: l => some (l.foldl (fun a b => if older (age b) (age a) then b else a) x)

/-- Make room for one line: a full L1 gives up a line of its own choice, written back if dirty while the fill holds its own slot. -/
def l1Room (s : State) (k : CoreRef) : State :=
  if (coreOf s k).l1.length < l1Lines then s
  else
    let (i, s) := choose s l1Lines
    match (coreOf s k).l1[i]? with
    | some x =>
      let s := if x.dirty then acceptLine k x (slotUse k 2 s) else s
      let c := coreOf s k
      setCore s k { c with l1 := c.l1.filter (fun l => decide (l.line ≠ x.line)) }
    | none => s

/-- A line arrives in a core's L1 and its request slot is freed. A poisoned line is not installed and nothing is reported (R118). -/
def installLine (i line : Nat) (data : List Byte) (s : State) : State :=
  let k := coreAt i
  let c := coreOf s k
  let s := setCore s k { c with requests := c.requests.filter (fun r => decide (r.line ≠ line)) }
  if data.isEmpty || (l1Find (coreOf s k) line).isSome || coreFenced s k then s
  else
    let s := event (.core k) 0x105 1 (l1Room s k)
    let c := coreOf s k
    setCore s k { c with l1 := c.l1 ++ [⟨line, data, false, coreSpec s k, false⟩] }

/-- A home reads a line for a requester: none if it is poisoned, which the home counts (R358). -/
def serveLine (spec : Bool) (tile line : Nat) (s : State) : List Byte × State :=
  let s := homeAccess false tile line s
  if poisonedAs s spec line then ([], countPoison line s) else (readAs s spec (64 * line) 64, s)

/-- Who waits at a bank: a core of the cluster with its request, the row engine with the stamp of its access, or a packet of the network
port. -/
inductive BankWaiter where
  | core (n : Fin 16) (r : Request)
  | engine (age : Nat)
  | port (p : NetPacket)
  deriving DecidableEq, Repr

/-- Age stamp of a waiter, in BT ns: a packet's stamp counts units of 4 BT ns (DESIGN CHOICE, log entry 135). -/
def BankWaiter.age : BankWaiter → Nat
  | .core _ r => r.age
  | .engine a => a
  | .port p => 4 * p.age % 2 ^ 16

/-- Core requests that wait at a bank, the lower core first. -/
def bankCores (s : State) (cl : ClusterRef) (bank : Nat) : List BankWaiter :=
  (List.finRange 16).flatMap (fun n =>
    ((coreOf s ⟨cl.tile, cl.cluster, n⟩).requests.filter (fun r => decide (r.bank = some bank))).map (fun r => .core n r))

/-- The arbiter window of a bank when the waiters are known: it ends at once when every waiter is masked (R416). -/
def openWindow (b : Bank) (cores : List BankWaiter) : Bank :=
  if cores.isEmpty && decide (bankQuota ≤ b.nonCore) then { b with grants := 0, nonCore := 0 } else b

/-- A response packet leaves a home (R409, R410). -/
def respond (p : NetPacket) (data : List Byte) (s : State) : State :=
  { s with net := { s.net with packets := s.net.packets ++
      [{ p with kind := .response, src := p.dst, dst := p.src, vc := 1, high := true, age := netStamp s, progress := 0,
                node := p.dst, port := 0, data := data }] } }

/-- The task of the core that a packet is for is speculative. -/
def packetSpec (s : State) (p : NetPacket) : Bool :=
  match p.toCore with
  | some i => coreSpec s (coreAt i)
  | none => false

/-- The longest wait of a core's requests at a bank (R135, R141). -/
def noteWait (k : CoreRef) (t : Nat) (s : State) : State :=
  if fld s (.core k) 0x148 31 0 < t then wr s (.core k) 0x148 (word (sat 32 t)) else s

/-- The waiter that a bank grants next: the oldest that is not masked; equal stamps go to the lower core, then to the row engine, then to the
network port (R133, R414; log entry 135). -/
def nextWaiter (b : Bank) (cores engines : List BankWaiter) : Option BankWaiter :=
  oldest BankWaiter.age (cores ++ (if bankQuota ≤ b.nonCore then [] else engines ++ b.waiting.map BankWaiter.port))

/-- MEMORY_RESPONSE of a bank (R133): it grants the oldest unmasked request. -/
def bankResponse (cl : ClusterRef) (n : Nat) (s : State) : State :=
  let cores := bankCores s cl n
  let b := openWindow (bankAt s cl n) cores
  match nextWaiter b cores [] with
  | some (.core m r) =>
    let k : CoreRef := ⟨cl.tile, cl.cluster, m⟩
    let s := setBank s cl n (countGrant b false)
    let s := noteWait k (s.now - r.time) s
    let (data, s) := serveLine (coreSpec s k) cl.tile.val r.line s
    installLine (coreIdx k) r.line data s
  | some (.port p) =>
    let s := setBank s cl n (countGrant { b with waiting := b.waiting.erase p } true)
    let (data, s) := serveLine (packetSpec s p) (p.src / 40) p.line s
    respond p data s
  | _ => s

/-- An access of the row engine, or an L1 line fill of a core's own instruction, comes to a bank: what the bank grants before it is answered
first, then its own grant counts (R133). Fuel bounds the waiters. -/
def bankTurn (cl : ClusterRef) (n : Nat) (w : BankWaiter) : Nat → State → State
  | 0, s => s
  | fuel + 1, s =>
    let waiting := bankCores s cl n
    let core := match w with
      | .core m _ => some m
      | _ => none
    let cores := match core with
      | some m => waiting.filter (fun x => match x with | .core i _ => decide (i ≤ m) | _ => false) ++ w
          :: waiting.filter (fun x => match x with | .core i _ => decide (m < i) | _ => false)
      | none => waiting
    let b := openWindow (bankAt s cl n) cores
    if nextWaiter b cores (if core.isSome then [] else [w]) = some w then setBank s cl n (countGrant b core.isNone)
    else bankTurn cl n w fuel (bankResponse cl n s)

/-- Requests that wait at a bank. -/
def bankLoad (s : State) (cl : ClusterRef) (n : Nat) : Nat := (bankCores s cl n).length + (bankAt s cl n).waiting.length

/-- MEMORY_RESPONSE of another home: it answers the oldest request that has reached it. -/
def homeResponse (node : Nat) (s : State) : State :=
  match oldest NetPacket.age (s.net.atHome.filter (fun p => decide (p.dst = node))) with
  | none => s
  | some p =>
    let s := { s with net := { s.net with atHome := s.net.atHome.erase p } }
    let (data, s) := serveLine (packetSpec s p) (p.src / 40) p.line s
    respond p data s

def execMemoryResponse (who : Responder) (s : State) : Out' :=
  match who with
  | .bank cl n => atTile s cl.tile (bankResponse cl n.val)
  | .home node => if hasTile s (node.val / 40) then .next (homeResponse node.val s) else .refused .noSuchUnit

/-- An access of the row engine to a line takes its turn at the bank (R133, R226). -/
def engineTurn (cl : ClusterRef) (s : State) (line : Nat) : State :=
  match bushelAt s (64 * line) with
  | some b =>
    if ownMemory cl b then bankTurn cl (bankOf b line) (.engine (bankStamp s)) (bankLoad s cl (bankOf b line) + 1) s else s
  | none => s

/-- The row engine's accesses of a range. -/
def engineTurns (cl : ClusterRef) (a n : Nat) (s : State) : State := (linesOf a n).foldl (engineTurn cl) s

/-! ### Accesses through L1 (R92, R132, R133, R344) -/

/-- A core's own access reaches the home of a line: it takes its turn at a bank of its own cluster's memory, and crosses the network to any
other home. -/
def reachHome (k : CoreRef) (line : Nat) (s : State) : State :=
  match bushelAt s (64 * line) with
  | none => s
  | some b =>
    if ownMemory (coreCl k) b then
      let n := bankOf b line
      bankTurn (coreCl k) n (.core k.core ⟨line, bankStamp s, some n, s.now⟩) (bankLoad s (coreCl k) n + 1) s
    else carry (homeNode b) (coreNode k) (carry (coreNode k) (homeNode b) s)

/-- Fill a line of a core's L1 from its home, in the view of its present task. A run-ahead response that the bank gives first may bring the
line. -/
def l1Fill (s : State) (k : CoreRef) (spec : Bool) (line : Nat) : State :=
  if (l1Find (coreOf s k) line).isSome then s
  else
    let s := reachHome k line s
    if (l1Find (coreOf s k) line).isSome then s
    else
      let s := homeAccess false k.tile.val line (l1Room s k)
      let s := event (.core k) 0x105 1 s
      let c := coreOf s k
      setCore s k { c with l1 := c.l1 ++ [⟨line, readAs s spec (64 * line) 64, false, spec, false⟩] }

/-- A row or register access takes one request slot for each line that it must fill (R132). -/
def takeSlots (k : CoreRef) (a n : Nat) (s : State) : State :=
  let m := (missing s k [(a, n)]).length
  if m = 0 then s else slotUse k m s

/-- The core reads one byte through L1, filling its line. -/
def coreReadByte (k : CoreRef) (spec : Bool) (r : List Byte × State) (a : Nat) : List Byte × State :=
  let s := l1Fill r.2 k spec (lineNo a)
  (r.1 ++ [l1Byte (coreOf s k) a], s)

/-- The core reads n bytes through L1, in address order: a line may give way to the next one. -/
def coreRead (s : State) (k : CoreRef) (a n : Nat) : List Byte × State :=
  let r := (addrs a n).foldl (coreReadByte k (coreSpec s k)) ([], takeSlots k a n s)
  (r.1, readStorage (.core k) (lineNo a % 2 ^ 16) r.2)

/-- A line that is written whole is allocated without a fill. -/
def l1Alloc (s : State) (k : CoreRef) (spec : Bool) (line : Nat) : State :=
  if (l1Find (coreOf s k) line).isSome then s
  else
    let s := l1Room s k
    let c := coreOf s k
    setCore s k { c with l1 := c.l1 ++ [⟨line, List.replicate 64 emptyByte, false, spec, false⟩] }

/-- The core writes one byte through L1, allocating its line. -/
def coreWriteByte (k : CoreRef) (spec : Bool) (whole : List Nat) (s : State) (e : Nat × Byte) : State :=
  let l := lineNo e.1
  let s := if whole.contains l then l1Alloc s k spec l else l1Fill s k spec l
  setCore s k (l1SetByte (coreOf s k) spec e.1 e.2)

/-- L1 lines that a write covers whole lose their errors (R357). -/
def l1Heal (c : Core) (whole : List Nat) : Core :=
  { c with l1 := c.l1.map (fun l => if whole.contains l.line then { l with poison := false } else l) }

/-- A write to L1's storage: an armed KIND 3 stores the line with an uncorrectable error, which the core logs (R92, R609). -/
def l1Inject (k : CoreRef) (line : Nat) (s : State) : State :=
  if armedKind s (.core k) = 3 then
    let s := takeInjection (.core k) (line % 2 ^ 16) s
    let c := coreOf s k
    let s := setCore s k { c with l1 := c.l1.map (fun l => if l.line = line then { l with poison := true } else l) }
    logErr (.core k) errUe (line % 2 ^ 16) s
  else s

/-- The core writes bytes through L1, in address order: write-allocate, write-back (R92). -/
def coreWrite (s : State) (k : CoreRef) (a : Nat) (v : List Byte) : State :=
  let whole := wholeLines a v.length
  let s := takeSlots k a v.length s
  let s := (List.zip (addrs a v.length) v).foldl (coreWriteByte k (coreSpec s k) whole) s
  l1Inject k (lineNo a) (setCore s k (l1Heal (coreOf s k) whole))

/-! ### Poisoned lines and stores of instructions -/

/-- A speculative task reads shadow data in a line: the shadow line, or what its L1 is to write there. -/
def shadowRead (s : State) (k : CoreRef) (line : Nat) : Bool :=
  coreSpec s k && (s.mem.shadowLines.contains line || (match l1Find (coreOf s k) line with
    | some l => l.dirty && l.spec && committedAt s (64 * line)
    | none => false))

/-- A core meets a poisoned line: the home counts a line that it reads, and the core page logs one that L1 holds. An error in shadow data is
deferred (R357); any other is also a fault of a RUNNING step (R359). -/
def corePoisoned (k : CoreRef) (line : Nat) (s : State) : State :=
  let shadow := shadowRead s k line
  if (l1Find (coreOf s k) line).isSome then
    let s := logErr (.core k) errUe (line % 2 ^ 16) s
    if shadow || !ofStep s k then s else poisonFault line s
  else if shadow then countPoison line s else meetPoison line (ofStep s k) s

/-- A scalar or vector access meets a poisoned line: the fault is reported, and the access raises its cause (R358). -/
def poisonTrap (k : CoreRef) (cause a line : Nat) (s : State) : IRes :=
  .trap (corePoisoned k line s) cause (word (if lineNo a = line then addr48 a else 64 * line)) 0 0

/-- The core writes ranges of bytes after every check has passed. -/
def coreWrites (k : CoreRef) (l : List (Nat × List Byte)) (s : State) : State := l.foldl (fun s e => coreWrite s k e.1 e.2) s

/-- A memory instruction that cannot issue waits; the core notes that every request slot is held (R18, R135). -/
def memStall (k : CoreRef) (s : State) : IRes := .stall (setCore s k { coreOf s k with slotStall := slotsFull s k })

/-- A store of ranges by an instruction: cause 7 for a committed bushel that is closed to it or a poisoned line that it would fill, else
the write (R256, R358, R708). A store to a bushel that is being switched waits (R353). -/
def storeRanges (k : CoreRef) (l : List (Nat × List Byte)) (s : State) : IRes :=
  let rs := l.map (fun e => (e.1, e.2.length))
  match lowest (closedPages s k rs) with
  | some a => .trap s 7 (word a) 0 0
  | none =>
    if accessWaits s k rs then memStall k s
    else match rs.findSome? (fun r => (corePoisonStore s k r.1 r.2).map (fun line => (r.1, line))) with
    | some (a, line) => poisonTrap k 7 a line s
    | none => .ok (coreWrites k l s)

/-! ### Slot and bank registers -/

/-- SLOT_STAT_READ (R141): the register, and HIGH falls to IN_USE. -/
def readSlotStat (k : CoreRef) (s : State) : State :=
  let c := coreOf s k
  let p := PageRef.core k
  let used := slotsInUse c
  let w := setBits (setBits (rd s p 0x140) 5 0 used) 19 16 (min 8 c.requests.length)
  reply w (setFld s p 0x140 13 8 used)

def execSlotStatRead (k : CoreRef) (s : State) : Out' := atTile s k.tile (readSlotStat k)

/-- BANK_WAIT_MAX_READ (R141): the register, and WAIT falls to 0. -/
def readBankWait (k : CoreRef) (s : State) : State := reply (rd s (.core k) 0x148) (wr s (.core k) 0x148 0)

def execBankWaitMaxRead (k : CoreRef) (s : State) : Out' := atTile s k.tile (readBankWait k)

end Sys2Proof.Machine
end

