-- ==== Sys2Proof/Machine/RowEngine.lean ====
section
/-! DEFINITION. The row engine of a cluster (R215 to R229). -/

namespace Sys2Proof.Machine

/-! ### Arithmetic (R220 to R222) -/

/-- e^x: within 2 units in the last place (R220); at most 1 for x ≤ 0, and 1 at 0 (R222). -/
def reExp (x : Lane) : Lane :=
  match f32 x with
  | .nan => 0x7FC00000
  | .inf neg => if neg then 0 else 0x7F800000
  | .fin neg m e =>
    if m = 0 then 0x3F800000
    else
      let y := nearApprox 8 x (vfuncApprox 0 neg m e)
      if neg && nlt (f32 0x3F800000) (f32 y) then 0x3F800000 else y

/-- ln x: within 2 units in the last place (R220). -/
def reLn (x : Lane) : Lane :=
  match f32 x with
  | .nan => 0x7FC00000
  | .inf neg => if neg then 0x7FC00000 else 0x7F800000
  | .fin neg m e =>
    if m = 0 then 0xFF800000
    else if neg then 0x7FC00000
    else
      let a := vfuncApprox 2 false m e
      nearApprox 9 x (a.1, a.2.1 * ln2Fx, a.2.2.1 * 2 ^ fxBits, 0)

/-- Square root, rounded to nearest even. -/
def fsqrt (x : Lane) : Lane :=
  match f32 x with
  | .nan => 0x7FC00000
  | .inf neg => if neg then 0x7FC00000 else 0x7F800000
  | .fin neg m e =>
    if m = 0 then x
    else if neg then 0x7FC00000
    else
      let m' := if e % 2 = 0 then m else 2 * m
      let e' := if e % 2 = 0 then e else e - 1
      let n := m' <<< 80
      let r := isqrt n
      let sticky := if r * r = n then 0 else 1
      toF32 (.fin false (2 * r + sticky) (e' / 2 - 41))

/-- Groups of 64, the last padded with zeros. -/
def groups64 (l : List Lane) : List (List Lane) :=
  (List.range ((l.length + 63) / 64)).map (fun g =>
    let x := (l.drop (64 * g)).take 64
    x ++ List.replicate (64 - x.length) 0)

/-- Sum over a piece: groups of 64 by the tree of R129, the groups in increasing order (R220). -/
def pieceSum (l : List Lane) : Lane :=
  match (groups64 l).map (tree6 fadd) with
  | [] => 0
  | x :: xs => xs.foldl fadd x

/-! ### Descriptors (R218) -/

/-- A row-engine command read out of its descriptor. -/
structure ReCmd where
  op : Nat
  first : Nat
  nrows : Nat
  len : Nat
  src : Nat
  src2 : Nat
  dst : Nat
  dst2 : Nat
  pitch : Int
  param0 : Lane
  param1 : Lane
  sync : Nat
  syncEn : Bool
  ifmt : Nat
  ofmt : Nat
  reserved : Bool
  deriving DecidableEq, Repr

/-- Reserved bits of the eight descriptor words. -/
def reReserved (ws : List Word) : Bool :=
  [bm 7 4, bm 63 48, bm 63 48, bm 63 48, bm 63 48, 0, bm 63 60, bm 31 8].zip ws |>.any (fun e => decide (e.2 &&& word e.1 ≠ 0))

/-- The command that eight words describe. -/
def reCmd (ws : List Word) : ReCmd where
  op := cw ws 0 3 0
  first := cw ws 0 31 8
  nrows := cw ws 0 47 32
  len := cw ws 0 63 48
  src := cw ws 1 47 0
  src2 := cw ws 2 47 0
  dst := cw ws 3 47 0
  dst2 := cw ws 4 47 0
  pitch := signedN 32 (cw ws 5 31 0)
  param1 := BitVec.ofNat 32 (cw ws 5 63 32)
  param0 := BitVec.ofNat 32 (cw ws 6 31 0)
  sync := cw ws 6 50 32
  syncEn := decide (cw ws 6 51 51 = 1)
  ifmt := cw ws 6 55 52
  ofmt := cw ws 6 59 56
  reserved := reReserved ws

/-- The eight words of a 64-byte descriptor at its home. -/
def descWords (s : State) (a : Nat) : List Word := (List.range 8).map (fun i => rd64 s (a + 8 * i))

/-- Bytes of an element of a source or destination format. -/
def reSize (fmt : Nat) : Nat := if fmt = 0 then 4 else 2

/-- Address of row r from a base. -/
def reRow (c : ReCmd) (base r : Nat) : Nat := (((base : Int) + r * c.pitch) % (2 ^ 48 : Nat)).toNat

/-! ### Local memory, records -/

/-- Every bushel that a range touches resides in the cluster's own memory. -/
def localRange (s : State) (cl : ClusterRef) (a n : Nat) : Bool :=
  (bushelsOf (addr48 a) n).all (fun i => match mfind s.mem.bushels i with
    | some b => ownMemory cl b
    | none => false)

/-- Spilled records: active RE_SPILL_BASE and RE_SPILL_ROWS (R215). -/
def spillBase (s : State) (cl : ClusterRef) : Nat := fldA s (.cluster cl) 0x210 47 12 * 4096
def spillRows (s : State) (cl : ClusterRef) : Nat := fldA s (.cluster cl) 0x218 21 0

/-- Address of a spilled record. -/
def spillAddr (s : State) (cl : ClusterRef) (i : Nat) : Nat := addr48 (spillBase s cl + (i - 65536) * 8)

/-- Each spilled record access is counted (R226). -/
def countSpill (cl : ClusterRef) (s : State) : State := event (.cluster cl) 0x101 1 (addReg s (.cluster cl) 0x228 1)

/-- A record (R215). -/
def recRead (cl : ClusterRef) (i : Nat) (s : State) : Word × State :=
  if i < 65536 then (mget 0 (cluster s cl).side i, s)
  else
    let s := engineTurns cl (spillAddr s cl i) 8 s
    (rd64 s (spillAddr s cl i), countSpill cl (homeAccess false cl.tile.val (lineNo (spillAddr s cl i)) s))

/-- The row engine writes bytes in cluster memory. -/
def reStore (cl : ClusterRef) (a : Nat) (v : List Byte) (s : State) : State :=
  storeHome cl.tile.val (addr48 a) v (engineTurns cl (addr48 a) v.length s)

/-- Set a record: a record of the side memory is written with good check bits. -/
def recWrite (cl : ClusterRef) (i : Nat) (v : Word) (s : State) : State :=
  if i < 65536 then
    let c := cluster s cl
    setCluster s cl { c with side := mset 0 c.side i v, sidePoison := setErase i c.sidePoison }
  else countSpill cl (reStore cl (spillAddr s cl i) (leBytes v.toNat 8) s)

/-- Halves of a record (R216). -/
def recLo (w : Word) : Lane := w.setWidth 32
def recHi (w : Word) : Lane := (w >>> 32).setWidth 32
def mkRec (lo hi : Lane) : Word := word (lo.toNat + hi.toNat <<< 32)

/-- Elements of a format in bytes, as FP32 lanes. -/
def reLanes (fmt : Nat) : List Byte → Nat → List Lane
  | _, 0 => []
  | l, n + 1 =>
    (if fmt = 0 then BitVec.ofNat 32 (leNat (l.take 4)) else BitVec.ofNat 32 (leNat (l.take 2) <<< 16))
      :: reLanes fmt (l.drop (reSize fmt)) n

/-- Bytes of FP32 lanes in a destination format. -/
def reBytes (fmt : Nat) (l : List Lane) : List Byte :=
  l.flatMap (fun v => if fmt = 0 then leBytes v.toNat 4 else leBytes (toBf16 .near (f32 v)) 2)

/-! ### Rows -/

/-- Where a row's reads met an uncorrectable error: a line of cluster memory, or a record of the side memory (R225). -/
inductive ReBad where
  | line (l : Nat)
  | record (i : Nat)
  deriving DecidableEq, Repr

/-- Result of a row: the state, or an uncorrectable error that a read met. -/
inductive RowRes where
  | ok (s : State)
  | ecc (x : ReBad) (s : State)

/-- Read LEN elements of a row. -/
def readRow (cl : ClusterRef) (c : ReCmd) (base r : Nat) (s : State) : Except ReBad (List Lane × State) :=
  let a := reRow c base r
  let n := c.len * reSize c.ifmt
  match poisonIn s false a n with
  | some line => .error (.line line)
  | none =>
    let s := engineTurns cl a n s
    .ok (reLanes c.ifmt (readMem s a n) c.len, homeAccesses false cl.tile.val a n s)

/-- The uncorrectable error of a record. -/
def recPoison (s : State) (cl : ClusterRef) (i : Nat) : Option ReBad :=
  if i < 65536 then (if (cluster s cl).sidePoison.contains i then some (.record i) else none)
  else (poisonIn s false (spillAddr s cl i) 8).map .line

/-- An uncorrectable error of the row engine: counted and logged, and a transient fault of a RUNNING step on whose behalf it reads (R225, R358,
R359). For a record of the side memory the fault names the cluster's memory (log entry 136). -/
def reMeet (cl : ClusterRef) (x : ReBad) (ofStep : Bool) (s : State) : State :=
  match x with
  | .line l => meetPoison l ofStep s
  | .record i =>
    let s := logErr (.cluster cl) errUe i s
    if ofStep && stepRunning s then fault 4 (cl.tile.val <<< 4 + cl.cluster.val <<< 8) s else s

/-- Work on row r of an operation, by OP (R219 to R221); `w` is the row's record. -/
def rowWork (cl : ClusterRef) (c : ReCmd) (r : Nat) (w : Word) (s : State) : RowRes :=
  let i := c.first + r
  match c.op with
  | 0 => .ok (recWrite cl i (mkRec c.param0 c.param1) s)
  | 1 =>
    if c.len = 0 then .ok (reStore cl (c.dst2 + 4 * r) (leBytes 0x3F800000 4) s)
    else
      match readRow cl c c.src r s with
      | .error l => .ecc l s
      | .ok (x, s) =>
        let m := recLo w
        let m' := x.foldl fmax m
        if m' = 0xFF800000 then
          let s := reStore cl (reRow c c.dst r) (reBytes c.ofmt (List.replicate c.len 0)) s
          .ok (reStore cl (c.dst2 + 4 * r) (leBytes 0x3F800000 4) s)
        else
          let k := reExp (fsub m m')
          let p := x.map (fun v => reExp (fsub v m'))
          let s := reStore cl (reRow c c.dst r) (reBytes c.ofmt p) s
          let s := reStore cl (c.dst2 + 4 * r) (leBytes k.toNat 4) s
          .ok (recWrite cl i (mkRec m' (fadd (fmul (recHi w) k) (pieceSum p))) s)
  | 2 =>
    let m := recLo w
    let l := recHi w
    if (f32 l).isZero then
      .ok (recWrite cl i (mkRec 0xFF800000 0) (reStore cl (c.dst2 + 4 * r) (leBytes 0 4) s))
    else
      let s := reStore cl (c.dst2 + 4 * r) (leBytes (fdiv 0x3F800000 l).toNat 4) s
      .ok (recWrite cl i (mkRec (fadd m (reLn l)) 0) s)
  | 3 =>
    if c.len = 0 then .ok s
    else
      match readRow cl c c.src r s with
      | .error l => .ecc l s
      | .ok (x, s) =>
        match readRow cl c c.src2 r s with
        | .error l => .ecc l s
        | .ok (y, s) =>
          .ok (recWrite cl i (mkRec (recLo w) (fadd (recHi w) (pieceSum (List.zipWith fmul x y)))) s)
  | 4 =>
    match readRow cl c c.src r s with
    | .error l => .ecc l s
    | .ok (x, s) =>
      match readRow cl c c.src2 r s with
      | .error l => .ecc l s
      | .ok (y, s) =>
        let p := x.map (fun v => reExp (fsub v (recLo w)))
        let d := List.zipWith (fun a b => fmul a (fsub b (recHi w))) p y
        let s := reStore cl (reRow c c.dst r) (reBytes c.ofmt d) s
        .ok (if c.dst2 = 0 then s else reStore cl (reRow c c.dst2 r) (reBytes c.ofmt p) s)
  | 5 =>
    if c.len = 0 then .ok s
    else
      match readRow cl c c.src r s with
      | .error l => .ecc l s
      | .ok (x, s) =>
        .ok (recWrite cl i (mkRec (fadd (recLo w) (pieceSum x)) (fadd (recHi w) (pieceSum (x.map (fun v => fmul v v))))) s)
  | 6 =>
    let mean := fdiv (recLo w) c.param0
    let var := fmax (fsub (fdiv (recHi w) c.param0) (fmul mean mean)) 0
    let rstd := fdiv 0x3F800000 (fsqrt (fadd var c.param1))
    .ok (reStore cl (c.dst2 + 8 * r) (leBytes mean.toNat 4 ++ leBytes rstd.toNat 4) s)
  | 7 => .ok (reStore cl (c.dst + 8 * r) (leBytes w.toNat 8) s)
  | _ =>
    let a := addr48 (c.src + 8 * r)
    match poisonIn s false a 8 with
    | some l => .ecc (.line l) s
    | none =>
      let s := engineTurns cl a 8 s
      .ok (recWrite cl i (rd64 s a) (homeAccesses false cl.tile.val a 8 s))

/-- The operation reads its records: all but FILL and LOAD, and the pieces that LEN 0 leaves empty. -/
def readsRecord (c : ReCmd) : Bool :=
  decide (c.op ≠ 0) && decide (c.op ≠ 8) && !(decide (c.len = 0) && (decide (c.op = 1) || decide (c.op = 3) || decide (c.op = 5)))

/-- Row r. -/
def doRow (cl : ClusterRef) (c : ReCmd) (s : State) (r : Nat) : RowRes :=
  if readsRecord c then
    match recPoison s cl (c.first + r) with
    | some l => .ecc l s
    | none => let (w, s) := recRead cl (c.first + r) s; rowWork cl c r w s
  else rowWork cl c r 0 s

/-- Rows in order, until one meets a poisoned line. -/
def doRows (cl : ClusterRef) (c : ReCmd) : List Nat → State → RowRes
  | [], s => .ok s
  | r :: l, s => match doRow cl c s r with
    | .ok s => doRows cl c l s
    | .ecc x s => .ecc x s

/-! ### Checks and completion (R223 to R225) -/

/-- BAD_DESC. -/
def reBad (c : ReCmd) : Bool :=
  decide (8 < c.op) || c.reserved || decide (4096 < c.len) || decide (1 < c.ifmt) || decide (1 < c.ofmt)
  || (decide (c.op = 6) && !((f32 c.param0).isFin && !(f32 c.param0).isZero && !(f32 c.param0).neg?))

/-- Ranges of memory that an operation takes. -/
def reRanges (c : ReCmd) : List (Nat × Nat) :=
  let rows := List.range c.nrows
  let ins := fun b => rows.map (fun r => (reRow c b r, c.len * reSize c.ifmt))
  let outs := fun b => rows.map (fun r => (reRow c b r, c.len * reSize c.ofmt))
  match c.op with
  | 1 => ins c.src ++ outs c.dst ++ [(c.dst2, 4 * c.nrows)]
  | 2 => [(c.dst2, 4 * c.nrows)]
  | 3 => ins c.src ++ ins c.src2
  | 4 => ins c.src ++ ins c.src2 ++ outs c.dst ++ (if c.dst2 = 0 then [] else outs c.dst2)
  | 5 => ins c.src
  | 6 => [(c.dst2, 8 * c.nrows)]
  | 7 => [(c.dst, 8 * c.nrows)]
  | 8 => [(c.src, 8 * c.nrows)]
  | _ => []

/-- Part of the spill area that a command touches. -/
def reSpill (s : State) (cl : ClusterRef) (c : ReCmd) : List (Nat × Nat) :=
  let lo := max 65536 c.first
  let hi := c.first + c.nrows
  if lo < hi then [(spillAddr s cl lo, 8 * (hi - lo))] else []

/-- Status that a command ends with before any write, if one does. -/
def reRefused (s : State) (cl : ClusterRef) (c : ReCmd) : Option Nat :=
  if reBad c then some 2
  else if !((reRanges c).all (fun x => localRange s cl x.1 x.2)) then some 3
  else if 65536 + spillRows s cl < c.first + c.nrows then some 4
  else if !((reSpill s cl c).all (fun x => localRange s cl x.1 x.2)) then some 3
  else none

/-- RE_STAT.QUEUED and BUSY follow the queue (R228). -/
def reCount (cl : ClusterRef) (s : State) : State :=
  let n := (cluster s cl).reQueue.length
  setFld (setFld s (.cluster cl) 0x208 5 0 n) (.cluster cl) 0x208 8 8 (if n = 0 then 0 else 1)

/-- Agent word of the row engine (R293). -/
def reWho (cl : ClusterRef) (att : Option Nat) : Word := unitWho 3 cl.tile.val cl.cluster.val att

/-- RE_COMPLETION (R225). -/
def reComplete (cl : ClusterRef) (desc : Nat) (att : Option Nat) (c : ReCmd) (status : Nat) (s : State) : State :=
  let p := PageRef.cluster cl
  let q := cluster s cl
  let s := reCount cl (setCluster s cl { q with reQueue := q.reQueue.drop 1 })
  let s := setFld s p 0x208 23 16 status
  let s := if attrOf s (desc + 0x38) = .memory then
      reStore cl (desc + 0x38) (leBytes (status + (s.now % 2 ^ 32) <<< 32) 8) s
    else s
  let s := event p 0x100 1 (addReg s p 0x220 1)
  let s := if status = 1 then s else logErr p errCommand status (wr s p 0x230 (word desc))
  let s := trace cl.tile.val 6 (reWho cl att) (word (desc + status <<< 48)) 0 s
  if c.syncEn then signal c.sync 1 (reWho cl att) att s else s

/-- The command would touch a bushel that is being switched (R353). -/
def reHeld (s : State) (cl : ClusterRef) (desc : Nat) (c : ReCmd) : Bool :=
  ((desc, 64) :: (if reBad c || decide (c.nrows = 0) then [] else reRanges c ++ reSpill s cl c)).any (fun e => heldRange s e.1 e.2)

/-- The command at the front of the queue executes, if its OP is `op` or no operation at all (R219, R224). -/
def reRun (op : Nat) (cl : ClusterRef) (s : State) : State :=
  match (cluster s cl).reQueue with
  | [] => s
  | (desc, att, _) :: _ =>
    let c := reCmd (descWords s desc)
    if (c.op ≠ op && decide (c.op ≤ 8)) || reHeld s cl desc c then s
    else
      match poisonIn s false desc 64 with
      | some l => meetPoison l att.isSome (reComplete cl desc att c 5 s)
      | none =>
        let s := homeAccess false cl.tile.val (lineNo desc) (engineTurns cl desc 64 s)
        if c.nrows = 0 then reComplete cl desc att c 1 s
        else
          match reRefused s cl c with
          | some st => reComplete cl desc att c st s
          | none =>
            match doRows cl c (List.range c.nrows) s with
            | .ok s => reComplete cl desc att c 1 s
            | .ecc x s => reMeet cl x att.isSome (reComplete cl desc att c 5 s)

def execReFill (cl : ClusterRef) (s : State) : Out' := atTile s cl.tile (reRun 0 cl)
def execReSmaxStep (cl : ClusterRef) (s : State) : Out' := atTile s cl.tile (reRun 1 cl)
def execReSmaxFinal (cl : ClusterRef) (s : State) : Out' := atTile s cl.tile (reRun 2 cl)
def execReDot (cl : ClusterRef) (s : State) : Out' := atTile s cl.tile (reRun 3 cl)
def execReSmaxBwd (cl : ClusterRef) (s : State) : Out' := atTile s cl.tile (reRun 4 cl)
def execReMomStep (cl : ClusterRef) (s : State) : Out' := atTile s cl.tile (reRun 5 cl)
def execReMomFinal (cl : ClusterRef) (s : State) : Out' := atTile s cl.tile (reRun 6 cl)
def execReSave (cl : ClusterRef) (s : State) : Out' := atTile s cl.tile (reRun 7 cl)
def execReLoad (cl : ClusterRef) (s : State) : Out' := atTile s cl.tile (reRun 8 cl)

/-! ### Submission (R223) -/

/-- What a store of a core does: it takes effect or is held, or it raises an access fault. -/
inductive StoreRes where
  | done (s : State)
  | fault

/-- A store that must wait is held: its core issues nothing until the register takes it (R223, R244, R379, R476; log entry 137). -/
def holdStore (k : CoreRef) (p : PageRef) (off : Nat) (value : Word) (s : State) : State :=
  setCore s k { coreOf s k with heldStore := some (pageBase p + off, value) }

/-- Reserved bits of a write are logged (R596). -/
def reservedWrite (p : PageRef) (off wmask : Nat) (value : Word) (s : State) : State :=
  logIf (decide (value &&& ~~~(word wmask) ≠ 0)) p errReserved off s

/-- Entries of a row engine's queue. -/
def reDepth : Nat := 32

/-- A store of a core of the cluster to RE_SUBMIT. -/
def reStoreSubmit (k : CoreRef) (cl : ClusterRef) (value : Word) (s : State) : StoreRes :=
  let a := value.bits 47 0
  if a % 64 ≠ 0 || !localRange s cl a 64 then .fault
  else if reDepth ≤ (cluster s cl).reQueue.length then .done (holdStore k (.cluster cl) 0x200 value s)
  else
    let s := reservedWrite (.cluster cl) 0x200 (bm 47 0) value s
    let q := cluster s cl
    .done (reCount cl (setCluster s cl { q with reQueue := q.reQueue ++ [(a, reqAtt s (.core k), reqWho s (.core k))] }))

/-- Device address of a register (R91). -/
def regAddr (p : PageRef) (off : Nat) : Nat := windowBase + pageBase p + off

/-- The effect of a store that a core makes as a command of its own. -/
def settle (k : CoreRef) (a : Nat) (s : State) : StoreRes → State
  | .done s => s
  | .fault => if coreRunning s k then takeTrap k 7 (word a) 0 0 s else s

/-- RE_SUBMIT (R223): a core of the cluster submits; any other agent's write is ignored and logged. -/
def reSubmit (r : Requester) (cl : ClusterRef) (value : Word) (s : State) : State :=
  let p := PageRef.cluster cl
  match r with
  | .core k =>
    if coreCl k = cl then settle k (regAddr p 0x200) s (reStoreSubmit k cl value s)
    else logErr p errAccess 0x200 s
  | _ => logErr p errAccess 0x200 s

def execReSubmit (r : Requester) (cl : ClusterRef) (value : Word) (s : State) : Out' := byAt s r cl.tile (reSubmit r cl value)

end Sys2Proof.Machine
end

