-- ==== Sys2Proof/Machine/Sync.lean ====
section
/-! DEFINITION. Sync counters (R262 to R282), waits of a core (R269 to R275), fences (R283), task start and end (R243, R244), tag quarantine
(R249) and the SYNC page's operations (R287 to R293). -/

namespace Sys2Proof.Machine

/-! ### Signals -/

/-- A store of SYNC.SIGNAL (R265, R288). -/
def signalStore (r : Requester) (tile : Fin 8) (value : Word) (s : State) : State :=
  let p := pgSync tile
  let s := reservedWrite p 0x100 (bm 18 0 + bm 63 32) value s
  let i := value.bits 18 0
  if hasTile s (i / 2 ^ 16) then signal i (value.bits 63 32) (reqWho s r) (reqAtt s r) s
  else logErr p errCommand 0x100 s

def execSignal (r : Requester) (tile : Fin 8) (value : Word) (s : State) : Out' := byAt s r tile (signalStore r tile value)

/-! ### Waits of a core -/

/-- A store of WAIT_VAL (R269, R272). -/
def waitValStore (r : Requester) (tile : Fin 8) (value : Word) (s : State) : State :=
  match r with
  | .core k => setCore s k { coreOf s k with waitVal := value }
  | _ => logErr (pgSync tile) errAccess 0x108 s

def execWaitValWrite (r : Requester) (tile : Fin 8) (value : Word) (s : State) : Out' := byAt s r tile (waitValStore r tile value)

/-- The waiter that a core holds for its armed wait. -/
def ownWaiter (k : CoreRef) (w : Waiter) : Bool := w.task.isNone && decide (whoCore w.agent = k)

/-- The core's wait has this counter, expected value, ACQUIRE and result. -/
def setWait (k : CoreRef) (i e : Nat) (acquire : Bool) (result : Option Nat) (s : State) : State :=
  setCore s k { coreOf s k with wait := some ⟨i, acquire, result, e, s.now⟩ }

/-- The wait needs a memory entry and none is free (R275). -/
def waitlistFull (k : CoreRef) (i : Nat) (s : State) : State :=
  let s := setFld s (pgCtr i) 0x170 48 48 1
  if ofStep s k then fault 16 (ctrTile i).val s else s

/-- Arm a core's wait (R266, R269, R273, R275, R278). -/
def armWait (k : CoreRef) (value : Word) (s : State) : State :=
  let s := dropAllWaiters s (ownWaiter k)
  let i := value.bits 18 0
  let acquire := value.bit 20
  let c := ctr s i
  let v := (coreOf s k).waitVal.toNat
  let e := if value.bit 19 then c.base + v else v
  if value.toNat / 2 ^ 48 ≠ 0 || decide (value.bits 31 21 ≠ 0) || !hasTile s (i / 2 ^ 16) || decide (2 ^ 64 ≤ e) then
    setWait k i e acquire (some 5) s
  else if e ≤ c.value then setWait k i e acquire (some 1) s
  else if c.orphan then setWait k i e acquire (some 2) s
  else
    let t := value.bits 47 32
    match holdWaiter s i ⟨e, reqWho s (.core k), none, acquire, if t = 0 then 0 else s.now + 1000 * t, 0⟩ with
    | some s => setWait k i e acquire none s
    | none => waitlistFull k i (setWait k i e acquire (some 6) s)

/-- A store of WAIT_GO (R269, R272). -/
def waitGoStore (r : Requester) (tile : Fin 8) (value : Word) (s : State) : State :=
  match r with
  | .core k => armWait k value s
  | _ => logErr (pgSync tile) errAccess 0x110 s

def execWaitGo (r : Requester) (tile : Fin 8) (value : Word) (s : State) : Out' := byAt s r tile (waitGoStore r tile value)

/-- What a load of a core returns: a value, or nothing while it blocks. -/
inductive LoadRes where
  | value (w : Word) (s : State)
  | blocks (s : State)

/-- A load of WAIT_RES by a core (R269, R270): it blocks until the armed wait has ended. -/
def waitRes (k : CoreRef) (s : State) : LoadRes :=
  let c := coreOf s k
  match c.wait with
  | none => .value 4 s
  | some w =>
    match w.result with
    | none => .blocks (slotUse k 0 (setCore s k { c with resLoad := true }))
    | some code =>
      let s := setCore s k { c with wait := none, resLoad := false }
      .value (word code) (if w.acquire && decide (code = 1) then l1Acquire s k else s)

/-- A load as a command of its own. -/
def settleLoad : LoadRes → State
  | .value w s => reply w s
  | .blocks s => s

/-- WAIT_RES_LOAD (R269, R272). -/
def waitResStore (r : Requester) (s : State) : State :=
  match r with
  | .core k => settleLoad (waitRes k s)
  | _ => reply 4 s

def execWaitResLoad (r : Requester) (s : State) : Out' := byReq s r (waitResStore r)

/-- WAIT_TIMEOUT (R269, R271): the timeout of a core's armed wait has passed. -/
def waitTimeout (k : CoreRef) (s : State) : State :=
  match (coreOf s k).wait with
  | some ⟨i, _, none, _, _⟩ =>
    let c := ctr s i
    if (c.hw.filterMap id ++ c.chain).any (fun w => ownWaiter k w && decide (w.timeout ≠ 0) && decide (w.timeout ≤ s.now)) then
      endWait (dropWaiters s i (ownWaiter k)) k 3
    else s
  | _ => s

def execWaitTimeout (k : CoreRef) (s : State) : Out' := atTile s k.tile (waitTimeout k)

/-! ### Fences (R283) -/

/-- A fence of a core covers the home of a line. -/
def covers (s : State) (k : CoreRef) (scope : FenceScope) (l : L1Line) : Bool :=
  match bushelAt s (64 * l.line) with
  | none => false
  | some b =>
    let shadow := l.spec && b.committed
    match scope with
    | .cluster => !shadow && decide (b.tier = 0) && decide (b.tile = k.tile.val) && decide (b.cluster = k.cluster.val)
    | .tile => if shadow then decide (b.shadow = some k.tile.val) else decide (b.tier ≤ 2) && decide (b.tile = k.tile.val)
    | .device => true
    | .fabric => true

/-- L1 writes back covered dirty lines and invalidates covered clean lines, those on their way included. -/
def fenceL1 (k : CoreRef) (scope : FenceScope) (s : State) : State :=
  dropResponses (coreIdx k) (fun l => covers s k scope ⟨l, [], false, coreSpec s k, false⟩) (l1Flush s k (covers s k scope) true)

/-- Writes that the core sent to other modules and that are not acknowledged (R481). -/
def putsOpen (s : State) (k : CoreRef) : Bool := decide (mget 0 s.coll.puts (coreIdx k) ≠ 0)

/-- A fence load of a core: it blocks until the fence of its scope has completed, then returns 0. -/
def fenceLoad (k : CoreRef) (scope : FenceScope) (s : State) : LoadRes :=
  let c := coreOf s k
  if c.fence.isSome then .blocks s
  else if c.fenceDone = some scope then .value 0 (setCore s k { c with fenceDone := none })
  else
    let s := fenceL1 k scope s
    .blocks (slotUse k 0 (setCore s k { coreOf s k with fence := some scope, fenceDone := none }))

/-- A fence register is loaded; the host's load returns 0 and has no effect. -/
def fenceBy (r : Requester) (scope : FenceScope) (s : State) : State :=
  match r with
  | .core k => settleLoad (fenceLoad k scope s)
  | _ => reply 0 s

def execFenceCluster (r : Requester) (s : State) : Out' := byReq s r (fenceBy r .cluster)
def execFenceTile (r : Requester) (s : State) : Out' := byReq s r (fenceBy r .tile)
def execFenceDevice (r : Requester) (s : State) : Out' := byReq s r (fenceBy r .device)
def execFenceFabric (r : Requester) (s : State) : Out' := byReq s r (fenceBy r .fabric)

/-- FENCE_COMPLETE (R283): the core's outstanding fence completes; a fabric fence waits for every peer write acknowledgement. -/
def fenceComplete (k : CoreRef) (s : State) : State :=
  let c := coreOf s k
  match c.fence with
  | none => s
  | some scope =>
    if scope = .fabric && putsOpen s k then s else setCore s k { c with fence := none, fenceDone := some scope }

def execFenceComplete (k : CoreRef) (s : State) : Out' := atTile s k.tile (fenceComplete k)

/-! ### Configuration of counters -/

/-- Counter ID that a SYNC page's CTR_SEL selects. -/
def selected (s : State) (tile : Fin 8) : Nat := tile.val * 2 ^ 16 + fld s (pgSync tile) 0x148 15 0

/-- A configuration word that R280 refuses for a counter. -/
def badBarrier (s : State) (i : Nat) (v : Word) : Bool :=
  let rel := v.bits 42 24
  v.bit 1 && (decide (v.bits 23 8 = 0) || decide (rel = i) || (ctr s rel).cfg.bit 1 || !hasTile s (rel / 2 ^ 16))

/-- Writable bits of a configuration word (R263). -/
def cfgMask : Nat := bm 1 0 + bm 42 8

/-- A write of CTR_CFG (R263, R279, R280, R289). -/
def ctrCfgStore (tile : Fin 8) (value : Word) (s : State) : State :=
  let p := pgSync tile
  let i := selected s tile
  if !slotsQuiet s then logErr p errState 0x150 s
  else if badBarrier s i value then logErr p errCommand 0x150 s
  else
    let s := reservedWrite p 0x150 cfgMask value s
    setCtr s i { ctr s i with cfg := value &&& word cfgMask, orphan := false }

def execCtrCfgWrite (tile : Fin 8) (value : Word) (s : State) : Out' := atTile s tile (ctrCfgStore tile value)

/-- A write of CTR_SET (R279, R289). -/
def ctrSetStore (tile : Fin 8) (value : Word) (s : State) : State :=
  let p := pgSync tile
  let i := selected s tile
  if !slotsQuiet s then logErr p errState 0x158 s
  else
    let s := setCtr s i { ctr s i with value := value.toNat, base := value.toNat, orphan := false, overflow := false, owner := 0 }
    let (s, l) := wakeSatisfied s i
    run l s

def execCtrSet (tile : Fin 8) (value : Word) (s : State) : Out' := atTile s tile (ctrSetStore tile value)

/-- E and agent words of the hardware entries, in DBG_WAITER order (R293). -/
def dbgWaiters (c : Counter) : List Word :=
  c.hw.flatMap (fun o => match o with | some w => [word w.e, w.agent] | none => [0, 0])

/-- Load registers of a page from an offset upwards. -/
def loadRegs (p : PageRef) (off : Nat) : List Word → State → State
  | [], s => s
  | v :: l, s => loadRegs p (off + 8) l (wr s p off v)

/-- A write of DBG_SEL takes a snapshot (R291, R292). -/
def dbgSnapshot (tile : Fin 8) (value : Word) (s : State) : State :=
  let p := pgSync tile
  let s := reservedWrite p 0x190 (bm 15 0) value s
  let s := wr s p 0x190 (value &&& word (bm 15 0))
  let c := ctr s (tile.val * 2 ^ 16 + value.bits 15 0)
  let flags := word ((c.hw.filterMap id).length + c.chain.length <<< 8 + b2n c.orphan <<< 32 + b2n c.overflow <<< 33)
  loadRegs p 0x198
    ([word c.value, word c.base, c.cfg, flags, c.lastWho, word c.lastTime, nowW s] ++ dbgWaiters c) s

def execDbgSelWrite (tile : Fin 8) (value : Word) (s : State) : Out' := atTile s tile (dbgSnapshot tile value)

/-! ### Tasks -/

/-- Tasks that are READY on a core. -/
def readyOn (s : State) (k : CoreRef) : List Task := s.tasks.filter (fun t => decide (t.core = k) && decide (t.state = .ready))

/-- Registers of a core as a task starts (R105, R243). -/
def startRegs (c : Core) (t : Task) : Core :=
  let c := xWr (xWr (xWr c 10 t.arg0) 11 t.arg1) 2 (word (t.stack.bits 47 0))
  { c with pc := word (t.entry.bits 47 0), machine := false, active := none, shadow := none, filling := false }

/-- A task starts on its core (R137, R241, R243, R696). -/
def startTask (k : CoreRef) (t : Task) (s : State) : State :=
  let s := l1Clear s k
  let s := setCore s k (startRegs (coreOf s k) t)
  let p := PageRef.core k
  let s := setFld s p 0x100 39 0 (1 + t.tag <<< 16 + t.gen <<< 32)
  let s := setTask s { t with state := .running, startTime := s.now }
  trace k.tile.val 4 (taskWho t) (word (t.desc + t.piece <<< 48)) (word (speedOf s k)) s

/-- TASK_START (R241, R243): an idle core starts a task that is READY on it; which of several is the core's choice. -/
def taskStart (k : CoreRef) (s : State) : State :=
  let l := readyOn s k
  if coreState s k = 0 && !l.isEmpty then
    if l.length = 1 then (match l with | t :: _ => startTask k t s | [] => s)
    else
      let (n, s) := choose s l.length
      match l[n]? with
      | some t => startTask k t s
      | none => s
  else s

def execTaskStart (k : CoreRef) (s : State) : Out' := atTile s k.tile (taskStart k)

/-- The widest SCOPE among the signal entries in use; cluster scope for none (R244). -/
def endScope (t : Task) : FenceScope :=
  match t.sigs.foldl (fun a g => max a (g.bits 21 20)) 0 with
  | 0 => .cluster
  | 1 => .tile
  | 2 => .device
  | _ => .fabric

/-- TASK_END (R244): a core's store ends its task with a fence, a DONE RESULT and its signals. With a fabric fence the store is held until
every peer write is acknowledged. -/
def taskEnd (k : CoreRef) (value : Word) (s : State) : State :=
  match runningTask s k with
  | none => s
  | some t =>
    if endScope t = .fabric && putsOpen s k then holdStore k (pgSync k.tile) 0x120 value s
    else
      let s := reservedWrite (pgSync k.tile) 0x120 (bm 7 0) value s
      let s := fenceL1 k (endScope t) s
      run [.endTask (taskKey t) 1 (value.bits 7 0) 0 false none] s

def execTaskEnd (k : CoreRef) (value : Word) (s : State) : Out' := byAt s (.core k) k.tile (taskEnd k value)

/-- TAG_QUARANTINE_EXPIRY (R249): a tag whose quarantine has ended is free again. -/
def tagExpiry (cl : ClusterRef) (tag : Nat) (s : State) : State :=
  let c := cluster s cl
  let e := mget {} c.tags tag
  match e.quarantine with
  | some t => if t ≤ s.now then setCluster s cl { c with tags := mset {} c.tags tag { e with quarantine := none } } else s
  | none => s

def execTagQuarantineExpiry (cl : ClusterRef) (tag : BitVec 16) (s : State) : Out' := atTile s cl.tile (tagExpiry cl tag.toNat)

end Sys2Proof.Machine
end

