-- ==== Sys2Proof/Machine/Placement.lean ====
section
/-! DEFINITION. Granger's placement of slots: lists and checks (R240, R310 to R312, R363, R369, R509, R560), homes (R318), cores
(R299 to R303, R308, R309), splitting (R313 to R315), tags (R306), refusals (R330), re-placement (R328), and the arm of a slot
(R562). -/

namespace Sys2Proof.Machine

/-! ### Refusal codes (R330) -/

def rfPinUnavailable : Nat := 1
def rfPinCapacity : Nat := 2
def rfNoCapacity : Nat := 3
def rfBadPlace : Nat := 4
def rfBadTask : Nat := 5
def rfSpecLimit : Nat := 6
def rfTagLimit : Nat := 7
def rfSeqLimit : Nat := 8
def rfWindowDepth : Nat := 9
def rfPlaceLate : Nat := 10
def rfShadowLimit : Nat := 11

/-- A refusal: code, the address and the PLACE word concerned (R338), and a poisoned line that Granger read (R358). -/
structure Refuse where
  code : Nat
  addr : Nat := 0
  place : Word := 0
  poison : Option Nat := none
  deriving DecidableEq, Repr

/-- Carry out a step that may refuse for each element of a list. -/
def allOk {α β : Type} (f : α → β → Except Refuse β) : List α → β → Except Refuse β
  | [], b => .ok b
  | a :: l, b => match f a b with
    | .error e => .error e
    | .ok b => allOk f l b

/-- Largest sequence and micro-batch in tokens (R18). -/
def maxTokens : Nat := 16777216

/-! ### Descriptors (R237 to R240) -/

/-- A task descriptor as Granger reads it. -/
structure Desc where
  addr : Nat
  ws : List Word
  deriving DecidableEq, Repr

def Desc.w (d : Desc) (i : Nat) : Word := d.ws.getD i 0
def Desc.f (d : Desc) (i hi lo : Nat) : Nat := (d.w i).bits hi lo
def Desc.role (d : Desc) : Nat := d.f 0 11 8
def Desc.spec (d : Desc) : Bool := (d.w 0).bit 12
def Desc.split (d : Desc) : Bool := (d.w 0).bit 13
def Desc.nwait (d : Desc) : Nat := d.f 0 18 16
def Desc.nsig (d : Desc) : Nat := d.f 0 21 20
def Desc.tensor (d : Desc) : Nat := d.f 0 47 32
def Desc.tokens (d : Desc) : Nat := d.f 6 24 0
def Desc.est (d : Desc) : Nat := d.f 6 55 32
def Desc.place (d : Desc) : Word := d.w 5
def Desc.pin (d : Desc) : Nat := d.f 5 1 0
def Desc.hint (d : Desc) : Nat := d.f 5 15 14
def Desc.waits (d : Desc) : List Word := (List.range d.nwait).map (fun i => d.w (8 + i))
def Desc.sigs (d : Desc) : List Word := (List.range d.nsig).map (fun i => d.w (14 + i))

/-- The sixteen words at a descriptor's home. -/
def readDesc (s : State) (a : Nat) : Desc := ⟨a, (List.range 16).map (fun i => rd64 s (a + 8 * i))⟩

/-- Reserved bits of the words CTRL to WORK. -/
def descReserved (d : Desc) : Bool :=
  decide (d.w 0 &&& word (bm 63 48 + bm 31 22 + bm 19 19 + bm 15 14) ≠ 0) || decide (d.w 1 &&& word (bm 63 48) ≠ 0)
  || decide (d.w 4 &&& word (bm 63 48) ≠ 0) || decide (d.w 5 &&& word (bm 63 40) ≠ 0)
  || decide (d.w 6 &&& word (bm 63 56 + bm 31 25) ≠ 0) || d.sigs.any (fun g => decide (g &&& word (bm 31 22) ≠ 0))

/-- The descriptor can be read (R240): MEMORY, not committed, no poison. -/
def descReadable (s : State) (a : Nat) : Bool := decide (a % 128 = 0) && rangeOpen s a 128 && (poisonIn s false a 128).isNone

/-- R240, R567 and R18 for one descriptor; a replay finds the RESULT of the discarded attempt there. -/
def descRefused (s : State) (step replay : Bool) (d : Desc) : Option Nat :=
  if decide (d.f 0 7 0 ≠ 1) || decide (5 < d.role) || decide (6 < d.nwait) || decide (2 < d.nsig) || descReserved d
    || (!replay && decide (d.w 7 ≠ 0)) || (d.waits ++ d.sigs).any (fun e => !hasTile s (e.bits 18 16))
    || (!step && d.spec) then some rfBadTask
  else if maxTokens < d.tokens then some rfSeqLimit
  else none

/-- Counters that a descriptor's signal entries own, each once. -/
def Desc.owns (d : Desc) : List Nat := (d.sigs.filter (fun g => g.bit 19)).foldl (fun l g => setInsert (g.bits 18 0) l) []

/-- A list has a repeated element. -/
def hasRepeat : List Nat → Bool
  | [] => false
  | a :: l => l.contains a || hasRepeat l

/-- Words of a list in memory that Granger reads at placement (R560): n entries of `size` bytes, all in MEMORY that is not
committed, none poisoned (DESIGN CHOICE for poison, log entry 14). -/
def listReadable (s : State) (a n size : Nat) : Bool :=
  decide (n = 0) || (rangeOpen s a (n * size) && (poisonIn s false a (n * size)).isNone)

/-- The descriptors of a slot's task list. -/
def readTasks (s : State) (x : Slot) (step replay : Bool) : Except Refuse (List Desc) :=
  let a := x.taskList.bits 47 3 * 8
  let n := x.taskCount.bits 23 0
  if !listReadable s a n 8 then .error ⟨rfBadTask, a, 0, poisonIn s false a (n * 8)⟩
  else
    let es := (List.range n).map (fun i => rd64 s (a + 8 * i))
    match es.find? (fun e => decide (e &&& word (bm 63 48 + bm 6 0) ≠ 0) || !descReadable s e.toNat) with
    | some e => .error ⟨rfBadTask, e.bits 47 0, 0, poisonIn s false (e.bits 47 0) 128⟩
    | none =>
      let ds := es.map (fun e => readDesc s e.toNat)
      match ds.findSome? (fun d => (descRefused s step replay d).map (fun c => (c, d))) with
      | some (c, d) => .error ⟨c, d.addr, d.place, none⟩
      | none => if step && hasRepeat (ds.flatMap Desc.owns) then .error ⟨rfBadTask, a, 0, none⟩ else .ok ds

/-! ### Layer table (R363) -/

/-- Entries of the layer table break R363. -/
def ltBad (s : State) (i : Nat) : Bool :=
  decide (ltEntries s ≤ i) || !rangeMemory s (ltAddr s i) 32 || (poisonIn s false (ltAddr s i) 32).isSome
  || decide (ltWord s i 1 &&& word (bm 63 49) ≠ 0) || decide (ltWord s i 2 &&& word (bm 63 20) ≠ 0)
  || decide (ltWord s i 3 &&& word (bm 63 48) ≠ 0) || decide ((ltWord s i 1).bits 46 45 = 3)
  || ((ltWord s i 1).bit 47 && (ltWord s i 1).bit 48)
  || ((ltWord s i 2).bit 19 && !(ctr s ((ltWord s i 2).bits 18 0)).cfg.bit 0)

/-- A poisoned line among layer-table entries. -/
def ltPoison (s : State) (l : List Nat) : Option Nat :=
  l.findSome? (fun i => if i < ltEntries s then poisonIn s false (ltAddr s i) 32 else none)

/-- Train mode of the tensor that a layer-table entry describes (R230); tasks without a tensor train. -/
def trainMode (s : State) (tensor : Nat) : Nat := if tensor = 0xFFFF || decide (ltEntries s ≤ tensor) then 0 else (ltWord s tensor 1).bits 46 45

/-- Entries of STREAM and of GATHER tensors. -/
def windowEntries (s : State) : List Nat :=
  (List.range (ltEntries s)).filter (fun i => (ltWord s i 1).bit 47 || (ltWord s i 1).bit 48)

/-- Layer-table entries that a slot names (R363): TENSOR of its tasks, and HTENSOR where the hint uses it and hints are read. -/
def namedEntries (s : State) (ds : List Desc) : List Nat :=
  ds.flatMap (fun d => (if d.tensor = 0xFFFF then [] else [d.tensor])
    ++ (if d.hint = 3 && decide (fldA s (pgGranger 0) 0x108 1 0 ≠ 1) then [d.f 5 39 24] else []))

/-- `STREAM.WINDOW.DEPTH`. -/
def windowDepth (s : State) : Nat := fldA s (pgStream 0) 0x120 6 0

/-- Bushels of the tensor of a layer-table entry. -/
def tensorBushels (s : State) (i : Nat) : List Nat := bushelsOf ((ltWord s i 0).bits 47 0) ((ltWord s i 1).bits 39 0)

/-- The tile whose window holds a bushel's copy: the home's tile for deep memory, else by bushel number (DESIGN CHOICE, log
entry 15). -/
def windowTile (s : State) (n : Nat) : Nat :=
  match mfind s.mem.bushels n with
  | some b => if b.tier = 3 then b.tilePin.getD (n % s.part.tiles) else b.tile
  | none => n % s.part.tiles

/-- A bushel takes window space (R367): one whose home is near memory needs none. -/
def needsCopy (s : State) (n : Nat) : Bool :=
  match mfind s.mem.bushels n with
  | some b => decide (b.tier ≠ 1)
  | none => true

/-- Layer numbers with STREAM or GATHER entries, rising. -/
def windowLayers (s : State) : List Nat := (windowEntries s).foldl (fun l i => setInsert ((ltWord s i 0).bits 63 48) l) []

/-- Bushels of one layer's streamed and gathered tensors that take window space. -/
def layerBushels (s : State) (layer : Nat) : List Nat :=
  (((windowEntries s).filter (fun i => decide ((ltWord s i 0).bits 63 48 = layer))).flatMap (tensorBushels s)).foldl
    (fun l n => if needsCopy s n then setInsert n l else l) []

/-- Window space of a tile (R369): DEPTH layers, each the size of the largest layer's share of the tile. -/
def windowSpace (s : State) (t : Nat) : Nat :=
  windowDepth s * ((windowLayers s).foldl
    (fun a l => max a ((layerBushels s l).filter (fun n => decide (windowTile s n = t))).length) 0)

/-- Reserve the window space of every tile. -/
def reserveWindow (s : State) : Except Refuse State :=
  let r := (tilesOf s).foldl (fun m t => mset 0 m t.val (windowSpace s t.val)) []
  let s' := { s with granger := { s.granger with reserved := r } }
  if (tilesOf s).all (fun t => decide (nearUsed s' t.val ≤ nearCapOf s' t.val)) then .ok s' else .error ⟨rfNoCapacity, 0, 0, none⟩

/-! ### Tensor references (R310 to R312, R560) -/

/-- What a tensor reference asks of a bushel; `addr` and `word` are of the last reference combined. -/
structure Pins where
  tier : Option Nat
  tile : Option Nat
  cluster : Option Nat
  committed : Bool
  hint : Nat
  expert : Option Nat
  addr : Nat
  word : Word
  deriving DecidableEq, Repr

/-- A value pinned by a bit. -/
def optOf (c : Bool) (v : Nat) : Option Nat := if c then some v else none

/-- What one PLACE word asks. -/
def pinsOf (addr : Nat) (p : Word) : Pins where
  tier := optOf (p.bit 0) (p.bits 2 1)
  tile := optOf (p.bit 3) (p.bits 6 4)
  cluster := optOf (p.bit 7) (p.bits 12 8)
  committed := p.bit 13
  hint := p.bits 15 14
  expert := optOf (p.bit 32) (p.bits 31 16)
  addr := addr
  word := p

/-- Two settings of one pin combine unless they differ; the outer `none` is a conflict. -/
def joinOpt : Option Nat → Option Nat → Option (Option Nat)
  | none, b => some b
  | some a, none => some (some a)
  | some a, some b => if a = b then some (some a) else none

/-- R312: an earlier reference's pins with a later one's. -/
def joinPins (a b : Pins) : Option Pins :=
  match joinOpt a.tier b.tier, joinOpt a.tile b.tile, joinOpt a.cluster b.cluster, joinOpt a.expert b.expert with
  | some t, some u, some c, some e =>
    if a.committed = b.committed then
      some { b with tier := t, tile := u, cluster := c, expert := e, hint := if b.hint = 0 then a.hint else b.hint }
    else none
  | _, _, _, _ => none

/-- A PLACE word breaks R311. -/
def placeBad (p : Word) : Bool :=
  decide (p.bits 63 33 ≠ 0) || decide (p.bits 15 14 = 3)
  || (p.bit 7 && !(p.bit 3 && p.bit 0 && decide (p.bits 2 1 = 0)))
  || (p.bit 3 && p.bit 0 && decide (p.bits 2 1 = 3))

/-- A pin names what is not there (R311, R361): a unit that the part lacks, a fenced cluster memory, an unusable memory, or a pooled
window that is not configured. -/
def pinAbsent (s : State) (p : Pins) : Bool :=
  let noTile := match p.tile with | some t => !hasTile s t | none => false
  let noCluster := match p.tile, p.cluster with
    | some t, some c => decide (24 ≤ c) || cmFenced s ⟨Fin.ofNat 8 t, Fin.ofNat 24 c⟩ || routerFenced s ⟨Fin.ofNat 8 t, Fin.ofNat 24 c⟩
    | _, _ => false
  let lost := match p.tier, p.tile with
    | some 1, some t => mcUnusable s t 0 && mcUnusable s t 1
    | some 2, some t => mcUnusable s t 2
    | _, _ => false
  noTile || noCluster || lost || (decide (p.tier = some 3) && decide (poolCapUnits s = 0))

/-- One reference adds to the map of a slot's bushels. -/
def addRef (s : State) (ws : List Word) (addr : Nat) (m : List (Nat × Pins)) : Except Refuse (List (Nat × Pins)) :=
  let a := cw ws 0 63 0
  let n := cw ws 1 63 0
  let p := ws.getD 2 0
  let bad : Refuse := ⟨rfBadPlace, addr, p, none⟩
  if 2 ^ 48 ≤ a || decide (2 ^ 48 ≤ n) || decide (ws.getD 3 0 ≠ 0) || placeBad p
    || decide (n ≠ 0 && windowBase < a + n) then .error bad
  else if pinAbsent s (pinsOf addr p) then .error ⟨rfPinUnavailable, addr, p, none⟩
  else
    allOk (fun b m => match mfind m b with
        | none => .ok (minsert b (pinsOf addr p) m)
        | some q => match joinPins q (pinsOf addr p) with
          | none => .error bad
          | some q => if q.tile.isSome && decide (q.tier = some 3) then .error bad else .ok (minsert b q m))
      (bushelsOf a n) m

/-- Another slot of the module is ARMED, LAUNCHED, RUNNING or DRAINING. -/
def otherBusy (s : State) (n : Nat) : Bool := s.slots.any (fun e => decide (e.1 ≠ n) && !slotQuiet e.2)

/-- The bushels that a slot's references cover, with their combined pins. -/
def readRefs (s : State) (n : Nat) (x : Slot) : Except Refuse (List (Nat × Pins)) :=
  let a := x.tensorList.bits 47 5 * 32
  let k := x.tensorCount.bits 15 0
  if !listReadable s a k 32 then .error ⟨rfBadPlace, a, 0, poisonIn s false a (k * 32)⟩
  else
    match allOk (fun i m => addRef s ((List.range 4).map (fun w => rd64 s (a + 32 * i + 8 * w))) (a + 32 * i) m)
        (List.range k) [] with
    | .error e => .error e
    | .ok m =>
      match m.find? (fun e => match mfind s.mem.bushels e.1 with
          | some b => b.committed != e.2.committed && otherBusy s n
          | none => false) with
      | some e => .error ⟨rfBadPlace, e.2.addr, e.2.word, none⟩
      | none => .ok m

/-! ### Homes -/

/-- Tiles of a tier pin, the freest first where no tile is pinned. -/
def pinTiles (s : State) (p : Pins) : List Nat :=
  match p.tile with
  | some t => [t]
  | none => freestTile s :: (tilesOf s).map (fun t => t.val)

/-- The place of a bushel with these pins, if there is room (R312, R318). -/
def placeFor (s : State) (p : Pins) : Option Home :=
  match p.tier with
  | none => chooseHome s p.tile (decide (p.hint = 2))
  | some 0 =>
    ((pinTiles s p).flatMap (fun t => (match p.cluster with | some c => [c] | none => List.range 24).map (fun c => (t, c)))).findSome?
      (fun e => if cmRoom s e.1 e.2 then some (0, e.1, e.2) else none)
  | some 1 => (pinTiles s p).findSome? (fun t => if nearRoom s t then some (1, t, 0) else none)
  | some 2 => (pinTiles s p).findSome? (fun t => if deepRoom s t then some (2, t, 0) else none)
  | some _ => if poolRoom s then some (3, 0, 0) else none

/-- A home agrees with pins. -/
def homeFits (b : Bushel) (p : Pins) : Bool :=
  (match p.tier with | some t => decide (b.tier = t) | none => true)
  && (match p.tile with | some t => decide (b.tile = t) && decide (b.tier ≠ 3) | none => true)
  && (match p.cluster with | some c => decide (b.cluster = c) | none => true)
  && (decide (b.tier ≠ 0) || decide (p.tier = some 0))

/-- Pins of a bushel. -/
def pinsHeld (b : Bushel) : Pins where
  tier := b.tierPin
  tile := b.tilePin
  cluster := b.clusterPin
  committed := b.committed
  hint := b.hint
  expert := b.expert
  addr := 0
  word := 0

/-- A bushel that its pins do not hold starts to move to its pinned place; while it may not move, the move stays due (R319 code 0, R321). -/
def pinMove (s : State) (n : Nat) : State :=
  match mfind s.mem.bushels n with
  | none => { s with granger := { s.granger with pinMoves := setErase n s.granger.pinMoves } }
  | some b =>
    if homeFits b (pinsHeld b) then { s with granger := { s.granger with pinMoves := setErase n s.granger.pinMoves } }
    else
      match placeFor s (pinsHeld b) with
      | none => { s with granger := { s.granger with pinMoves := setInsert n s.granger.pinMoves } }
      | some h =>
        let s' := startMove s n h 0
        { s' with granger := { s'.granger with
          pinMoves := if moving s n || !mayMove s b 0 then setInsert n s'.granger.pinMoves else setErase n s'.granger.pinMoves } }

/-- The pin changes that are due move their bushels. -/
def pinMoves (s : State) : State := s.granger.pinMoves.foldl pinMove s

/-- A bushel of a placement takes its pins and marks (R312); a new one is mapped (R318), and one whose pins its home does not meet
starts to move (R319 code 0). The count is of bushels newly mapped. -/
def placeBushel (e : Nat × Pins) (r : State × Nat) : Except Refuse (State × Nat) :=
  let s := r.1
  let p := e.2
  let full : Refuse := ⟨if p.tier.isSome || p.tile.isSome then rfPinCapacity else rfNoCapacity, p.addr, p.word, none⟩
  match mfind s.mem.bushels e.1 with
  | none =>
    match placeFor s p with
    | none => .error full
    | some h =>
      let (k, s) := placeIn s h
      let (b, s) := storeBushel h.1 {
        tier := h.1, tile := h.2.1, cluster := h.2.2, stack := k, committed := p.committed,
        tierPin := p.tier, tilePin := p.tile, clusterPin := p.cluster, hint := p.hint, expert := p.expert } s
      .ok (setBushel s e.1 b, r.2 + 1)
  | some b =>
    let s := setBushel s e.1 { b with committed := p.committed, tierPin := p.tier, tilePin := p.tile, clusterPin := p.cluster,
                                      hint := p.hint, expert := p.expert }
    if homeFits b p then .ok (s, r.2)
    else if (placeFor s p).isNone then .error full
    else .ok (pinMove s e.1, r.2)

/-- The expert tile table (R323): a tile pin names the expert's tile; an expert that is not in the table is held where its first bushel
is. -/
def noteExpert (s : State) (e : Nat × Pins) : State :=
  match e.2.expert with
  | none => s
  | some x =>
    let t := match e.2.tile with
      | some t => some t
      | none => if (mfind s.granger.expertTile x).isSome then none else (mfind s.mem.bushels e.1).map (fun b => b.tile)
    match t with
    | some t => { s with granger := { s.granger with expertTile := minsert x t s.granger.expertTile } }
    | none => s

/-- Shadow bushels of a tile (R18, R255). -/
def shadowLimit : Nat := 4096

/-- One shadow bushel on a tile for a slot, in a stack; one that the tile has no place for is allocated at the launch, or refuses it (R255). -/
def allocShadow (n : Nat) (s : State) (e : Nat × Nat) : State :=
  if shadowCount s e.2 < shadowLimit then
    let (k, s) := takeStack s e.2
    { s with mem := { s.mem with shadowAlloc := mset [] s.mem.shadowAlloc n (mget [] s.mem.shadowAlloc n ++ [(e.1, e.2, k)]) } }
  else { s with mem := { s.mem with shadowWant := mset [] s.mem.shadowWant n (mget [] s.mem.shadowWant n ++ [e]) } }

/-- Shadow bushels of a step's placement (R231, R255): the committed bushels that its references cover, but for those of tensors in DISCARD
or PASS; none for a step without speculative tasks (DEDUCED, log entry 16). -/
def allocShadows (s : State) (n : Nat) (m : List (Nat × Pins)) (ds : List Desc) : State :=
  let l := if ds.any Desc.spec then
      (m.filter (fun e => e.2.committed && (match entryOf s e.1 with | some i => decide (trainMode s i = 0) | none => true))).map
        (fun e => (e.1, match mfind s.mem.bushels e.1 with | some b => b.tile | none => 0))
    else []
  let s := { s with mem := { s.mem with shadowAlloc := merase n s.mem.shadowAlloc, shadowWant := merase n s.mem.shadowWant } }
  refreshShadowUse (l.foldl (allocShadow n) s)

/-! ### Sheaf lists of a step (R509) -/

/-- Keeper and tally lists (R543): address and count. -/
def keeperAddr (s : State) : Nat := fldA s pgStep 0x128 47 6 * 64
def keeperCount (s : State) : Nat := fldA s pgStep 0x128 58 48
def tallyAddr (s : State) : Nat := fldA s pgStep 0x120 47 3 * 8
def tallyCount (s : State) : Nat := fldA s pgStep 0x120 63 48

/-- Entries of a list of addresses. -/
def listEntries (s : State) (a n : Nat) : List Nat := (List.range n).map (fun i => (rd64 s (a + 8 * i)).bits 47 0)

/-- Bytes of a tally record (R184). -/
def tallySize : Nat := 4864

/-- Length of a sheaf (R505). -/
def sheafLen (s : State) : Nat := 256 + 64 * keeperCount s + 272 * tallyCount s

/-- Log geometry (R543): slots, and bytes of a slot. -/
def logSlots (s : State) : Nat := fldA s pgStep 0x130 55 48
def logSlotBytes (s : State) : Nat := (fldA s pgStep 0x130 59 56 + 1) * 2 ^ 21

/-- Address of the log slot of a step number (R504). -/
def sheafSlot (s : State) (j : Nat) : Nat := fldA s pgStep 0x130 47 21 * 2 ^ 21 + j % max 1 (logSlots s) * logSlotBytes s

/-- A list of R509 fails: an entry that cannot be read, or one that does not lie in a committed bushel. -/
def sheafListBad (s : State) (a n size : Nat) : Bool :=
  decide (n ≠ 0) && (!rangeMemory s a (8 * n) || (poisonIn s false a (8 * n)).isSome
    || (listEntries s a n).any (fun e => !rangeAll e size (committedAt s)))

/-- A poisoned line of a list of R509, which the placement read. -/
def sheafPoison (s : State) : Option Nat :=
  let l := fun a n => if n = 0 then none else poisonIn s false a (8 * n)
  match l (keeperAddr s) (keeperCount s) with
  | some x => some x
  | none => l (tallyAddr s) (tallyCount s)

/-- R509. A log slot that is not MEMORY counts as no sheaf log (DEDUCED, log entry 17). -/
def sheafBad (s : State) : Bool :=
  sheafListBad s (keeperAddr s) (keeperCount s) 64 || sheafListBad s (tallyAddr s) (tallyCount s) tallySize
  || decide (logSlots s = 0) || decide (logSlotBytes s < sheafLen s)
  || !rangeMemory s (sheafSlot s (stepNumber s)) (sheafLen s)

/-! ### Work, speed and finish times -/

/-- Estimated work in beats (R299). -/
def workOf (s : State) (d : Desc) : Nat :=
  if d.est ≠ 0 then d.est * 1024
  else match mfind s.granger.work (d.tensor * 16 + d.role) with
    | some h => if d.tokens ≠ 0 then d.tokens * h else 65536
    | none => 65536

/-- Duration of W beats at v Mbeat/s in 1/65,536 BT ns (R297, R299); a core whose speed is not measured yet counts as 1 Mbeat/s
(DESIGN CHOICE, log entry 18). -/
def dur16 (w v : Nat) : Nat := w * 1000 * 65536 / max 1 v

/-- Time that a placed or running task still takes on its core, in 1/65,536 BT ns (R300). -/
def leftOf (s : State) (t : Task) : Nat :=
  match t.state with
  | .ended => 0
  | .running => dur16 t.work (speedOf s t.core) - (s.now - t.startTime) * 65536
  | _ => dur16 t.work (speedOf s t.core)

/-- Estimated finish times after now, by core, of the tasks outside a slot. -/
def loadsOf (s : State) (f : Task → Bool) : List (Nat × Nat) :=
  (s.tasks.filter f).foldl (fun m t => mset 0 m (coreIdx t.core) (mget 0 m (coreIdx t.core) + leftOf s t)) []

/-- The task is live as a speculative task (R259). -/
def liveSpec (s : State) (t : Task) : Bool :=
  taskSpec t && (match (slot s t.slot).state with | .launched | .running | .draining => true | _ => false)

/-- Live speculative tasks by cluster. -/
def specsOf (s : State) (f : Task → Bool) : List (Nat × Nat) :=
  (s.tasks.filter (fun t => f t && liveSpec s t)).foldl
    (fun m t => mset 0 m (clIdx (coreCl t.core)) (mget 0 m (clIdx (coreCl t.core)) + 1)) []

/-! ### Pieces (R313 to R315) -/

/-- What is placed on one core: a task, or a piece with its number, pieces, first token and tokens. -/
structure PUnit where
  d : Desc
  work : Nat
  piece : Nat := 0
  pieces : Nat := 1
  first : Nat := 0
  count : Nat
  deriving DecidableEq, Repr

/-- A task as one unit. -/
def wholeUnit (s : State) (d : Desc) : PUnit := { d := d, work := workOf s d, count := d.tokens }

/-- SPLIT_CTRL as it applies (R332). -/
def splitFactor (s : State) : Nat := let f := fldA s (pgGranger 0) 0x118 7 0; if f = 0 then 0 else max 16 f
def splitMin (s : State) : Nat := max 2 (fldA s (pgGranger 0) 0x118 19 8)
def splitMax (s : State) : Nat := max 2 (min 16 (fldA s (pgGranger 0) 0x118 28 24))

/-- R313. -/
def splitEligible (s : State) (d : Desc) : Bool :=
  d.split && decide (d.pin = 0) && decide (2 * splitMin s ≤ d.tokens) && decide (splitFactor s ≠ 0)

/-- Number of pieces of a task of work w on a tile whose tasks have work sumW, whose cores have speeds of sum sumV and whose fastest permitted
core runs at v; 1 for a task that is not overlong (R314). -/
def pieceCount (s : State) (d : Desc) (w sumW sumV v : Nat) : Nat :=
  if splitEligible s d && decide (splitFactor s * sumW * v < 16 * w * sumV) then
    max 2 (min (splitMax s) (min ((w * sumV + v * sumW - 1) / max 1 (v * sumW)) (d.tokens / splitMin s)))
  else 1

/-- Piece i of n: the token pairs are shared evenly, earlier pieces taking the extra pairs; the last pair of an odd count holds one
token (R314). -/
def pieceOf (s : State) (d : Desc) (n i : Nat) : PUnit :=
  let pairs := (d.tokens + 1) / 2
  let start := i * (pairs / n) + min i (pairs % n)
  let size := pairs / n + b2n (decide (i < pairs % n))
  let first := 2 * start
  let count := min (2 * size) (d.tokens - first)
  { d := d, work := (workOf s d * count + d.tokens - 1) / d.tokens, piece := i, pieces := n, first := first, count := count }

/-- The pieces of a task, or the task whole. -/
def unitsOfTask (s : State) (d : Desc) (n : Nat) : List PUnit :=
  if n ≤ 1 then [wholeUnit s d] else (List.range n).map (pieceOf s d n)

/-- The piece word (R315). -/
def pieceWord (u : PUnit) : Word :=
  word (u.first + (u.count % 2 ^ 24) <<< 24 + u.piece <<< 48 + u.pieces <<< 56)

/-! ### Cores (R300 to R302, R308, R309) -/

/-- The core lies within a task's pin (R307). -/
def inPin (d : Desc) (k : CoreRef) : Bool :=
  (decide (d.pin = 0) || decide (k.tile.val = d.f 5 4 2))
  && (decide (d.pin < 2) || decide (k.cluster.val = d.f 5 9 5)) && (decide (d.pin < 3) || decide (k.core.val = d.f 5 13 10))

/-- Cores of the part. -/
def allCores (s : State) : List CoreRef := (List.range (coreCount s)).map coreAt

/-- The tile that holds most bushels of a layer-table entry's tensor, the lowest first (R307 HINT 3). -/
def tensorTile (s : State) (i : Nat) : Option Nat :=
  if ltEntries s ≤ i then none
  else
    let bs := (tensorBushels s i).filterMap (fun n => mfind s.mem.bushels n)
    let n := fun (t : Nat) => (bs.filter (fun b => decide (b.tile = t) && decide (b.tier ≠ 3))).length
    some (((tilesOf s).map (fun t => t.val)).foldl (fun a t => if n a < n t then t else a) 0)

/-- The core lies within a task's hint. -/
def inHint (s : State) (d : Desc) (k : CoreRef) : Bool :=
  match d.hint with
  | 1 => decide (k.tile.val = d.f 5 18 16)
  | 2 => decide (k.tile.val = d.f 5 18 16) && decide (k.cluster.val = d.f 5 23 19)
  | _ => decide (tensorTile s (d.f 5 39 24) = some k.tile.val)

/-- What a placement carries from task to task: finish times and live speculative tasks by core and cluster, and what it has placed. -/
structure Plan where
  loads : List (Nat × Nat)
  specs : List (Nat × Nat)
  ignored : List Nat
  placed : List (PUnit × CoreRef)
  /-- Beacon time at which the placement started: the exclusions of that time count (R326, R329). -/
  start : Nat
  deriving DecidableEq, Repr

/-- Finish time of a core with a unit added. -/
def finishWith (s : State) (p : Plan) (u : PUnit) (k : CoreRef) : Nat := mget 0 p.loads (coreIdx k) + dur16 u.work (speedOf s k)

/-- The core with the least finish time of a list. -/
def bestCore (s : State) (p : Plan) (u : PUnit) : List CoreRef → Option CoreRef
  | [] => none
  | k :: l => some (l.foldl (fun a b => if finishWith s p u b < finishWith s p u a then b else a) k)

/-- Cores among which Granger may choose: within 1/16 of the duration of the best finish time (R302). -/
def within (s : State) (p : Plan) (u : PUnit) (l : List CoreRef) : List CoreRef :=
  match bestCore s p u l with
  | none => []
  | some k => l.filter (fun j => decide (finishWith s p u j ≤ finishWith s p u k + dur16 u.work (speedOf s k) / 16))

/-- Granger's choice among cores: free where there is more than one. -/
def chooseCore (l : List CoreRef) (s : State) : Option CoreRef × State :=
  match l with
  | [k] => (some k, s)
  | _ => let (i, s) := choose s l.length; (l[i]?, s)

/-- Hints are read (R309, R332). -/
def hintsOn (s : State) : Bool := decide (fldA s (pgGranger 0) 0x108 1 0 ≠ 1)

/-- The cores among which a unit's core is chosen, and whether its hint was ignored (R309). -/
def candidates (s : State) (p : Plan) (u : PUnit) (permitted : List CoreRef) : List CoreRef × Bool :=
  if u.d.hint = 0 || !hintsOn s then (within s p u permitted, false)
  else
    let h := permitted.filter (inHint s u.d)
    match bestCore s p u permitted, bestCore s p u h with
    | some k, some j =>
      if finishWith s p u j ≤ finishWith s p u k + dur16 u.work (speedOf s k) / 4 then (within s p u h, false)
      else (within s p u permitted, true)
    | _, _ => (within s p u permitted, true)

/-- Place one unit, on a tile if one is given, or on the core that it keeps. -/
def placeUnit (e : PUnit × Option Nat × Option CoreRef) (r : State × Plan) : Except Refuse (State × Plan) :=
  let s := r.1
  let p := r.2
  let u := e.1
  let open_ := (allCores s).filter (fun k => inPin u.d k && !excludedAt s p.start k
    && (match e.2.1 with | some t => decide (k.tile.val = t) | none => true))
  let ok := fun (k : CoreRef) => !u.d.spec || decide (mget 0 p.specs (clIdx (coreCl k)) < 256)
  let permitted := open_.filter ok
  if open_.isEmpty then .error ⟨rfPinUnavailable, u.d.addr, u.d.place, none⟩
  else if permitted.isEmpty then .error ⟨rfSpecLimit, u.d.addr, u.d.place, none⟩
  else
    let kept := match e.2.2 with | some k => if permitted.contains k then some k else none | none => none
    let (l, ign) := match kept with | some k => ([k], false) | none => candidates s p u permitted
    match chooseCore l s with
    | (none, _) => .error ⟨rfPinUnavailable, u.d.addr, u.d.place, none⟩
    | (some k, s) =>
      .ok (s, { loads := mset 0 p.loads (coreIdx k) (finishWith s p u k)
                specs := if u.d.spec then mset 0 p.specs (clIdx (coreCl k)) (mget 0 p.specs (clIdx (coreCl k)) + 1) else p.specs
                ignored := if ign then k.tile.val :: p.ignored else p.ignored
                placed := p.placed ++ [(u, k)], start := p.start })

/-- Sum of a list of numbers selected by tile. -/
def sumOn (t : Nat) (l : List (Nat × Nat)) : Nat := ((l.filter (fun e => decide (e.1 = t))).map (fun e => e.2)).sum

/-- How many pieces each task of a placement forms on its tile (R314), in order. A speculative task is permitted on clusters below the limit of R259,
by the speculative tasks that were live before the placement (R301). -/
def splitCounts (s : State) (p : Plan) (l : List (PUnit × CoreRef)) : List Nat :=
  let works := l.map (fun e => (e.2.tile.val, e.1.work))
  let cores := (allCores s).filter (fun k => !excludedAt s p.start k)
  let speeds := cores.map (fun k => (k.tile.val, speedOf s k))
  l.map (fun e =>
    let t := e.2.tile.val
    let ok := fun (k : CoreRef) => decide (k.tile.val = t) && (!e.1.d.spec || decide (mget 0 p.specs (clIdx (coreCl k)) < 256))
    let v := ((cores.filter ok).map (fun k => speedOf s k)).foldl max 0
    pieceCount s e.1.d e.1.work (sumOn t works) (sumOn t speeds) v)

/-- Place every task of a slot: the coordinator assigns tiles, each tile splits its overlong tasks, and where any task is split each tile
places its tasks and pieces (R294, R302, R314). -/
def placeTasks (s : State) (p0 : Plan) (ds : List Desc) : Except Refuse (State × Plan) :=
  match allOk placeUnit (ds.map (fun d => (wholeUnit s d, none, none))) (s, p0) with
  | .error e => .error e
  | .ok (s1, p1) =>
    let ns := splitCounts s p0 p1.placed
    if ns.all (fun n => decide (n ≤ 1)) then .ok (s1, p1)
    else
      allOk placeUnit ((p1.placed.zip ns).flatMap (fun e => (unitsOfTask s e.1.1.d e.2).map (fun u => (u, some e.1.2.tile.val, none))))
        (s1, p0)

/-! ### Tags (R248, R249, R306) -/

/-- A tag of a cluster that is free, the lowest first (DESIGN CHOICE, log entry 19). -/
def freeTag (c : Cluster) : Option Nat :=
  (List.range (c.tags.length + 1)).find? (fun n => decide (n < 65536)
    && (match mfind c.tags n with | some e => !e.inUse && e.quarantine.isNone | none => true))

/-- Assign a tag of a core's cluster: tag and generation. -/
def takeTag (s : State) (k : CoreRef) : Option (Nat × Nat × State) :=
  let c := cluster s (coreCl k)
  match freeTag c with
  | none => none
  | some n =>
    let e := mget {} c.tags n
    some (n, e.next, setCluster s (coreCl k) { c with tags := mset {} c.tags n { e with next := (e.next + 1) % 256, inUse := true } })

/-- A placed unit becomes a task, in state PLACED. -/
def enterTask (n : Nat) (e : PUnit × CoreRef) (s : State) : Except Refuse State :=
  match takeTag s e.2 with
  | none => .error ⟨rfTagLimit, e.1.d.addr, e.1.d.place, none⟩
  | some (tag, gen, s) =>
    let d := e.1.d
    let t : Task := {
      slot := n, desc := d.addr, core := e.2, tag := tag, gen := gen, att := none, state := .placed, status := 0,
      ctrl := d.w 0, entry := d.w 1, arg0 := d.w 2, arg1 := if d.split then pieceWord e.1 else d.w 3, stack := d.w 4, place := d.place,
      workWord := d.w 6, waits := d.waits, sigs := d.sigs, waitIx := 0, work := e.1.work, piece := e.1.piece, pieces := e.1.pieces,
      exit := 0, cause := 0, deferred := false, startTime := 0, endTime := 0 }
    .ok { s with tasks := s.tasks ++ [t] }

/-! ### A slot's placement -/

/-- Descriptor of a task, from what its task value keeps. -/
def descOf (t : Task) : Desc :=
  ⟨t.desc, [t.ctrl, t.entry, t.arg0, t.arg1, t.stack, t.place, t.workWord, 0] ++ (t.waits ++ List.replicate (6 - t.waits.length) 0) ++ t.sigs⟩

/-- The tile on which a task is placed anew: a piece stays on its task's tile (R314). -/
def pieceTile (t : Task) : Option Nat := if 1 < t.pieces then some t.core.tile.val else none

/-- Units of the discarded attempt with their cores, for a replay under PIN_CTRL.MODE 0b10 (R327). -/
def keptUnits (s : State) (n : Nat) : List (PUnit × Option Nat × Option CoreRef) :=
  (s.tasks.filter (fun t => decide (t.slot = n))).map (fun t =>
    ({ d := descOf t, work := t.work, piece := t.piece, pieces := t.pieces, first := t.arg1.bits 23 0,
       count := if t.ctrl.bit 13 then t.arg1.bits 47 24 else t.workWord.bits 24 0 }, pieceTile t, some t.core))

/-- The slot is a replay's placement. -/
def isReplay (x : Slot) : Bool := decide (x.replays ≠ 0)

/-- Place tasks of a slot, from a start: its finish times count every other slot's tasks, and live speculative tasks those that `live` selects. -/
def planTasks (s : State) (start n : Nat) (x : Slot) (ds : List Desc) (live : Task → Bool) : Except Refuse (State × Plan) :=
  let other := fun (t : Task) => decide (t.slot ≠ n)
  let p0 : Plan := ⟨loadsOf s other, specsOf s (fun t => other t && live t), [], [], start⟩
  if isReplay x && decide (fldA s (pgGranger 0) 0x108 1 0 = 2) then allOk placeUnit (keptUnits s n) (s, p0)
  else placeTasks s p0 ds

/-- The outcome of a placement. -/
inductive Placing where
  | refused (e : Refuse)
  /-- Speculative tasks wait for a commit or discard (R259). -/
  | waits
  | placed (s : State) (p : Plan) (bushels : Nat)

/-- Everything that a placement from a start decides (R303), in this order of checks (DESIGN CHOICE, log entry 20): the slot's declarations, its
references, its tasks, the layer table, the sheaf lists, homes and window space, cores, tags. -/
def decidePlacement (s : State) (start n : Nat) (x : Slot) : Placing :=
  let step := runsStep x
  if x.step && decide (x.config.bits 31 8 = 0) then .refused ⟨rfBadTask, 0, 0, none⟩
  else if maxTokens < x.config.bits 56 32 then .refused ⟨rfSeqLimit, 0, 0, none⟩
  else
    match readRefs s n x with
    | .error e => .refused e
    | .ok m =>
      match readTasks s x step (isReplay x) with
      | .error e => .refused e
      | .ok ds =>
        match ds.find? (fun d => (namedEntries s [d]).any (ltBad s)) with
        | some d => .refused ⟨rfBadPlace, d.addr, d.place, ltPoison s (namedEntries s [d])⟩
        | none =>
        if !(windowEntries s).isEmpty && (decide (windowDepth s < 2) || decide (64 < windowDepth s)) then
          .refused ⟨rfWindowDepth, 0, 0, none⟩
        else if step && sheafBad s then .refused ⟨rfBadPlace, 0, 0, sheafPoison s⟩
        else
          match allOk placeBushel m (s, 0) with
          | .error e => .refused e
          | .ok (s, b) =>
            let s := m.foldl noteExpert s
            match (if step then reserveWindow s else .ok s) with
            | .error e => .refused e
            | .ok s =>
              let s := if step then allocShadows s n m ds else s
              match planTasks s start n x ds (fun _ => true) with
              | .ok (s, p) =>
                let s := { s with tasks := s.tasks.filter (fun t => decide (t.slot ≠ n)) }
                (match allOk (enterTask n) p.placed s with
                 | .error e => .refused e
                 | .ok s => .placed s p b)
              | .error e =>
                if e.code = rfSpecLimit then
                  match planTasks s start n x ds (fun _ => false) with
                  | .ok _ => .waits
                  | .error e => .refused e
                else .refused e

/-- A placement has ended: the next starts no earlier (R303). -/
def placementEnd (s : State) : State := { s with granger := { s.granger with lastEnd := s.now, changes := [] } }

/-- Placement of a slot leaves Granger's queue; that of its front ends with it. -/
def dequeue (s : State) (n : Nat) : State :=
  let s := if (s.granger.queue.head?).map (fun e => e.1) = some n then placementEnd s else s
  { s with granger := { s.granger with queue := s.granger.queue.filter (fun e => decide (e.1 ≠ n)) } }

/-- The tags and shadow bushels of a slot that does not launch are freed, and its tasks are gone (R569). -/
def dropPlacement (n : Nat) (s : State) : State :=
  let s := retireTags s n
  let s := { s with tasks := s.tasks.filter (fun t => decide (t.slot ≠ n)) }
  endCursor n (freeShadows n (dequeue s n))

/-- A step that ends without committing closes step control's attempt: the sheaf's end word and PHASE (R505, R543). -/
def closeStep (n : Nat) (s : State) : State :=
  if s.step.slot = some n then
    let s := sheafEnd s 2 (attemptsUsed s)
    let s := { s with step := { s.step with slot := none, relaunch := none, faulted := none, sheafDone := false } }
    setPhase (setFld (setFld s pgStep 0x178 11 8 0) pgStep 0x178 15 15 0) (restPhase s n)
  else if runsStep (slot s n) && s.step.slot.isNone && decide (phase s = phPlacing) then setPhase s (restPhase s n)
  else s

/-- Granger refuses a slot (R330, R338, R565): the refusal is counted, logged and reported, and the slot ends FAULTED. -/
def refuseSlot (n : Nat) (e : Refuse) (s : State) : State :=
  let s := match e.poison with
    | some line => countPoison line s
    | none => s
  let s := addReg s (pgGranger 0) 0x158 1
  let s := logErr (pgGranger 0) errCommand e.code s
  let s := report 0 2 n s.step.att (word (e.addr % 2 ^ 48 + e.code <<< 48)) e.place s
  let s := closeStep n (dropPlacement n s)
  endSlot s n .faulted 1 e.code

/-- Units placed on a tile. -/
def placedOn (p : Plan) (t : Nat) : List (PUnit × CoreRef) := p.placed.filter (fun e => decide (e.2.tile.val = t))

/-- T of R304. -/
def placeBound (s : State) (p : Plan) (b : Nat) : Nat :=
  4000 + 8 * ((tilesOf s).map (fun t => (placedOn p t.val).length)).foldl max 0 + 2 * b

/-- Reports and counters of one tile's Granger after a placement (R314, R334, R338). -/
def reportTile (n b duration bound : Nat) (p : Plan) (s : State) (t : Fin 8) : State :=
  let l := placedOn p t.val
  let ignored := (p.ignored.filter (fun u => decide (u = t.val))).length
  let s := event (pgGranger t) 0x102 ignored (addReg s (pgGranger t) 0x150 ignored)
  let s := event (pgGranger t) 0x100 1 s
  let s := setFld s (pgGranger t) 0x148 63 32 (sat 32 duration)
  let firsts := l.filter (fun e => decide (1 < e.1.pieces) && decide (e.1.piece = 0))
  let s := firsts.foldl (fun s e =>
    report t 3 n s.step.att (word (e.1.d.addr + e.1.pieces <<< 48)) (word (e.1.d.tokens % 2 ^ 24 + (e.1.count % 2 ^ 24) <<< 24))
      (addReg s (pgGranger t) 0x160 1)) s
  let pieces := (l.filter (fun e => decide (1 < e.1.pieces))).length
  if l.isEmpty && (decide (t.val ≠ 0) || !p.placed.isEmpty) then s
  else report t 1 n s.step.att (word (l.length + (b % 2 ^ 24) <<< 24 + (pieces % 2 ^ 16) <<< 48))
    (word (sat 32 duration + sat 32 bound <<< 32)) s

/-- The cursor of a step starts: forward passes in rising order, then backward passes in falling order (R370, R373). -/
def startCursor (n : Nat) (s : State) : State :=
  let l := windowLayers s
  let s := endCursor n s
  { s with granger := { s.granger with cursors := s.granger.cursors ++
      [{ slot := n, plan := l.map (fun i => (i, false)) ++ l.reverse.map (fun i => (i, true)) }] } }

/-- Tasks of a slot that were placed on a core that Granger now excludes. -/
def stranded (s : State) (n : Nat) : List Task :=
  s.tasks.filter (fun t => decide (t.slot = n) && decide (t.state ≠ .ended) && excluded s t.core)

/-- Beacon time of the last fence or release of a core that the present or a later placement may see; the end of the last placement at least. -/
def changedAt (s : State) (k : CoreRef) : Nat :=
  (s.granger.changes.filter (fun e => decide (e.1 = coreIdx k))).foldl (fun a e => max a e.2.1) s.granger.lastEnd

/-- A placement that was queued at a time starts then, or as the last one ends (R303). -/
def placeStart (s : State) (queued : Nat) : Nat := max queued s.granger.lastEnd

/-- A re-placement after a fence is due ahead of a placement with a start (R303, R328, R329). -/
def rePlaceFirst (s : State) (start : Nat) : Bool :=
  s.slots.any (fun e => decide (e.2.state = .launched) && (stranded s e.1).any (fun t => decide (changedAt s t.core ≤ start)))

/-- SLOT_PLACEMENT (R303): the placement of the slot at the front of Granger's queue ends. -/
def slotPlacement (n : Nat) (s : State) : State :=
  let x := slot s n
  match s.granger.queue with
  | [] => s
  | (m, queued) :: _ =>
    let start := placeStart s queued
    if m ≠ n || decide (x.state ≠ .armed) || (!isReplay x && rePlaceFirst s start) then s
    else
      match decidePlacement s start n x with
      | .waits => s
      | .refused e => refuseSlot n e s
      | .placed s' p b =>
        let s := dequeue s' n
        let tasks := (p.placed.filter (fun e => decide (e.1.piece = 0))).length
        let pieces := (p.placed.filter (fun e => decide (1 < e.1.pieces))).length
        let s := setSlot s n { slot s n with state := .launched, placeTime := nowW s, placed := word (tasks + pieces <<< 24) }
        let s := (tilesOf s).foldl (reportTile n b (s.now - start) (placeBound s p b) p) s
        if runsStep x then startCursor n s else s

def execSlotPlacement (slot : Fin 64) (s : State) : Out' := .next (slotPlacement slot.val s)

/-! ### Re-placement (R328) -/

/-- The unit of an excluded core that a REMAP record names: address and kind. -/
def remapUnit (s : State) (k : CoreRef) : Nat × Nat :=
  if cmFenced s (coreCl k) then (coreId s ⟨k.tile, k.cluster, 0⟩, 1)
  else if routerFenced s (coreCl k) then (coreId s ⟨k.tile, k.cluster, 0⟩, 2)
  else (coreId s k, 0)

/-- Place one stranded task anew, in a re-placement from a start; the tile that places it is noted. -/
def rePlaceTask (start : Nat) (t : Task) (r : State × List (Task × Fin 8)) : Except Refuse (State × List (Task × Fin 8)) :=
  let s := r.1
  let other := fun (u : Task) => !(sameTask u t)
  let p0 : Plan := ⟨loadsOf s other, specsOf s other, [], [], start⟩
  let u : PUnit := { d := descOf t, work := t.work, piece := t.piece, pieces := t.pieces, count := 0 }
  match placeUnit (u, pieceTile t, none) (s, p0) with
  | .error e => .error e
  | .ok (s, p) =>
    match p.placed with
    | [] => .error ⟨rfPinUnavailable, t.desc, t.place, none⟩
    | (_, k) :: _ =>
      let s := (p.ignored).foldl (fun s i => addReg s (pgGranger (Fin.ofNat 8 i)) 0x150 1) s
      match takeTag (retireTag s t) k with
      | none => .error ⟨rfTagLimit, t.desc, t.place, none⟩
      | some (tag, gen, s) => .ok (setTask s { t with core := k, tag := tag, gen := gen }, r.2 ++ [(t, k.tile)])

/-- REMAP records: for each unit that lost tasks, one from each tile that placed some of them (R336, R338). -/
def remapReports (n : Nat) (l : List (Task × Fin 8)) (s : State) : State :=
  let keys := l.map (fun e => (remapUnit s e.1.core, e.2))
  let units := keys.foldl (fun (a : List ((Nat × Nat) × Fin 8)) u => if a.contains u then a else a ++ [u]) []
  units.foldl (fun s u =>
    report u.2 7 n s.step.att (word (u.1.1 + u.1.2 <<< 24)) (word (keys.filter (fun k => decide (k = u))).length) s) s

/-- The slot at the front of Granger's queue, if its placement runs: no re-placement is due before it (R303). -/
def frontRuns (s : State) : Option Nat :=
  match s.granger.queue with
  | (m, queued) :: _ => if isReplay (slot s m) || !(rePlaceFirst s (placeStart s queued)) then some m else none
  | [] => none

/-- The slot whose placement or re-placement runs (R295, R303). -/
def placing (s : State) : Option Nat :=
  match frontRuns s with
  | some m => some m
  | none => (s.slots.find? (fun e => decide (e.2.state = .launched) && !(stranded s e.1).isEmpty)).map (fun e => e.1)

/-- The tasks that it places. -/
def placingDescs (s : State) (n : Nat) : List Desc :=
  let x := slot s n
  if x.state = .launched then (stranded s n).map descOf
  else match readTasks s x (runsStep x) (isReplay x) with
    | .ok ds => ds
    | .error _ => []

/-- A placement runs on a tile: on tile 0, whose Granger coordinates, and on each tile that may take one of the tasks (R294, R334; DESIGN CHOICE, log
entry 149). -/
def placesOn (s : State) (t n : Nat) : Bool :=
  decide (t = 0)
  || (placingDescs s n).any (fun d => (allCores s).any (fun k => decide (k.tile.val = t) && inPin d k && !excluded s k))

/-- A re-placement starts as the tasks' cores are excluded, or as the last placement ends (R303, R329). -/
def rePlaceStart (s : State) (n : Nat) : Nat := (stranded s n).foldl (fun a t => max a (changedAt s t.core)) s.granger.lastEnd

/-- RE_PLACEMENT (R328, R329): the re-placement of a placed slot's tasks that stand on excluded cores ends. One that finds every permitted cluster at the limit of R259 does not end yet. -/
def rePlacement (n : Nat) (s : State) : State :=
  let l := stranded s n
  let start := rePlaceStart s n
  if (slot s n).state ≠ .launched || l.isEmpty || (frontRuns s).isSome then s
  else
    match allOk (rePlaceTask start) l (s, []) with
    | .error e => if e.code = rfSpecLimit then s else refuseSlot n e s
    | .ok (s', l) =>
      let s' := remapReports n l s'
      let s' := (tilesOf s').foldl (fun s' t => setFld s' (pgGranger t) 0x148 63 32 (sat 32 (s.now - start))) s'
      placementEnd (setSlot s' n { slot s' n with placeTime := nowW s' })

def execRePlacement (slot : Fin 64) (s : State) : Out' := .next (rePlacement slot.val s)

/-! ### Arming (R562, R563) -/

/-- `BEACON.LAUNCH_LEAD` (R77). -/
def launchLead (s : State) : Nat := (rd s pgBeacon 0x130).toNat

/-- IDENT.BOOT.READY (R615). -/
def isReady (s : State) : Bool := (rd s pgIdent 0x138).bit 4

/-- Outcome of an arm (R562). -/
def armResult (s : State) (x : Slot) (value : Nat) : Nat :=
  if x.state ≠ .idle then 4
  else if !isReady s then 5
  else if servo s ≠ svLocked then 3
  else if value < s.now + launchLead s then 2
  else 1

/-- Effective launch time of a written one (R76). -/
def effective (s : State) (value : Nat) : Nat := ceilTo (max 1 (slotLen s)) value

/-- ARM: a write to LAUNCH. -/
def arm (n : Nat) (value : Word) (s : State) : State :=
  let x := slot s n
  let res := armResult s x value.toNat
  let x := { x with launch := value, armRes := res }
  let step := x.config.bit 0
  if res = 1 then
    let s := setSlot s n { x with
      state := .armed, step := step, source := 0, code := 0, gen := (x.gen + 1) % 2 ^ 16, att := 0, replays := 0
      effLaunch := word (effective s value.toNat), armTime := nowW s, placeTime := 0, endTime := 0, placed := 0, ended := 0, layer := 0
      stepNo := 0, loss := 0, firstBad := 0, launchedOnce := false }
    let s := addReg s pgHostif 0x1E8 1
    let s := endCursor n s
    let s := { s with granger := { s.granger with queue := s.granger.queue ++ [(n, s.now)] }
                      tasks := s.tasks.filter (fun t => decide (t.slot ≠ n)) }
    if runsStep (slot s n) && decide (phase s = phIdle) then setPhase s phPlacing else s
  else
    let s := setSlot s n x
    if res = 2 then
      let s := addReg s pgBeacon 0x150 1
      if step && decide (x.taskCount ≠ 0) then
        { s with step := { s.step with lost := s.step.lost ++ [(n, effective s value.toNat)] } }
      else s
    else s

def execArm (slot : Fin 64) (value : Word) (s : State) : Out' := .next (arm slot.val value s)

end Sys2Proof.Machine
end

