-- ==== Sys2Proof/Machine/Stream.lean ====
section
/-! DEFINITION. The streaming window and its cursor (R362 to R374), and the streaming engine's commands (R375 to R380, R392, R393). -/

namespace Sys2Proof.Machine

/-! ### Queues -/

/-- Entries of a stream queue. -/
def streamDepth : Nat := 64

/-- The command's words: Granger's own, or those of its descriptor. -/
def streamWords (s : State) (c : StreamCmd) : List Word :=
  match c.desc with
  | none => c.words
  | some a => descWords s a

def stOp (ws : List Word) : Nat := cw ws 0 3 0
def stSrc (ws : List Word) : Nat := cw ws 1 47 0
def stDst (ws : List Word) : Nat := cw ws 2 47 0
def stLen (ws : List Word) : Nat := cw ws 3 39 0

/-! ### Window -/

/-- Copies of a layer. -/
def copiesOf (s : State) (layer : Nat) : List WindowCopy := s.mem.copies.filter (fun c => decide (c.layer = layer))

/-- A bushel has a window copy. -/
def hasCopy (s : State) (n : Nat) : Bool := s.mem.copies.any (fun c => decide (c.bushel = n))

/-- STREAM or GATHER entries of a layer. -/
def layerEntries (s : State) (layer : Nat) : List Nat := (windowEntries s).filter (fun i => decide ((ltWord s i 0).bits 63 48 = layer))

def isStream (s : State) (i : Nat) : Bool := (ltWord s i 1).bit 47
def isGather (s : State) (i : Nat) : Bool := (ltWord s i 1).bit 48

/-- A gather of the layer has not completed. -/
def gathering (s : State) (layer : Nat) : Bool :=
  s.coll.queue.any (fun c => match c.layer with | some l => decide (l.1 = layer) | none => false)

/-- The layer is resident (R366, R367): every STREAM bushel that needs a copy has one, and every bushel of a GATHER tensor is
mapped and gathered. -/
def resident (s : State) (layer : Nat) : Bool :=
  !gathering s layer && (layerEntries s layer).all (fun i => (tensorBushels s i).all (fun n =>
    if isStream s i then !needsCopy s n || hasCopy s n else (mfind s.mem.bushels n).isSome))

/-- A DROP of the layer waits in a queue. -/
def dropping (s : State) (layer : Nat) : Bool :=
  s.streams.any (fun e => e.2.any (fun c => c.desc.isNone && decide (c.layer = layer) && decide (stOp c.words = 2)))

/-- Fetches or gathers of the layer have not completed. -/
def inFlight (s : State) (layer : Nat) : Bool :=
  s.streams.any (fun e => e.2.any (fun c => c.desc.isNone && decide (c.layer = layer) && decide (stOp c.words = 1)))
  || gathering s layer

/-- Layers that the window holds: resident with copies, or in flight, and not being dropped. Copies that stay of a layer of which others were dropped
(R374) hold no place. -/
def heldLayers (s : State) : List Nat :=
  (windowLayers s).filter (fun l => ((resident s l && !(copiesOf s l).isEmpty) || inFlight s l) && !dropping s l)

/-! ### Cursors -/

/-- The cursor of a slot. -/
def cursorOf (s : State) (n : Nat) : Option Cursor := s.granger.cursors.find? (fun c => decide (c.slot = n))

/-- Replace a cursor. -/
def setCursor (c : Cursor) (s : State) : State :=
  { s with granger := { s.granger with cursors := s.granger.cursors.map (fun d => if d.slot = c.slot then c else d) } }

/-- The cursor's slot is placed, or its step runs (R373). -/
def cursorLive (s : State) (n : Nat) : Bool :=
  decide ((slot s n).state = .launched) || decide ((slot s n).state = .running) || decide ((slot s n).state = .draining)

/-- ATT of the commands that Granger issues for a cursor's step: none before its launch (R380). -/
def cursorAtt (s : State) (n : Nat) : Option Nat := if s.step.slot = some n && stepLive s then some s.step.att else none

/-- A task's role belongs to a pass: 0 and 4 to the forward pass, 1 to 3 to the backward pass (R371). -/
def inPass (back : Bool) (role : Nat) : Bool := if back then decide (1 ≤ role) && decide (role ≤ 3) else decide (role = 0) || decide (role = 4)

/-- No task of a cursor's step holds a layer (R371). -/
def letsGo (s : State) (layer : Nat) (c : Cursor) : Bool :=
  (s.tasks.filter (fun t => decide (t.slot = c.slot))).all (fun t =>
    decide (t.state = .ended)
    || !((layerEntries s layer).contains (t.ctrl.bits 47 32))
    || !(c.visited.any (fun v => decide (v.1 = layer) && inPass v.2 (t.ctrl.bits 11 8))))

/-- The layer can be released (R371): the step of every cursor lets it go. -/
def releasable (s : State) (layer : Nat) : Bool := resident s layer && (s.granger.cursors.filter (fun c => cursorLive s c.slot)).all (letsGo s layer)

/-- The place of a layer in the order of last visits; 0 for a layer that was never visited. -/
def lastVisit (s : State) (layer : Nat) : Nat :=
  match (List.range s.granger.order.length).find? (fun i => decide (s.granger.order[i]? = some layer)) with
  | some i => i + 1
  | none => 0

/-- The releasable layer of the window that was visited longest ago (R371). -/
def releaseChoice (s : State) (keep : Nat) : Option Nat :=
  ((heldLayers s).filter (fun l => decide (l ≠ keep) && !(copiesOf s l).isEmpty && releasable s l)).foldl
    (fun a l => match a with
      | none => some l
      | some b => if lastVisit s l < lastVisit s b then some l else some b) none

/-- Granger queues a FETCH or DROP of a tensor, for the cursor of a slot, on the engine of each tile that holds, or is to hold, its copies (R375). -/
def grangerCmd (n op layer i : Nat) (s : State) : State :=
  let ws := [word (op + i <<< 8), word ((ltWord s i 0).bits 47 0), 0, word ((ltWord s i 1).bits 39 0), 0]
  let ns := (tensorBushels s i).filter (needsCopy s)
  (tilesOf s).foldl (fun s t =>
    let here := if op = 1 then ns.any (fun n => decide (windowTile s n = t.val))
      else (copiesOf s layer).any (fun c => decide (c.tile = t.val) && (tensorBushels s i).contains c.bushel)
    if here then setStreamQ s t (streamQ s t.val ++ [⟨none, ws, cursorAtt s n, unitWho 4 t.val 0 (cursorAtt s n), layer, none⟩]) else s) s

/-- Release a layer: DROP commands for its tensors. -/
def releaseLayer (n : Nat) (s : State) (layer : Nat) : State := (layerEntries s layer).foldl (fun s i => grangerCmd n 2 layer i s) s

/-- Entries of a layer whose arrival signals the streaming engine or Granger sends for a visit. -/
def dueEntries (s : State) (layer : Nat) (gathers : Bool) : List (Nat × Nat) :=
  ((layerEntries s layer).filter (fun i => (ltWord s i 2).bit 19 && (isStream s i || !gathers))).map (fun i => (layer, i))

/-- The visit is noted: LAYER of the slot, and WINDOW_STAT unless the step of another cursor runs (R370, R393, R558). -/
def noteVisit (c : Cursor) (layer : Nat) (back : Bool) (s : State) : State :=
  let s := setCursor { c with plan := c.plan.drop 1, visited := c.visited ++ [(layer, back)] } s
  let s := { s with granger := { s.granger with order := setErase layer s.granger.order ++ [layer] } }
  let v := layer + b2n back <<< 16
  let s := if stepLive s && decide (s.step.slot ≠ some c.slot) then s else setFld s (pgStream 0) 0x128 32 16 v
  setSlot s c.slot { slot s c.slot with layer := word v }

/-- Send an arrival signal of a cursor's step, or hold it until the effective launch (R372, R373): the agent is the streaming engine (KIND 4), or the
collective engine (KIND 5) for a GATHER tensor. -/
def arrivalSignal (n ctr kind tile : Nat) (s : State) : State :=
  match cursorAtt s n with
  | some a => signal ctr 1 (unitWho kind tile 0 (some a)) (some a) s
  | none =>
    match cursorOf s n with
    | some c => setCursor { c with held := c.held ++ [(ctr, kind, tile)] } s
    | none => s

/-! ### Stream commands -/

/-- Status codes (R380). -/
def stDone : Nat := 1
def stBadCmd : Nat := 2
def stUnmapped : Nat := 3
def stEcc : Nat := 4
def stCommitted : Nat := 5
def stAborted : Nat := 6

/-- The front command of a tile's engine, with its words, completes: STATUS and DONE_TIME, then SYNC (R380, R393, R696). -/
def streamFinish (sig : Bool) (t : Fin 8) (c : StreamCmd) (ws : List Word) (status : Nat) (s : State) : State :=
  let p := pgStream t
  let s := setStreamQ s t ((streamQ s t.val).drop 1)
  let s := setFld s p 0x108 23 16 status
  let s := match c.desc with
    | some a => if attrOf s (a + 0x38) = .memory then
        storeHome t.val (addr48 (a + 0x38)) (leBytes (status + (s.now % 2 ^ 32) <<< 32) 8) s
      else s
    | none => s
  let s := if status = 1 then s else logErr p errCommand status (wr s p 0x158 (word (c.desc.getD 0)))
  let who := unitWho 4 t.val 0 c.att
  let s := trace t.val 6 who (word (c.desc.getD 0 + status <<< 48)) 0 s
  if sig && decide (cw ws 4 19 19 = 1) then signal (cw ws 4 18 0) (cw ws 4 63 32) who c.att s else s

/-- A command completes, with its signal (R380). -/
def streamComplete (t : Fin 8) (c : StreamCmd) (ws : List Word) (status : Nat) (s : State) : State := streamFinish true t c ws status s

/-- Reserved bits of a stream command (R376). -/
def streamReserved (ws : List Word) : Bool :=
  ([bm 7 4 + bm 63 24, bm 63 48, bm 63 48, bm 63 40, bm 31 20, all64, all64].zip ws).any (fun e => decide (e.2 &&& word e.1 ≠ 0))
  || decide (cw ws 7 31 8 ≠ 0)

/-- A submitted command is refused as BAD_CMD (R379, R380). -/
def streamBad (s : State) (c : StreamCmd) : Bool :=
  match c.desc with
  | none => false
  | some a => let ws := descWords s a; decide (a % 64 ≠ 0) || decide (stOp ws ≠ 3) || streamReserved ws

/-- The descriptor itself: not MEMORY, or poisoned, with the line. -/
def descStatus (s : State) (c : StreamCmd) : Option (Nat × Option Nat) :=
  match c.desc with
  | none => none
  | some a =>
    if !rangeMemory s a 64 then some (stUnmapped, none)
    else (poisonIn s false a 64).map (fun line => (stEcc, some line))

/-- Cells of a memory with addresses in a bushel. -/
def bushelCells (m : List Host.Cell) (n : Nat) : List Host.Cell := m.filter (fun e => decide (e.1 / 2 ^ 21 = n))

/-- The window bytes of a bushel are dropped, or taken from its home. -/
def dropCopyBytes (m : List Host.Cell) (n : Nat) : List Host.Cell := m.filter (fun e => decide (e.1 / 2 ^ 21 ≠ n))
def takeCopyBytes (s : State) (n : Nat) : List Host.Cell :=
  (bushelCells s.mem.bytes n).foldl (fun m e => cellSet m e.1 e.2) (dropCopyBytes s.mem.windowBytes n)

/-- A window copy of a bushel holds the home's bytes (R366). -/
def addCopy (t : Fin 8) (layer n : Nat) (s : State) : State :=
  let (k, s) := takeStack s t.val
  { s with mem := { s.mem with
      copies := s.mem.copies ++ [⟨n, t.val, k, layer, false⟩], windowBytes := takeCopyBytes s n } }

/-- Make one window copy (R366): the home is read, which is no miss of the window (R368). -/
def fetchBushel (t : Fin 8) (layer n : Nat) (s : State) : State :=
  addCopy t layer n (homeTraffic false t.val (n * 2 ^ 21) (2 ^ 21) s)

/-- A poisoned line of a bushel. -/
def bushelPoison (s : State) (n : Nat) : Option Nat := poisonIn s false (n * 2 ^ 21) (2 ^ 21)

/-- FETCH of bushels in order, until one meets a poisoned line. -/
def fetchBushels (t : Fin 8) (layer : Nat) (ns : List Nat) (s : State) : Option Nat × State :=
  (ns.findSome? (bushelPoison s), (ns.takeWhile (fun n => (bushelPoison s n).isNone)).foldl (fun s n => fetchBushel t layer n s) s)

/-- Drop window copies of a tile (R371). -/
def dropCopies (t : Nat) (ns : List Nat) (s : State) : State := dropWindow (fun c => decide (c.tile = t) && ns.contains c.bushel) s

/-- The streaming engine of a tile stands at a ring stop that is fenced: it is unusable (R401, R439). -/
def streamLost (s : State) (t : Fin 8) : Bool := nodeFenced s (40 * t.val + 30)

/-- STREAM_FETCH (R377): the front command, if it is a FETCH. One of a bushel that is being switched waits (R353). -/
def streamFetch (t : Fin 8) (s : State) : State :=
  match streamQ s t.val with
  | [] => s
  | c :: _ =>
    let ws := streamWords s c
    if stOp ws ≠ 1 || streamLost s t then s
    else if streamBad s c then streamComplete t c ws stBadCmd s
    else if stLen ws = 0 then streamComplete t c ws stDone s
    else if !rangeMemory s (stSrc ws) (stLen ws) then streamComplete t c ws stUnmapped s
    else if heldRange s (stSrc ws) (stLen ws) then s
    else
      let ns := (bushelsOf (stSrc ws) (stLen ws)).filter (fun n => needsCopy s n && !hasCopy s n && decide (windowTile s n = t.val))
      match fetchBushels t c.layer ns s with
      | (none, s) => streamComplete t c ws stDone s
      | (some line, s) => meetPoison line c.att.isSome (streamComplete t c ws stEcc s)

def execStreamFetch (tile : Fin 8) (s : State) : Out' := atTile s tile (streamFetch tile)

/-- STREAM_DROP (R377): the front command, if it is a DROP. -/
def streamDrop (t : Fin 8) (s : State) : State :=
  match streamQ s t.val with
  | [] => s
  | c :: _ =>
    let ws := streamWords s c
    if stOp ws ≠ 2 || streamLost s t then s
    else if streamBad s c then streamComplete t c ws stBadCmd s
    else streamComplete t c ws stDone (dropCopies t.val (bushelsOf (stSrc ws) (stLen ws)) s)

def execStreamDrop (tile : Fin 8) (s : State) : Out' := atTile s tile (streamDrop tile)

/-- Bytes in the overlap of a copy's source and destination are free (R380, R388). -/
def freeOverlap (src dst n : Nat) (v : List Byte) (s : State) : List Byte × State :=
  let l := (addrs src n)
  let d := (addrs dst n)
  if (d.filter (fun a => l.contains a)).isEmpty then (v, s)
  else ((v.zip d).map (fun e => if l.contains e.2 then Config.freeByte (s.free + e.2) else e.1), { s with free := s.free + 1 })

/-- A range touches a committed bushel. -/
def touchesCommitted (s : State) (a n : Nat) : Bool := (bushelsOf (addr48 a) n).any (fun b => committedAt s (b * 2 ^ 21))

/-- An engine moves bytes between homes. -/
def moveBytes (tile src dst n : Nat) (s : State) : State :=
  let v := readMem s src n
  let s := homeAccesses false tile src n s
  let (v, s) := freeOverlap src dst n v s
  storeHome tile dst v s

/-- STREAM_COPY (R356, R358, R375, R377): the front command, if it is a submitted COPY or has no operation. A copy to or from a bushel that is
being switched waits (R353). -/
def streamCopy (t : Fin 8) (s : State) : State :=
  match streamQ s t.val with
  | [] => s
  | c :: _ =>
    if c.move.isSome then s
    else match descStatus s c with
    | some (st, line) =>
      if streamLost s t then s
      else
        let s := streamComplete t c (streamWords s c) st s
        (match line with | some l => meetPoison l c.att.isSome s | none => s)
    | none =>
      let ws := streamWords s c
      if stOp ws = 1 || stOp ws = 2 || streamLost s t then s
      else if streamBad s c then streamComplete t c ws stBadCmd s
      else
        let src := stSrc ws
        let dst := stDst ws
        let n := stLen ws
        if n = 0 then streamComplete t c ws stDone s
        else if !rangeMemory s src n || !rangeMemory s dst n then streamComplete t c ws stUnmapped s
        else if !slotsQuiet s && touchesCommitted s dst n then streamComplete t c ws stCommitted s
        else if heldRange s src n || heldRange s dst n then s
        else
          match poisonIn s false src n with
          | none => streamComplete t c ws stDone (moveBytes t.val src dst n s)
          | some line =>
            let k := (64 * line + 2 ^ 48 - src) % 2 ^ 48
            let s := if k < n then moveBytes t.val src dst k s else s
            meetPoison line c.att.isSome (streamComplete t c ws stEcc s)

def execStreamCopy (tile : Fin 8) (s : State) : Out' := atTile s tile (streamCopy tile)

/-! ### Submission (R378, R379) -/

/-- A command enters a tile's queue. -/
def streamEnter (r : Requester) (t : Fin 8) (value : Word) (s : State) : State :=
  let s := reservedWrite (pgStream t) 0x100 (bm 47 0) value s
  setStreamQ s t (streamQ s t.val ++ [⟨some (value.bits 47 0), [], reqAtt s r, reqWho s r, 0, none⟩])

/-- A store of a core to SUBMIT: it waits while the queue is full. -/
def streamStore (k : CoreRef) (t : Fin 8) (value : Word) (s : State) : StoreRes :=
  if streamDepth ≤ (streamQ s t.val).length then .done (holdStore k (pgStream t) 0x100 value s)
  else .done (streamEnter (.core k) t value s)

/-- STREAM_SUBMIT (R378, R379). -/
def streamSubmit (r : Requester) (t : Fin 8) (value : Word) (s : State) : State :=
  match r with
  | .core k => settle k (regAddr (pgStream t) 0x100) s (streamStore k t value s)
  | _ =>
    if streamDepth ≤ (streamQ s t.val).length then
      logErr (pgStream t) errFull 0x100 (setFld s (pgStream t) 0x108 9 9 1)
    else streamEnter r t value s

def execStreamSubmit (r : Requester) (tile : Fin 8) (value : Word) (s : State) : Out' := byAt s r tile (streamSubmit r tile value)

/-- STREAM_STAT_READ (R393): the register, and FULL clears. -/
def readStreamStat (t : Fin 8) (s : State) : State :=
  reply (rd s (pgStream t) 0x108) (setFld s (pgStream t) 0x108 9 9 0)

def execStreamStatRead (tile : Fin 8) (s : State) : Out' := atTile s tile (readStreamStat tile)

end Sys2Proof.Machine
end

