-- ==== Sys2Proof/Machine/Granger.lean ====
section
/-! DEFINITION. Granger's heat windows and migrations (R296, R319 to R322, R353 to R355), queries (R339), the host's CXL.mem accesses
(R351, R356, R552), errors of memories (R357 to R361, R395) and the merge of adopted shadows (R257). -/

namespace Sys2Proof.Machine

/-! ### Heat windows -/

/-- LOOP_CTRL.FREEZE_HEAT (R332). -/
def freezeHeat (s : State) : Bool := (rdA s (pgGranger 0) 0x100).bit 1

/-- `MIG_CTRL.HOT`. -/
def hotLimit (s : State) : Nat := fldA s (pgGranger 0) 0x120 47 32

/-- Samples of a window. -/
def samplesOf (b : Bushel) : Nat := (b.origin.map (fun e => e.2)).sum

/-- The tile of most origin samples, the lowest first. -/
def topOrigin (b : Bushel) : Nat × Nat := b.origin.foldl (fun a e => if a.2 < e.2 then e else a) (b.tile, 0)

/-- Bushels of a range of bytes that a register names. -/
def rangeHas (n base len : Nat) : Bool := touches base len n

/-- OP and BYTES of a collective descriptor (R477). -/
def coOp (ws : List Word) : Nat := cw ws 0 3 0
def coBytes (ws : List Word) : Nat := cw ws 3 39 0

/-- Bytes of a row at COLL.XROWS: the most that a queued exchange has, at least 64 (DESIGN CHOICE, log entry 148). -/
def xrowBytes (s : State) : Nat :=
  ((s.coll.queue.filter (fun c => decide (coOp c.words = 8) || decide (coOp c.words = 9))).map (fun c => coBytes c.words)).foldl max 64

/-- The bushel holds a structure that a COLL register names (R486, R487). -/
def exchangeStructure (s : State) (n : Nat) : Bool :=
  let base := fun off => fldA s pgColl off 47 6 * 64
  let cap := fldA s pgColl 0x178 15 0
  (decide (base 0x158 ≠ 0) && rangeHas n (base 0x158) 262144)
  || rangeHas n (base 0x160) (4096 * cap * xrowBytes s)
  || rangeHas n (base 0x168) (4096 * cap * 16)
  || (decide (cap ≠ 0) && rangeHas n (base 0x170) 16384)

/-- The bushel holds a list that a register of a command slot names (R560). -/
def slotStructure (s : State) (n : Nat) : Bool :=
  s.slots.any (fun e => decide (e.2.state ≠ .idle)
    && (rangeHas n (e.2.taskList.bits 47 3 * 8) (e.2.taskCount.bits 23 0 * 8)
      || rangeHas n (e.2.tensorList.bits 47 5 * 32) (e.2.tensorCount.bits 23 0 * 32)))

/-- The bushel holds a structure that a register names (R320): report rings, the trace region, memory wait lists, row-engine spill
areas, the layer table, the sheaf log, the stage and the partner area, the tally and keeper lists, the sheaf to redo, the exchange's tables and
the lists of a command slot. -/
def namedStructure (s : State) (n : Nat) : Bool :=
  (tilesOf s).any (fun t =>
    rangeHas n (fldA s (pgGranger t) 0x130 47 21 * 2 ^ 21) (fldA s (pgGranger t) 0x138 6 0 * 2 ^ 21)
    || rangeHas n (fldA s (pgSync t) 0x160 47 12 * 4096) (fldA s (pgSync t) 0x168 23 0 * 32)
    || (List.finRange 24).any (fun c => rangeHas n (spillBase s ⟨t, c⟩) (spillRows s ⟨t, c⟩ * 8)))
  || rangeHas n (fldA s pgTrace 0x100 47 21 * 2 ^ 21) (fldA s pgTrace 0x108 6 0 * 2 ^ 21)
  || rangeHas n (ltAddr s 0) (ltEntries s * 32)
  || rangeHas n (fldA s pgStep 0x130 47 21 * 2 ^ 21) (logSlots s * logSlotBytes s)
  || rangeHas n (fldA s pgStep 0x148 47 21 * 2 ^ 21) (fldA s pgStep 0x150 31 0 * 2 ^ 21)
  || rangeHas n (fldA s pgStep 0x140 47 21 * 2 ^ 21) (fldA s pgStep 0x150 63 32 * 2 ^ 21)
  || rangeHas n (tallyAddr s) (tallyCount s * 8)
  || rangeHas n (keeperAddr s) (keeperCount s * 8)
  || ((rd s pgStep 0x160).bit 0 && rangeHas n (fld s pgStep 0x160 47 6 * 64) 256)
  || exchangeStructure s n || slotStructure s n

/-- Granger may migrate the bushel on its own evidence (R320). -/
def mayMigrate (s : State) (n : Nat) (b : Bushel) : Bool :=
  b.tierPin.isNone && b.tilePin.isNone && b.shadow.isNone && !hasCopy s n && !namedStructure s n && !moving s n

/-- HOT as a bushel's hint scales it (R319). -/
def hotOf (s : State) (b : Bushel) : Nat := if b.hint = 1 then hotLimit s / 2 else if b.hint = 2 then 2 * hotLimit s else hotLimit s

/-- Room for a bushel in near memory of a tile that is below HI_WATER. -/
def nearOpen (s : State) (t : Nat) : Bool := nearBelow s t && nearRoom s t

/-- Promotion and tile locality of one bushel with its new heat (R319 codes 1 and 3). -/
def heatMove (n : Nat) (s : State) : State :=
  match mfind s.mem.bushels n with
  | none => s
  | some b =>
    if !mayMigrate s n b then s
    else
      let top := topOrigin b
      if 2 ≤ b.tier then
        if hotOf s b ≤ b.heat && nearOpen s top.1 then startMove s n (1, top.1, 0) 1 else s
      else if b.tier = 1 && decide (hotLimit s / 4 ≤ samplesOf b) && decide (samplesOf b ≠ 0) && decide (3 * samplesOf b ≤ 4 * top.2)
          && decide (top.1 ≠ b.tile) && nearOpen s top.1 then startMove s n (1, top.1, 0) 3
      else s

/-- Bushels of a tier of a tile that may be demoted: the lowest heat first, HOT-hinted bushels last. -/
def demotable (s : State) (tier t : Nat) : List (Nat × Bushel) :=
  let l := s.mem.bushels.filter (fun e => decide (e.2.tier = tier) && decide (e.2.tile = t) && mayMigrate s e.1 e.2)
  let key := fun (e : Nat × Bushel) => (if e.2.hint = 1 then 2 ^ 64 else 0) + e.2.heat
  sortBy key l

/-- Units of a tier above LO_WATER that must leave a tile: bushels of near memory, units of 64 KiB of deep memory. -/
def surplus (s : State) (tier t : Nat) : Nat :=
  if tier = 1 then
    if hiWater s * nearCapOf s t < nearUsed s t * 256 then nearUsed s t - loWater s * nearCapOf s t / 256 else 0
  else if hiWater s * deepCapUnits < deepUsed s t * 256 then deepUsed s t - loWater s * deepCapUnits / 256 else 0

/-- Start demotions until enough is on its way down, or no lower tier has room (R319 code 2, R320). -/
def demoteList (tier t : Nat) : List (Nat × Bushel) → Nat → State → State
  | [], _, s => s
  | e :: l, need, s =>
    if need = 0 then s
    else
      let room := if tier = 1 then deepRoom s t else poolRoom s
      if !room then s
      else
        let s' := startMove s e.1 (if tier = 1 then (2, t, 0) else (3, 0, 0)) 2
        demoteList tier t l (if s' = s then need else need - (if tier = 1 then 1 else e.2.units)) s'

/-- Demotions of a tile. -/
def demote (tier t : Nat) (s : State) : State := demoteList tier t (demotable s tier t) (surplus s tier t) s

/-- Heat at a window's end: halved, then the window's samples added (R296). -/
def closeHeat (f : Bushel → Bool) (s : State) : State :=
  { s with mem := { s.mem with bushels := s.mem.bushels.map (fun e =>
      if f e.2 then (e.1, { e.2 with heat := e.2.heat / 2 + samplesOf e.2 }) else e) } }

/-- Origin samples are counted per window. -/
def clearOrigin (f : Bushel → Bool) (s : State) : State :=
  { s with mem := { s.mem with bushels := s.mem.bushels.map (fun e => if f e.2 then (e.1, { e.2 with origin := [] }) else e) } }

/-- The bushel's home is lost: a fenced cluster memory or router, or an unusable memory (R360). -/
def homeLost (s : State) (b : Bushel) : Bool :=
  match b.tier with
  | 0 => cmFenced s ⟨Fin.ofNat 8 b.tile, Fin.ofNat 24 b.cluster⟩ || routerFenced s ⟨Fin.ofNat 8 b.tile, Fin.ofNat 24 b.cluster⟩
  | 1 => mcUnusable s b.tile (b.stack % 2)
  | 2 => mcUnusable s b.tile 2
  | _ => false

/-- Bushels whose heat a tile's Granger keeps: those at home on the tile; pooled bushels belong to tile 0. -/
def heatOn (t : Nat) (b : Bushel) : Bool := decide (b.tile = t)

/-- Start evacuations that have room now, of bushels whose home is lost (R360, R361). -/
def evacuateLost (t : Nat) (s : State) : State :=
  ((s.mem.bushels.filter (fun e => heatOn t e.2 && homeLost s e.2)).map (fun e => e.1)).foldl (fun s n =>
    match mfind s.mem.bushels n with
    | none => s
    | some b =>
      let target := if b.tier = 0 && nearRoom s b.tile then some (1, b.tile, 0) else chooseHome s none (decide (b.hint = 2))
      match target with
      | some h => startMove s n h 5
      | none => s) s

/-- Length of a heat window: 2^HEAT_TC × 64 BT µs (R296, R332). -/
def heatWindow (s : State) : Nat := 2 ^ min 10 (fldA s (pgGranger 0) 0x110 11 8) * 64000

/-- A heat window closes on a tile (R296, R319). -/
def closeWindow (t : Fin 8) (s : State) : State :=
  let s := evacuateLost t.val s
  if freezeHeat s then s
  else
    let s := closeHeat (heatOn t.val) s
    let ns := (s.mem.bushels.filter (fun e => heatOn t.val e.2)).map (fun e => e.1)
    let s := ns.foldl (fun s n => heatMove n s) s
    let s := demote 2 t.val (demote 1 t.val s)
    clearOrigin (heatOn t.val) s

/-- HEAT_WINDOW_END (R296): a tile's heat window ends when its length has passed since the last one; before that nothing happens. -/
def heatWindowEnd (t : Fin 8) (s : State) : State :=
  if s.now < mget 0 s.granger.heatEnd t.val + heatWindow s then s
  else closeWindow t { s with granger := { s.granger with heatEnd := mset 0 s.granger.heatEnd t.val s.now } }

def execHeatWindowEnd (tile : Fin 8) (s : State) : Out' := atTile s tile (heatWindowEnd tile)

/-! ### The host through CXL.mem -/

/-- Lines of the snoop filter (R552). -/
def snoopLines : Nat := 16777216

/-- SNOOP.LINES follows the filter (R580). -/
def setSnoop (s : State) (l : List Nat) : State :=
  setFld { s with mem := { s.mem with snoop := l } } pgHostif 0x1C0 24 0 l.length

/-- The host takes a line into its cache: a full filter sends BISnpInv for its least recently entered line first. -/
def snoopEnter (line : Nat) (s : State) : State :=
  if s.mem.snoop.contains line then s
  else if snoopLines ≤ s.mem.snoop.length then event pgHostif 0x101 1 (setSnoop s (s.mem.snoop.drop 1 ++ [line]))
  else setSnoop s (s.mem.snoop ++ [line])

/-- A host access is refused: ACCESS, with its address (R351, R580). -/
def hostRefused (bit a : Nat) (s : State) : State := logErr pgHostif bit 0 (wr s pgHostif 0x1C8 (word a))

/-- What a read answers: bytes with the poison indication. -/
def replyData (v : List Byte) (poison : Bool) (s : State) : State := { s with out := { s.out with reply := .data v poison } }

/-- An access to a bushel that is being switched is held (R353). -/
def holdAccess (x : HeldAccess) (s : State) : State := { s with mem := { s.mem with held := s.mem.held ++ [x] } }

/-- A host read is served at its home (R351, R358, R552). -/
def serveRead (a n : Nat) (caches : Bool) (s : State) : State :=
  if !rangeMemory s a n then
    replyData (List.replicate n 0xFF) true (addReg (hostRefused errAccess a s) pgHostif 0x1D0 1)
  else
    let bad := (linesOf a n).filter (poisonedAs s false)
    let v := readMem s a n
    let s := homeAccesses false 0 a n s
    let s := bad.foldl (fun s l => countPoison l s) s
    let s := if caches then (linesOf a n).foldl (fun s l => snoopEnter l s) s else s
    let s := if bad.isEmpty then s else addReg s pgHostif 0x1D0 1
    replyData v (!bad.isEmpty) s

/-- CXLMEM_READ (R351, R358, R552). A read of a bushel that is being switched is held (R353). -/
def cxlRead (a n : Nat) (caches : Bool) (s : State) : State :=
  if rangeMemory s a n && heldRange s a n then holdAccess (.read a n caches) s else serveRead a n caches s

def execCxlmemRead (addr : BitVec 48) (len : Fin 65) (caches : Bool) (s : State) : Out' := .next (cxlRead addr.toNat len.val caches s)

/-- A host write is served at its home (R351, R356). -/
def serveWrite (a : Nat) (v : List Byte) (s : State) : State :=
  if !rangeMemory s a v.length then addReg (hostRefused errAccess a s) pgHostif 0x1D8 1
  else if !slotsQuiet s && touchesCommitted s a v.length then addReg (hostRefused errState a s) pgHostif 0x1D8 1
  else storeHome 0 a v s

/-- CXLMEM_WRITE (R351, R356). A write to a bushel that is being switched is held (R353). -/
def cxlWrite (a : Nat) (v : List Byte) (s : State) : State :=
  if rangeMemory s a v.length && heldRange s a v.length then holdAccess (.write a v) s else serveWrite a v s

def execCxlmemWrite (addr : BitVec 48) (data : List Byte) (s : State) : Out' := .next (cxlWrite addr.toNat data s)

/-! ### Merge of adopted shadows (R257) -/

/-- SHADOW_MERGE: the background merge of an adopted shadow bushel completes, counted in lines. -/
def shadowMerge (n : Nat) (s : State) : State :=
  match mfind s.mem.bushels n with
  | none => s
  | some b =>
    if b.merging = 0 then s
    else event (pgGranger (Fin.ofNat 8 b.tile)) 0x101 b.merging (setBushel s n { b with merging := 0 })

def execShadowMerge (bushel : BitVec 27) (s : State) : Out' := .next (shadowMerge bushel.toNat s)

/-! ### Queries (R339) -/

/-- The result words of a query. -/
def queryResult (s : State) (r0 r1 : Word) : State := wr (wr s (pgGranger 0) 0x1A8 r0) (pgGranger 0) 0x1B0 r1

/-- The piece of a task that started last; the first piece where none has started. -/
def lastStarted : List Task → Option Task
  | [] => none
  | t :: l => some (l.foldl (fun a b => if a.startTime < b.startTime then b else a) t)

/-- Task states as a query codes them. -/
def TaskState.code : TaskState → Nat
  | .placed => 1
  | .waiting => 2
  | .ready => 3
  | .running => 4
  | .ended => 5

/-- Kind 1. -/
def queryTask (key : Nat) (s : State) : State :=
  match lastStarted (s.tasks.filter (fun t => decide (t.desc = key % 2 ^ 48))) with
  | none => queryResult s 0 0
  | some t => queryResult s (taskWho t) (word (t.state.code + t.pieces <<< 8))

/-- Kind 2. -/
def queryCounterOwner (key : Nat) (s : State) : State := queryResult s (ctr s (key % 2 ^ 19)).owner 0

/-- Kind 3. -/
def queryBushel (key : Nat) (s : State) : State :=
  let n := key % 2 ^ 27
  match mfind s.mem.bushels n with
  | none => queryResult s 0 0
  | some b =>
    let pinned := b.tierPin.isSome || b.tilePin.isSome || b.clusterPin.isSome
    queryResult s (word (1 + b.tier <<< 1 + b.tile <<< 3 + b.cluster <<< 6 + b2n b.committed <<< 11 + b2n pinned <<< 12
      + b2n b.shadow.isSome <<< 13 + b2n (moving s n) <<< 14 + b.hint <<< 15)) (word b.heat)

/-- Kind 4: a core of another module, or one that the part lacks, answers 0 in both words. -/
def queryCore (key : Nat) (s : State) : State :=
  let t := key / 2 ^ 9 % 8
  let c := key / 16 % 32
  if !hasTile s t || decide (24 ≤ c) || decide (key / 2 ^ 12 % 4096 ≠ ownCoord s) then queryResult s 0 0
  else
    let k : CoreRef := ⟨Fin.ofNat 8 t, Fin.ofNat 24 c, Fin.ofNat 16 (key % 16)⟩
    let load := mget 0 (loadsOf s (fun _ => true)) (coreIdx k)
    queryResult s (word (sat 16 (speedOf s k) + sat 16 (coreOf s k).speed <<< 16 + b2n (excluded s k) <<< 32)) (word (s.now + load / 65536))

def execQueryTask (key : BitVec 56) (s : State) : Out' := .next (queryTask key.toNat s)
def execQueryCounterOwner (key : BitVec 56) (s : State) : Out' := .next (queryCounterOwner key.toNat s)
def execQueryBushel (key : BitVec 56) (s : State) : Out' := .next (queryBushel key.toNat s)
def execQueryCore (key : BitVec 56) (s : State) : Out' := .next (queryCore key.toNat s)

/-! ### Errors in memory -/

/-- Storage of an uncorrectable error in one stored copy of a line (R357): each copy has poison of its own. -/
def poisonCopy (place : StoredCopy) (s : State) : State :=
  match place with
  | .home a => poisonLine s (lineNo a.toNat)
  | .shadow a => { s with mem := { s.mem with shadowPoison := setInsert (lineNo a.toNat) s.mem.shadowPoison } }
  | .window a => { s with mem := { s.mem with windowPoison := setInsert (lineNo a.toNat) s.mem.windowPoison } }
  | .record cl i => setCluster s cl { cluster s cl with sidePoison := setInsert i.val (cluster s cl).sidePoison }

/-- Memory controller that stores a window copy of a bushel. -/
def copyPage (s : State) (n : Nat) : Option PageRef :=
  (s.mem.copies.find? (fun c => decide (c.bushel = n))).map (fun c => pgMc (Fin.ofNat 8 c.tile) (Fin.ofNat 3 (c.stack % 2)))

/-- An error in the storage of a line that a page keeps: corrected and counted, or poisoned and counted at the home (R357, R358). -/
def lineError (place : StoredCopy) (page : Option PageRef) (line : Nat) (unc : Bool) (s : State) : State :=
  if unc then countPoison line (poisonCopy place s)
  else match page with
    | some p => correctedError p (line % 2 ^ 16) s
    | none => s

/-- MEMORY_ECC_ERROR (R357): an error in one stored copy: at the home, in the shadow line or window copy that stands for it, or in a record of a
cluster's side memory (R215). A copy that is not stored has no error. -/
def memoryEccError (place : StoredCopy) (unc : Bool) (s : State) : State :=
  match place with
  | .home a =>
    match bushelAt s a.toNat with
    | some b => lineError place (homePage b) (lineNo a.toNat) unc s
    | none => s
  | .shadow a =>
    match bushelAt s a.toNat with
    | some b => if s.mem.shadowLines.contains (lineNo a.toNat) then lineError place (homePage b) (lineNo a.toNat) unc s else s
    | none => s
  | .window a => if copyAt s a.toNat then lineError place (copyPage s (bushelNo a.toNat)) (lineNo a.toNat) unc s else s
  | .record cl i =>
    if unc then logErr (.cluster cl) errUe i.val (poisonCopy place s)
    else logErr (.cluster cl) errCe i.val s

/-- Tile of a stored copy that names one. -/
def copyTile (place : StoredCopy) : Fin 8 :=
  match place with
  | .record cl _ => cl.tile
  | _ => 0

def execMemoryEccError (place : StoredCopy) (uncorrectable : Bool) (s : State) : Out' :=
  atTile s (copyTile place) (memoryEccError place uncorrectable)

/-- MEMORY_UNUSABLE (R360): the PHY of a controller has lost training. -/
def execMemoryUnusable (tile : Fin 8) (controller : Fin 3) (s : State) : Out' :=
  atTile s tile (fun s => if mcUnusable s tile.val controller.val then s else declareUnusable tile.val controller.val s)

/-- PATROL_SCRUB (R395): a full pass over a memory corrects words; with 0 hours there is no pass. -/
def patrolScrub (t : Fin 8) (n : Fin 3) (corrected : Nat) (s : State) : State :=
  let p := pgMc t n
  if fldA s p 0x120 15 0 = 0 || mcUnusable s t.val n.val || decide (corrected = 0) then s
  else event p 0x102 corrected (addReg (logErr p errCe 0 s) p 0x108 corrected)

def execPatrolScrub (tile : Fin 8) (controller : Fin 3) (corrected : Nat) (s : State) : Out' :=
  atTile s tile (patrolScrub tile controller corrected)

end Sys2Proof.Machine
end

