-- ==== Sys2Proof/Machine/Dma.lean ====
section
/-! DEFINITION. The DMA channels of a tile (R381 to R391, R356, R358). The write of a burst returns its response in the burst's own event
(DESIGN CHOICE, log entry 22). -/

namespace Sys2Proof.Machine

/-- A channel's progress. -/
def dmaOf (s : State) (t : Fin 8) (n : Fin 32) : DmaChan := mget {} s.dmas (32 * t.val + n.val)
def setDma (s : State) (t : Fin 8) (n : Fin 32) (c : DmaChan) : State := { s with dmas := mset {} s.dmas (32 * t.val + n.val) c }

/-- Channel states (R391). -/
def dmIdle : Nat := 0
def dmBusy : Nat := 1
def dmDone : Nat := 2
def dmError : Nat := 3
def dmAborted : Nat := 4

def dmaState (s : State) (t : Fin 8) (n : Fin 32) : Nat := fld s (pgDma t n) 0x130 2 0

/-- Error codes of a channel (R391). -/
def deBadConfig : Nat := 1
def deAddrFault : Nat := 2
def deEcc : Nat := 3
def deCommitted : Nat := 4
def dePooled : Nat := 5

/-- A channel's parameters, as its registers hold them: they do not change while it is BUSY (R389). -/
def dmaSrc (s : State) (p : PageRef) : Nat := fld s p 0x100 47 0
def dmaDst (s : State) (p : PageRef) : Nat := fld s p 0x108 47 0
def dmaCount (s : State) (p : PageRef) : Nat := fld s p 0x110 31 0
def srcFixed (s : State) (p : PageRef) : Bool := (rd s p 0x118).bit 0
def dstFixed (s : State) (p : PageRef) : Bool := (rd s p 0x118).bit 1
def burstBytes (s : State) (p : PageRef) : Nat := 64 * (fld s p 0x118 13 8 + 1)
def dmaShare (s : State) (p : PageRef) : Nat := fld s p 0x118 23 16

/-- A fixed address breaks R382. -/
def fixedBad (s : State) (p : PageRef) (a : Nat) : Bool := decide (a % 64 ≠ 0) || decide (4096 < a % 4096 + burstBytes s p)

/-- Counters that would have been signalled become orphaned (R277). -/
def orphans (l : List Nat) (s : State) : State := l.foldl (fun s i => run [.orphan i none] s) s

/-- The SYNC counter that a command's words name, if SYNC_EN is 1. -/
def syncOf (ws : List Word) : List Nat := if cw ws 4 19 19 = 1 then [cw ws 4 18 0] else []

/-- The SYNC counter that a channel's registers name, if SYNC_EN is 1. -/
def dmaSync (s : State) (p : PageRef) : List Nat := if (rd s p 0x120).bit 19 then [fld s p 0x120 18 0] else []

/-- The channel ends (R384): STAT, DONE_TIME and COMPLETIONS; the signal; the vector. -/
def dmaEnd (t : Fin 8) (n : Fin 32) (err : Nat) (s : State) : State :=
  let p := pgDma t n
  let c := dmaOf s t n
  let s := wr s p 0x130 (word ((if err = 0 then dmDone else dmError) + err <<< 8 + (c.returned % 2 ^ 32) <<< 32))
  let s := addReg (wr s p 0x138 (nowW s)) p 0x140 1
  let s := if err = 0 then s else logErr p errCommand err s
  let who := unitWho 2 t.val n.val c.att
  let s := setDma s t n { startedInWindow := c.startedInWindow, window := c.window }
  let s := trace t.val 6 who (word (err <<< 48)) (word (sat 32 (s.now - c.started))) s
  let s := if (rd s p 0x120).bit 19 then signal (fld s p 0x120 18 0) (fld s p 0x120 63 32) who c.att s else s
  if (rd s p 0x118).bit 32 then irq s (fld s p 0x118 48 40) else s

/-- A channel starts (R382). -/
def dmaStart (r : Requester) (t : Fin 8) (n : Fin 32) (s : State) : State :=
  let p := pgDma t n
  let s := setDma s t n { started := s.now, att := reqAtt s r, startedInWindow := (dmaOf s t n).startedInWindow, window := (dmaOf s t n).window }
  let s := wr s p 0x130 (word dmBusy)
  if (srcFixed s p && fixedBad s p (dmaSrc s p)) || (dstFixed s p && fixedBad s p (dmaDst s p)) then dmaEnd t n deBadConfig s
  else if dmaCount s p = 0 then dmaEnd t n 0 s
  else s

/-- DMA_GO (R382): a write of GO. A BUSY channel, or one whose block is disabled (R611), ignores it and logs STATE. -/
def dmaGo (r : Requester) (t : Fin 8) (n : Fin 32) (value : Word) (s : State) : State :=
  let p := pgDma t n
  let s := reservedWrite p 0x128 (bm 0 0) value s
  if !value.bit 0 then s
  else if dmaState s t n = dmBusy || !(rd s p 0x010).bit 0 then logErr p errState 0x128 s
  else dmaStart r t n s

def execDmaGo (r : Requester) (tile : Fin 8) (channel : Fin 32) (value : Word) (s : State) : Out' :=
  byAt s r tile (dmaGo r tile channel value)

/-- Bytes that a channel may start in a rate window (R387). -/
def dmaBudget (s : State) (p : PageRef) : Int := 4000 * dmaShare s p

/-- The channel may issue a burst. -/
def mayIssue (s : State) (t : Fin 8) (n : Fin 32) : Bool :=
  let p := pgDma t n
  let c := dmaOf s t n
  decide (dmaState s t n = dmBusy) && !c.finishing && decide (c.issued < dmaCount s p)
  && (decide (dmaShare s p = 0) || decide (c.startedInWindow < dmaBudget s p))

/-- The next channel, round-robin (R387). -/
def nextChannel (s : State) (t : Fin 8) : Option (Fin 32) :=
  let start := mget 0 s.dmaNext t.val
  ((List.range 32).map (fun i => Fin.ofNat 32 (start + i))).find? (mayIssue s t)

/-- Addresses that both of a channel's ranges hold: the channel's own bytes there are free (R388). -/
def overlapFree (src sn dst : Nat) (v : List Byte) (s : State) : List Byte × State :=
  let inSrc := fun a => decide ((a + 2 ^ 48 - src % 2 ^ 48) % 2 ^ 48 < sn)
  let d := addrs dst v.length
  if d.any inSrc then
    ((v.zip d).map (fun e => if inSrc e.2 then Config.freeByte (s.free + e.2) else e.1), { s with free := s.free + 1 })
  else (v, s)

/-- The channel issues no further burst and ends with an error once its writes have returned (R384). -/
def dmaFail (t : Fin 8) (n : Fin 32) (err : Nat) (s : State) : State :=
  setDma s t n { dmaOf s t n with error := err, finishing := true }

/-- One burst moves its bytes. -/
def dmaMove (t : Fin 8) (n : Fin 32) (src dst len : Nat) (s : State) : State :=
  let p := pgDma t n
  let v := readMem s src len
  let s := homeAccesses false t.val src len s
  let (v, s) := overlapFree (dmaSrc s p) (if srcFixed s p then burstBytes s p else dmaCount s p) dst v s
  let s := storeHome t.val dst v s
  let c := dmaOf s t n
  let s := event p 0x100 ((c.returned + len) / 64 - c.returned / 64) s
  let s := setDma s t n { c with issued := c.issued + len, returned := c.returned + len, startedInWindow := c.startedInWindow + len }
  setFld s p 0x130 63 32 (c.returned + len)

/-- The DMA engine of a tile stands at a ring stop that is fenced: it is unusable (R401, R439). -/
def dmaLost (s : State) (t : Fin 8) : Bool := nodeFenced s (40 * t.val + 38)

/-- DMA_BURST (R381, R383, R356, R358, R387): the engine of a tile issues one burst of the next channel. A burst of a bushel that is being
switched waits (R353). -/
def dmaBurst (t : Fin 8) (s : State) : State :=
  match (if dmaLost s t then none else nextChannel s t) with
  | none => s
  | some n =>
    let p := pgDma t n
    let c := dmaOf s t n
    let len := min (burstBytes s p) (dmaCount s p - c.issued)
    let src := addr48 (if srcFixed s p then dmaSrc s p else dmaSrc s p + c.issued)
    let dst := addr48 (if dstFixed s p then dmaDst s p else dmaDst s p + c.issued)
    let s := { s with dmaNext := mset 0 s.dmaNext t.val ((n.val + 1) % 32) }
    if !rangeMemory s src len || !rangeMemory s dst len then dmaFail t n deAddrFault s
    else if !slotsQuiet s && touchesCommitted s dst len then dmaFail t n deCommitted s
    else if heldRange s src len || heldRange s dst len then s
    else match poisonIn s false src len with
      | some line => meetPoison line c.att.isSome (dmaFail t n deEcc s)
      | none => dmaMove t n src dst len s

def execDmaBurst (tile : Fin 8) (s : State) : Out' := atTile s tile (dmaBurst tile)

/-- A rate window of 4,000 BT ns begins for a channel: the budgets of the windows since its last one are set against what it has started (R387). -/
def channelWindow (t : Fin 8) (s : State) (n : Fin 32) : State :=
  let c := dmaOf s t n
  let w := s.now / 4000
  if w ≤ c.window then s
  else
    let left := c.startedInWindow - ((w - c.window : Nat) : Int) * dmaBudget s (pgDma t n)
    setDma s t n { c with startedInWindow := if dmaShare s (pgDma t n) = 0 then 0 else max 0 left, window := w }

/-- DMA_SHARE_WINDOW (R387): a rate window of the tile's channels begins, at a Beacon multiple of 4,000. -/
def dmaShareWindow (t : Fin 8) (s : State) : State := (List.finRange 32).foldl (channelWindow t) s

def execDmaShareWindow (tile : Fin 8) (s : State) : Out' := atTile s tile (dmaShareWindow tile)

/-- DMA_COMPLETE (R384): every write of a channel that has issued its last burst, or met an error, has returned. -/
def dmaComplete (t : Fin 8) (n : Fin 32) (s : State) : State :=
  let c := dmaOf s t n
  if dmaState s t n ≠ dmBusy || dmaLost s t then s
  else if c.finishing && decide (c.error ≠ 0) then dmaEnd t n c.error s
  else if !c.finishing && decide (c.issued = dmaCount s (pgDma t n)) then dmaEnd t n 0 s
  else s

def execDmaComplete (tile : Fin 8) (channel : Fin 32) (s : State) : Out' := atTile s tile (dmaComplete tile channel)

end Sys2Proof.Machine
end

