-- ==== Sys2Proof/Machine/Link.lean ====
section
/-! DEFINITION. The link layer of the peer ports: packets in flits (R450, R453, R454), credits and the retry buffer (R451 to R453), the choice of
a port (R457 to R460), and a port that leaves ACTIVE or goes DOWN (R462 to R466). -/

namespace Sys2Proof.Machine

/-- Peer page of a port by number. -/
def pgPort (n : Nat) : PageRef := pgPeer (Fin.ofNat 6 n)

/-- Codes of R462. -/
def lkDisabled : Nat := 0
def lkDetect : Nat := 1
def lkTrain : Nat := 2
def lkAlign : Nat := 3
def lkIdentify : Nat := 4
def lkActive : Nat := 5
def lkRetrain : Nat := 6
def lkDown : Nat := 7

/-- State of a port by number. -/
def linkOf (s : State) (n : Nat) : Nat := fld s (pgPort n) 0x110 2 0

/-- Set a port's state; ADAPTING reads 1 in ACTIVE without EQ_FREEZE (R465, R497). -/
def setLink (s : State) (n v : Nat) : State :=
  let s := setFld s (pgPort n) 0x110 2 0 v
  setFld s (pgPort n) 0x110 16 16 (b2n (decide (v = lkActive) && !(rdA s (pgPort n) 0x100).bit 1))

/-! ### Packets and flits -/

/-- Words of a packet: its header and its data (R453). -/
def packetWords (p : PeerPacket) : Nat := 1 + (p.data.length + 63) / 64

/-- Flits that carry a packet. -/
def packetFlits (p : PeerPacket) : Nat := (packetWords p + 31) / 32

/-- Flits of the retry buffer (R451). -/
def retryDepth : Nat := 256

/-- Words of a VC's receive buffer (R453). -/
def vcWords : Nat := 512

/-- Order of precedence (R454). -/
def sendRank (p : PeerPacket) : Nat :=
  match p.kind.val with
  | 2 => 0
  | 3 => 1
  | 1 => 2
  | 9 => 2
  | _ => if p.prio then 3 else 4

/-- A packet can leave: CREDIT, BEACON and SLOTTED packets need no credit of a VC, and every flit needs a place in the retry buffer. -/
def maySend (x : Port) (p : PeerPacket) : Bool :=
  (decide (p.kind.val < 4) || decide (packetWords p ≤ x.credits.getD p.vc.val 0))
  && decide (x.retry.length + packetFlits p ≤ retryDepth)

/-- Tiles and stops of the peer attachments (R446), by port. -/
def portSites (p : Part) : List (Nat × Nat) :=
  match p with
  | .d8 => [(3, 7), (0, 15), (7, 7), (4, 15), (1, 7), (6, 15)]
  | .d4 => [(1, 7), (0, 15), (3, 7), (2, 15), (0, 7), (3, 15)]
  | .d2 => [(1, 7), (0, 15), (1, 7), (0, 15), (0, 7), (1, 15)]

/-- Node of the attachment that serves a port. -/
def portNode (s : State) (port : Nat) : Node := let e := (portSites s.part).getD port (0, 7); 40 * e.1 + 24 + e.2

/-- WIN and HQ of the arbiter of a port: those of its attachment's tile (R454). -/
def portQuota (s : State) (n : Nat) : Nat × Nat :=
  let t := Fin.ofNat 8 ((portSites s.part).getD n (0, 7)).1
  (fldA s (pgNet t) 0x128 5 0, fldA s (pgNet t) 0x128 13 8)

/-- A packet that the arbiter of the port grants: of high or of low priority (R454). -/
def arbitrated (p : PeerPacket) : Bool := decide (3 ≤ sendRank p)

/-- Requests of a port's arbiter: the first packet of each VC, if it can leave. -/
def portRequests (x : Port) : List PeerPacket :=
  (x.waiting.filter arbitrated).filter (fun p =>
    maySend x p && decide ((x.waiting.filter arbitrated).find? (fun q => decide (q.vc = p.vc)) = some p))

/-- The port's arbiter grants the oldest request that is not masked; a window ends after WIN grants, or once every request is masked (R414 to R416,
R454). Answers the packet and the window after the grant. -/
def portGrant (s : State) (n : Nat) : Option (PeerPacket × Arbiter) :=
  let x := port s n
  let l := sortBy (fun p => p.vc.val) (portRequests x)
  let quota := fun (a : Arbiter) => a.cfg.getD (portQuota s n)
  let masked := fun (a : Arbiter) => decide ((quota a).2 ≤ a.favoured)
  let a := if masked x.arb && l.all (fun p => p.prio) then {} else x.arb
  (oldest (fun p => p.age.toNat) (if masked a then l.filter (fun p => !p.prio) else l)).map (fun p =>
    (p, if (quota a).1 ≤ a.grants + 1 then {} else { grants := a.grants + 1, favoured := a.favoured + b2n p.prio, cfg := some (quota a) }))

/-- The packet that leaves next, with the window of the port's arbiter after it: the first of the highest precedence, or else the one that the arbiter
grants (R454). -/
def nextSend (s : State) (n : Nat) : Option (PeerPacket × Arbiter) :=
  let x := port s n
  match x.waiting.filter (fun p => maySend x p && !arbitrated p) with
  | [] => portGrant s n
  | p :: l => some (l.foldl (fun a b => if sendRank b < sendRank a then b else a) p, x.arb)

/-- A packet leaves on a port: its flits enter the retry buffer. -/
def sendNow (n : Nat) (p : PeerPacket) (s : State) : State :=
  let x := port s n
  let f := packetFlits p
  let c := if p.kind.val < 4 then x.credits else x.credits.set p.vc.val (x.credits.getD p.vc.val 0 - packetWords p)
  let s := setPort s n { x with
    waiting := x.waiting.erase p, credits := c, txSeq := (x.txSeq + f) % 2 ^ 15
    ackSince := if x.retry.isEmpty then s.now else x.ackSince
    retry := x.retry ++ (List.range f).map (fun i => ((x.txSeq + i) % 2 ^ 15, 0, p)) }
  event (pgPort n) 0x100 f { s with out := { s.out with packets := s.out.packets ++ [(n, p)] } }

/-- Packets leave while one can. -/
def drainFuel : Nat → Nat → State → State
  | 0, _, s => s
  | k + 1, n, s =>
    match nextSend s n with
    | some (p, a) => drainFuel k n (sendNow n p (setPort s n { port s n with arb := a }))
    | none => s

/-- An ACTIVE port sends the packets that wait. -/
def drainPort (n : Nat) (s : State) : State := if linkOf s n = lkActive then drainFuel (port s n).waiting.length n s else s

/-- A packet goes to a port. -/
def sendPeer (n : Nat) (p : PeerPacket) (s : State) : State :=
  let x := port s n
  drainPort n (setPort s n { x with waiting := x.waiting ++ [p] })

/-! ### Routes -/

/-- Size of an axis (R457, R499). -/
def axisSize (s : State) (a : Nat) : Nat := fldA s pgColl 0x130 (15 + 4 * a) (12 + 4 * a) + 1

/-- Coordinate of a module on an axis: X [11:8], Y [7:4], Z [3:0]. -/
def coordOn (c a : Nat) : Nat := c / 2 ^ (8 - 4 * a) % 16

/-- A module's coordinate with one axis changed. -/
def withCoord (c a v : Nat) : Nat := c - coordOn c a * 2 ^ (8 - 4 * a) + v % 16 * 2 ^ (8 - 4 * a)

/-- Ports of an axis towards a destination, the preferred direction first (R458, R459). -/
def axisPorts (s : State) (dst a : Nat) : List Nat :=
  let n := axisSize s a
  if n ≤ 1 then []
  else
    let fwd := (coordOn dst a + n - coordOn (ownCoord s) a % n) % n
    if 2 * fwd ≤ n then [2 * a, 2 * a + 1] else [2 * a + 1, 2 * a]

/-- The first axis, in the order X, Y, Z, on which a destination differs. -/
def firstAxis (s : State) (dst : Nat) : Nat :=
  ((List.range 3).find? (fun a => decide (coordOn dst a ≠ coordOn (ownCoord s) a))).getD 0

/-- The port that a packet takes, and whether it is a detour (R458, R459): none when no port is ACTIVE. -/
def routePort (s : State) (dst : Nat) : Option (Nat × Bool) :=
  let a := firstAxis s dst
  let l := axisPorts s dst a ++ axisPorts s dst ((a + 1) % 3) ++ axisPorts s dst ((a + 2) % 3)
  (l.find? (fun n => decide (linkOf s n = lkActive))).map (fun n => (n, decide (l.head? ≠ some n)))

/-- The VC on which a packet leaves (R455): after the dateline once it has crossed it on the axis, before it on a new axis. -/
def leaveVc (s : State) (inPort : Option Nat) (p : PeerPacket) (out : Nat) : Fin 4 :=
  let a := out / 2
  let own := coordOn (ownCoord s) a
  let crosses := if out % 2 = 0 then decide (own + 1 = axisSize s a) else decide (own = 0)
  let kept := match inPort with | some i => decide (i / 2 = a) && decide (p.vc.val % 2 = 1) | none => false
  Fin.ofNat 4 (p.vc.val / 2 * 2 + b2n (crosses || kept))

/-- A packet as it is transmitted on a port (R455, R460). -/
def onPort (s : State) (inPort : Option Nat) (p : PeerPacket) (out : Nat) : PeerPacket :=
  { p with vc := leaveVc s inPort p out, hops := p.hops + 1 }

/-- A packet that leaves by a detour is counted (R459). -/
def countDetour (n : Nat) (detour : Bool) (s : State) : State := if detour then addReg s (pgPort n) 0x148 1 else s

/-! ### Commands that a lost packet belongs to -/

/-- The collective command that sent a packet. -/
def sentBy (p : PeerPacket) (c : CollCmd) : Bool :=
  if p.kind.val = 8 then decide (cw c.words 0 3 0 = 7) && decide (c.number = p.seq.toNat)
  else decide (cw c.words 0 3 0 ≠ 7) && decide (cw c.words 0 23 12 = p.group.toNat) && decide (c.number = p.seq.toNat)

/-- Collective commands that a test selects take a status, unless they have one. -/
def giveStatus (f : CollCmd → Bool) (status : Nat) (s : State) : State :=
  { s with coll := { s.coll with queue := s.coll.queue.map (fun c => if f c && c.result.isNone then { c with result := some status } else c) } }

/-- A packet is lost: its requester, if it is a command of this module, receives an error response (R466, R413). -/
def losePacket (s : State) (p : PeerPacket) : State :=
  if p.src.toNat = ownCoord s && decide (4 ≤ p.kind.val) && decide (p.kind.val ≤ 8) then giveStatus (sentBy p) 0x05 s else s

/-- A packet of this module's leaves for its destination; with no ACTIVE port its command ends with LINK (R483). -/
def sendOwn (p : PeerPacket) (s : State) : State :=
  match routePort s p.dst.toNat with
  | some (n, d) => sendPeer n (onPort s none p n) (countDetour n d s)
  | none => giveStatus (sentBy p) 0x0D s

/-! ### States of a port -/

/-- A port that leaves ACTIVE during a RUNNING step causes PEER_LINK (R466). -/
def leaveActive (n : Nat) (s : State) : State := if stepRunning s then fault 11 n s else s

/-- A port enters RETRAIN (R452, R464): the retry buffer stays. -/
def enterRetrain (n : Nat) (s : State) : State :=
  let was := linkOf s n
  let x := port s n
  let s := setPort s n { x with
    since := s.now, retraining := true, replayTimes := [], retry := x.retry.map (fun e => (e.1, 0, e.2.2)) }
  let s := addReg (setLink s n lkRetrain) (pgPort n) 0x138 1
  if was = lkActive then leaveActive n s else s

/-- Packets that wait at a port that no longer carries traffic take another way (R459); those of the link itself, CREDIT and BEACON, are lost. -/
def reroute (n : Nat) (s : State) : State :=
  let l := (port s n).waiting.filter (fun p => decide (3 ≤ p.kind.val))
  let s := setPort s n { port s n with waiting := [] }
  l.foldl (fun s p => match routePort s p.dst.toNat with
    | some (m, d) => sendPeer m { p with vc := leaveVc s none p m } (countDetour m d s)
    | none => losePacket s p) s

/-- A port enters DOWN, or DISABLED (R462, R466): the packets of its retry buffer are lost. A module whose six ports are all DOWN is lost to the job
(MODULE_LOST). -/
def dropLink (n state cause : Nat) (s : State) : State :=
  let was := linkOf s n
  let s := setFld (setLink s n state) (pgPort n) 0x110 7 4 cause
  let s := if (List.range 6).all (fun m => decide (linkOf s m = lkDown)) then fault 25 0 s else s
  let lost := (port s n).retry.map (fun e => e.2.2)
  let s := setPort s n { port s n with retry := [], retraining := false, lead := none }
  let s := reroute n (lost.foldl losePacket s)
  if was = lkActive then leaveActive n s else s

/-- Replays of a port within the last BT ms (R452). -/
def recentReplays (s : State) (x : Port) : List Nat := (x.replayTimes.filter (fun t => decide (s.now < t + 1000000))) ++ [s.now]

/-- The port replays every unacknowledged flit in order (R451, R452). The link layer delivers each packet once, so a replay sends no packet
anew in `out`. -/
def replay (n : Nat) (s : State) : State :=
  let x := port s n
  let x := { x with ackSince := s.now, replayTimes := recentReplays s x, retry := x.retry.map (fun e => (e.1, e.2.1 + 1, e.2.2)) }
  let s := event (pgPort n) 0x102 1 (addReg (setPort s n x) (pgPort n) 0x130 1)
  if 16 ≤ x.replayTimes.length || x.retry.any (fun e => decide (8 ≤ e.2.1)) then enterRetrain n s else s

/-- An acknowledgement empties the retry buffer up to a flit (R450, R451). -/
def acknowledge (n ack : Nat) (s : State) : State :=
  let x := port s n
  match x.retry.findIdx? (fun e => decide (e.1 = ack)) with
  | some i => setPort s n { x with retry := x.retry.drop (i + 1), ackSince := s.now }
  | none => s

/-- A port reaches ACTIVE (R464): after a first training or from DOWN both ends start their sequence numbers, credits and buffers anew; after
RETRAIN the unacknowledged flits are sent again (R452). -/
def enterActive (n : Nat) (s : State) : State :=
  let x := port s n
  let x := if x.retraining then { x with since := s.now, ackSince := s.now, retraining := false }
    else { x with since := s.now, ackSince := s.now, rxSeq := 2 ^ 15 - 1, waitReplay := false, txSeq := 0, retry := [], replayTimes := [], arb := {},
                  credits := [vcWords, vcWords, vcWords, vcWords] }
  drainPort n (setLink (setPort s n x) n lkActive)

end Sys2Proof.Machine
end

