-- ==== Sys2Proof/Machine/Net.lean ====
section
/-! DEFINITION. The on-package network: routers, ring stops and bridges (R403, R404), the open class and its arbiters (R408 to R419), fences
and rewrites (R436 to R440), slot tables (R429 to R434), and requests that time out (R413). -/

namespace Sys2Proof.Machine

/-! ### Arbiters (R412, R414 to R419) -/

/-- Age of a stamp in units of 4 BT ns (R412). -/
def stampAge (s : State) (age : Nat) : Nat := (netStamp s + 2 ^ 16 - age % 2 ^ 16) % 2 ^ 16

/-- The packet has expired. -/
def expired (s : State) (p : NetPacket) : Bool := decide (31999 ≤ stampAge s p.age)

/-- Drop packets; a register of the node's page counts them. -/
def dropPackets (x : Node) (reg : Nat) (l : List NetPacket) (s : State) : State :=
  if l.isEmpty then s
  else addReg { s with net := { s.net with packets := s.net.packets.filter (fun p => !l.contains p) } } (pgOfNode x) reg l.length

/-- WIN and HQ of a node's outputs (R419). -/
def winOf (s : State) (x : Node) : Nat := fldA s (pgOfNode x) 0x128 5 0
def hqOf (s : State) (x : Node) : Nat := fldA s (pgOfNode x) 0x128 13 8

/-- Flits of a channel that wait at an input. -/
def buffered (s : State) (x : Node) (port vc : Nat) : Nat :=
  ((s.net.packets.filter (fun p => decide (p.node = x) && decide (p.port = port) && decide (p.vc = vc))).map (fun p => p.flits)).sum

/-- The buffer beyond an output has room for a packet on a channel (R409). -/
def hasCredit (s : State) (x : Node) (o vc flits : Nat) : Bool :=
  match neighbour s x o with
  | some (y, i) => decide (buffered s y i vc + flits ≤ 16)
  | none => decide (o = 0)

/-- The packet stands at the head of its input's channel. -/
def isHead (s : State) (p : NetPacket) : Bool :=
  decide (s.net.packets.find? (fun q => decide (q.node = p.node) && decide (q.port = p.port) && decide (q.vc = p.vc)) = some p)

/-- A packet asks for an output on a channel. -/
def asksFor (s : State) (o : Nat) (p : NetPacket) : Bool := decide ((wants s p).map (fun e => e.1) = some o)

/-- Another packet has sent part of its flits on a packet's channel of an output: no other follows before it has sent them all (R417). -/
def channelTaken (s : State) (x : Node) (o vc : Nat) (p : NetPacket) : Bool :=
  s.net.packets.any (fun q => decide (q.node = x) && decide (q ≠ p) && decide (q.progress ≠ 0) && decide (wants s q = some (o, vc)))

/-- Requests of an output, by input port and channel: the heads of the channels that ask for it. -/
def requests (s : State) (x : Node) (o : Nat) : List NetPacket :=
  sortBy (fun p => 8 * p.port + p.vc)
    (s.net.packets.filter (fun p => decide (p.node = x) && isHead s p && (match wants s p with
      | some (q, v) => decide (q = o) && hasCredit s x o v p.flits && !channelTaken s x o v p
      | none => false)))

/-- An output's arbiter. -/
def arbOf (s : State) (x : Node) (o : Nat) : Arbiter := mget {} s.net.arbiters (8 * x + o)
def setArb (s : State) (x : Node) (o : Nat) (a : Arbiter) : State :=
  { s with net := { s.net with arbiters := mset {} s.net.arbiters (8 * x + o) a } }

/-- WIN and HQ of an output's window: those with which it began, or those of the registers for a new one (R419). -/
def quotaOf (s : State) (x : Node) (a : Arbiter) : Nat × Nat := a.cfg.getD (winOf s x, hqOf s x)

/-- The favoured class is masked. -/
def masked (s : State) (x : Node) (a : Arbiter) : Bool := decide ((quotaOf s x a).2 ≤ a.favoured)

/-- The window when the requests are known: it ends at once when every request is masked (R416). -/
def openArb (s : State) (x : Node) (a : Arbiter) (l : List NetPacket) : Arbiter := if masked s x a && l.all (fun p => p.high) then {} else a

/-- A grant to a packet counts in the window, which ends after WIN grants (R416). -/
def grantArb (s : State) (x : Node) (a : Arbiter) (p : NetPacket) : Arbiter :=
  let q := quotaOf s x a
  if q.1 ≤ a.grants + 1 then { current := some p }
  else { grants := a.grants + 1, favoured := a.favoured + b2n p.high, cfg := some q, current := some p }

/-! ### Hops and delivery -/

/-- LAT_MAX at a delivery (R442). -/
def noteLatency (x : Node) (p : NetPacket) (s : State) : State :=
  let t := 4 * stampAge s p.age
  let lo := if p.high then 0 else 32
  if fld s (pgOfNode x) 0x170 (lo + 31) lo < t then setFld s (pgOfNode x) 0x170 (lo + 31) lo t else s

/-- A packet is delivered at its destination (R133, R118, R436, R447). -/
def deliver (x : Node) (p : NetPacket) (s : State) : State :=
  let s := { s with net := { s.net with packets := s.net.packets.erase p } }
  let s := noteLatency x p s
  match p.kind with
  | .request =>
    if isRouter x then
      let cl : ClusterRef := ⟨Fin.ofNat 8 (nodeTile x), Fin.ofNat 24 (nodeNo x)⟩
      match bushelAt s (64 * p.line) with
      | some b =>
        let n := bankOf b p.line
        let k := mget {} (cluster s cl).banks n
        setBank s cl n { k with waiting := k.waiting ++ [{ p with node := x, port := 0 }] }
      | none => s
    else { s with net := { s.net with atHome := s.net.atHome ++ [{ p with node := x, port := 0 }] } }
  | .response =>
    match p.toCore with
    | some i => if coreFenced s (coreAt i) then addReg s (pgOfNode x) 0x140 1 else installLine i p.line p.data s
    | none => s
  | .transit =>
    match p.peer with
    | some (n, q) => event (pgPort n) 0x101 1 (addReg (sendPeer n q s) (pgPort n) 0x140 1)
    | none => s

/-- A packet of which every flit has been sent has moved one hop. -/
def hop (x : Node) (o : Nat) (p : NetPacket) (s : State) : State :=
  if o = 0 then deliver x p s
  else match neighbour s x o with
    | none => s
    | some (y, i) =>
      let vc := match wants s p with | some (_, v) => v | none => p.vc
      let q := { p with node := y, port := i, vc := vc, progress := 0 }
      { s with net := { s.net with packets := s.net.packets.erase p ++ [q] } }

/-- One flit of the packet that holds an output is sent; with its last the packet has moved. -/
def sendFlit (x : Node) (o : Nat) (p : NetPacket) (s : State) : State :=
  let s := countBridge x o 1 (countFlits x 0 1 s)
  let q := { p with progress := p.progress + 1 }
  let held := decide (q.progress < p.flits)
  let s := setArb s x o { arbOf s x o with current := if held then some q else none }
  let s := { s with net := { s.net with packets := s.net.packets.replace p q } }
  if held then s else hop x o q s

/-- A packet waits for an output, and its channel has no credit (R409, R686). -/
def lacksCredit (s : State) (x : Node) (o : Nat) : Bool :=
  s.net.packets.any (fun p => decide (p.node = x) && isHead s p && (match wants s p with
    | some (q, v) => decide (q = o) && !hasCredit s x o v p.flits
    | none => false))

/-- The output is granted to the oldest unmasked request, which sends a flit (R415, R416). A step in which a packet waits for credit alone is
counted (R686). -/
def arbitrate (x : Node) (o : Nat) (s : State) : State :=
  let l := requests s x o
  let a := openArb s x (arbOf s x o) l
  let l := if masked s x a then l.filter (fun p => !p.high) else l
  match oldest NetPacket.age l with
  | none => if lacksCredit s x o then countFlits x 2 1 s else s
  | some p => sendFlit x o p (setArb s x o (grantArb s x a p))

/-- The packet that holds an output gives it up, and keeps its progress (R417). -/
def revoke (x : Node) (o : Nat) (s : State) : State :=
  event (pgOfNode x) 0x104 1 (addReg (setArb s x o { arbOf s x o with current := none }) (pgOfNode x) 0x158 1)

/-- A granted packet that has been withdrawn costs a dead step, and counts towards no class quota (R418). -/
def deadStep (x : Node) (o : Nat) (p : NetPacket) (s : State) : State :=
  let a := arbOf s x o
  event (pgOfNode x) 0x103 1 (addReg (setArb s x o { a with current := none, favoured := a.favoured - b2n p.high }) (pgOfNode x) 0x150 1)

/-- A favoured request on another channel of the output is older than the packet that holds it, and is not masked (R417). -/
def overtaken (s : State) (x : Node) (o : Nat) (p : NetPacket) : Bool :=
  !masked s x (arbOf s x o) && (requests s x o).any (fun q => q.high && decide (wants s q ≠ wants s p) && older q.age p.age)

/-- The core that injected a request has been fenced while the packet still stands where it was injected (R418). -/
def injectorFenced (s : State) (p : NetPacket) : Bool :=
  decide (p.kind = .request) && decide (p.node = p.src) && decide (p.port = 0)
  && (match p.toCore with | some i => coreFenced s (coreAt i) | none => false)

/-- Packets that ask for an output and may not go on: expired ones are dropped and counted (R412), those of fenced cores are withdrawn. -/
def weedOut (x : Node) (o : Nat) (s : State) : State :=
  let asks := s.net.packets.filter (fun p => decide (p.node = x) && asksFor s o p)
  let s := dropPackets x 0x138 (asks.filter (expired s)) s
  { s with net := { s.net with packets := s.net.packets.filter (fun p => !(decide (p.node = x) && injectorFenced s p)) } }

/-- One step of an output's packet in progress, or of its arbiter. -/
def outputStep (x : Node) (o : Nat) (s : State) : State :=
  match (arbOf s x o).current with
  | none => arbitrate x o s
  | some p =>
    if !s.net.packets.contains p || !asksFor s o p then deadStep x o p s
    else if overtaken s x o p then arbitrate x o (revoke x o s)
    else sendFlit x o p s

/-- A step that a slotted flit takes on an output (R420); it revokes a grant in progress (R417). -/
def slottedStep (x : Node) (o n : Nat) (s : State) : State :=
  let s := if (arbOf s x o).current.isSome then revoke x o s else s
  { s with net := { s.net with heldSteps := mset 0 s.net.heldSteps (8 * x + o) (n - 1) } }

/-- OPEN_PACKET_HOP (R412, R415 to R418, R420): one flit step of an output. A slotted flit that is due takes it; else the packet that holds the output,
or the oldest unmasked request, sends a flit, and moves one hop with its last. Expired packets that ask for the output are dropped first. -/
def openHop (x : Node) (o : Nat) (s : State) : State :=
  if nodeFenced s x then s
  else
    let n := mget 0 s.net.heldSteps (8 * x + o)
    if n ≠ 0 then slottedStep x o n s else outputStep x o (weedOut x o s)

def execOpenPacketHop (node : Fin 320) (output : Fin 8) (s : State) : Out' :=
  if hasTile s (nodeTile node.val) then .next (openHop node.val output.val s) else .refused .noSuchUnit

/-- LAT_MAX_READ (R442): both fields, reset in one event. -/
def readLatMax (t : Fin 8) (s : State) : State := reply (rd s (pgNet t) 0x170) (wr s (pgNet t) 0x170 0)

def execLatMaxRead (tile : Fin 8) (s : State) : Out' := atTile s tile (readLatMax tile)

/-! ### Fences (R437 to R440) -/

/-- ROUTER_BUFFER_UE (R437): an uncorrectable error in a buffer of a router or ring stop fences it. -/
def routerBufferUe (x : Node) (s : State) : State :=
  let s := logErr (pgOfNode x) errUe x s
  fenceNode (Fin.ofNat 8 (nodeTile x)) (nodeNo x) causeFault s

/-- Counters that commands of the engines at a ring stop name for a signal (R277, R401). -/
def stopCounters (s : State) (t stop : Nat) : List Nat :=
  match stop with
  | 6 => (streamQ s t).flatMap (fun c => syncOf (streamWords s c))
  | 14 => (List.finRange 32).flatMap (fun n => if dmaState s (Fin.ofNat 8 t) n = dmBusy then dmaSync s (pgDma (Fin.ofNat 8 t) n) else [])
  | 7 | 15 => (s.coll.queue.filter (fun c => decide (c.tile = t) && c.layer.isNone)).flatMap (fun c => syncOf c.words)
  | _ => []

/-- A ring unit whose stop is fenced is unusable: a memory controller there is treated under R360 (R439), and the counters that the commands of an
engine there name become orphaned (R277). -/
def stopUnitLost (x : Node) (s : State) : State :=
  let t := nodeTile x
  if isRouter x then s
  else
    let s := orphans (stopCounters s t (stopNo x)) s
    match stopNo x with
    | 1 => if mcUnusable s t 0 then s else declareUnusable t 0 s
    | 9 => if mcUnusable s t 1 then s else declareUnusable t 1 s
    | 4 => if mcUnusable s t 2 then s else declareUnusable t 2 s
    | _ => s

def execRouterBufferUe (node : Fin 320) (s : State) : Out' :=
  if hasTile s (nodeTile node.val) then .next (stopUnitLost node.val (routerBufferUe node.val s)) else .refused .noSuchUnit

/-- Table bank n. -/
def bankTable (s : State) (n : Nat) : Option SlotTable := if n = 0 then s.net.bank0 else s.net.bank1

def setBankTable (s : State) (n : Nat) (t : Option SlotTable) : State :=
  if n = 0 then { s with net := { s.net with bank0 := t } } else { s with net := { s.net with bank1 := t } }

/-- The active bank (R434). -/
def activeBank (s : State) : Nat := fldA s (pgNet 0) 0x110 0 0
def activeTable (s : State) : Option SlotTable := bankTable s (activeBank s)

/-- ST_STAT and ST_ID follow the banks (R442). -/
def refreshSt (s : State) : State :=
  let standby := bankTable s (1 - activeBank s)
  let active := activeTable s
  let code := fld s (pgNet 0) 0x118 15 8
  let st := if s.net.loading.isSome then 1 else if standby.isSome then 2 else if code ≠ 0 then 3 else 0
  let s := setFld (setFld s (pgNet 0) 0x118 1 0 st) (pgNet 0) 0x118 2 2 (b2n active.isSome)
  let id := fun (t : Option SlotTable) => match t with | some t => t.tableId | none => 0
  wr s (pgNet 0) 0x120 (word (id active + id standby <<< 32))

/-- A slot entry crosses a fenced node or link. -/
def entryCut (s : State) (e : SlotEntry) : Bool := nodeFenced s e.node || (decide (e.outPort ≠ 0) && linkDown s e.node e.outPort)

/-- The rewrite of the active bank (R438): entries of a stream that crosses a fence are cleared, and it runs as DETOUR from then on. -/
def rewriteTable (s : State) : State :=
  match activeTable s with
  | none => s
  | some t =>
    let cut := (t.entries.filter (fun e => entryCut s e && !e.cleared)).map (fun e => e.stream)
    if cut.isEmpty then s
    else
      let t := { t with entries := t.entries.map (fun e => if cut.contains e.stream then { e with cleared := true } else e) }
      let s := setBankTable s (activeBank s) (some t)
      let s := { s with net := { s.net with clearedStreams := cut.foldl (fun l x => setInsert x l) s.net.clearedStreams } }
      setFld s (pgNet 0) 0x118 3 3 1

/-- Nodes that no route reaches from the lowest router that is not fenced: they are treated as fenced (R439). -/
def cutOff (s : State) : List Node :=
  match (allNodes s).find? (fun x => isRouter x && !nodeFenced s x) with
  | none => []
  | some a =>
    let l := spread s 320 [a]
    (allNodes s).filter (fun x => !nodeFenced s x && !l.contains x)

/-- ROUTE_REWRITE (R438): the NET block of tile 0 rewrites the package's routes and tables after a fence. -/
def routeRewrite (s : State) : State :=
  if !s.net.rewriteDue then s
  else
    let lost := cutOff s
    let s := lost.foldl (fun s x => stopUnitLost x (fenceNode (Fin.ofNat 8 (nodeTile x)) (nodeNo x) causeFault s)) s
    let s := rewriteTable s
    let s := addReg s (pgNet 0) 0x160 1
    { s with net := { s.net with rewriteDue := false } }

def execRouteRewrite (s : State) : Out' := .next (routeRewrite s)

/-! ### Bridges (R403, R404, R444) -/

/-- BR_STAT states. -/
def brTraining : Nat := 1
def brActive : Nat := 2
def brDown : Nat := 3

/-- A command at a bridge: a side that faces no tile has no bridge, and nothing happens there. -/
def atBridge (tile : Fin 8) (side : Fin 4) (f : State → State) (s : State) : State :=
  if (facing s tile.val side.val).isSome then f s else s

/-- BRIDGE_FLIT_CRC_FAIL (R403): a flit is replayed over the bridge. -/
def bridgeCrc (tile : Fin 8) (side : Fin 4) (s : State) : State := addReg s (pgBridge tile side) 0x108 1

def execBridgeFlitCrcFail (tile : Fin 8) (side : Fin 4) (s : State) : Out' := atTile s tile (atBridge tile side (bridgeCrc tile side))

/-- BRIDGE_TRAINING_LOST (R404): the bridge retrains. -/
def bridgeLost (tile : Fin 8) (side : Fin 4) (s : State) : State :=
  addReg (setFld s (pgBridge tile side) 0x100 1 0 brTraining) (pgBridge tile side) 0x120 1

def execBridgeTrainingLost (tile : Fin 8) (side : Fin 4) (s : State) : Out' := atTile s tile (atBridge tile side (bridgeLost tile side))

/-- BRIDGE_RETRAINED (R403, R444): the bridge is ACTIVE, with lanes repaired. An edge that was DOWN stays fenced (R440). -/
def bridgeRetrained (tile : Fin 8) (side : Fin 4) (modules lanes : Nat) (s : State) : State :=
  if s.net.downEdges.contains (4 * tile.val + side.val) then s
  else
    let s := setFld s (pgBridge tile side) 0x100 1 0 brActive
    setFld (setFld s (pgBridge tile side) 0x100 11 8 modules) (pgBridge tile side) 0x100 27 16 lanes

def execBridgeRetrained (tile : Fin 8) (side : Fin 4) (modules : Fin 16) (lanes : Fin 4096) (s : State) : Out' :=
  atTile s tile (atBridge tile side (bridgeRetrained tile side modules.val lanes.val))

/-- INFO of a FENCE fault for a bridge edge (R707). -/
def edgeFenceInfo (s : State) (tile side : Nat) : Nat := unitFenceInfo s tile 0 side 3 causeFault

/-- BRIDGE_DOWN (R404, R437): the edge's crossing links are fenced, on both tiles' sides; a D2 is lost to its job. -/
def bridgeDown (tile : Fin 8) (side : Fin 4) (s : State) : State :=
  match facing s tile.val side.val with
  | none => s
  | some u =>
    if s.net.downEdges.contains (4 * tile.val + side.val) then s
    else
      let other := 4 * u + backSide side.val
      let s := setFld s (pgBridge tile side) 0x100 1 0 brDown
      let s := setFld s (pgBridge (Fin.ofNat 8 u) (Fin.ofNat 4 (backSide side.val))) 0x100 1 0 brDown
      let s := { s with net := { s.net with
        downEdges := setInsert other (setInsert (4 * tile.val + side.val) s.net.downEdges), rewriteDue := true } }
      let info := edgeFenceInfo s tile.val side.val
      let s := traceFence tile.val (info % 2 ^ 24) 3 causeFault s
      let s := if s.part = .d2 then fault 25 0 s else s
      if stepRunning s then fault 1 info s else s

def execBridgeDown (tile : Fin 8) (side : Fin 4) (s : State) : Out' := atTile s tile (bridgeDown tile side)

/-! ### Slot tables (R429 to R433) -/

/-- A word of an image. -/
def imWord (s : State) (a off : Nat) : Word := rd64 s (a + off)

/-- Part of an image can be read. -/
def imOk (s : State) (a off n : Nat) : Bool := rangeMemory s (a + off) n && (poisonIn s false (a + off) n).isNone

/-- Reserved bits of the header (R429). -/
def headerReserved (s : State) (a : Nat) : Bool :=
  ([bm 63 24, bm 63 32, bm 63 48, bm 63 17 + bm 15 13, 0, bm 63 13, all64, all64].zip (List.range 8)).any
    (fun e => decide (imWord s a (8 * e.2) &&& word e.1 ≠ 0))

/-- A refusal of a load: code and node. -/
abbrev StRefuse := Nat × Nat

/-- Entries of a node (R430, R431). -/
def nodeEntries (s : State) (a dir : Nat) (x : Node) : List Word :=
  let w := imWord s a (dir + 8 * x)
  (List.range (w.bits 44 32)).map (fun i => imWord s a (w.bits 31 0 + 8 * i))

/-- A slot entry from its word. -/
def slotEntry (x : Node) (w : Word) : SlotEntry :=
  { node := x, slot := w.bits 11 0, inPort := w.bits 14 12, outPort := w.bits 17 15, count := w.bits 28 18, stream := w.bits 40 29 }

/-- A stream descriptor from its words. -/
def streamDesc (s : State) (a off : Nat) : StreamDesc :=
  { src := (imWord s a off).bits 47 0, dst := (imWord s a (off + 8)).bits 47 0, bytes := (imWord s a (off + 16)).bits 39 0,
    sync := (imWord s a (off + 24)).bits 18 0, syncEn := (imWord s a (off + 24)).bit 19 }

/-- A stream descriptor breaks R424. -/
def streamDescBad (s : State) (a off : Nat) : Bool :=
  decide (imWord s a off &&& word (bm 63 48) ≠ 0) || decide (imWord s a (off + 8) &&& word (bm 63 48) ≠ 0)
  || decide (imWord s a (off + 16) &&& word (bm 63 40) ≠ 0) || decide (imWord s a (off + 24) &&& word (bm 63 20) ≠ 0)
  || decide ((imWord s a (off + 16)).bits 39 0 % 512 ≠ 0)

/-- The node is a peer attachment. -/
def isAttachment (s : State) (x : Node) : Bool := (List.range 6).any (fun p => decide (portNode s p = x))

/-- A node may inject and eject streams (R427). -/
def mayEject (s : State) (x : Node) : Bool :=
  isRouter x || decide (stopNo x = 1) || decide (stopNo x = 9) || decide (stopNo x = 6) || isAttachment s x

/-- The node's own engine supplies and takes the flits. -/
def engineNode (s : State) (x : Node) : Bool := !isRouter x && (decide (stopNo x = 6) || isAttachment s x)

/-- An address range lies in the memory of a node (R427). -/
def rangeAtNode (s : State) (x : Node) (a n : Nat) : Bool :=
  (bushelsOf (addr48 a) n).all (fun b => match mfind s.mem.bushels b with
    | some b =>
      if isRouter x then decide (b.tier = 0) && decide (b.tile = nodeTile x) && decide (b.cluster = nodeNo x)
      else decide (b.tier = 1) && decide (b.tile = nodeTile x) && decide (b.stack % 2 = (if stopNo x = 1 then 0 else 1))
    | none => false)

/-- The port of an entry exists at its node. -/
def portOk (s : State) (x : Node) (p : Nat) : Bool := if p = 0 then mayEject s x else (neighbour s x p).isSome

/-- The entry at an output has its successor (R432 CHAIN). -/
def nextOk (s : State) (period : Nat) (rep : Bool) (es : List SlotEntry) (e : SlotEntry) : Bool :=
  decide (e.outPort = 0) || (match neighbour s e.node e.outPort with
    | some (y, i) => (rep || decide (e.slot + 1 < period)) && es.any (fun f => decide (f.node = y) && decide (f.inPort = i)
        && decide (f.slot = (e.slot + 1) % period) && decide (f.stream = e.stream) && decide (f.count = e.count))
    | none => false)

/-- The entry at an input has its predecessor. -/
def prevOk (s : State) (period : Nat) (rep : Bool) (es : List SlotEntry) (e : SlotEntry) : Bool :=
  decide (e.inPort = 0) || es.any (fun f => decide (f.outPort ≠ 0) && decide (neighbour s f.node f.outPort = some (e.node, e.inPort))
    && decide ((f.slot + 1) % period = e.slot) && (rep || decide (f.slot < e.slot)) && decide (f.stream = e.stream)
    && decide (f.count = e.count))

/-- Sum of the counts at one output or input of a node in one slot. -/
def portSum (es : List SlotEntry) (f : SlotEntry → Bool) : Nat := ((es.filter f).map (fun e => e.count)).sum

/-- CAPACITY of R432 fails at an entry's output or input. -/
def overCapacity (work : Nat) (es : List SlotEntry) (e : SlotEntry) : Bool :=
  let here := fun (f : SlotEntry) => decide (f.node = e.node) && decide (f.slot = e.slot)
  let o := portSum es (fun f => here f && decide (f.outPort = e.outPort))
  let i := portSum es (fun f => here f && decide (f.inPort = e.inPort))
  decide (min work 512 < o) || decide (min work 512 < i)

/-- NODE of R432. -/
def nodeBad (s : State) (x : Node) : Bool :=
  nodeFenced s x || (!isRouter x && ((decide (stopNo x = 1) && mcUnusable s (nodeTile x) 0)
    || (decide (stopNo x = 9) && mcUnusable s (nodeTile x) 1)))

/-- STREAM of R432, for an entry. -/
def streamBadAt (s : State) (ds : List StreamDesc) (e : SlotEntry) : Bool :=
  match ds[e.stream]? with
  | none => true
  | some d =>
    (decide (e.inPort = 0) && !engineNode s e.node && !rangeAtNode s e.node d.src d.bytes)
    || (decide (e.outPort = 0) && !engineNode s e.node && !rangeAtNode s e.node d.dst d.bytes)

/-- Slots of a list rise. -/
def slotsRise : List Word → Bool
  | [] => true
  | [_] => true
  | a :: b :: l => decide (a.bits 11 0 ≤ b.bits 11 0) && slotsRise (b :: l)

/-- The first entry that a test selects, as a refusal. -/
def refuseAt (code : Nat) (es : List SlotEntry) (f : SlotEntry → Bool) : Option StRefuse := (es.find? f).map (fun e => (code, e.node))

/-- The table of an image, or its refusal (R432), tested in the order: addresses and formats, slot length, then node by node. -/
def readTable (s : State) (a : Nat) : Except StRefuse SlotTable :=
  if !imOk s a 0 64 then .error (9, 0)
  else
    let len := (imWord s a 16).bits 15 0
    let work := (imWord s a 16).bits 31 16
    let guard_ := (imWord s a 16).bits 47 32
    let period := (imWord s a 24).bits 12 0
    let rep := (imWord s a 24).bit 16
    let dir := (imWord s a 32).bits 31 0
    let sof := (imWord s a 32).bits 63 32
    let n := (imWord s a 40).bits 12 0
    if (imWord s a 0).bits 15 0 ≠ 1 || decide ((imWord s a 0).bits 23 16 ≠ s.part.tiles) || headerReserved s a
      || decide (period = 0) || decide (4096 < period) || decide (4096 < n) then .error (1, 0)
    else if decide (len ≠ slotLen s) || decide (work ≠ fldA s pgBeacon 0x128 31 16) || decide (guard_ ≠ fldA s pgBeacon 0x128 47 32) then
      .error (2, 0)
    else if !imOk s a dir (320 * s.part.tiles) || !imOk s a sof (32 * n) then .error (9, 0)
    else
      let dirs := (allNodes s).map (fun x => (x, imWord s a (dir + 8 * x)))
      match dirs.find? (fun e => decide (e.2.bits 31 0 % 8 ≠ 0) || decide (4096 < e.2.bits 44 32) || decide (e.2.bits 63 45 ≠ 0)) with
      | some e => .error (1, e.1)
      | none =>
        match dirs.find? (fun e => !imOk s a (e.2.bits 31 0) (8 * e.2.bits 44 32)) with
        | some e => .error (9, e.1)
        | none =>
          let ws := (allNodes s).map (fun x => (x, nodeEntries s a dir x))
          let es := ws.flatMap (fun e => e.2.map (slotEntry e.1))
          let ds := (List.range n).map (fun i => streamDesc s a (sof + 32 * i))
          let bad := (ws.find? (fun e => e.2.any (fun w => decide (w.bits 63 41 ≠ 0) || decide (w.bits 28 18 = 0) || decide (512 < w.bits 28 18)
              || decide (period ≤ w.bits 11 0)))).map (fun e => (1, e.1))
          let order := (ws.find? (fun e => !slotsRise e.2)).map (fun e => (3, e.1))
          let checks : List (Option StRefuse) :=
            [ bad, order,
              refuseAt 6 es (fun e => !portOk s e.node e.inPort || !portOk s e.node e.outPort),
              refuseAt 7 es (fun e => nodeBad s e.node),
              refuseAt 4 es (fun e => !nextOk s period rep es e || !prevOk s period rep es e),
              refuseAt 5 es (overCapacity work es),
              ((List.range n).find? (fun i => streamDescBad s a (sof + 32 * i))).map (fun _ => (8, 0)),
              refuseAt 8 es (streamBadAt s ds) ]
          match checks.findSome? id with
          | some r => .error r
          | none => .ok { tableId := (imWord s a 8).bits 31 0, len := len, work := work, guard := guard_, period := period, rep := rep,
                          entries := es, streams := ds }

/-- ST_LOAD (R433, R441): a write of 1 on tile 0 starts a load of the standby bank; the bank is empty until the load ends. -/
def stLoad (t : Fin 8) (value : Word) (s : State) : State :=
  if t.val ≠ 0 then logErr (pgNet t) errTile0 0x108 s
  else
    let s := reservedWrite (pgNet 0) 0x108 (bm 0 0) value s
    if !value.bit 0 then s
    else if s.net.loading.isSome then logErr (pgNet 0) errState 0x108 s
    else
      let s := setBankTable s (1 - activeBank s) none
      let s := { s with net := { s.net with loading := some (fld s (pgNet 0) 0x100 47 6 * 64) } }
      refreshSt (setFld s (pgNet 0) 0x118 27 8 0)

def execStLoad (tile : Fin 8) (value : Word) (s : State) : Out' := atTile s tile (stLoad tile value)

/-- ST_LOAD_DONE (R432, R433): the load ends; all checks are made before any entry is written. -/
def stLoadDone (s : State) : State :=
  match s.net.loading with
  | none => s
  | some a =>
    let s := { s with net := { s.net with loading := none } }
    match readTable s a with
    | .ok t => refreshSt (setBankTable s (1 - activeBank s) (some t))
    | .error (code, x) => refreshSt (logErr (pgNet 0) errCommand code (setFld s (pgNet 0) 0x118 27 8 (code + x <<< 8)))

def execStLoadDone (s : State) : Out' := .next (stLoadDone s)

/-! ### Timeouts (R413) -/

/-- A timeout is a fault of a RUNNING step. -/
def netTimeout (s : State) : State := if stepRunning s then fault 10 0 s else s

/-- A core's oldest request to another home gets an error response: cause 5 or 7, with a free mtval. -/
def coreTimeout (k : CoreRef) (store : Bool) (s : State) : State :=
  let c := coreOf s k
  let drop := (c.requests.filter (fun r => r.bank.isNone)).head?
  let s := setCore s k { c with requests := c.requests.filter (fun r => decide (some r ≠ drop)) }
  let s := netTimeout s
  if coreRunning s k then
    takeTrap k (if store then 7 else 5) (Config.freeWord s.free) 0 0 { s with free := s.free + 1 }
  else s

/-- REQUEST_TIMEOUT (R413). -/
def requestTimeout (who : Sender) (s : State) : State :=
  match who with
  | .core k store => coreTimeout k store s
  | .host => replyData (List.replicate 64 0xFF) true (addReg (netTimeout s) pgHostif 0x1D0 1)
  | .rowEngine cl =>
    match (cluster s cl).reQueue with
    | [] => s
    | (desc, att, _) :: _ => netTimeout (reComplete cl desc att (reCmd (descWords s desc)) 5 s)
  | .stream t =>
    match streamQ s t.val with
    | [] => s
    | c :: _ => if c.move.isSome then s else netTimeout (streamComplete t c (streamWords s c) stEcc s)
  | .dma t n => if dmaState s t n = dmBusy then netTimeout (dmaFail t n deEcc s) else s
  | .collective i =>
    match s.coll.queue[i]? with
    | some c => if c.executing && c.result.isNone then netTimeout (giveStatus (fun d => decide (d = c)) 0x05 s) else s
    | none => s

/-- Tile of a sender. -/
def senderTile : Sender → Nat
  | .core k _ => k.tile.val
  | .host => 0
  | .rowEngine cl => cl.tile.val
  | .stream t => t.val
  | .dma t _ => t.val
  | .collective _ => 0

def execRequestTimeout (who : Sender) (s : State) : Out' :=
  if hasTile s (senderTile who) then .next (requestTimeout who s) else .refused .noSuchUnit

end Sys2Proof.Machine
end

