-- ==== Sys2Proof/Machine/Peer.lean ====
section
/-! DEFINITION. Events at the peer ports (R445 to R469): flits received, training and identification, loss, credits, and transit packets. -/

namespace Sys2Proof.Machine

/-! ### Flits (R450 to R452) -/

/-- WELUR_FLIT_RECEIVE (R451): an intact flit whose SEQ follows is accepted; any other is discarded and NAK is due. The trailer of an intact flit
acknowledges flits or asks for a replay. -/
def flitReceive (n : Nat) (f : WelurFlit) (s : State) : State :=
  if linkOf s n ≠ lkActive then s
  else
    let s := addReg (addReg s (pgPort n) 0x120 f.corrected) (pgPort n) 0x128 f.uncorrectable
    let intact := decide (f.uncorrectable = 0) && f.crcOk
    let x := port s n
    let accept := intact && decide (f.seq.toNat = (x.rxSeq + 1) % 2 ^ 15)
    let s := setPort s n (if accept then { x with rxSeq := f.seq.toNat, waitReplay := false } else { x with waitReplay := true })
    if intact then
      let s := acknowledge n f.ack.toNat s
      drainPort n (if f.nak then replay n s else s)
    else s

def execWelurFlitReceive (port : Fin 6) (flit : WelurFlit) (s : State) : Out' := .next (flitReceive port.val flit s)

/-- REPLAY_TIMEOUT (R451): 4 BT µs without a new ACK. -/
def replayTimeout (n : Nat) (s : State) : State :=
  if linkOf s n = lkActive && !(port s n).retry.isEmpty && decide ((port s n).ackSince + 4000 ≤ s.now) then replay n s else s

def execReplayTimeout (port : Fin 6) (s : State) : Out' := .next (replayTimeout port.val s)

/-- PEER_CREDIT (R453): a CREDIT packet returns credits, 16 bits per VC. -/
def creditReturn (n : Nat) (w : Word) (s : State) : State :=
  if linkOf s n ≠ lkActive then s
  else
    let x := port s n
    drainPort n (setPort s n { x with
      credits := (List.range 4).map (fun v => min vcWords (x.credits.getD v 0 + w.bits (16 * v + 15) (16 * v))) })

def execPeerCredit (port : Fin 6) (credits : Word) (s : State) : Out' := .next (creditReturn port.val credits s)

/-! ### Training (R462 to R466) -/

/-- A port may leave DISABLED: bring-up has come to the PEER stage (R641), the module's coordinate is valid (R20, R629), the port's axis has more than
one module and DISABLE is 0 (R457, R462). -/
def portAllowed (s : State) (n : Nat) : Bool :=
  decide (6 ≤ bootStage s) && (rd s pgIdent 0x140).bit 24 && decide (1 < axisSize s (n / 2)) && !(rdA s (pgPort n) 0x100).bit 0

/-- A port starts to look for its neighbour. -/
def enterDetect (n : Nat) (s : State) : State :=
  let s := setPort s n { port s n with since := s.now, retraining := false }
  setFld (setLink s n lkDetect) (pgPort n) 0x110 7 4 0

/-- The settings of a port take effect: a port that may not run is DISABLED, a DISABLED port that may run starts in DETECT. A DOWN port stays DOWN
(R464). -/
def applyPort (s : State) (n : Nat) : State :=
  if linkOf s n = lkDown then s
  else if !portAllowed s n then (if linkOf s n = lkDisabled then setFld s (pgPort n) 0x110 7 4 1 else dropLink n lkDisabled 1 s)
  else if linkOf s n = lkDisabled then enterDetect n s
  else setLink s n (linkOf s n)

/-- PORT_SIGNAL_DETECT (R462): a signal on every lane. -/
def signalDetect (n : Nat) (s : State) : State := if linkOf s n = lkDetect then setLink s n lkTrain else s

def execPortSignalDetect (port : Fin 6) (s : State) : Out' := .next (signalDetect port.val s)

/-- LINK_TRAIN_COMPLETE (R462): the lanes are trained, or the flits are aligned. A port in RETRAIN re-enters training. -/
def trainComplete (n : Nat) (r : TrainResult) (s : State) : State :=
  match r with
  | .trained margins =>
    if linkOf s n = lkTrain || linkOf s n = lkRetrain then wr (setFld (setLink s n lkAlign) (pgPort n) 0x110 15 8 0xFF) (pgPort n) 0x160 margins else s
  | .aligned => if linkOf s n = lkAlign then setLink s n lkIdentify else s

def execLinkTrainComplete (port : Fin 6) (result : TrainResult) (s : State) : Out' := .next (trainComplete port.val result s)

/-- Cause of a failed identification: 0 if it succeeds (R463). -/
def identifyCause (s : State) (n : Nat) (i : NeighbourInfo) : Nat :=
  let a := n / 2
  let size := axisSize s a
  let want := withCoord (ownCoord s) a ((coordOn (ownCoord s) a + (if n % 2 = 0 then 1 else size - 1)) % size)
  let torus := rdA s pgColl 0x130
  if i.port.val ≠ backSide n || decide (i.coord.toNat ≠ want) then 4
  else if i.torus.toNat / 2 ^ 12 % 2 ^ 24 ≠ torus.toNat / 2 ^ 12 % 2 ^ 24 then 5
  else 0

/-- LINK_IDENTIFY (R463, R497). -/
def identify (n : Nat) (i : NeighbourInfo) (s : State) : State :=
  if linkOf s n ≠ lkIdentify then s
  else
    match identifyCause s n i with
    | 0 => enterActive n (wr s (pgPort n) 0x118 (word (i.coord.toNat + i.port.val <<< 12 + 1 <<< 15)))
    | cause => dropLink n lkDown cause s

def execLinkIdentify (port : Fin 6) (info : NeighbourInfo) (s : State) : Out' := .next (identify port.val info s)

/-- LINK_TRAIN_TIMEOUT (R464): 200 BT ms from DETECT, or 100 BT ms from RETRAIN, without ACTIVE. -/
def trainTimeout (n : Nat) (s : State) : State :=
  let st := linkOf s n
  if st = lkDisabled || st = lkActive || st = lkDown then s
  else if s.now < (port s n).since + (if (port s n).retraining then 100000000 else 200000000) then s
  else dropLink n lkDown (if (port s n).retraining then 6 else 3) s

def execLinkTrainTimeout (port : Fin 6) (s : State) : Out' := .next (trainTimeout port.val s)

/-- PEER_LINK_LOST (R466): the port leaves ACTIVE and retrains. -/
def peerLost (n : Nat) (s : State) : State := if linkOf s n = lkActive then enterRetrain n s else s

def execPeerLinkLost (port : Fin 6) (s : State) : Out' := .next (peerLost port.val s)

/-- LINK_CMD_RETRAIN (R457, R464, R496): a write of 1 starts RETRAIN in ACTIVE, and from DOWN; a DOWN port that may not run goes DISABLED. -/
def linkCmd (n : Nat) (value : Word) (s : State) : State :=
  let s := reservedWrite (pgPort n) 0x108 1 value s
  if value.bit 0 && (linkOf s n = lkActive || linkOf s n = lkDown) then
    let down := decide (linkOf s n = lkDown)
    if down && !portAllowed s n then dropLink n lkDisabled 1 s
    else
    let s := setFld (enterRetrain n s) (pgPort n) 0x110 7 4 0
    if down then setPort s n { port s n with
      rxSeq := 2 ^ 15 - 1, waitReplay := false, txSeq := 0, credits := [vcWords, vcWords, vcWords, vcWords] } else s
  else s

def execLinkCmdRetrain (port : Fin 6) (value : Word) (s : State) : Out' := .next (linkCmd port.val value s)

/-! ### Transit (R447, R455, R458 to R460) -/

/-- Credits of a packet's words return to the neighbour (R453). -/
def returnCredit (n : Nat) (p : PeerPacket) (s : State) : State :=
  let v := p.vc.val
  let w := packetWords p * 2 ^ (16 * (v % 2))
  sendPeer n
    { kind := 1, vc := 2, prio := true, dst := BitVec.ofNat 12 (fld s (pgPort n) 0x118 11 0), src := BitVec.ofNat 12 (ownCoord s),
      hops := 1, age := BitVec.ofNat 16 (netStamp s), group := 0, gen := 0, epoch := 0, mode := 0
      launch := if v < 2 then BitVec.ofNat 32 w else 0, seq := if v < 2 then 0 else BitVec.ofNat 32 w
      addr := 0, ctr := 0, ctrEn := false, inc := 0, expert := 0, token := 0, k := 0, data := [] } s

/-- A packet has expired by this module's own Beacon copy (R460, R412). -/
def peerExpired (s : State) (p : PeerPacket) : Bool := decide (31999 ≤ stampAge s p.age.toNat)

/-- A packet for another module leaves on its port, across the package if the ports have different attachments (R447). It keeps its age there, so
that R460 holds for its whole way. -/
def transit (n : Nat) (p : PeerPacket) (s : State) : State :=
  match routePort s p.dst.toNat with
  | none => s
  | some (o, d) =>
    let q := onPort s (some n) p o
    let s := countDetour o d s
    if portNode s n = portNode s o then
      event (pgPort o) 0x101 1 (addReg (sendPeer o q s) (pgPort o) 0x140 1)
    else
      { s with net := { s.net with packets := s.net.packets ++
          [{ kind := .transit, src := portNode s n, dst := portNode s o, vc := 2, high := true, age := p.age.toNat
             flits := (packetWords p * 64 + 511) / 512, progress := 0
             node := portNode s n, port := 0, peer := some (o, q) }] } }

/-! ### Slot overruns (R49, R422, R468) -/

/-- Flits of 512 bytes that a SLOTTED packet carries (R468). -/
def slottedFlits (p : PeerPacket) : Nat := max 1 ((p.data.length + 511) / 512)

/-- Flits for a node miss their slot: they are dropped and counted, a fault of the step. -/
def overrun (x : Node) (n : Nat) (s : State) : State :=
  let s := addReg s (pgOfNode x) 0x148 n
  if stepRunning s then fault 2 x s else s

end Sys2Proof.Machine
end

