-- ==== Sys2Proof/Machine/Coll.lean ====
section
/-! DEFINITION. Collective groups (R470 to R475), the collective engine's queue and commands (R476 to R485), gathers with shard tags (R234 to R236,
R482), and layout epochs (R492 to R494). The contents of COLL and SLOTTED packets beside the header's fields are the model's own (log entry 24). -/

namespace Sys2Proof.Machine

/-! ### Groups -/

/-- A live entry of the group table (R470). -/
def groupOf (s : State) (id : Nat) : Option Group := (mfind s.coll.groups id).bind (fun g => if g.quarantine.isNone then some g else none)

def gAxis (w : Word) : Nat := w.bits 21 20
def gRole (w : Word) : Nat := w.bits 22 22
def gFirst (w : Word) : Nat := w.bits 27 24
def gStride (w : Word) : Nat := w.bits 31 28
def gCount (w : Word) : Nat := w.bits 36 32

/-- Member count N of a group (R471, R478). -/
def members (s : State) (w : Word) : Nat :=
  if gAxis w = 3 then axisSize s 0 * axisSize s 1 * axisSize s 2 else gCount w

/-- Coordinate of member i (R471). -/
def memberCoord (s : State) (w : Word) (i : Nat) : Nat :=
  if gAxis w = 3 then
    withCoord (withCoord (withCoord 0 0 (i % axisSize s 0)) 1 (i / axisSize s 0 % axisSize s 1)) 2 (i / (axisSize s 0 * axisSize s 1))
  else withCoord (ownCoord s) (gAxis w) ((gFirst w + i * gStride w) % axisSize s (gAxis w))

/-- Member index of a coordinate, if it is a member's. -/
def memberIndex (s : State) (w : Word) (coord : Nat) : Option Nat :=
  if gAxis w = 3 then
    if coordOn coord 0 < axisSize s 0 && decide (coordOn coord 1 < axisSize s 1) && decide (coordOn coord 2 < axisSize s 2) then
      some (coordOn coord 0 + axisSize s 0 * (coordOn coord 1 + axisSize s 1 * coordOn coord 2))
    else none
  else (List.range (gCount w)).find? (fun i => decide (memberCoord s w i = coord))

/-- Results of GROUP_CMD (R499). -/
def grOk : Nat := 1
def grTableFull : Nat := 2
def grIdBusy : Nat := 3
def grBad : Nat := 4
def grInUse : Nat := 5
def grNotLive : Nat := 6

/-- Entries of the group table. -/
def groupEntries : Nat := 4096

/-- GROUP_USE follows the table (R499). -/
def refreshGroups (s : State) : State :=
  let q := (s.coll.groups.filter (fun e => e.2.quarantine.isSome)).length
  let n := s.coll.groups.length
  let s := setFld (setFld s pgColl 0x128 12 0 (n - q)) pgColl 0x128 28 16 q
  if fld s pgColl 0x128 44 32 < n then setFld s pgColl 0x128 44 32 n else s

/-- The command's result (R470). -/
def groupResult (r : Nat) (s : State) : State := refreshGroups (setFld s pgColl 0x120 3 0 r)

/-- A definition is refused as BAD_GROUP (R472). -/
def badGroup (s : State) (w : Word) : Bool :=
  let size := axisSize s (gAxis w)
  let isMember := (memberIndex s w (ownCoord s)).isSome
  (if gAxis w = 3 then decide (gFirst w ≠ 0) || decide (gStride w ≠ 0) || decide (gCount w ≠ 0)
   else decide (gStride w = 0) || decide (gCount w = 0) || decide (size ≤ gFirst w) || decide (size / Nat.gcd (gStride w) size < gCount w))
  || (if gRole w = 0 then !isMember else isMember || decide (gAxis w = 3))
  || decide (mfind s.coll.retiredGen (w.bits 11 0) = some (w.bits 19 12))

/-- CREATE of the group that GROUP_DEF defines (R472): its numbering starts at 0. -/
def createGroup (s : State) : State :=
  let w := rd s pgColl 0x110
  let id := w.bits 11 0
  if groupEntries ≤ s.coll.groups.length then groupResult grTableFull s
  else if (mfind s.coll.groups id).isSome then groupResult grIdBusy s
  else if badGroup s w then groupResult grBad s
  else groupResult grOk { s with coll := { s.coll with
    groups := minsert id ⟨w.bits 19 12, w, none⟩ s.coll.groups, numbers := merase id s.coll.numbers
    passed := s.coll.passed.filter (fun e => decide (e.1 ≠ id))
    received := s.coll.received.filter (fun p => decide (p.group.toNat ≠ id)) } }

/-- A command names a group: PUT ignores the group fields (R478). -/
def names (id : Nat) (c : CollCmd) : Bool := decide (cw c.words 0 3 0 ≠ 7) && decide (cw c.words 0 23 12 = id)

/-- RETIRE of the ID and generation that GROUP_DEF holds (R474). -/
def retireGroup (s : State) : State :=
  let w := rd s pgColl 0x110
  let id := w.bits 11 0
  if s.coll.queue.any (names id) then groupResult grInUse s
  else
    match groupOf s id with
    | some g =>
      if g.gen = w.bits 19 12 then groupResult grOk { s with coll := { s.coll with
        groups := minsert id { g with quarantine := some (s.now + 256000) } s.coll.groups
        retiredGen := minsert id g.gen s.coll.retiredGen } }
      else groupResult grNotLive s
    | none => groupResult grNotLive s

/-- A write of GROUP_CMD (R470, R499). -/
def groupCmd (value : Word) (s : State) : State :=
  let s := reservedWrite pgColl 0x118 (bm 1 0) value s
  if value.bits 1 0 = 1 then createGroup s
  else if value.bits 1 0 = 2 then retireGroup s
  else logErr pgColl errCommand 0x118 s

def execGroupCreate (value : Word) (s : State) : Out' := .next (groupCmd value s)
def execGroupRetire (value : Word) (s : State) : Out' := .next (groupCmd value s)

/-- GROUP_QUARANTINE_EXPIRY (R474): a quarantined entry becomes free once its time has come. -/
def groupExpiry (id : Nat) (s : State) : State :=
  match mfind s.coll.groups id with
  | some g =>
    match g.quarantine with
    | some t => if t ≤ s.now then refreshGroups { s with coll := { s.coll with groups := merase id s.coll.groups } } else s
    | none => s
  | none => s

def execGroupQuarantineExpiry (id : BitVec 12) (s : State) : Out' := .next (groupExpiry id.toNat s)

/-! ### Submission (R476, R477, R492) -/

/-- Fields of a descriptor (R477). -/
def coDtype (ws : List Word) : Nat := cw ws 0 7 4
def coMode (ws : List Word) : Nat := cw ws 0 9 8
/-- MODE as it acts (R480): a gather takes place in every mode (R231). -/
def coActs (ws : List Word) : Nat := if coOp ws = 6 then 0 else coMode ws
def coSlotted (ws : List Word) : Bool := decide (cw ws 0 10 10 = 1)
def coGroup (ws : List Word) : Nat := cw ws 0 23 12
def coGen (ws : List Word) : Nat := cw ws 0 31 24
def coRoot (ws : List Word) : Nat := cw ws 6 63 56 * 16 + cw ws 0 51 48
def coSrc (ws : List Word) : Nat := cw ws 1 47 0
def coDst (ws : List Word) : Nat := cw ws 2 47 0
def coAux (ws : List Word) : Nat := cw ws 5 47 0
def coCount (ws : List Word) : Nat := cw ws 6 23 0
def coTopk (ws : List Word) : Nat := cw ws 6 27 24

/-- Status codes (R483). -/
def csDone : Nat := 0x01
def csBadDesc : Nat := 0x02
def csGroup : Nat := 0x03
def csUnmapped : Nat := 0x04
def csEcc : Nat := 0x05
def csCommitted : Nat := 0x06
def csMismatch : Nat := 0x08
def csTrainMode : Nat := 0x09
def csShardChanged : Nat := 0x0A
def csShardCorrupt : Nat := 0x0B
def csEpoch : Nat := 0x0C
def csAborted : Nat := 0x0E

/-- Present and next epoch (R492). -/
def curEpoch (s : State) : Nat := fld s pgColl 0x150 15 0
def nextEpoch (s : State) : Option Nat := if (rd s pgColl 0x140).bit 16 then some (fld s pgColl 0x140 15 0) else none

/-- Reserved bits of a descriptor (R477). -/
def coReserved (ws : List Word) : Bool :=
  ([bm 11 11, bm 63 48, bm 63 48, bm 63 40, bm 31 20, bm 63 48, bm 31 28 + bm 55 52, bm 31 8].zip ws).any
    (fun e => decide (e.2 &&& word e.1 ≠ 0))

/-- The operation reduces (R478). -/
def reduces (op : Nat) : Bool := decide (op = 2) || decide (op = 3)

/-- A descriptor is BAD_DESC for its own words (R483). A misaligned descriptor and MODE 3 count as reserved bits (log entry 25). -/
def badDesc (a : Option Nat) (ws : List Word) : Bool :=
  (match a with | some x => decide (x % 64 ≠ 0) | none => false)
  || decide (coOp ws = 0) || decide (10 ≤ coOp ws) || coReserved ws || decide (3 ≤ coDtype ws) || decide (coMode ws = 3)
  || (reduces (coOp ws) && decide (coDtype ws = 2)) || decide (coBytes ws % 64 ≠ 0)

/-- Key of a command's numbering: its group, or 4,096 for PUT. -/
def numberKey (ws : List Word) : Nat := if coOp ws = 7 then 4096 else coGroup ws

/-- Tile of the attachment that serves a group's direction (R446, R473): the positive port of its axis, P0 without one. -/
def groupTile (s : State) (ws : List Word) : Nat :=
  let a := match groupOf s (coGroup ws) with | some g => if gAxis g.defn = 3 then 0 else gAxis g.defn | none => 0
  ((portSites s.part).getD (2 * a) (0, 7)).1

/-- The status with which a command ends without running, if its descriptor or MODE settles that: PASS completes as DONE (R480). -/
def earlyStatus (s : State) (a : Option Nat) (ws : List Word) : Option Nat :=
  match a with
  | some x =>
    if !rangeMemory s x 64 then some csUnmapped
    else if (poisonIn s false x 64).isSome then some csEcc
    else if badDesc a ws then some csBadDesc else if coActs ws = 2 then some csDone else none
  | none => if badDesc a ws then some csBadDesc else if coActs ws = 2 then some csDone else none

/-- The engine reads a command's descriptor; one that is poisoned counts at its home (R358). -/
def readCollDesc (desc : Option Nat) (s : State) : State :=
  match desc.bind (fun a => if rangeMemory s a 64 then poisonIn s false a 64 else none) with
  | some line => countPoison line s
  | none => s

/-- A command enters the queue (R476, R478, R492). One tagged with neither the present nor an enabled next epoch ends at once with EPOCH. -/
def collEnter (desc : Option Nat) (ws : List Word) (att : Option Nat) (who : Word) (layer : Option (Nat × Nat)) (s : State) : State :=
  let e := if cw ws 0 47 32 = 0xFFFF then curEpoch s else cw ws 0 47 32
  let key := numberKey ws
  let n := mget 0 s.coll.numbers key
  let held := decide (e ≠ curEpoch s) && decide (nextEpoch s = some e)
  let c : CollCmd := { desc := desc, words := ws, epoch := e, held := held, executing := false, number := n, launch := s.now, att := att,
                       who := who, layer := layer, result := earlyStatus s desc ws, tile := groupTile s ws }
  let s := { s with coll := { s.coll with
    queue := s.coll.queue ++ [c], numbers := mset 0 s.coll.numbers key (n + 1)
    puts := if coOp ws = 7 && who.bits 3 0 = 1 then
        mset 0 s.coll.puts (coreIdx (whoCore who)) (mget 0 s.coll.puts (coreIdx (whoCore who)) + 1) else s.coll.puts } }
  let s := readCollDesc desc (collCount s)
  if e ≠ curEpoch s && !held then run [.collDone c csEpoch] s else s

/-- Entries of the queue. -/
def collDepth : Nat := 64

/-- A submission is accepted: the descriptor is read. -/
def collAccept (r : Requester) (value : Word) (s : State) : State :=
  let s := reservedWrite pgColl 0x100 (bm 47 0) value s
  collEnter (some (value.bits 47 0)) (descWords s (value.bits 47 0)) (reqAtt s r) (reqWho s r) none s

/-- A store of a core to SUBMIT waits while the queue is full. -/
def collStore (k : CoreRef) (value : Word) (s : State) : StoreRes :=
  if collDepth ≤ s.coll.queue.length then .done (holdStore k pgColl 0x100 value s)
  else .done (collAccept (.core k) value s)

/-- COLL_SUBMIT (R476). -/
def collSubmit (r : Requester) (value : Word) (s : State) : State :=
  match r with
  | .core k => settle k (regAddr pgColl 0x100) s (collStore k value s)
  | _ =>
    if collDepth ≤ s.coll.queue.length then logErr pgColl errFull 0x100 (setFld s pgColl 0x108 8 8 1)
    else collAccept r value s

def execCollSubmit (r : Requester) (value : Word) (s : State) : Out' := byReq s r (collSubmit r value)

/-- COLL_STAT_READ (R499): the register, and FULL clears. -/
def readCollStat (s : State) : State := reply (rd s pgColl 0x108) (setFld s pgColl 0x108 8 8 0)

def execCollStatRead (s : State) : Out' := .next (readCollStat s)

/-! ### Engine accesses -/

/-- The engine may not write a range: a RUNNING step's committed bushel without a shadow (R481). -/
def engineClosed (s : State) (a n : Nat) : Bool :=
  stepRunning s && (bushelsOf (addr48 a) n).any (fun b => match mfind s.mem.bushels b with
    | some x => x.committed && x.shadow.isNone
    | none => false)

/-- The engine writes bytes of one line's length or less: to the shadow line of a RUNNING step's bushel that has one, else at the home. -/
def enginePiece (tile a : Nat) (v : List Byte) (s : State) : State :=
  match bushelAt s a with
  | some b => if stepRunning s && b.committed && b.shadow.isSome then shadowWrite s (addr48 a) v else storeHome tile (addr48 a) v s
  | none => s

/-- The engine writes bytes, bushel by bushel. -/
def engineWriteFuel : Nat → Nat → Nat → List Byte → State → State
  | 0, _, _, _, s => s
  | k + 1, tile, a, v, s =>
    if v.isEmpty then s
    else
      let n := 2 ^ 21 - a % 2 ^ 21
      engineWriteFuel k tile (a + n) (v.drop n) (enginePiece tile a (v.take n) s)

def engineWrite (tile a : Nat) (v : List Byte) (s : State) : State := engineWriteFuel (v.length / 2 ^ 21 + 2) tile (addr48 a) v s

/-- Slotted flits are written where they are due; held while that bushel is being switched (R353). -/
def putFlits (tile a : Nat) (v : List Byte) (s : State) : State :=
  if v.isEmpty || !rangeMemory s a v.length || engineClosed s a v.length then s
  else if heldRange s a v.length then holdAccess (.flits tile a v) s
  else engineWrite tile a v s

/-- The status of a range that the engine is to write: UNMAPPED or COMMITTED_WRITE. -/
def writeStatus (s : State) (a n : Nat) : Option Nat :=
  if n = 0 then none
  else if !rangeMemory s a n then some csUnmapped
  else if engineClosed s a n then some csCommitted
  else none

/-- The status of a range that the engine is to read: UNMAPPED, or ECC with the poisoned line. -/
def readStatus (s : State) (a n : Nat) : Option (Nat × Option Nat) :=
  if n = 0 then none
  else if !rangeMemory s a n then some (csUnmapped, none)
  else (poisonIn s false a n).map (fun line => (csEcc, some line))

/-- A command takes a status; a poisoned line that it met is reported (R358, R359). -/
def endWith (c : CollCmd) (e : Nat × Option Nat) (s : State) : State :=
  let s := giveStatus (fun d => decide (d = c)) e.1 s
  match e.2 with
  | some line => meetPoison line c.att.isSome s
  | none => s

/-- Replace a command of the queue. -/
def setCmd (old new : CollCmd) (s : State) : State :=
  { s with coll := { s.coll with queue := s.coll.queue.map (fun d => if d = old then new else d) } }

/-! ### Packets of a command -/

/-- Payload bytes of a packet (R453). -/
def packetBytes : Nat := 2048

/-- Offsets of the packets that carry n bytes: one packet without data for none. -/
def pieces (n : Nat) : List Nat := (List.range (max 1 ((n + packetBytes - 1) / packetBytes))).map (fun i => packetBytes * i)

/-- LAUNCH of a packet (R453, R481). -/
def launchField (s : State) (att : Option Nat) : BitVec 32 := if att.isSome then BitVec.ofNat 32 (s.step.launch / 2 ^ 8) else 0

/-- A packet of a command, without data. -/
def packetOf (s : State) (c : CollCmd) (kind dst : Nat) : PeerPacket :=
  { kind := Fin.ofNat 16 kind, vc := 0, prio := decide (kind ≠ 8), dst := BitVec.ofNat 12 dst, src := BitVec.ofNat 12 (ownCoord s), hops := 0
    age := BitVec.ofNat 16 (netStamp s), group := BitVec.ofNat 12 (coGroup c.words), gen := BitVec.ofNat 8 (coGen c.words)
    epoch := BitVec.ofNat 16 c.epoch, mode := Fin.ofNat 4 (coMode c.words), launch := launchField s c.att, seq := BitVec.ofNat 32 c.number
    addr := 0, ctr := 0, ctrEn := false, inc := BitVec.ofNat 32 (coBytes c.words / 64), expert := 0, token := 0, k := 0, data := [] }

/-- A COLL packet of a chunk: EXPERT holds the member whose chunk it is and OP, TOKEN the DTYPE, whether the values are final and whether it
holds the shard's tag; ADDR is the offset in the chunk (log entry 24). -/
def chunkPacket (s : State) (c : CollCmd) (dst chunk : Nat) (final tag : Bool) (off : Nat) (v : List Byte) : PeerPacket :=
  { packetOf s c (if coSlotted c.words then 3 else 4) dst with
    expert := BitVec.ofNat 16 (chunk + coOp c.words * 4096)
    token := BitVec.ofNat 24 (coDtype c.words + b2n final <<< 8 + b2n tag <<< 9)
    ctr := BitVec.ofNat 19 (cw c.words 0 63 52), addr := BitVec.ofNat 48 off, data := v }

def pkChunk (p : PeerPacket) : Nat := p.expert.toNat % 4096
def pkFinal (p : PeerPacket) : Bool := p.token.toNat.testBit 8
def pkTag (p : PeerPacket) : Bool := p.token.toNat.testBit 9

/-- A packet leaves: a SLOTTED command's waits for a slot of its stream at the attachment of its group's direction (R467, R477). -/
def sendChunk (axis : Nat) (p : PeerPacket) (s : State) : State :=
  if p.kind.val = 3 then { s with coll := { s.coll with slottedOut := s.coll.slottedOut ++ [(2 * axis, p)] } }
  else sendOwn p s

/-- The packets of a chunk's bytes go to a member. -/
def sendChunks (c : CollCmd) (axis dst chunk : Nat) (final : Bool) (v : List Byte) (s : State) : State :=
  (pieces v.length).foldl (fun s off => sendChunk axis (chunkPacket s c dst chunk final false off ((v.drop off).take packetBytes)) s) s

/-! ### Shard tags (R234 to R236, R482) -/

/-- Weight version of the last commit that changed any bushel of a range. -/
def shardVersion (s : State) (a n : Nat) : Nat :=
  (s.coll.versions.filter (fun e => touches a n e.1)).foldl (fun m e => max m e.2) 0

/-- Where the member's own shard lies: at its place in the tensor in Granger's copy of a gather, else at SRC (R478, R482). -/
def shardSrc (c : CollCmd) (m : Nat) : Nat := if c.layer.isSome then coDst c.words + m * coBytes c.words else coSrc c.words

/-- The tag of shard i, at an address: VERSION, EPOCH and INDEX, then CRC. -/
def shardTag (s : State) (c : CollCmd) (a i : Nat) : Word × Word :=
  (word (shardVersion s a (coBytes c.words) % 2 ^ 32 + c.epoch <<< 32 + (i % 2 ^ 16) <<< 48),
   word (crc32c (readMem s a (coBytes c.words))))

/-- A shard's tag is compared with the gather log, or recorded there (R235, R236). Answers the status of a failed comparison. -/
def compareTag (c : CollCmd) (i : Nat) (tag : Word × Word) (s : State) : Option Nat × State :=
  let a := coDst c.words
  match s.coll.gatherLog.find? (fun e => decide (e.1 = a) && decide (e.2.1 = i)) with
  | none => (none, { s with coll := { s.coll with gatherLog := s.coll.gatherLog ++ [(a, i, tag.1, tag.2)] } })
  | some e =>
    if (e.2.2.1, e.2.2.2) = tag then (none, event pgColl 0x100 1 s) else (some csShardChanged, event pgColl 0x101 1 s)

/-- A received shard's tag is checked against the bytes that have been written, then against the gather log (R482). -/
def checkTag (c : CollCmd) (i : Nat) (tag : Word × Word) (s : State) : Option Nat × State :=
  if crc32c (readMem s (coDst c.words + i * coBytes c.words) (coBytes c.words)) ≠ tag.2.bits 31 0 then (some csShardCorrupt, s)
  else compareTag c i tag s

/-! ### Running a command (R478 to R480) -/

/-- What a group operation works with: the group's definition, N, m and the next member. -/
structure Ring where
  defn : Word
  n : Nat
  m : Nat
  deriving DecidableEq, Repr

/-- The ring of a command: none when the group is not live with GEN or the module is no member (R483). -/
def ringOf (s : State) (c : CollCmd) : Option Ring :=
  match groupOf s (coGroup c.words) with
  | some g =>
    if g.gen = coGen c.words && decide (gRole g.defn = 0) then
      (memberIndex s g.defn (ownCoord s)).map (fun m => ⟨g.defn, members s g.defn, m⟩)
    else none
  | none => none

/-- Axis along which a group's data flows: X for a fabric group. -/
def Ring.axis (r : Ring) : Nat := if gAxis r.defn = 3 then 0 else gAxis r.defn

/-- Coordinate of the next member in the ring. -/
def Ring.next (s : State) (r : Ring) : Nat := memberCoord s r.defn ((r.m + 1) % r.n)

/-- Sum of two vectors of DTYPE values, element by element, each rounded to DTYPE (R479). -/
def addBytesFuel : Nat → Nat → List Byte → List Byte → List Byte
  | 0, _, _, _ => []
  | k + 1, dtype, a, b =>
    if dtype = 0 then
      leBytes (fadd (BitVec.ofNat 32 (leNat (a.take 4))) (BitVec.ofNat 32 (leNat (b.take 4)))).toNat 4
        ++ addBytesFuel k dtype (a.drop 4) (b.drop 4)
    else
      leBytes (toBf16 .near (nadd (decodeFmt fmtBf16 (leNat (a.take 2))) (decodeFmt fmtBf16 (leNat (b.take 2))))) 2
        ++ addBytesFuel k dtype (a.drop 2) (b.drop 2)

def addBytes (dtype : Nat) (a b : List Byte) : List Byte := addBytesFuel (a.length / (if dtype = 0 then 4 else 2)) dtype a b

/-- Ranges that a command reads and writes at member m of N (R478, R482): address and bytes. -/
def opReads (c : CollCmd) (r : Ring) : List (Nat × Nat) :=
  let ws := c.words
  match coOp ws with
  | 1 => [(coSrc ws, coBytes ws)]
  | 2 => [(coSrc ws, r.n * coBytes ws)]
  | 3 => [(coSrc ws, r.n * coBytes ws)]
  | 4 => if r.m = coRoot ws then [(coSrc ws, coBytes ws)] else []
  | 6 => [(shardSrc c r.m, coBytes ws)]
  | _ => []

def opWrites (c : CollCmd) (r : Ring) : List (Nat × Nat) :=
  let ws := c.words
  match coOp ws with
  | 1 => [(coDst ws, r.n * coBytes ws)]
  | 2 => [(coDst ws, coBytes ws)]
  | 3 => [(coDst ws, r.n * coBytes ws)]
  | 4 => [(coDst ws, coBytes ws)]
  | 6 =>
    if c.layer.isSome then [(coDst ws, r.m * coBytes ws), (coDst ws + (r.m + 1) * coBytes ws, (r.n - 1 - r.m) * coBytes ws)]
    else [(coDst ws, r.n * coBytes ws)]
  | _ => []

/-- A gather that Granger submitted maps the bushels of the tensor that exist only in the window (R365, R482). -/
def mapGathered (c : CollCmd) (r : Ring) (s : State) : State :=
  match c.layer with
  | none => s
  | some (layer, _) =>
    (bushelsOf (coDst c.words) (r.n * coBytes c.words)).foldl (fun s n =>
      if (mfind s.mem.bushels n).isSome then s
      else
        let t := windowTile s n
        let (k, s) := takeStack s t
        let b : Bushel := { tier := 1, tile := t, cluster := 0, stack := k, committed := false }
        let s := setBushel s n b
        { s with mem := { s.mem with copies := s.mem.copies ++ [⟨n, t, k, layer, true⟩] } }) s

/-- The status with which a command fails its checks as it starts (R483). -/
def startStatus (s : State) (c : CollCmd) (r : Ring) : Option (Nat × Option Nat) :=
  let ws := c.words
  if coOp ws = 4 && decide (r.n ≤ coRoot ws) then some (csBadDesc, none)
  else match (opReads c r).findSome? (fun e => readStatus s e.1 e.2) with
    | some e => some e
    | none => if coActs ws = 1 then none else (opWrites c r).findSome? (fun e => (writeStatus s e.1 e.2).map (fun x => (x, none)))

/-- The command writes at DST, but for DISCARD (R480). -/
def deliverBytes (c : CollCmd) (a : Nat) (v : List Byte) (s : State) : State := if coActs c.words = 1 then s else engineWrite c.tile a v s

/-- Bytes of a member's own chunk i at SRC. -/
def ownChunk (s : State) (ws : List Word) (i : Nat) : List Byte := readMem s (coSrc ws + i * coBytes ws) (coBytes ws)

/-- The member's own part as the command starts: its own bytes are placed, and its first packets sent. -/
def ownPart (c : CollCmd) (r : Ring) (s : State) : State :=
  let ws := c.words
  let nx := r.next s
  let alone := decide (r.n ≤ 1)
  let send := fun (chunk : Nat) (final : Bool) (v : List Byte) (s : State) => if alone then s else sendChunks c r.axis nx chunk final v s
  match coOp ws with
  | 1 =>
    let v := readMem s (coSrc ws) (coBytes ws)
    send r.m true v (deliverBytes c (coDst ws + r.m * coBytes ws) v s)
  | 2 =>
    if alone then deliverBytes c (coDst ws) (ownChunk s ws 0) s
    else let i := (r.m + r.n - 1) % r.n; send i false (ownChunk s ws i) s
  | 3 =>
    if alone then deliverBytes c (coDst ws) (ownChunk s ws 0) s
    else let i := (r.m + r.n - 1) % r.n; send i false (ownChunk s ws i) s
  | 4 =>
    if r.m = coRoot ws then
      let v := readMem s (coSrc ws) (coBytes ws)
      send r.m true v (deliverBytes c (coDst ws) v s)
    else s
  | 5 => send r.m true [] s
  | 6 =>
    let v := readMem s (shardSrc c r.m) (coBytes ws)
    let tag := shardTag s c (shardSrc c r.m) r.m
    let s := if c.layer.isSome then s else deliverBytes c (coDst ws + r.m * coBytes ws) v s
    let s := send r.m true v s
    if alone then s else sendChunk r.axis (chunkPacket s c nx r.m true true 0 (leBytes tag.1.toNat 8 ++ leBytes tag.2.toNat 8)) s
  | _ => s

/-- Chunks that the member takes from others (R478, R479). -/
def chunksDue (ws : List Word) (r : Ring) : Nat :=
  match coOp ws with
  | 3 => 2 * (r.n - 1)
  | 4 => if r.m = coRoot ws then 0 else 1
  | _ => r.n - 1

/-- A received packet is a contribution to the command. -/
def contributes (c : CollCmd) (p : PeerPacket) : Bool :=
  decide (p.group.toNat = coGroup c.words) && decide (p.seq.toNat = c.number) && (decide (p.kind.val = 4) || decide (p.kind.val = 3))

/-- Whether a packet belongs to another operation, DTYPE or BYTES (R478), or another MODE (R480): the status. -/
def shapeStatus (c : CollCmd) (p : PeerPacket) : Option Nat :=
  if p.mode.val ≠ coMode c.words then some csTrainMode
  else if p.expert.toNat / 4096 ≠ coOp c.words || decide (p.token.toNat % 16 ≠ coDtype c.words)
      || decide (p.inc.toNat ≠ coBytes c.words / 64 % 2 ^ 32) then some csMismatch
  else none

/-- Packets of one chunk that have arrived; whole once every piece is there, with the tag of a shard. -/
def chunkWhole (c : CollCmd) (l : List PeerPacket) : Bool :=
  let n := if coOp c.words = 5 then 0 else coBytes c.words
  (pieces n).all (fun off => l.any (fun p => !pkTag p && decide (p.addr.toNat = off)))
  && (decide (coOp c.words ≠ 6) || l.any pkTag)

/-- Bytes of a whole chunk. -/
def chunkBytes (c : CollCmd) (l : List PeerPacket) : List Byte :=
  (pieces (coBytes c.words)).flatMap (fun off => match l.find? (fun p => !pkTag p && decide (p.addr.toNat = off)) with
    | some p => p.data
    | none => [])

/-- The next chunk of which every packet has arrived: its member and whether its values are final. -/
def readyChunk (c : CollCmd) (l : List PeerPacket) : Option (Nat × Bool) :=
  (l.find? (fun p => chunkWhole c (l.filter (fun q => decide (pkChunk q = pkChunk p) && decide (pkFinal q = pkFinal p))))).map
    (fun p => (pkChunk p, pkFinal p))

/-- Send a chunk on to the next member, unless that is the member whose chunk it is. -/
def passOn (c : CollCmd) (r : Ring) (chunk : Nat) (final : Bool) (v : List Byte) (s : State) : State :=
  if (r.m + 1) % r.n = chunk then s else sendChunks c r.axis (r.next s) chunk final v s

/-- The effect of a whole chunk at member m (R478, R479, R482). Answers the status of a failed shard check. -/
def takeChunk (c : CollCmd) (r : Ring) (chunk : Nat) (final : Bool) (l : List PeerPacket) (s : State) : Option Nat × State :=
  let ws := c.words
  let v := chunkBytes c l
  match coOp ws with
  | 1 => (none, passOn c r chunk true v (deliverBytes c (coDst ws + chunk * coBytes ws) v s))
  | 2 =>
    let w := addBytes (coDtype ws) v (ownChunk s ws chunk)
    (none, if chunk = r.m then deliverBytes c (coDst ws) w s else sendChunks c r.axis (r.next s) chunk false w s)
  | 3 =>
    if final then (none, passOn c r chunk true v (deliverBytes c (coDst ws + chunk * coBytes ws) v s))
    else
      let w := addBytes (coDtype ws) v (ownChunk s ws chunk)
      if chunk = r.m then (none, sendChunks c r.axis (r.next s) chunk true w (deliverBytes c (coDst ws + chunk * coBytes ws) w s))
      else (none, sendChunks c r.axis (r.next s) chunk false w s)
  | 4 => (none, passOn c r chunk true v (deliverBytes c (coDst ws) v s))
  | 6 =>
    let s := deliverBytes c (coDst ws + chunk * coBytes ws) v s
    let s := passOn c r chunk true v s
    match l.find? pkTag with
    | some p =>
      let s := if (r.m + 1) % r.n = chunk then s
        else sendChunk r.axis (chunkPacket s c (r.next s) chunk true true 0 p.data) s
      checkTag c chunk (word (leNat (p.data.take 8)), word (leNat ((p.data.drop 8).take 8))) s
    | none => (none, s)
  | _ => (none, passOn c r chunk true [] s)

/-- Take the chunks that have arrived, one after another; the command has its result when it has taken every one. -/
def advanceFuel : Nat → Ring → CollCmd → State → State
  | 0, _, _, s => s
  | k + 1, r, c, s =>
    let l := s.coll.received.filter (contributes c)
    match l.findSome? (shapeStatus c) with
    | some st => endWith c (st, none) s
    | none =>
      if chunksDue c.words r ≤ c.got then
        endWith c (csDone, none) s
      else
        match readyChunk c l with
        | none => s
        | some (i, final) =>
          let mine := fun (p : PeerPacket) => contributes c p && decide (pkChunk p = i) && decide (pkFinal p = final)
          let ps := s.coll.received.filter mine
          let s := { s with coll := { s.coll with received := s.coll.received.filter (fun p => !mine p) } }
          let d := { c with got := c.got + 1 }
          let s := setCmd c d s
          match takeChunk d r i final ps s with
          | (none, s) => advanceFuel k r d s
          | (some st, s) => endWith { d with info := i } (st, none) (setCmd d { d with info := i } s)

/-- The check of the member's own shard against the gather log (R235). -/
def ownTag (c : CollCmd) (r : Ring) (s : State) : Option Nat × State :=
  if coOp c.words = 6 then compareTag c r.m (shardTag s c (shardSrc c r.m) r.m) s else (none, s)

/-- A command starts (R476, R483). -/
def startCmd (c : CollCmd) (s : State) : State :=
  match ringOf s c with
  | none => endWith c (csGroup, none) s
  | some r =>
    let s := mapGathered c r s
    match startStatus s c r with
    | some e => endWith c e s
    | none =>
      let d := { c with executing := true }
      let s := setCmd c d s
      match ownTag d r s with
      | (some st, s) => endWith { d with info := r.m } (st, none) (setCmd d { d with info := r.m } s)
      | (none, s) => advanceFuel (2 * r.n + 2) r d (ownPart d r s)

/-- Commands that execute at once (R476). -/
def collParallel : Nat := 16

/-- A command may start: it is not held, fewer than 16 execute, and every earlier command of its group has started (R476, R492). -/
def mayStart (s : State) (index : Nat) (c : CollCmd) : Bool :=
  !c.held && decide ((s.coll.queue.filter (fun d => d.executing)).length < collParallel)
  && (decide (coOp c.words = 7) || (s.coll.queue.take index).all (fun d => d.executing || d.result.isSome || !names (coGroup c.words) d))

/-- The engine of an attachment stands at a ring stop that is fenced: it is unusable (R401, R439). -/
def attachmentLost (s : State) (t : Nat) : Bool :=
  (portSites s.part).any (fun e => decide (e.1 = t) && nodeFenced s (40 * e.1 + 24 + e.2))

/-- A row of the engine: the command at a place of the queue, if it has this operation, starts, or takes what has arrived for it. One with a range
in a bushel that is being switched waits (R353). -/
def collRow (op index : Nat) (ranges : State → CollCmd → List (Nat × Nat)) (start advance : CollCmd → State → State) (s : State) : State :=
  match s.coll.queue[index]? with
  | none => s
  | some c =>
    if coOp c.words ≠ op || c.result.isSome || attachmentLost s c.tile || (ranges s c).any (fun e => heldRange s e.1 e.2) then s
    else if c.executing then advance c s
    else if mayStart s index c then start c s
    else s

/-- Ranges of a group command. -/
def cmdRanges (s : State) (c : CollCmd) : List (Nat × Nat) :=
  match ringOf s c with
  | some r => opReads c r ++ opWrites c r
  | none => []

/-- A group command that executes takes what has arrived. -/
def advanceCmd (c : CollCmd) (s : State) : State :=
  match ringOf s c with
  | some r => advanceFuel (2 * r.n + 2) r c s
  | none => endWith c (csGroup, none) s

def execAllGather (index : Nat) (s : State) : Out' := .next (collRow 1 index cmdRanges startCmd advanceCmd s)
def execReduceScatter (index : Nat) (s : State) : Out' := .next (collRow 2 index cmdRanges startCmd advanceCmd s)
def execAllReduce (index : Nat) (s : State) : Out' := .next (collRow 3 index cmdRanges startCmd advanceCmd s)
def execBroadcast (index : Nat) (s : State) : Out' := .next (collRow 4 index cmdRanges startCmd advanceCmd s)
def execBarrier (index : Nat) (s : State) : Out' := .next (collRow 5 index cmdRanges startCmd advanceCmd s)
def execGatherShard (index : Nat) (s : State) : Out' := .next (collRow 6 index cmdRanges startCmd advanceCmd s)

/-- The arrival signal of a GATHER tensor: the collective engine sends it after the check of every shard (R372, R482). -/
def gatherArrival (c : CollCmd) (s : State) : State :=
  match c.layer, c.desc with
  | some (layer, n), some a =>
    let due := (layerEntries s layer).filter (fun i => isGather s i && decide ((ltWord s i 3).bits 47 0 = a) && (ltWord s i 2).bit 19)
    due.foldl (fun s i => arrivalSignal n ((ltWord s i 2).bits 18 0) 5 c.tile s) s
  | _, _ => s

/-- The command is step control's barrier of the running step (R485). -/
def isStepBarrier (c : CollCmd) : Bool := c.desc.isNone && decide (coOp c.words = 5)

/-- A packet is a contribution made under another mode to a command that passes (R233, R480). -/
def passMismatch (c : CollCmd) (p : PeerPacket) : Bool := decide (coActs c.words = 2) && contributes c p && decide (p.mode.val ≠ 2)

/-- The status with which a command completes: one that passes meets the contributions of members in another mode (R233, R480). -/
def endStatus (s : State) (c : CollCmd) (st : Nat) : Nat :=
  if st = csDone && s.coll.received.any (passMismatch c) then csTrainMode else st

/-- A command that passes is remembered until the next launch: contributions to it may still arrive (R233). -/
def notePass (c : CollCmd) (s : State) : State :=
  if coActs c.words = 2 then { s with coll := { s.coll with passed := s.coll.passed ++ [(coGroup c.words, c.number)] } } else s

/-- COLL_COMMAND_COMPLETE (R481, R483): a command that has its result completes. Step control's barrier is mark S (R485). -/
def collCommandComplete (index : Nat) (s : State) : State :=
  match s.coll.queue[index]? with
  | none => s
  | some c =>
    match c.result with
    | none => s
    | some st =>
      let st := endStatus s c st
      let s := notePass c s
      let s := run [.collDone c st] s
      let s := if st = csDone then gatherArrival c s else s
      if isStepBarrier c && decide (st = csDone) && stepLive s then { s with step := { s.step with barrierDone := true } } else s

def execCollCommandComplete (index : Nat) (s : State) : Out' := .next (collCommandComplete index s)

/-- EPOCH_CTRL_WRITE (R492): a write that changes NEXT while a command tagged NEXT is queued is ignored and logged. -/
def epochCtrlStore (value : Word) (s : State) : State :=
  let m := bm 16 0 + bm 51 32
  let s := reservedWrite pgColl 0x140 m value s
  if s.coll.queue.any (fun c => c.held) && decide (value.bits 15 0 ≠ fld s pgColl 0x140 15 0) then logErr pgColl errState 0x140 s
  else wr s pgColl 0x140 (value &&& word m)

def execEpochCtrlWrite (value : Word) (s : State) : Out' := .next (epochCtrlStore value s)

end Sys2Proof.Machine
end

