-- ==== Sys2Proof/Machine/Cursor.lean ====
section
/-! DEFINITION. The visits of Granger's cursors, with the fetches and gathers that they start (R370 to R373, R482), and their arrival signals. -/

namespace Sys2Proof.Machine

/-- The gather of a GATHER tensor is queued as a collective command of its descriptor (R370, R482). -/
def startGather (n layer : Nat) (s : State) (i : Nat) : State :=
  let a := (ltWord s i 3).bits 47 0
  let ws := descWords s a
  let t := (ltWord s i 0).bits 47 0
  let ws := ws.set 2 (word t)
  collEnter (some a) ws (cursorAtt s n) (unitWho 5 (groupTile s ws) 0 (cursorAtt s n)) (some (layer, n)) s

/-- A visit makes arrival signals due: those of every enabled tensor of the layer, but for the GATHER tensors whose gather will send its own. -/
def makeDue (n layer : Nat) (gathers : Bool) (s : State) : State :=
  match cursorOf s n with
  | some c => setCursor { c with arrivals := c.arrivals ++ dueEntries s layer gathers } s
  | none => s

/-- The layer's FETCHes and gathers start (R370). -/
def fetchLayer (n layer : Nat) (s : State) : State :=
  (layerEntries s layer).foldl (fun s i => if isStream s i then grangerCmd n 1 layer i s else startGather n layer s i) (makeDue n layer true s)

/-- WINDOW_CURSOR_VISIT (R370, R371): the next visit of a slot's cursor; it waits while the window is full and no layer can be released. -/
def windowCursorVisit (n : Nat) (s : State) : State :=
  match (if cursorLive s n then cursorOf s n else none) with
  | none => s
  | some c =>
    match c.plan with
    | [] => s
    | (layer, back) :: _ =>
      if (resident s layer || inFlight s layer) && !dropping s layer then makeDue n layer false (noteVisit c layer back s)
      else if (heldLayers s).length < windowDepth s then fetchLayer n layer (noteVisit c layer back s)
      else match releaseChoice s layer with
        | some l => fetchLayer n layer (noteVisit c layer back (releaseLayer n s l))
        | none => s

def execWindowCursorVisit (slot : Fin 64) (s : State) : Out' := .next (windowCursorVisit slot.val s)

/-- Tile of the attachment of a GATHER tensor's group (R293, R446). -/
def gatherTile (s : State) (i : Nat) : Nat := groupTile s (descWords s ((ltWord s i 3).bits 47 0))

/-- The due arrival signals of one cursor for a layer are sent, in the order of the visits. -/
def cursorArrivals (layer : Nat) (s : State) (c : Cursor) : State :=
  let s := setCursor { c with arrivals := c.arrivals.filter (fun e => decide (e.1 ≠ layer)) } s
  (c.arrivals.filter (fun e => decide (e.1 = layer))).foldl (fun s e =>
    arrivalSignal c.slot ((ltWord s e.2 2).bits 18 0) (if isGather s e.2 then 5 else 4) (if isGather s e.2 then gatherTile s e.2 else 0) s) s

/-- LAYER_ARRIVAL_SIGNAL (R372): the due arrival signals of a layer are sent when it is resident. -/
def layerArrival (layer : Nat) (s : State) : State :=
  if resident s layer then s.granger.cursors.foldl (cursorArrivals layer) s else s

def execLayerArrivalSignal (layer : BitVec 16) (s : State) : Out' := .next (layerArrival layer.toNat s)

end Sys2Proof.Machine
end

