-- ==== Sys2Proof/Machine/Exchange.lean ====
section
/-! DEFINITION. PUT (R478, R481), expert exchange (R486 to R491), packets received from the peer ports (R453, R460, R461, R475, R495), and the
epoch switch (R494). The contents of DISPATCH, COMBINE, PUT, END and ACK packets beside the header's fields are the model's own (log entry 24). -/

namespace Sys2Proof.Machine

/-! ### ACK -/

/-- Key of an unacknowledged packet or route: destination address and coordinate. -/
def ackKey (addr coord : Nat) : Nat := addr + 2 ^ 48 * coord

/-- The ACK of a packet: KIND acknowledged in EXPERT, its outcome in INC, its address and route repeated. -/
def ackOf (s : State) (p : PeerPacket) (status : Nat) : PeerPacket :=
  { p with kind := 9, vc := 2, prio := true, dst := p.src, src := BitVec.ofNat 12 (ownCoord s), hops := 0, age := BitVec.ofNat 16 (netStamp s)
           ctr := 0, ctrEn := false, inc := BitVec.ofNat 32 status, token := p.token, k := p.k
           expert := BitVec.ofNat 16 p.kind.val, data := [] }

/-- Answer a packet. -/
def answer (p : PeerPacket) (status : Nat) (s : State) : State := sendOwn (ackOf s p status) s

/-! ### PUT (R478, R481) -/

/-- A PUT's bytes reach this module: they are written, and the remote counter is signalled after the last of them (R481). Answers the
status. -/
def putHere (tile : Nat) (p : PeerPacket) (s : State) : Nat × State :=
  match writeStatus s p.addr.toNat p.data.length with
  | some st => (st, s)
  | none =>
    let s := engineWrite tile p.addr.toNat p.data s
    let att := if p.launch = 0 then none else some s.step.att
    (csDone, if p.ctrEn then signal p.ctr.toNat p.inc.toNat (unitWho 5 tile 0 att) att s else s)

/-- Packets of a PUT, in order; the last carries the remote signal. -/
def putPackets (s : State) (c : CollCmd) : List PeerPacket :=
  let ws := c.words
  let offs := pieces (coBytes ws)
  offs.map (fun off => { packetOf s c 8 (cw ws 5 11 0) with
    addr := BitVec.ofNat 48 (coDst ws + off), data := readMem s (coSrc ws + off) (min packetBytes (coBytes ws - off))
    ctr := BitVec.ofNat 19 (cw ws 6 50 32), ctrEn := decide (cw ws 6 51 51 = 1) && decide (off = (offs.getLast?).getD 0)
    inc := BitVec.ofNat 32 (cw ws 4 63 32) })

/-- The command takes the status of what it waits for, and DONE once nothing is unanswered. -/
def settleAck (c : CollCmd) (done : Bool) (s : State) : State := if c.unacked.isEmpty && done then endWith c (csDone, none) s else s

/-- A PUT starts. -/
def startPut (c : CollCmd) (s : State) : State :=
  match readStatus s (coSrc c.words) (coBytes c.words) with
  | some e => endWith c e s
  | none =>
    let ps := putPackets s c
    if cw c.words 5 11 0 = ownCoord s then
      let r := ps.foldl (fun (a : Nat × State) p => if a.1 = csDone then putHere c.tile p a.2 else a) (csDone, s)
      endWith c (r.1, none) r.2
    else
      let d := { c with executing := true, unacked := ps.map (fun p => ackKey p.addr.toNat p.dst.toNat) }
      ps.foldl (fun s p => sendOwn p s) (setCmd c d s)

/-- Ranges of a PUT at this module. -/
def putRanges (s : State) (c : CollCmd) : List (Nat × Nat) :=
  (coSrc c.words, coBytes c.words) :: (if cw c.words 5 11 0 = ownCoord s then [(coDst c.words, coBytes c.words)] else [])

def execPut (index : Nat) (s : State) : Out' := .next (collRow 7 index putRanges startPut (fun c s => settleAck c true s) s)

/-! ### Expert map and rows (R486 to R488) -/

/-- Address of an entry of the expert map, and its word (R486). -/
def xmapAddr (s : State) (e : Nat) : Nat := addr48 (fldA s pgColl 0x158 47 6 * 64 + 4 * e)
def xmapWord (s : State) (e : Nat) : Word := word (leNat (readMem s (xmapAddr s e) 4))
def xmValid (w : Word) : Bool := w.bit 31
def xmModule (w : Word) : Nat := w.bits 11 0
def xmSlot (w : Word) : Nat := w.bits 23 12

/-- Rows per slot. -/
def xcap (s : State) : Nat := fldA s pgColl 0x178 15 0

/-- Addresses of row n and its origin record, and of the counts of a slot (R487). -/
def rowAddr (s : State) (slotNo n bytes : Nat) : Nat := addr48 (fldA s pgColl 0x160 47 6 * 64 + (slotNo * xcap s + n) * bytes)
def metaAddr (s : State) (slotNo n : Nat) : Nat := addr48 (fldA s pgColl 0x168 47 6 * 64 + (slotNo * xcap s + n) * 16)
def countAddr (s : State) (slotNo : Nat) : Nat := addr48 (fldA s pgColl 0x170 47 6 * 64 + 4 * slotNo)

/-- Where the rows of an expert, of a length, are held here: its map entry, its slot's rows and records, and its counts (R486, R487). -/
def slotRanges (s : State) (e bytes : Nat) : List (Nat × Nat) :=
  let sl := xmSlot (xmapWord s e)
  [(xmapAddr s e, 4), (rowAddr s sl 0 bytes, xcap s * bytes), (metaAddr s sl 0, xcap s * 16), (countAddr s sl, 4)]

/-- Rows delivered and dropped of a slot. -/
def rowCounts (s : State) (slotNo : Nat) : Nat × Nat :=
  match s.coll.xrows.find? (fun e => decide (e.1 = slotNo)) with
  | some e => e.2
  | none => (0, 0)

/-- Set the counts of a slot, in the engine and at XCOUNT. -/
def setRowCounts (tile slotNo delivered dropped : Nat) (s : State) : State :=
  let s := { s with coll := { s.coll with
    xrows := (s.coll.xrows.filter (fun e => decide (e.1 ≠ slotNo))) ++ [(slotNo, delivered, dropped)] } }
  engineWrite tile (countAddr s slotNo) (leBytes (delivered % 2 ^ 16 + (dropped % 2 ^ 16) <<< 16) 4) s

/-- Every count returns to 0 (R487). -/
def clearRows (s : State) : State :=
  let s := s.coll.xrows.foldl (fun s e => engineWrite 0 (countAddr s e.1) [0, 0, 0, 0] s) s
  { s with coll := { s.coll with xrows := [] } }

/-- The command of this module that matches a packet's group and number. -/
def matching (op : Nat) (p : PeerPacket) (c : CollCmd) : Bool :=
  decide (coOp c.words = op) && decide (coGroup c.words = p.group.toNat) && decide (c.number = p.seq.toNat)

/-- A token for an expert enters the package at a tile (R296, R324). -/
def noteToken (e tile : Nat) (s : State) : State :=
  let key := 8 * e + tile
  { s with coll := { s.coll with tokens := mset 0 s.coll.tokens key (mget 0 s.coll.tokens key + 1) } }

/-- The tile to which an expert's tokens go: that of its weights, or the one at which they entered where the table has none (R323, R325). -/
def expertAt (s : State) (e tile : Nat) : Nat := (mfind s.granger.expertTile e).getD tile

/-- A row reaches the module that serves its expert (R487, R488, R491): the route's STATUS, or the status with which the command ends, MISMATCH if the
map here does not name this module. -/
def placeRow (tile : Nat) (p : PeerPacket) (row : List Byte) (s : State) : Sum Nat Nat × State :=
  let e := p.expert.toNat
  let w := xmapWord s e
  if !rangeMemory s (xmapAddr s e) 4 || !xmValid w || decide (xmModule w ≠ ownCoord s) then
    (.inr csMismatch, giveStatus (matching 8 p) csMismatch s)
  else
    let s := noteToken e tile s
    let tile := expertAt s e tile
    let sl := xmSlot w
    let n := rowCounts s sl
    if xcap s ≤ n.1 then (.inl 2, setRowCounts tile sl n.1 (n.2 + 1) s)
    else
      let a := rowAddr s sl n.1 row.length
      let b := metaAddr s sl n.1
      match [(a, row.length), (b, 16), (countAddr s sl, 4)].findSome? (fun r => writeStatus s r.1 r.2) with
      | some st => (.inr st, giveStatus (matching 8 p) st s)
      | none =>
        if p.mode.val = 1 then (.inl 1, s)
        else
          let s := engineWrite tile a row s
          let rec0 := leBytes (p.addr.toNat + p.src.toNat <<< 48) 8 ++ leBytes (p.token.toNat + p.k.val <<< 24) 8
          (.inl 1, setRowCounts tile sl (n.1 + 1) n.2 (engineWrite tile b rec0 s))

/-! ### DISPATCH (R487 to R489) -/

/-- A route entry. -/
def routeWord (s : State) (ws : List Word) (i : Nat) : Word := rd64 s (coAux ws + 8 * i)

/-- RETURN of a route: where its result goes at the origin (R487). -/
def returnAddr (ws : List Word) (w : Word) : Nat := addr48 (coDst ws + (w.bits 39 16 * coTopk ws + w.bits 42 40) * coBytes ws)

/-- The engine writes a route's STATUS; a DROPPED route is counted (R488). -/
def routeStatus (c : CollCmd) (i status : Nat) (s : State) : State :=
  let s := engineWrite c.tile (coAux c.words + 8 * i + 6) [BitVec.ofNat 8 status] s
  if status = 2 then event pgColl 0x102 1 (addReg s pgColl 0x198 1) else s

/-- Packets of a row: the route's expert, token and choice; CTR numbers the packets of a row and CTR_EN marks its last. -/
def rowPackets (s : State) (c : CollCmd) (w : Word) (dst : Nat) : List PeerPacket :=
  let ws := c.words
  let offs := pieces (coBytes ws)
  offs.map (fun off => { packetOf s c 5 dst with
    addr := BitVec.ofNat 48 (returnAddr ws w), expert := BitVec.ofNat 16 (w.bits 15 0), token := BitVec.ofNat 24 (w.bits 39 16)
    k := Fin.ofNat 8 (w.bits 42 40), ctr := BitVec.ofNat 19 (off / packetBytes), ctrEn := decide (off = (offs.getLast?).getD 0)
    data := readMem s (coSrc ws + w.bits 39 16 * coBytes ws + off) (min packetBytes (coBytes ws - off)) })

/-- One route of a DISPATCH is sent (R487, R488). Answers the command as it then stands. -/
def sendRoute (r : Ring) (acc : CollCmd × State) (i : Nat) : CollCmd × State :=
  let c := acc.1
  let s := acc.2
  let w := routeWord s c.words i
  let m := xmapWord s (w.bits 15 0)
  let row := (coSrc c.words + w.bits 39 16 * coBytes c.words, coBytes c.words)
  if !xmValid m || (memberIndex s r.defn (xmModule m)).isNone then (c, routeStatus c i 3 s)
  else
    match readStatus s row.1 row.2 with
    | some e => (c, endWith c e s)
    | none =>
      let ps := rowPackets s c w (xmModule m)
      if xmModule m = ownCoord s then
        match ps.head? with
        | some p =>
          match placeRow c.tile p (readMem s row.1 row.2) s with
          | (.inl st, s) => (c, routeStatus c i st s)
          | (.inr _, s) => (c, s)
        | none => (c, s)
      else
        let d := { c with unacked := c.unacked ++ [ackKey (returnAddr c.words w) (xmModule m)] }
        (d, ps.foldl (fun s p => sendOwn p s) (setCmd c d s))

/-- Coordinates of the other members of a group. -/
def otherMembers (s : State) (r : Ring) : List Nat :=
  ((List.range r.n).filter (fun i => decide (i ≠ r.m))).map (memberCoord s r.defn)

/-- END goes to every other member (R489), with the operation and DTYPE as a COLL packet has them. -/
def sendEnds (c : CollCmd) (r : Ring) (s : State) : State :=
  (otherMembers s r).foldl (fun s d => sendOwn { packetOf s c 6 d with
    expert := BitVec.ofNat 16 (coOp c.words * 4096), token := BitVec.ofNat 24 (coDtype c.words) } s) s

/-- END has arrived from every other member. -/
def endsIn (s : State) (c : CollCmd) (r : Ring) : Bool :=
  (otherMembers s r).all (fun d => s.coll.received.any (fun p =>
    decide (p.kind.val = 6) && decide (p.group.toNat = coGroup c.words) && decide (p.seq.toNat = c.number) && decide (p.src.toNat = d)))

/-- An exchange command completes once nothing is unanswered and every END has arrived (R489, R490). -/
def settleExchange (c : CollCmd) (r : Ring) (s : State) : State :=
  match (s.coll.received.filter (fun p => decide (p.kind.val = 6) && decide (p.group.toNat = coGroup c.words) &&
      decide (p.seq.toNat = c.number))).findSome? (shapeStatus c) with
  | some st => endWith c (st, none) s
  | none =>
    if endsIn s c r && c.unacked.isEmpty then
      let s := endWith c (csDone, none) s
      { s with coll := { s.coll with received := s.coll.received.filter (fun p =>
          !(decide (p.kind.val = 6) && decide (p.group.toNat = coGroup c.words) && decide (p.seq.toNat = c.number))) } }
    else s

/-- A DISPATCH starts: its routes are sent in order, then END. -/
def startDispatch (c : CollCmd) (s : State) : State :=
  match ringOf s c with
  | none => endWith c (csGroup, none) s
  | some r =>
    match readStatus s (coAux c.words) (8 * coCount c.words) with
    | some e => endWith c e s
    | none =>
      match writeStatus s (coAux c.words) (8 * coCount c.words) with
      | some st => endWith c (st, none) s
      | none =>
        let d := { c with executing := true }
        let a := (List.range (coCount c.words)).foldl (sendRoute r) (d, setCmd c d s)
        settleExchange a.1 r (sendEnds a.1 r a.2)

/-- An exchange command that executes. -/
def advanceExchange (c : CollCmd) (s : State) : State :=
  match ringOf s c with
  | some r => settleExchange c r s
  | none => endWith c (csGroup, none) s

/-- Ranges of a DISPATCH at this module: its routes, the rows that it reads, and what the rows of its own experts take. -/
def dispatchRanges (s : State) (c : CollCmd) : List (Nat × Nat) :=
  let n := coBytes c.words
  (coAux c.words, 8 * coCount c.words) :: (List.range (coCount c.words)).flatMap (fun i =>
    let w := routeWord s c.words i
    (coSrc c.words + w.bits 39 16 * n, n) :: (if xmModule (xmapWord s (w.bits 15 0)) = ownCoord s then slotRanges s (w.bits 15 0) n else []))

def execDispatch (index : Nat) (s : State) : Out' := .next (collRow 8 index dispatchRanges startDispatch advanceExchange s)

/-! ### COMBINE (R490) -/

/-- A result reaches its origin. Answers the status. -/
def resultHere (tile : Nat) (p : PeerPacket) (s : State) : Nat × State :=
  if p.mode.val = 1 then (csDone, s)
  else
    match writeStatus s p.addr.toNat p.data.length with
    | some st => (st, giveStatus (matching 9 p) st s)
    | none => (csDone, engineWrite tile p.addr.toNat p.data s)

/-- The result of row n of a slot goes back to its origin. -/
def sendResult (acc : CollCmd × State) (e : Nat × Nat) : CollCmd × State :=
  let c := acc.1
  let s := acc.2
  let ws := c.words
  let src := coSrc ws + (e.1 * xcap s + e.2) * coBytes ws
  let m := metaAddr s e.1 e.2
  match readStatus s src (coBytes ws), readStatus s m 16 with
  | some x, _ => (c, endWith c x s)
  | _, some x => (c, endWith c x s)
  | none, none =>
    let w := rd64 s m
    let dst := w.bits 59 48
    (pieces (coBytes ws)).foldl (fun (a : CollCmd × State) off =>
      let c := a.1
      let s := a.2
      let p := { packetOf s c 7 dst with
        addr := BitVec.ofNat 48 (addr48 (w.bits 47 0 + off)), data := readMem s (src + off) (min packetBytes (coBytes ws - off)) }
      if dst = ownCoord s then (c, (resultHere c.tile p s).2)
      else
        let d := { c with unacked := c.unacked ++ [ackKey p.addr.toNat dst] }
        (d, sendOwn p (setCmd c d s))) (c, s)

/-- Rows that this module holds, slot by slot. -/
def heldRows (s : State) : List (Nat × Nat) := s.coll.xrows.flatMap (fun e => (List.range e.2.1).map (fun n => (e.1, n)))

/-- At the origin, a route with status 2 or 3 has zeros for its result. -/
def zeroResult (c : CollCmd) (s : State) (i : Nat) : State :=
  let w := routeWord s c.words i
  if w.bits 55 48 = 2 || w.bits 55 48 = 3 then
    match writeStatus s (returnAddr c.words w) (coBytes c.words) with
    | some st => endWith c (st, none) s
    | none => deliverBytes c (returnAddr c.words w) (List.replicate (coBytes c.words) 0) s
  else s

/-- A COMBINE starts: zeros for undelivered routes, the results of the rows held here, then END. -/
def startCombine (c : CollCmd) (s : State) : State :=
  match ringOf s c with
  | none => endWith c (csGroup, none) s
  | some r =>
    match readStatus s (coAux c.words) (8 * coCount c.words) with
    | some e => endWith c e s
    | none =>
      let d := { c with executing := true }
      let s := (List.range (coCount c.words)).foldl (zeroResult d) (setCmd c d s)
      let a := (heldRows s).foldl sendResult (d, s)
      settleExchange a.1 r (sendEnds a.1 r a.2)

/-- Ranges of a COMBINE at this module: its routes, their results, and the rows that are held here. -/
def combineRanges (s : State) (c : CollCmd) : List (Nat × Nat) :=
  let n := coBytes c.words
  (coAux c.words, 8 * coCount c.words)
  :: (List.range (coCount c.words)).map (fun i => (returnAddr c.words (routeWord s c.words i), n))
  ++ (heldRows s).flatMap (fun e => [(coSrc c.words + (e.1 * xcap s + e.2) * n, n), (metaAddr s e.1 e.2, 16)])

def execCombine (index : Nat) (s : State) : Out' := .next (collRow 9 index combineRanges startCombine advanceExchange s)

/-! ### Packets received -/

/-- LAUNCH is neither 0 nor that of the module's present step (R461). -/
def staleLaunch (s : State) (p : PeerPacket) : Bool :=
  decide (p.launch ≠ 0) && !(stepLive s && decide (p.launch.toNat = s.step.launch / 2 ^ 8 % 2 ^ 32))

/-- The packet's group is not live here with its generation (R475). -/
def staleGroup (s : State) (p : PeerPacket) : Bool :=
  match groupOf s p.group.toNat with
  | some g => decide (g.gen ≠ p.gen.toNat)
  | none => true

/-- A received contribution: a command that holds another MODE, operation, DTYPE or BYTES ends (R478, R480). One for a command that has passed is
dropped; made under another mode, it is a fault of the step (R233). -/
def takeContribution (p : PeerPacket) (s : State) : State :=
  if s.coll.passed.contains (p.group.toNat, p.seq.toNat) then
    if p.mode.val ≠ 2 && stepRunning s then fault 8 csTrainMode s else s
  else
  let s := { s with coll := { s.coll with received := s.coll.received ++ [p] } }
  let s := giveStatus (fun c => contributes c p && decide (shapeStatus c p = some csTrainMode)) csTrainMode s
  giveStatus (fun c => contributes c p && decide (shapeStatus c p = some csMismatch)) csMismatch s

/-- Packets of one row that have arrived. -/
def sameRow (p q : PeerPacket) : Bool :=
  decide (q.kind.val = 5) && decide (q.group = p.group) && decide (q.seq = p.seq) && decide (q.src = p.src) && decide (q.addr = p.addr)
  && decide (q.expert = p.expert)

/-- A DISPATCH packet: the row is placed when its last packet has arrived (R487). -/
def takeRow (tile : Nat) (p : PeerPacket) (s : State) : State :=
  let s := giveStatus (fun c => matching 8 p c && decide (coMode c.words ≠ p.mode.val)) csTrainMode s
  let s := giveStatus (fun c => matching 8 p c && decide (coBytes c.words / 64 % 2 ^ 32 ≠ p.inc.toNat)) csMismatch s
  let l := s.coll.received.filter (sameRow p) ++ [p]
  let n := p.inc.toNat * 64
  if l.length < (pieces n).length then { s with coll := { s.coll with received := s.coll.received ++ [p] } }
  else
    let row := (pieces n).flatMap (fun off => match l.find? (fun q => decide (q.ctr.toNat = off / packetBytes)) with
      | some q => q.data
      | none => [])
    let s := { s with coll := { s.coll with received := s.coll.received.filter (fun q => !sameRow p q) } }
    match placeRow tile p row s with
    | (.inl st, s) => answer p st s
    | (.inr st, s) => answer p (16 * st) s

/-- The route of a DISPATCH that an ACK answers: the first without a status that goes to this address. -/
def routeAnswered (s : State) (c : CollCmd) (p : PeerPacket) : Option Nat :=
  (List.range (coCount c.words)).find? (fun i =>
    let w := routeWord s c.words i
    decide (returnAddr c.words w = p.addr.toNat) && decide (w.bits 55 48 = 0) && decide (xmModule (xmapWord s (w.bits 15 0)) = p.src.toNat))

/-- An ACK: the command's packet or route is answered (R481, R489). The outcome of a DISPATCH route is its STATUS, or 16 times the status that ends the
command; any other outcome than DONE is the command's. -/
def takeAck (p : PeerPacket) (s : State) : State :=
  let op := if p.expert.toNat = 8 then 7 else if p.expert.toNat = 5 then 8 else 9
  let mine := fun (c : CollCmd) => if op = 7 then decide (coOp c.words = 7) && decide (c.number = p.seq.toNat) else matching op p c
  match s.coll.queue.find? mine with
  | none => s
  | some c =>
    let d := { c with unacked := c.unacked.erase (ackKey p.addr.toNat p.src.toNat) }
    let s := setCmd c d s
    let s := if op = 8 && decide (16 ≤ p.inc.toNat) then giveStatus (fun x => decide (x = d)) (p.inc.toNat / 16) s
      else if op = 8 then
        (match routeAnswered s d p with
         | some i => routeStatus d i p.inc.toNat s
         | none => s)
      else if p.inc.toNat = csDone then s else giveStatus (fun x => decide (x = d)) p.inc.toNat s
    if op = 7 then settleAck d true s else s

/-- A packet that the engine takes, by its kind (R453). -/
def takeKind (n : Nat) (p : PeerPacket) (s : State) : State :=
  let tile := ((portSites s.part).getD n (0, 7)).1
  match p.kind.val with
  | 4 => takeContribution p s
  | 5 => takeRow tile p s
  | 6 =>
    let mine := fun (c : CollCmd) => decide (coOp c.words ≠ 7) && decide (coGroup c.words = p.group.toNat) && decide (c.number = p.seq.toNat)
    let s := { s with coll := { s.coll with received := s.coll.received ++ [p] } }
    giveStatus (fun c => mine c && decide (shapeStatus c p = some csMismatch)) csMismatch s
  | 7 => let r := resultHere tile p s; answer p r.1 r.2
  | 8 => let r := putHere tile p s; answer p r.1 r.2
  | 9 => takeAck p s
  | _ => s

/-- What a packet of this module writes (R353). -/
def packetRanges (s : State) (p : PeerPacket) : List (Nat × Nat) :=
  match p.kind.val with
  | 5 => slotRanges s p.expert.toNat (p.inc.toNat * 64)
  | 7 => [(p.addr.toNat, p.data.length)]
  | 8 => [(p.addr.toNat, p.data.length)]
  | _ => []

/-- The engine takes a packet for this module: stale LAUNCH, GROUP and EPOCH are dropped, and one of the next epoch is held, its credits with
it (R461, R475, R495). -/
def engineTake (n : Nat) (p : PeerPacket) (s : State) : State :=
  if staleLaunch s p then addReg (returnCredit n p s) pgColl 0x188 1
  else if p.kind.val = 4 && staleGroup s p then addReg (returnCredit n p s) pgColl 0x180 1
  else if p.epoch.toNat = curEpoch s then
    if (packetRanges s p).any (fun e => heldRange s e.1 e.2) then holdAccess (.packet n p) s else takeKind n p (returnCredit n p s)
  else if nextEpoch s = some p.epoch.toNat then { s with coll := { s.coll with heldPackets := s.coll.heldPackets ++ [(n, p)] } }
  else
    let s := addReg (returnCredit n p s) pgColl 0x190 1
    if stepRunning s then fault 8 csEpoch s else s

/-- PEER_PACKET_RECEIVE (R453, R458, R460): a COLL, DISPATCH, END, COMBINE, PUT or ACK packet at an ACTIVE port. A reserved KIND is dropped and
logged. -/
def peerReceive (n : Nat) (p : PeerPacket) (s : State) : State :=
  if linkOf s n ≠ lkActive || decide (p.kind.val < 4) then s
  else if 10 ≤ p.kind.val then logErr (pgPort n) errCommand p.kind.val (returnCredit n p s)
  else if p.dst.toNat ≠ ownCoord s then
    if 48 ≤ p.hops then addReg (returnCredit n p s) (pgPort n) 0x150 1
    else if peerExpired s p then addReg (returnCredit n p s) (pgPort n) 0x158 1
    else transit n p (returnCredit n p s)
  else if peerExpired s p then addReg (returnCredit n p s) (pgPort n) 0x158 1
  else engineTake n p s

def execPeerPacketReceive (port : Fin 6) (packet : PeerPacket) (s : State) : Out' := .next (peerReceive port.val packet s)

/-- PEER_SLOTTED_RECEIVE (R467, R468, R475): a SLOTTED packet waits for its injection slot, PEER_DELAY after the slot that TOKEN [23:10] names;
a packet for which the port's slotted buffer of 2,048 flits has no room is an overrun. -/
def slottedReceive (n : Nat) (p : PeerPacket) (s : State) : State :=
  if linkOf s n ≠ lkActive || decide (p.kind.val ≠ 3) then s
  else if staleLaunch s p then addReg s pgColl 0x188 1
  else if staleGroup s p then addReg s pgColl 0x180 1
  else
    let x := port s n
    let due := (p.token.toNat / 1024 + fldA s pgColl 0x130 35 32) % 2 ^ 14
    if 2048 < ((x.slotted.map (fun e => slottedFlits e.2)).sum + slottedFlits p) then overrun (portNode s n) (slottedFlits p) s else setPort s n { x with slotted := x.slotted ++ [(due, p)] }

def execPeerSlottedReceive (port : Fin 6) (packet : PeerPacket) (s : State) : Out' := .next (slottedReceive port.val packet s)

/-! ### Epoch switch (R494) -/

/-- EPOCH_SWITCH (R494): the held commands start, and the packets held for the epoch are taken. -/
def epochSwitch (value : Word) (s : State) : State :=
  let s := reservedWrite pgColl 0x148 1 value s
  let busy := s.coll.queue.any (fun c => decide (c.epoch = curEpoch s))
  match nextEpoch s with
  | some e =>
    if !value.bit 0 then s
    else if busy then addFld (logErr pgColl errState 0x148 s) pgColl 0x150 47 32 1
    else
      let s := setFld (setFld s pgColl 0x150 15 0 e) pgColl 0x140 16 16 0
      let l := s.coll.heldPackets
      let s := { s with coll := { s.coll with heldPackets := [], queue := s.coll.queue.map (fun c => { c with held := false }) } }
      l.foldl (fun s q => engineTake q.1 q.2 s) s
  | none => if value.bit 0 then addFld (logErr pgColl errState 0x148 s) pgColl 0x150 47 32 1 else s

def execEpochSwitch (value : Word) (s : State) : Out' := .next (epochSwitch value s)

end Sys2Proof.Machine
end

