-- ==== Sys2Proof/Machine/Slotted.lean ====
section
/-! DEFINITION. The slotted class as the step runs: one Beacon slot at a time (R421 to R428), with the slotted traffic of the peer ports (R467 to
R469). -/

namespace Sys2Proof.Machine

/-- Payload bytes of a slotted flit. -/
def flitBytes : Nat := 512

/-- Table index of a slot (R421): none when no slotted flit moves. -/
def tableIndex (t : SlotTable) (k : Nat) : Option Nat := if t.rep then some (k % t.period) else if k < t.period then some k else none

/-- Entries of the active table for the present slot. -/
def entriesNow (s : State) : List SlotEntry :=
  match activeTable s with
  | none => []
  | some t => match tableIndex t s.net.slotIndex with
    | some i => t.entries.filter (fun e => decide (e.slot = i))
    | none => []

/-- The descriptor of a stream of the active table. -/
def streamAt (s : State) (x : Nat) : Option StreamDesc := (activeTable s).bind (fun t => t.streams[x]?)

def srcCur (s : State) (x : Nat) : Nat := mget 0 s.net.srcCursor x
def dstCur (s : State) (x : Nat) : Nat := mget 0 s.net.dstCursor x

/-- Flits that a stream still has to send, at most n (R425). -/
def flitsLeft (s : State) (x n : Nat) : Nat :=
  match streamAt s x with
  | some d => min n ((d.bytes - srcCur s x) / flitBytes)
  | none => 0

/-- Take flits of a stream from its source: their bytes, and the source cursor moves (R425). -/
def takeSource (x n : Nat) (s : State) : List Byte × State :=
  match streamAt s x with
  | none => ([], s)
  | some d =>
    let a := d.src + srcCur s x
    let v := readMem s a (flitBytes * n)
    let s := { s with net := { s.net with srcCursor := mset 0 s.net.srcCursor x (srcCur s x + flitBytes * n) } }
    match poisonIn s false a (flitBytes * n) with
    | some line => (v, meetPoison line true s)
    | none => (v, s)

/-- Flits of an entry reach their destination: they are written, the destination cursor moves, and their number waits to be signalled (R425,
R426). -/
def putDest (x node : Nat) (v : List Byte) (s : State) : State :=
  match streamAt s x with
  | none => s
  | some d =>
    let a := d.dst + dstCur s x
    let s := putFlits (nodeTile node) a v s
    let key := 4096 * node + x
    { s with net := { s.net with
        dstCursor := mset 0 s.net.dstCursor x (dstCur s x + v.length)
        ejected := s.net.ejected ++ [(key, v.length / flitBytes)] } }

/-- The stream runs as a DETOUR stream (R428). -/
def isDetour (s : State) (x : Nat) : Bool := s.net.detours.contains x

/-- One injecting entry of a DETOUR stream: its bytes go to the destination's home as packets (R428). -/
def detourEntry (s : State) (e : SlotEntry) : State :=
  if e.inPort = 0 && isDetour s e.stream && !engineNode s e.node then
    let n := flitsLeft s e.stream e.count
    if n = 0 then s
    else
      let (v, s) := takeSource e.stream n s
      let node := match (streamAt s e.stream).bind (fun d => bushelAt s (d.dst + dstCur s e.stream)) with
        | some b => homeNode b
        | none => e.node
      putDest e.stream node v s
  else s

/-- Flits that wait at an input for a stream. -/
def bufferAt (l : List SlottedBuf) (node port stream : Nat) : Option SlottedBuf :=
  l.find? (fun b => decide (b.node = node) && decide (b.port = port) && decide (b.stream = stream))

/-- Flits arrive at an input. -/
def bufferPut (l : List SlottedBuf) (node port stream : Nat) (v : List Byte) : List SlottedBuf :=
  match bufferAt l node port stream with
  | some b => l.map (fun c => if c = b then { b with data := b.data ++ v } else c)
  | none => l ++ [⟨node, port, stream, v⟩]

/-- Slotted flits take steps of an output in the slot (R420). -/
def holdSteps (x : Node) (o n : Nat) (s : State) : State :=
  { s with net := { s.net with heldSteps := mset 0 s.net.heldSteps (8 * x + o) (mget 0 s.net.heldSteps (8 * x + o) + n) } }

/-- One entry that is not of a DETOUR stream: its flits come from the source or from the input's buffer, and go to the destination or to the
neighbour's input, where they stand for the next slot (R422, R425). A late node drops them (R49); a fenced node sends none, and those that a fenced
node or link should bring are lost (R437). -/
def moveEntry (late : List Nat) (acc : List SlottedBuf × State) (e : SlotEntry) : List SlottedBuf × State :=
  let next := acc.1
  let s := acc.2
  if e.cleared || isDetour s e.stream || nodeFenced s e.node then (next, s)
  else
    let (v, s) :=
      if e.inPort = 0 then
        if engineNode s e.node then ([], s) else takeSource e.stream (flitsLeft s e.stream e.count) s
      else match bufferAt s.net.buffers e.node e.inPort e.stream with
        | some b =>
          (b.data.take (flitBytes * e.count),
            { s with net := { s.net with buffers := s.net.buffers.map (fun c => if c = b then { b with data := b.data.drop (flitBytes * e.count) } else c) } })
        | none => ([], s)
    let n := v.length / flitBytes
    let s := if n = 0 then s else holdSteps e.node e.outPort n s
    if n = 0 then (next, s)
    else if e.outPort = 0 then
      if late.contains e.node then (next, overrun e.node n s)
      else (next, if engineNode s e.node then countFlits e.node 1 n s else putDest e.stream e.node v (countFlits e.node 1 n s))
    else match neighbour s e.node e.outPort with
      | none => (next, s)
      | some (y, i) =>
        let s := countBridge e.node e.outPort n (countFlits e.node 1 n s)
        if nodeFenced s y || linkDown s e.node e.outPort then (next, s)
        else if late.contains y then (next, overrun y n s) else (bufferPut next y i e.stream v, s)

/-- Slotted flits that a port can carry in one direction in the present slot: the counts of the entries that a test selects at its attachment, and no
more than floor(3 × LEN / 8) (R468). -/
def portBudget (s : State) (n : Nat) (f : SlotEntry → Bool) : Nat :=
  min (3 * slotLen s / 8) <| portSum (entriesNow s) (fun e => decide (e.node = portNode s n) && !e.cleared && f e)

/-- Packets that wait for a slot, taken in order while their flits fit. -/
def fitPackets : Nat → List PeerPacket → List PeerPacket × List PeerPacket
  | _, [] => ([], [])
  | k, p :: l =>
    if slottedFlits p ≤ k then
      let r := fitPackets (k - slottedFlits p) l
      (p :: r.1, r.2)
    else ([], p :: l)

/-- A SLOTTED packet is injected at its module: a member's command takes it, a forwarder sends it on by the port of the group's direction
(R467, R469). -/
def injectPeer (s : State) (p : PeerPacket) : State :=
  match groupOf s p.group.toNat with
  | none => addReg s pgColl 0x180 1
  | some g =>
    if gRole g.defn = 0 then takeContribution p s
    else { s with coll := { s.coll with slottedOut := s.coll.slottedOut ++ [(2 * (if gAxis g.defn = 3 then 0 else gAxis g.defn), p)] } }

/-- SLOTTED packets of a port that are due in this slot are injected; those that find no place in it, or missed their slot, are overruns
(R468). -/
def injectPort (s : State) (n : Nat) : State :=
  let k := s.net.slotIndex % 2 ^ 14
  let x := port s n
  let due := x.slotted.filter (fun e => decide (e.1 = k))
  let lateL := x.slotted.filter (fun e => decide (e.1 ≠ k) && decide ((k + 2 ^ 14 - e.1) % 2 ^ 14 < 2 ^ 13))
  let s := setPort s n { x with slotted := x.slotted.filter (fun e => !due.contains e && !lateL.contains e) }
  let r := fitPackets (portBudget s n (fun e => decide (e.inPort = 0))) (due.map (fun e => e.2))
  let s := r.1.foldl injectPeer s
  let lost := ((r.2 ++ lateL.map (fun e => e.2)).map slottedFlits).sum
  if lost = 0 then s else overrun (portNode s n) lost s

/-- SLOTTED packets leave by a port in the slot's flits that end at its attachment; TOKEN [23:10] names the slot (R467, R468). A DOWN port's
packets go as COLL packets (R466). -/
def ejectPort (s : State) (n : Nat) : State :=
  let mine := (s.coll.slottedOut.filter (fun e => decide (e.1 = n))).map (fun e => e.2)
  if mine.isEmpty then s
  else
    let down := decide (linkOf s n = lkDown) || decide (linkOf s n = lkDisabled)
    let r := if down then (mine, []) else fitPackets (portBudget s n (fun e => decide (e.outPort = 0))) mine
    let s := { s with coll := { s.coll with
      slottedOut := s.coll.slottedOut.filter (fun e => decide (e.1 ≠ n)) ++ r.2.map (fun p => (n, p)) } }
    r.1.foldl (fun s p =>
      if down then sendOwn { p with kind := 4 } s
      else sendPeer n { p with token := BitVec.ofNat 24 (p.token.toNat % 1024 + (s.net.slotIndex % 2 ^ 14) <<< 10), hops := p.hops + 1 } s) s

/-- BEACON_SLOT_BOUNDARY (R421, R422): a slot of the running step has begun, and its flits move; before that nothing happens. -/
def slotBoundary (late : List Nat) (s : State) : State :=
  if !stepLive s || decide (s.now < s.step.launch + s.net.slotIndex * slotLen s) then s
  else
    let s := { s with net := { s.net with heldSteps := [] } }
    let es := entriesNow s
    let s := (List.range 6).foldl injectPort s
    let s := (List.range 6).foldl ejectPort s
    let s := es.foldl detourEntry s
    let r := es.foldl (moveEntry late) ([], s)
    let s := r.2
    let left := s.net.buffers.filter (fun b => !b.data.isEmpty)
    { s with net := { s.net with
        buffers := left.foldl (fun l b => bufferPut l b.node b.port b.stream b.data) r.1
        slotIndex := s.net.slotIndex + 1 } }

def execBeaconSlotBoundary (late : List (Fin 320)) (s : State) : Out' := .next (slotBoundary (late.map (fun x => x.val)) s)

/-- Flits of a stream wait for the switch of their home: they have not been accepted there (R353, R426). -/
def flitsHeld (s : State) (node x : Nat) : Bool :=
  match streamAt s x with
  | some d => s.mem.held.any (fun h => match h with
    | .flits tile a _ => decide (tile = nodeTile node) && decide ((a + 2 ^ 48 - d.dst) % 2 ^ 48 < dstCur s x)
    | _ => false)
  | none => false

/-- STREAM_EJECT_SIGNAL (R426): the flits that an entry received in a slot, and that its home has accepted, are signalled. -/
def ejectSignal (node x : Nat) (s : State) : State :=
  match s.net.ejected.find? (fun e => decide (e.1 = 4096 * node + x) && !flitsHeld s node x) with
  | none => s
  | some e =>
    let n := e.2
    let s := { s with net := { s.net with ejected := s.net.ejected.erase e } }
    match streamAt s x with
    | some d => if d.syncEn then signal d.sync n (unitWho 4 (nodeTile node) 0 (some s.step.att)) (some s.step.att) s else s
    | none => s

def execStreamEjectSignal (node : Fin 320) (stream : Fin 4096) (s : State) : Out' :=
  if node.val < 40 * s.part.tiles then .next (ejectSignal node.val stream.val s) else .refused .noSuchUnit

end Sys2Proof.Machine
end

