-- ==== Sys2Proof/Machine/Counters.lean ====
section
/-! DEFINITION. Counter banks (R687 to R693) and the trace region (R694 to R702). -/

namespace Sys2Proof.Machine

/-! ### Counter banks -/

/-- Page that holds the bank registers of a page's bank (R688): a DCTR page's are DCTR0's. -/
def bankHome (p : PageRef) : PageRef := match p with | .device _ => pgDctr 0 | _ => p

/-- The page is one of DCTR1 to DCTR15, on which writes of bank registers are ignored and set STATE (R688). -/
def bankAlias (p : PageRef) : Bool := match p with | .device _ => decide (p ≠ pgDctr 0) | _ => false

/-- The page has a bank: TCTR or DCTRn. -/
def isBank (p : PageRef) : Bool := match pageBlock p with | some .tctr => true | some .dctr => true | _ => false

/-- Page and position of counter n of a bank (R687). -/
def bankSite (p : PageRef) (n : Nat) : PageRef × Nat :=
  match p with
  | .device _ => (pgDctr (Fin.ofNat 16 (n / 4)), n % 4)
  | _ => (p, n)

/-- CFG, value and WRAPS of counter n. -/
def bankCfg (s : State) (p : PageRef) (n : Nat) : Word := let e := bankSite p n; rd s e.1 (0x200 + 8 * e.2)
def bankValue (s : State) (p : PageRef) (n : Nat) : Word := let e := bankSite p n; rd s e.1 (0x400 + 8 * e.2)
def bankWraps (s : State) (p : PageRef) (n : Nat) : Nat := (bankCfg s p n).bits 63 48

/-- EPOCH of a bank. -/
def bankEpoch (s : State) (p : PageRef) : Nat := fld s (bankHome p) 0x108 31 0

/-- Reset every counter of a bank (R691). -/
def resetBank (p : PageRef) (s : State) : State :=
  let s := (List.range 64).foldl (fun s n =>
    let e := bankSite p n
    setFld (wr s e.1 (0x400 + 8 * e.2) 0) e.1 (0x200 + 8 * e.2) 63 48 0) s
  let h := bankHome p
  wr (setFld s h 0x108 31 0 (bankEpoch s p + 1)) h 0x118 (nowW s)

/-- The AUTO resets of a launch (R691): AUTO 1 at every launch, AUTO 2 at the first launch of a step. -/
def autoReset (first : Bool) (s : State) : State :=
  let one := fun (s : State) (p : PageRef) =>
    let a := fld s p 0x100 1 0
    if a = 1 || (a = 2 && first) then resetBank p s else s
  one ((tilesOf s).foldl (fun s t => one s (pgTctr t)) s) (pgDctr 0)

/-- A write of a bank register takes effect on the page that holds it. -/
def onBank (p : PageRef) (off : Nat) (f : State → State) (s : State) : State :=
  if !isBank p then s else if bankAlias p then logErr p errState off s else f s

/-- COUNTER_BANK_RESET (R691). -/
def bankResetStore (p : PageRef) (value : Word) (s : State) : State :=
  onBank p 0x110 (fun s =>
    let s := reservedWrite p 0x110 1 value s
    if value.bit 0 then resetBank p s else s) s

def execCounterBankReset (page : PageRef) (value : Word) (s : State) : Out' := atPage s page (bankResetStore page value)

/-- SAMPLE_SEL_WRITE (R692). -/
def sampleStore (p : PageRef) (value : Word) (s : State) : State :=
  onBank p 0x120 (fun s =>
    let s := reservedWrite p 0x120 (bm 5 0) value s
    let n := value.bits 5 0
    let s := wr s p 0x120 (word n)
    let s := wr s p 0x128 (bankValue s p n)
    let s := wr s p 0x130 (word (bankEpoch s p + bankWraps s p n <<< 32))
    wr s p 0x138 (nowW s)) s

def execSampleSelWrite (page : PageRef) (value : Word) (s : State) : Out' := atPage s page (sampleStore page value)

/-- The bytes of a snapshot record (R693). -/
def snapRecord (s : State) (p : PageRef) : List Byte :=
  let dev := match p with | .device _ => true | _ => false
  let head := [word (bankEpoch s p + pageTileNo p <<< 32 + b2n dev <<< 35), nowW s, 0, 0, 0, 0, 0, 0]
  let body := (List.range 64).flatMap (fun n =>
    [bankValue s p n, word (bankWraps s p n + (bankCfg s p n).bits 31 0 <<< 32)])
  (head ++ body).flatMap (fun w => leBytes w.toNat 8)

/-- SNAP (R692): the capture; the record is on its way until SNAP_DONE. A disabled bank ignores it and logs STATE (R611). -/
def snapStore (p : PageRef) (value : Word) (s : State) : State :=
  onBank p 0x148 (fun s =>
    let s := reservedWrite p 0x148 1 value s
    if !value.bit 0 then s
    else if (rd s p 0x150).bit 0 || !(rd s p 0x010).bit 0 then logErr p errState 0x148 s
    else
      let a := fld s p 0x140 47 6 * 64
      if rangeOpen s a 1088 then
        { wr s p 0x150 1 with snaps := minsert (pageBase p) (a, snapRecord s p) s.snaps }
      else logErr p errCommand 0x148 (wr s p 0x150 2)) s

def execSnap (page : PageRef) (value : Word) (s : State) : Out' := atPage s page (snapStore page value)

/-- SNAP_DONE (R692): the record is accepted at its home. -/
def snapDone (p : PageRef) (s : State) : State :=
  match mfind s.snaps (pageBase p) with
  | none => s
  | some (a, v) =>
    let s := storeHome (pageTileNo p) a v { s with snaps := merase (pageBase p) s.snaps }
    setFld s p 0x150 0 0 0

def execSnapDone (page : PageRef) (s : State) : Out' := atPage s page (snapDone page)

/-! ### Trace -/

/-- Streams of the part: tiles, and the device stream. -/
def traceStreams (s : State) : List Nat := (tilesOf s).map (fun t => t.val) ++ [devStream]

/-- A FULL_TIME record to every stream that is enabled (R697). -/
def fullTimes (s : State) : State :=
  (traceStreams s).foldl (fun s i => if traceOn s i then tracePush s i (fullTimeRec s i) else s) s

/-- TRACE_CTRL_WRITE (R697, R700, R701): tracing that is enabled starts each stream with FULL_TIME; EN without a region is ignored and sets
STATE. -/
def traceCtrlStore (value : Word) (s : State) : State :=
  let m := bm 1 0 + bm 28 16 + bm 63 32
  let s := reservedWrite pgTrace 0x110 m value s
  if value.bit 0 && !(rd s pgTrace 0x118).bit 0 then logErr pgTrace errState 0x110 s
  else
    let was := (rd s pgTrace 0x110).bit 0
    let s := wr s pgTrace 0x110 (value &&& word m)
    if value.bit 0 && !was then fullTimes s else s

def execTraceCtrlWrite (value : Word) (s : State) : Out' := .next (traceCtrlStore value s)

/-- TRACE_MARK (R696, R700): a MARKER in the device stream. ENABLE 0 makes the block ignore it and log STATE (R611). -/
def markStore (r : Requester) (value : Word) (s : State) : State :=
  if !(rd s pgTrace 0x010).bit 0 then logErr pgTrace errState 0x120 s
  else trace devStream 3 value (reqWho s r) 0 s

def execTraceMark (r : Requester) (value : Word) (s : State) : Out' := byReq s r (markStore r value)

/-- TTRACE_MARK (R696, R702): a MARKER in the tile's stream. -/
def tileMarkStore (r : Requester) (t : Fin 8) (value : Word) (s : State) : State :=
  if !(rd s (pgTtrace t) 0x010).bit 0 then logErr (pgTtrace t) errState 0x100 s
  else trace t.val 3 value (reqWho s r) 0 s

def execTtraceMark (r : Requester) (tile : Fin 8) (value : Word) (s : State) : Out' := byAt s r tile (tileMarkStore r tile value)

/-- B: bushels of a stream (R694, R700). -/
def streamBushels (s : State) : Nat := fld s pgTrace 0x118 63 32

/-- TRACE_FIFO_WRITE (R695, R698, R700): the oldest record of a stream's FIFO is written to its stream. -/
def fifoWrite (i : Nat) (s : State) : State :=
  let f := traceOf s i
  match f.records with
  | [] => s
  | r :: rest =>
    let s := traceHigh (setTrace s i { f with records := rest }) i
    let k := streamNo s i
    let size := streamBushels s * 65536
    let n := (rd s pgTrace (0x130 + 8 * k)).toNat
    if !(rd s pgTrace 0x118).bit 0 || decide (size = 0) then traceLose s i 1
    else if (rd s pgTrace 0x110).bit 1 && decide (size ≤ n) then
      traceLose (setFld s pgTrace 0x118 (1 + k) (1 + k) 1) i 1
    else
      let a := (fldA s pgTrace 0x100 47 21 + k * streamBushels s) * 2 ^ 21 + n % size * 32
      addReg (storeHome (i % 8) a (r.flatMap (fun w => leBytes w.toNat 8)) s) pgTrace (0x130 + 8 * k) 1

def execTraceFifoWrite (stream : Fin 9) (s : State) : Out' :=
  if stream.val = devStream || decide (stream.val < s.part.tiles) then .next (fifoWrite stream.val s) else .refused .noSuchUnit

/-- TRACE_FULL_TIME_TICK (R697): once at each Beacon multiple of 2^30; at any other time nothing happens. -/
def fullTimeTick (s : State) : State :=
  if s.now % 2 ^ 30 ≠ 0 then s
  else (traceStreams s).foldl (fun s i =>
    if traceOn s i && decide ((traceOf s i).ticked ≠ some s.now) then
      tracePush (setTrace s i { traceOf s i with ticked := some s.now }) i (fullTimeRec s i)
    else s) s

def execTraceFullTimeTick (s : State) : Out' := .next (fullTimeTick s)

/-- COUNTER records of the counters of one bank with TRACE 1 (R696). -/
def sampleBank (p : PageRef) (i : Nat) (s : State) : State :=
  (List.range 64).foldl (fun s n =>
    if (bankCfg s p n).bit 28 then
      trace i 9 (bankValue s p n)
        (word (n + b2n (decide (i = devStream)) <<< 6 + bankWraps s p n <<< 16 + bankEpoch s p <<< 32))
        (word ((bankCfg s p n).bits 31 0)) s
    else s) s

/-- The counters are due to be sampled: once at each Beacon multiple of SAMPLE_PERIOD, in BT µs (R696, R700). -/
def sampleDue (s : State) : Bool :=
  let n := fld s pgTrace 0x110 63 32 * 1000
  decide (n ≠ 0) && decide (s.now % n = 0) && decide ((traceOf s devStream).sampled ≠ some s.now)

/-- TRACE_SAMPLE_TICK (R696): COUNTER records of every bank; at any other time nothing happens. -/
def sampleTick (s : State) : State :=
  if !sampleDue s then s
  else
    let s := setTrace s devStream { traceOf s devStream with sampled := some s.now }
    sampleBank (pgDctr 0) devStream ((tilesOf s).foldl (fun s t => sampleBank (pgTctr t) t.val s) s)

def execTraceSampleTick (s : State) : Out' := .next (sampleTick s)

/-- TTRACE_STAT_READ (R702): the register, and the most records is reset. -/
def readTtraceStat (t : Fin 8) (s : State) : State := reply (rd s (pgTtrace t) 0x128) (setFld s (pgTtrace t) 0x128 26 16 (fld s (pgTtrace t) 0x128 10 0))

def execTtraceStatRead (tile : Fin 8) (s : State) : Out' := atTile s tile (readTtraceStat tile)

end Sys2Proof.Machine
end

