-- ==== Sys2Proof/Machine/Switch.lean ====
section
/-! DEFINITION. The switch of a migrated bushel's home, and the accesses that it holds (R353 to R355, R358). -/

namespace Sys2Proof.Machine

/-! ### Switch of a move (R353, R354) -/

/-- The move of a bushel. -/
def moveOf (s : State) (n : Nat) : Option Move := s.mem.moves.find? (fun m => decide (m.bushel = n))

/-- The tile whose streaming engine has the copy of a move at the front of its queue (R378). -/
def copyFront (s : State) (n : Nat) : Option (Fin 8) :=
  (tilesOf s).find? (fun t => match streamQ s t.val with
    | c :: _ => decide (c.move = some n) && !streamLost s t
    | [] => false)

/-- Drop a move. -/
def endMove (s : State) (n : Nat) : State :=
  let s := dropCopyCmds (fun b => decide (b = n)) s
  { s with mem := { s.mem with moves := s.mem.moves.filter (fun m => decide (m.bushel ≠ n)) } }

/-- Replace a move. -/
def setMove (s : State) (m : Move) : State :=
  { s with mem := { s.mem with moves := s.mem.moves.map (fun x => if x.bushel = m.bushel then m else x) } }

/-- CM_STAT.EVACUATING of a fenced cluster memory ends when its last bushel has left (R396). -/
def endEvacuating (b : Bushel) (s : State) : State :=
  if b.tier = 0 && !(s.mem.bushels.any (fun e => decide (e.2.tier = 0) && decide (e.2.tile = b.tile) && decide (e.2.cluster = b.cluster))) then
    setFld s (.cluster ⟨Fin.ofNat 8 b.tile, Fin.ofNat 24 b.cluster⟩) 0x300 9 9 0
  else s

/-- One held access is served, or goes on being held for another switch; a read's answer is kept. -/
def serveHeld (s : State) (x : HeldAccess) : State :=
  match x with
  | .write a v => cxlWrite a v s
  | .packet n p => engineTake n p s
  | .flits tile a v => putFlits tile a v s
  | .read a n caches =>
    if heldRange s a n then holdAccess x s
    else
      let s := serveRead a n caches s
      { s with out := { s.out with released := s.out.released ++ [s.out.reply] } }

/-- The held accesses are released, in their order (R353, R354). -/
def releaseHeld (s : State) : State :=
  if s.mem.held.isEmpty then s
  else s.mem.held.foldl serveHeld { s with mem := { s.mem with held := [] }, out := { s.out with released := [] } }

/-- A gathered bushel exists only in the window: its copy goes with it (R365). -/
def relabelCopy (n : Nat) (m : Move) (k : Nat) (s : State) : State :=
  { s with mem := { s.mem with copies := s.mem.copies.map (fun c =>
      if c.gathered && decide (c.bushel = n) then { c with tile := m.tile, stack := k } else c) } }

/-- Stack or place that a bushel takes where a move brings it. -/
def movePlace (m : Move) (s : State) : Nat := if m.tier = 0 then nextPlace s m.tile m.cluster else m.stack

/-- The copy of a move reads the old home: a poisoned line is copied as poisoned, and counts as read (R358). -/
def copyReads (m : Move) (s : State) : State :=
  let lines := s.mem.poison.filter (fun l => decide (l / 32768 = m.bushel))
  lines.foldl (fun s l => countPoison l s) (homeTraffic false m.tile (m.bushel * 2 ^ 21) (2 ^ 21) s)

/-- A switch ends: the map is switched, the copy is in its new home, and the held accesses are released to it (R353). -/
def finishSwitch (m : Move) (s : State) : State :=
  let old := mfind s.mem.bushels m.bushel
  let place := movePlace m s
  let s := endMove s m.bushel
  let s := relabelCopy m.bushel m place (switchHome m.bushel (m.tier, m.tile, m.cluster) place m.trigger (s.now - m.start) s)
  let s := homeTraffic true m.tile (m.bushel * 2 ^ 21) (2 ^ 21) s
  let s := match old with
    | some b => endEvacuating b s
    | none => s
  pinMoves (releaseHeld s)

/-- Lines of a bushel that the host holds. -/
def heldLines (s : State) (n : Nat) : List Nat := s.mem.snoop.filter (fun l => decide (l / 32768 = n))

/-- MIGRATION_SWITCH (R353, R378): the copy at the front of its engine's queue has read the old home and is complete; accesses are held and
back-invalidate snoops sent. With none to send the map switches at once. -/
def migrationSwitch (n : Nat) (s : State) : State :=
  match moveOf s n with
  | none => s
  | some m =>
    if m.switching || (copyFront s n).isNone then s
    else
      let s := dropCopyCmds (fun b => decide (b = n)) (copyReads m s)
      let ls := heldLines s n
      if ls.isEmpty then finishSwitch m s
      else event pgHostif 0x101 ls.length (setMove s { m with switching := true, snoops := ls, since := s.now })

def execMigrationSwitch (bushel : BitVec 27) (s : State) : Out' := .next (migrationSwitch bushel.toNat s)

/-- BISNP_RESPONSE (R353): the host no longer holds a line; dirty data is stored at the old home. The last response ends the switch. -/
def bisnpResponse (n line : Nat) (dirty : Option (List Byte)) (s : State) : State :=
  let l := 32768 * n + line
  let s := match dirty with
    | some v => if attrOf s (64 * l) = .memory then storeHome 0 (64 * l) (v.take 64) s else s
    | none => s
  let s := setSnoop s (s.mem.snoop.filter (fun x => decide (x ≠ l)))
  match moveOf s n with
  | none => s
  | some m =>
    if !m.switching then s
    else
      let m := { m with snoops := m.snoops.filter (fun x => decide (x ≠ l)) }
      if m.snoops.isEmpty then finishSwitch m s else setMove s m

def execBisnpResponse (bushel : BitVec 27) (line : Fin 32768) (dirty : Option (List Byte)) (s : State) : Out' :=
  .next (bisnpResponse bushel.toNat line.val dirty s)

/-- HOSTIF.BI_TIMEOUT in BT ns (R580). -/
def biLimit (s : State) : Nat := 1000 * min 100000 (max 10 (fld s pgHostif 0x108 31 0))

/-- BI_TIMEOUT (R354): a switch whose snoops are not all answered in time is abandoned, and the held accesses are served at the old home. -/
def biTimeout (n : Nat) (s : State) : State :=
  match moveOf s n with
  | some m =>
    if m.switching && decide (m.since + biLimit s ≤ s.now) then releaseHeld (event pgHostif 0x100 1 (endMove s n)) else s
  | none => s

def execBiTimeout (bushel : BitVec 27) (s : State) : Out' := .next (biTimeout bushel.toNat s)

end Sys2Proof.Machine
end

