-- ==== Sys2Proof/Machine/Launch.lean ====
section
/-! DEFINITION. Effective launches (R64, R76 to R80, R252, R264, R305, R428, R435, R500, R503, R566, R568), the sheaf (R504 to R508) and its redo
(R538, R539). -/

namespace Sys2Proof.Machine

/-! ### The sheaf -/

/-- Bytes that a sheaf's CRC covers, from its header words, keepers and tallies (R505): words 0x38 and 0x40 do not count. -/
def sheafCrcBytes (b : List Byte) : List Byte := b.take 0x38 ++ b.drop 0x48

/-- A sheaf without its CRC (R505, R506, R508). -/
def sheafBody (s : State) (n : Nat) : List Byte :=
  let x := slot s n
  let kn := keeperCount s
  let tn := tallyCount s
  let head := leBytes (1 + n <<< 8 + (x.gen % 2 ^ 16) <<< 16 + curEpoch s <<< 32) 8
    ++ leBytes (stepNumber s) 8 ++ leBytes (rd s pgStep 0x180).toNat 8 ++ leBytes x.effLaunch.toNat 8
    ++ leBytes (fld s pgFoghorn 0x120 31 0 + fld s pgFoghorn 0x128 31 0 <<< 32) 8
    ++ leBytes (fld s pgFoghorn 0x130 31 0 + kn <<< 32) 8 ++ leBytes (tn + x.config.bits 31 8 <<< 24) 8
  let keepers := (listEntries s (keeperAddr s) kn).flatMap (fun a => readMem s a 64)
  let tallies := (listEntries s (tallyAddr s) tn).flatMap (fun a => leBytes a 8 ++ leBytes 0 8 ++ readMem s (a + 0x100) 256)
  head ++ List.replicate (0x100 - 0x38) 0 ++ keepers ++ tallies

/-- A sheaf with its CRC in word 0x40. -/
def sheafBytes (s : State) (n : Nat) : List Byte :=
  let b := sheafBody s n
  b.take 0x40 ++ leBytes (crc32c (sheafCrcBytes b)) 8 ++ b.drop 0x48

/-- SHEAF_WRITE (R504): the step's sheaf is written into its log slot. -/
def writeSheaf (n : Nat) (s : State) : State :=
  let a := sheafSlot s (stepNumber s)
  let v := sheafBytes s n
  let s := if rangeMemory s a v.length then storeHome 0 a v s else s
  { s with step := { s.step with sheafDone := true, sheafAddr := a } }

/-- `STEP.REDO` (R538): EN, and the address of the sheaf. -/
def redoOn (s : State) : Bool := (rd s pgStep 0x160).bit 0
def redoAddr (s : State) : Nat := fld s pgStep 0x160 47 6 * 64

/-- Keeper and tally counts of a sheaf in memory, and its length. -/
def sheafKeepers (s : State) (a : Nat) : Nat := (rd64 s (a + 0x28)).bits 47 32
def sheafTallies (s : State) (a : Nat) : Nat := (rd64 s (a + 0x30)).bits 15 0
def sheafLenAt (s : State) (a : Nat) : Nat := 256 + 64 * sheafKeepers s a + 272 * sheafTallies s a

/-- The sheaf at an address can be redone (R539): its CRC holds and its weight version is the present one. -/
def redoOk (s : State) (a : Nat) : Bool :=
  let n := sheafLenAt s a
  rangeMemory s a 256 && rangeMemory s a n && (poisonIn s false a n).isNone
  && decide ((rd64 s (a + 0x40)).toNat = crc32c (sheafCrcBytes (readMem s a n)))
  && decide (rd64 s (a + 0x10) = rd s pgStep 0x180)

/-- A poisoned line of the sheaf that REDO names counts as it is read (R358). -/
def redoPoison (s : State) : State :=
  let a := redoAddr s
  match (if rangeMemory s a 256 then poisonIn s false a (sheafLenAt s a) else none) with
  | some line => countPoison line s
  | none => s

/-- Write back what a sheaf holds (R538): keeper blocks, SCALE fields and Foghorn's values. -/
def restoreSheaf (a : Nat) (s : State) : State :=
  let kn := sheafKeepers s a
  let ks := (listEntries s (keeperAddr s) (min kn (keeperCount s)))
  let put := fun (s : State) (e : Nat × List Byte) => if rangeMemory s e.1 e.2.length then storeHome 0 e.1 e.2 s else s
  let keepers := (ks.zip (List.range ks.length)).map (fun e => (e.1, readMem s (a + 0x100 + 64 * e.2) 64))
  let base := a + 0x100 + 64 * kn
  let tallies := (List.range (sheafTallies s a)).map (fun i =>
    ((rd64 s (base + 272 * i)).bits 47 0 + 0x100, readMem s (base + 272 * i + 16) 256))
  let md := rd64 s (a + 0x20)
  let c := rd64 s (a + 0x28)
  let s := (keepers ++ tallies).foldl put s
  let s := wr s pgFoghorn 0x120 (word (md.bits 31 0))
  let s := wr s pgFoghorn 0x128 (word (md.bits 63 32))
  wr s pgFoghorn 0x130 (word (c.bits 31 0))

/-- The sheaf named by REDO becomes the step's sheaf. -/
def takeRedo (s : State) : State :=
  let a := redoAddr s
  let s := setFld (restoreSheaf a s) pgStep 0x178 15 15 1
  { s with step := { s.step with sheafDone := true, sheafAddr := a } }

/-! ### Slots that do not launch -/

/-- The notice of R530: this module takes no part in the step launched at a time. -/
def lostNotice (launch : Nat) (s : State) : State :=
  sendNotice s ⟨launch, relaunchTime s, 13, 0, BitVec.ofNat 12 (ownCoord s), 0⟩

/-- A fault with which a placed slot ends at its launch: SOURCE 2 and the code; a step records it and its notice tells the peers (R522, R523,
R565). `code'` and `info` are what `STEP.FAULT` and the notice carry. -/
def launchFault (n code code' info : Nat) (s : State) : State :=
  let x := slot s n
  let s := if runsStep x then
      let s := recordFault s code' info (ownCoord s) s.now
      sendNotice s ⟨x.effLaunch.toNat, relaunchTime s, code', 1, BitVec.ofNat 12 (ownCoord s), info⟩
    else s
  endSlot (closeStep n (dropPlacement n s)) n .faulted 2 code

/-- The servo is FREE, ACQUIRE or UNLOCKED (R64). -/
def unlocked (s : State) : Bool := decide (servo s ≠ svLocked) && decide (servo s ≠ svHoldover)

/-- A placement whose slot does not launch, but is placed again: its tags and shadow bushels are freed; the tasks stay, ended, for PIN_CTRL.MODE 0b10
(R327). -/
def keepPlacement (n : Nat) (s : State) : State :=
  let s := retireTags s n
  let s := { s with tasks := s.tasks.map (fun t => if t.slot = n then { t with state := .ended } else t) }
  endCursor n (freeShadows n (dequeue s n))

/-- A launch that arrives while the servo is unlocked does not take place (R64). -/
def launchUnlocked (n : Nat) (s : State) : State :=
  let x := slot s n
  if !runsStep x then launchFault n 3 3 0 s
  else if fldA s pgStep 0x100 3 0 ≤ x.replays then launchFault n 3 19 3 s
  else
    let s := recordFault s 3 0 (ownCoord s) s.now
    let l := relaunchTime s
    let s := sendNotice s ⟨x.effLaunch.toNat, l, 3, 0, BitVec.ofNat 12 (ownCoord s), 0⟩
    let s := keepPlacement n s
    armReplay { s with step := { s.step with slot := some n, launch := x.effLaunch.toNat } } n l

/-- Another step slot keeps this one from launching (R568). -/
def stepInWay (s : State) (n : Nat) : Bool :=
  s.slots.any (fun e => decide (e.1 ≠ n) && runsStep e.2 && (decide (e.2.state = .running) || decide (e.2.state = .draining)
    || (decide (e.2.state = .launched) && decide (e.1 < n) && decide (e.2.effLaunch = (slot s n).effLaunch))))

/-- Shadow bushels of a slot for which its placement found no place on a tile. -/
def shadowMissing (s : State) (n t : Nat) : Nat := ((mget [] s.mem.shadowWant n).filter (fun e => decide (e.2 = t))).length

/-- A tile is short of shadow bushels for the slot, beside those of the other slots (R255). -/
def shadowShort (s : State) (n : Nat) : Bool :=
  (tilesOf s).any (fun t => decide (shadowMissing s n t.val ≠ 0) && decide (shadowLimit < shadowCount s t.val + shadowMissing s n t.val))

/-- PEER_DELAY obeys R467 under the active slot length. -/
def peerDelayOk (torus : Word) (len : Nat) : Bool :=
  let len := max 1 len
  decide (2 + (308 + torus.bits 31 24 + len - 1) / len ≤ torus.bits 35 32)

/-- R435, R500. -/
def tableMismatch (s : State) : Bool :=
  (match activeTable s with
    | some t => decide (t.len ≠ slotLen s) || decide (t.work ≠ fldA s pgBeacon 0x128 31 16) || decide (t.guard ≠ fldA s pgBeacon 0x128 47 32)
    | none => false) || !peerDelayOk (rdA s pgColl 0x130) (slotLen s)

/-! ### The launch of a step -/

/-- Moves of committed bushels that have not switched are abandoned at a launch, and no other starts before the next commit (R321). What was held is
served at the old homes. -/
def abandonMoves (s : State) : State :=
  let stays := fun (m : Move) => decide (m.trigger = 5) || !committedAt s (m.bushel * 2 ^ 21)
  let gone := (s.mem.moves.filter (fun m => !stays m)).map (fun m => m.bushel)
  let s := dropCopyCmds gone.contains s
  releaseHeld { s with
    mem := { s.mem with moves := s.mem.moves.filter stays }
    granger := { s.granger with afterCommit := false } }

/-- Bushels of an expert (R323). -/
def expertBushels (s : State) (e : Nat) : List (Nat × Bushel) := s.mem.bushels.filter (fun b => decide (b.2.expert = some e))

/-- The bushel's home lies on a tile: pooled memory lies on none. -/
def onTile (t : Nat) (b : Bushel) : Bool := decide (b.tile = t) && decide (b.tier ≠ 3)

/-- An expert's table entry changes at the first launch after all its bushels have switched; an abandoned move leaves it (R325). -/
def settleExpert (s : State) (m : Nat × Nat) : State :=
  let l := expertBushels s m.1
  let drop := fun (s : State) => { s with granger := { s.granger with expertMoves := s.granger.expertMoves.filter (fun x => decide (x.1 ≠ m.1)) } }
  if l.any (fun b => moving s b.1) then s
  else if l.all (fun b => onTile m.2 b.2) then
    drop { s with granger := { s.granger with expertTile := minsert m.1 m.2 s.granger.expertTile } }
  else drop s

/-- A counter at a step's launch: a STEP counter is rebased, and no counter has an owner yet (R264). -/
def rebaseCtr (c : Counter) : Counter :=
  if c.cfg.bit 0 then { c with base := c.value, orphan := false, owner := 0 } else { c with owner := 0 }

/-- The counters that a task's signal entries own take it as their owner. -/
def ownCounters (s : State) (t : Task) : State :=
  (t.sigs.filter (fun g => g.bit 19)).foldl (fun s g => setCtr s (g.bits 18 0) { ctr s (g.bits 18 0) with owner := taskWho t }) s

/-- Every STEP counter is rebased, and every counter takes the owner that the step's tasks name (R264). -/
def rebase (s : State) (n : Nat) : State :=
  let s : State := { s with ctrs := s.ctrs.map (fun e => (e.1, rebaseCtr e.2)) }
  (s.tasks.filter (fun t => decide (t.slot = n) && decide (t.piece = 0))).foldl ownCounters s

/-- A stream's home no longer lies at a node that injects or ejects it (R428). -/
def streamStrays (s : State) (t : SlotTable) (x : Nat) : Bool :=
  match t.streams[x]? with
  | none => false
  | some d => t.entries.any (fun e => decide (e.stream = x) && !engineNode s e.node
      && ((decide (e.inPort = 0) && !rangeAtNode s e.node d.src d.bytes) || (decide (e.outPort = 0) && !rangeAtNode s e.node d.dst d.bytes)))

/-- Cursors return to 0, and the step's DETOUR streams are found (R425, R428, R438). -/
def launchNet (s : State) : State :=
  let ds := match activeTable s with
    | some t => (List.range t.streams.length).filter (fun x => streamStrays s t x || s.net.clearedStreams.contains x)
    | none => []
  let s := addReg s (pgNet 0) 0x168 ds.length
  { s with net := { s.net with buffers := [], srcCursor := [], dstCursor := [], ejected := [], detours := ds, slotIndex := 0, heldSteps := [] } }

/-- The shadow bushels of the slot's placement serve the step (R255, R256); those that found no place then have one now. -/
def launchShadows (s : State) (n : Nat) : State :=
  let want := mget [] s.mem.shadowWant n
  let s := want.foldl (allocShadow n) { s with mem := { s.mem with shadowWant := merase n s.mem.shadowWant } }
  let l := mget [] s.mem.shadowAlloc n
  refreshShadowUse { s with mem := { s.mem with bushels := s.mem.bushels.map (fun e =>
    (e.1, { e.2 with shadow := (l.find? (fun p => decide (p.1 = e.1))).map (fun p => p.2.1) })) } }

/-- A task of a step that its tensor's train mode skips (R231): weight-gradient tasks of a PASS tensor and optimiser tasks of a PASS or
DISCARD tensor. -/
def skipped (s : State) (t : Task) : Bool :=
  let role := t.ctrl.bits 11 8
  let mode := trainMode s (t.ctrl.bits 47 32)
  (decide (role = 2) && decide (mode = 2)) || (decide (role = 3) && (decide (mode = 1) || decide (mode = 2)))

/-- The slot's tasks launch: each takes the attempt's ATT and waits (R241, R252). -/
def launchTasks (s : State) (n : Nat) (att : Option Nat) : State :=
  { s with tasks := s.tasks.map (fun t => if t.slot = n then { t with att := att, state := .waiting, waitIx := 0 } else t) }

/-- What the tasks of a launched slot set off: a skipped task ends SKIPPED, any other tests its first wait entry. -/
def launchTodo (s : State) (n : Nat) : List Todo :=
  (s.tasks.filter (fun t => decide (t.slot = n))).map (fun t =>
    if t.att.isSome && skipped s t then .endTask (taskKey t) 2 0 0 false none else .test (taskKey t))

/-- Step control's fields at a launch with attempt number `att` (R252, R503). -/
def launchCtl (c : StepCtl) (n launch att : Nat) : StepCtl :=
  { c with
    att := att, slot := some n, launch := launch, lastAdvance := some launch, faulted := none, deferred := 0, lossWritten := false, nfSeen := false
    voted := false, barrierDone := false, relaunch := none, noticeCount := 0, commitFail := false, coreEnds := [], workSamples := [] }

/-- At an effective launch, moves are abandoned and the expert tile table follows the moves that have switched (R321, R325). -/
def settleMoves (s : State) : State :=
  let s := abandonMoves s
  s.granger.expertMoves.foldl settleExpert s

/-- The signals of a slot's cursor that were held until the launch, with the new ATT (R373). -/
def heldArrivals (s : State) (n att : Nat) : List Todo :=
  match cursorOf s n with
  | some c => c.held.map (fun h => Todo.signal h.1 1 (unitWho h.2.1 h.2.2 0 (some att)) (some att))
  | none => []

/-- No signal of a slot's cursor is held any more. -/
def releaseArrivals (n : Nat) (s : State) : State :=
  match cursorOf s n with
  | some c => setCursor { c with held := [] } s
  | none => s

/-- The launch of a step's attempt (R503). -/
def launchStep (n : Nat) (s : State) : State :=
  let x := slot s n
  let first := !x.launchedOnce
  let att := (s.step.att + 1) % 256
  let s := if first || !s.step.sheafDone then (if redoOn s then takeRedo s else writeSheaf n s) else s
  let s := { s with step := launchCtl s.step n x.effLaunch.toNat att }
  let s := launchTasks s n (some att)
  let s := rebase s n
  let s := wr s pgFoghorn 0x138 0
  let s := launchNet (launchShadows s n)
  let s := clearRows { s with coll := { s.coll with numbersAtLaunch := s.coll.numbers, passed := [] } }
  let s := setSlot s n { slot s n with
    state := .running, att := att, stepNo := word (stepNumber s), ended := 0, loss := 0, launchedOnce := true }
  let s := setPhase s phRunning
  let held := heldArrivals s n att
  let s := releaseArrivals n { s with power := { s.power with stepsSeen := true } }
  run (launchTodo s n ++ held) s

/-- The launch of a slot that is not a step (R566, R567). -/
def launchPlain (n : Nat) (s : State) : State :=
  let s := launchTasks s n none
  let s := setSlot s n { slot s n with state := .running, ended := 0 }
  run (launchTodo s n) s

/-- R252: launches that advance ATT lie at least 1 BT µs apart; the time at which this one may take place. -/
def launchAfter (s : State) (eff : Nat) : Nat :=
  match s.step.lastAdvance with
  | some t => if eff < t + 1000 then ceilTo (max 1 (slotLen s)) (t + 1000) else eff
  | none => eff

/-- A placed slot reaches its effective launch. -/
def launchPlaced (n : Nat) (s : State) : State :=
  let x := slot s n
  let step := runsStep x
  let eff := x.effLaunch.toNat
  if (s.net.rewriteDue && decide (x.replays ≠ 0)) then s
  else if step && stepInWay s n then endSlot (closeStep n (dropPlacement n s)) n .faulted 3 2
  else if unlocked s then launchUnlocked n s
  else if step && shadowShort s n then refuseSlot n ⟨rfShadowLimit, 0, 0, none⟩ s
  else if tableMismatch s then launchFault n 17 17 0 s
  else if step && !x.launchedOnce && redoOn s && !redoOk s (redoAddr s) then launchFault n 20 20 0 (redoPoison s)
  else if step && decide (eff < launchAfter s eff) then setSlot s n { x with effLaunch := word (launchAfter s eff) }
  else
    let s := autoReset (step && !x.launchedOnce) s
    let s := settleMoves (wr s pgBeacon 0x148 x.effLaunch)
    if x.taskCount = 0 then endSlot (dropPlacement n s) n .done 0 0
    else if step then launchStep n s
    else launchPlain n s

/-- The launch time, if it has come, that a module without a part in the step owes a notice at (R530). -/
def lostDue (s : State) (n : Nat) : Option (Nat × Nat) :=
  let x := slot s n
  match s.step.lost.find? (fun e => decide (e.1 = n) && decide (e.2 ≤ s.now)) with
  | some e => if (decide (x.state = .armed) || decide (x.state = .launched)) && decide (x.effLaunch.toNat < e.2) then none else some e
  | none => none

/-- A slot whose placement has not ended at its launch (R305, R528). -/
def launchLate (n : Nat) (s : State) : State :=
  let x := slot s n
  let s := refuseSlot n ⟨rfPlaceLate, 0, 0, none⟩ s
  if runsStep x then lostNotice x.effLaunch.toNat s else s

/-- EFFECTIVE_LAUNCH (R64, R78): the module's counter has reached a slot's effective launch time; before that nothing happens. -/
def effectiveLaunch (n : Nat) (s : State) : State :=
  match lostDue s n with
  | some e => lostNotice e.2 { s with step := { s.step with lost := s.step.lost.filter (fun l => decide (l ≠ e)) } }
  | none =>
    if s.now < (slot s n).effLaunch.toNat then s
    else match (slot s n).state with
    | .armed => launchLate n s
    | .launched => if (stranded s n).isEmpty then launchPlaced n s else launchLate n s
    | _ => s

def execEffectiveLaunch (slot : Fin 64) (s : State) : Out' := .next (effectiveLaunch slot.val s)

/-- The slot of a step that waits for its relaunch (R526). -/
def replaySlot (s : State) : Option Nat :=
  (s.slots.find? (fun e => runsStep e.2 && decide (e.2.replays ≠ 0) && (decide (e.2.state = .armed) || decide (e.2.state = .launched)))).map
    (fun e => e.1)

/-- RELAUNCH (R526): the Beacon reaches L′. -/
def relaunch (s : State) : State :=
  match replaySlot s with
  | some n => effectiveLaunch n s
  | none => s

def execRelaunch (s : State) : Out' := .next (relaunch s)

end Sys2Proof.Machine
end

