-- ==== Sys2Proof/Machine/Recovery.lean ====
section
/-! DEFINITION. The commit gate and the commit (R186, R257, R510 to R515), Foghorn (R516, R517), faults and notices (R521 to R530), checkpoints
(R531 to R536), restore and redo (R537, R538, R544). -/

namespace Sys2Proof.Machine

/-! ### Foghorn -/

/-- FP32 values of Foghorn's registers. -/
def fhMean (s : State) : Lane := BitVec.ofNat 32 (fld s pgFoghorn 0x120 31 0)
def fhDev (s : State) : Lane := BitVec.ofNat 32 (fld s pgFoghorn 0x128 31 0)
def fhCount (s : State) : Nat := fld s pgFoghorn 0x130 31 0
def fhLossMax (s : State) : Lane := BitVec.ofNat 32 (fldA s pgFoghorn 0x108 31 0)
def fhOn (s : State) : Bool := (rdA s pgFoghorn 0x100).bit 0
def fhShift (s : State) : Nat := min 12 (fldA s pgFoghorn 0x100 11 8)
def fhWarmup (s : State) : Nat := fldA s pgFoghorn 0x100 31 16
def fhSpike (s : State) : Nat := fldA s pgFoghorn 0x100 47 32

/-- 2^(−n), and n / 16, as FP32. -/
def twoTo (n : Nat) : Lane := toF32 (.fin false 1 (-(n : Int)))
def sixteenths (n : Nat) : Lane := toF32 (.fin false n (-4))

/-- Magnitude of a lane. -/
def fabs (x : Lane) : Lane := x &&& 0x7FFFFFFF

/-- Verdict states and reasons (R520). -/
def vdPass : Nat := 1
def vdFail : Nat := 2
def frNonfinite : Nat := 1
def frSpike : Nat := 2
def frCeiling : Nat := 3
def frNoLoss : Nat := 4
def frReported : Nat := 5

/-- The judgement of a loss (R516): none for PASS, else the reason. -/
def judge (s : State) (x : Lane) : Option Nat :=
  if s.step.nfSeen then some frReported
  else if !(f32 x).isFin then some frNonfinite
  else if !(f32 (fhLossMax s)).isZero && nlt (f32 (fhLossMax s)) (f32 x) then some frCeiling
  else if decide (fhWarmup s ≤ fhCount s) && decide (fhSpike s ≠ 0)
      && nlt (f32 (fmul (sixteenths (fhSpike s)) (fmax (fhDev s) (fmul (fabs (fhMean s)) (twoTo 6))))) (f32 (fsub x (fhMean s))) then
    some frSpike
  else none

/-- VERDICT changes, with the slot's copy of it (R520, R558). -/
def setVerdict (state reason loss : Nat) (s : State) : State :=
  let v := word (state + reason <<< 2 + loss <<< 32)
  let s := wr s pgFoghorn 0x138 v
  match s.step.slot with
  | some n => setSlot s n { slot s n with loss := v }
  | none => s

/-- The FOGHORN trace record (R696). -/
def traceVerdict (s : State) : State :=
  trace devStream 10 (rd s pgFoghorn 0x138) (word ((fhMean s).toNat + (fhDev s).toNat <<< 32)) (word (fhCount s)) s

/-- Foghorn fails the attempt (R516, R517). -/
def foghornFail (reason loss : Nat) (s : State) : State :=
  let s := setVerdict vdFail reason loss s
  let s := traceVerdict (event pgFoghorn 0x100 1 (addReg s pgFoghorn 0x140 1))
  fault 15 reason s

/-- The requester's write belongs to another attempt than the present one (R516). -/
def otherAttempt (s : State) (r : Requester) : Bool :=
  match reqAtt s r with
  | some a => decide (a ≠ s.step.att)
  | none => false

/-- FOGHORN_LOSS (R516). -/
def foghornLoss (r : Requester) (value : Word) (s : State) : State :=
  let s := reservedWrite pgFoghorn 0x110 (bm 31 0) value s
  if otherAttempt s r then s
  else if phase s ≠ phRunning || s.step.lossWritten then logErr pgFoghorn errState 0x110 s
  else
    let x : Lane := BitVec.ofNat 32 (value.bits 31 0)
    let s := { s with step := { s.step with lossWritten := true } }
    if !fhOn s then setVerdict 0 0 x.toNat s
    else
      match judge s x with
      | some reason => foghornFail reason x.toNat s
      | none => traceVerdict (setVerdict vdPass 0 x.toNat s)

def execFoghornLoss (r : Requester) (value : Word) (s : State) : Out' := byReq s r (foghornLoss r value)

/-- NF_REPORT (R516, R517). -/
def nfReport (r : Requester) (value : Word) (s : State) : State :=
  let s := reservedWrite pgFoghorn 0x118 1 value s
  if otherAttempt s r || !value.bit 0 then s
  else if phase s ≠ phRunning && decide (phase s ≠ phVoted) && decide (phase s ≠ phCommitting) then logErr pgFoghorn errState 0x118 s
  else if !fhOn s || s.step.nfSeen then s
  else
    let s := { s with step := { s.step with nfSeen := true } }
    foghornFail frReported (fld s pgFoghorn 0x138 63 32) s

def execNfReport (r : Requester) (value : Word) (s : State) : Out' := byReq s r (nfReport r value)

/-- Foghorn's update at the commit (R516, R517): a step of FP32 operations. -/
def foghornCommit (s : State) : State :=
  if (rdA s pgFoghorn 0x100).bit 1 || !s.step.lossWritten then s
  else
    let x : Lane := BitVec.ofNat 32 (fld s pgFoghorn 0x138 63 32)
    let k := twoTo (fhShift s)
    let e := fsub x (fhMean s)
    let first := decide (fhCount s = 0)
    let mean := if first then x else fadd (fhMean s) (fmul e k)
    let dev := if first then 0 else fadd (fhDev s) (fmul (fsub (fabs e) (fhDev s)) k)
    let n := fhCount s
    let s := wr s pgFoghorn 0x120 (word mean.toNat)
    let s := wr s pgFoghorn 0x128 (word dev.toNat)
    wr s pgFoghorn 0x130 (word (sat 32 (n + 1)))

/-! ### The vote (R510 to R512) -/

/-- STAGE codes (R543). -/
def sgEmpty : Nat := 0
def sgCopying : Nat := 1
def sgBusy : Nat := 2
def sgKept : Nat := 3

def stage (s : State) : Nat := fld s pgStep 0x178 14 13
def setStage (s : State) (v : Nat) : State := setFld s pgStep 0x178 14 13 v

/-- Words of step control's barrier (R485). -/
def barrierWords (s : State) : List Word :=
  let g := rdA s pgColl 0x138
  [word (5 + g.bits 11 0 <<< 12 + g.bits 19 12 <<< 24 + 0xFFFF <<< 32), 0, 0, 0, 0, 0, 0, 0]

/-- The module votes. -/
def vote (n : Nat) (s : State) : State :=
  if stepGroupOn s && decide (collDepth ≤ s.coll.queue.length) then s
  else
    let s := { s with step := { s.step with voted := true, barrierDone := !stepGroupOn s } }
    let s := setPhase (setSlot s n { slot s n with state := .draining }) phVoted
    if stepGroupOn s then
      collEnter none (barrierWords s) (some s.step.att) (unitWho 5 (groupTile s (barrierWords s)) 0 (some s.step.att)) none s
    else s

/-- STEP_VOTE (R510, R517): every task of the step has ended; the conditions are tested, and while only the stage copy is outstanding the vote
waits. -/
def stepVote (s : State) : State :=
  match s.step.slot with
  | none => s
  | some n =>
    if (slot s n).state ≠ .running || !slotTasksEnded s n then s
    else if s.step.deferred ≠ 0 then fault 6 0 { s with step := { s.step with deferred := 0 } }
    else if fhOn s && !s.step.lossWritten then foghornFail frNoLoss 0 s
    else if stage s = sgCopying then s
    else vote n s

def execStepVote (s : State) : Out' := .next (stepVote s)

/-! ### The commit (R513, R514) -/

/-- Write back the dirty L1 lines of every core that ran a task of a slot (R571). -/
def flushSlot (n : Nat) (s : State) : State :=
  ((s.tasks.filter (fun t => decide (t.slot = n))).map (fun t => coreIdx t.core)).foldl
    (fun s i => l1Flush s (coreAt i) (fun _ => true) false) s

/-- Bushels that the step has written in shadow lines. -/
def changedBushels (s : State) : List Nat := s.mem.shadowLines.foldl (fun l x => setInsert (x / 32768) l) []

/-- A shadow line becomes the committed line; a poisoned one becomes poisoned (R257, R357, R514). -/
def adoptLine (s : State) (line : Nat) : State :=
  let v := (addrs (64 * line) 64).map (fun a => mget emptyByte s.mem.shadowBytes a)
  let s := writeMem s (64 * line) v
  if s.mem.shadowPoison.contains line then poisonLine s line else s

/-- The commit changed a bushel: that is its version (R234). -/
def noteVersion (s : State) (n : Nat) : State :=
  { s with coll := { s.coll with versions := minsert n ((rd s pgStep 0x180).toNat + 1) s.coll.versions } }

/-- Codec blocks of a bushel, if a compressed tier stores it, are coded anew, and it may grow (R345, R349). -/
def recode (n : Nat) (blocks : List Nat) (s : State) : State :=
  match mfind s.mem.bushels n with
  | none => s
  | some b => if b.tier < 2 then s else growBushel (blocks.foldl (fun s i => codeBlock n i s) s) n

/-- A changed bushel: its version is the commit's, its unwritten lines merge in the background, and a compressed one may grow (R234, R257, R349). -/
def adoptBushel (s : State) (n : Nat) : State :=
  let lines := s.mem.shadowLines.filter (fun l => decide (l / 32768 = n))
  let s := match mfind s.mem.bushels n with
    | some b => setBushel s n { b with merging := 32768 - lines.length }
    | none => s
  recode n (lines.foldl (fun l x => setInsert (x % 32768 / 64) l) []) (noteVersion s n)

/-- Step 2 of the commit. -/
def adoptShadows (s : State) : State :=
  let bad := !s.mem.shadowPoison.isEmpty
  let ns := changedBushels s
  let s := s.mem.shadowLines.foldl adoptLine s
  let s := ns.foldl adoptBushel s
  { s with step := { s.step with commitFail := s.step.commitFail || bad } }

/-- A lane, and a word, of memory at its home: the commit updates tally records there, whatever copy the window holds (R186, R366). -/
def rdLane (s : State) (a : Nat) : Lane := BitVec.ofNat 32 (leNat ((addrs a 4).map (memRd s)))
def homeWord (s : State) (a : Nat) : Word := word (leNat ((addrs a 8).map (memRd s)))
def wrLane (s : State) (a : Nat) (v : Lane) : State := writeMem s a (leBytes v.toNat 4)

/-- The least power of two of FP32 at or above a positive finite value; where FP32 has none, and for 0, the result is free (R186). -/
def nextPow2 (x : Lane) : Lane :=
  let b := x.toNat
  if b = 0 || decide (0x7F000000 < b) then Config.vfunc 10 x
  else if b < 2 ^ 23 then BitVec.ofNat 32 (if 2 ^ Nat.log2 b = b then b else 2 ^ (Nat.log2 b + 1))
  else if b % 2 ^ 23 = 0 then x else BitVec.ofNat 32 ((b / 2 ^ 23 + 1) * 2 ^ 23)

/-- The greatest finite value of a list, 0 if there is none (R186). -/
def greatest (l : List Num) : Num :=
  match l.filter Num.isFin with
  | [] => .fin false 0 0
  | a :: t => t.foldl (fun m x => if nlt m x then x else m) a

/-- The new scale of a row, if its history gives one (R186). -/
def newScale (fmt margin : Nat) (pow2 : Bool) (vals : List Num) : Option Lane :=
  match greatest vals, decodeFmt (fmtOf fmt) (fmaxBits (fmtOf fmt)) with
  | .fin false m e, .fin _ k q =>
    if m = 0 then none
    else
      let x : Lane := BitVec.ofNat 32 (roundIeee fmtFp32 .near false m k (e + margin - q))
      some (if pow2 then nextPow2 x else x)
  | _, _ => none

/-- One row of a tally record: its history entry, skips and scale (R186). -/
def tallyRow (a n h fmt margin : Nat) (pow2 : Bool) (s : State) (r : Nat) : State :=
  let s := wrLane s (a + 0x300 + 0x100 * h + 4 * r) (rdLane s (a + 0x200 + 4 * r))
  let s := wrLane s (a + 0x200 + 4 * r) 0
  let vals := (List.range n).map (fun i => f32 (rdLane s (a + 0x300 + 0x100 * i + 4 * r)))
  let skips := min 0xFFFF ((homeWord s a).bits 63 48 + (vals.filter (fun v => !v.isFin)).length)
  let s := wr64 s a (setBits (homeWord s a) 63 48 skips)
  match newScale fmt margin pow2 vals with
  | some x => wrLane s (a + 0x100 + 4 * r) x
  | none => s

/-- A tally record is updated (R186). -/
def tallyRecord (a : Nat) (s : State) : State :=
  let h := homeWord s a
  let n := h.bits 3 0 + 1
  let head := if h.bits 7 4 < n then h.bits 7 4 else 0
  let s := (List.range (h.bits 38 32)).foldl (tallyRow a n head (h.bits 12 8) (h.bits 23 20) (h.bit 16)) s
  wr64 s a (setBits (homeWord s a) 7 4 ((head + 1) % n))

/-- A tally record's FMT or ROWS is out of range (R186). -/
def tallyRefused (s : State) (a : Nat) : Bool :=
  let h := homeWord s a
  decide (h.bits 12 8 < 2) || decide (6 < h.bits 12 8) || decide (h.bits 38 32 = 0) || decide (64 < h.bits 38 32)

/-- TALLY_COMMIT for one entry of the tally list. A record that cannot be read or written fails the commit and stays (R514); one whose FMT or
ROWS is out of range is refused (R186). -/
def tallyCommit (s : State) (e : Nat × Nat) : State :=
  let a := e.2
  if !rangeMemory s a tallySize then { s with step := { s.step with commitFail := true } }
  else
    match (linesOf a tallySize).find? (fun l => s.mem.poison.contains l) with
    | some line => countPoison line { s with step := { s.step with commitFail := true } }
    | none =>
      if tallyRefused s a then event pgStep 0x104 1 (logErr pgStep errCommand e.1 s)
      else
        let s := (bushelsOf a tallySize).foldl noteVersion (tallyRecord a s)
        (pagesOf a tallySize).foldl (fun s x => recode (bushelNo x) [x / 4096 % 512] s) s

/-- Bushels with a tally record that the commit updates. -/
def tallyBushels (s : State) : List Nat :=
  ((listEntries s (tallyAddr s) (tallyCount s)).filter (fun a => rangeMemory s a tallySize && !tallyRefused s a
    && ((linesOf a tallySize).find? (fun l => s.mem.poison.contains l)).isNone)).flatMap (fun a => bushelsOf a tallySize)

/-- Step 3 of the commit. -/
def tallyCommits (s : State) : State :=
  let l := listEntries s (tallyAddr s) (tallyCount s)
  ((List.range l.length).zip l).foldl tallyCommit s

/-! ### Evidence (R296, R298, R324) -/

/-- A filter step x ← x + (m − x) >> shift. -/
def filterTo (x m shift : Nat) : Nat := ((x : Int) + ((m : Int) - x) / (2 ^ shift : Nat)).toNat

/-- Entries of the (TENSOR, ROLE) table (R298). -/
def workEntries : Nat := 4096

/-- A pair's sample: a new pair takes it, replacing the least recently updated entry of a full table. -/
def noteWork (tc : Nat) (l : List (Nat × Nat)) (e : Nat × Nat) : List (Nat × Nat) :=
  match l.find? (fun p => decide (p.1 = e.1)) with
  | some p => l.filter (fun q => decide (q.1 ≠ e.1)) ++ [(e.1, filterTo p.2 e.2 tc)]
  | none => (if workEntries ≤ l.length then l.drop 1 else l) ++ [e]

/-- Samples of the attempt by pair: beats, tokens. -/
def pairSums (l : List (Nat × Nat × Nat)) : List (Nat × Nat × Nat) :=
  l.foldl (fun m e =>
    match mfind m e.1 with
    | some p => minsert e.1 (p.1 + e.2.1, p.2 + e.2.2) m
    | none => minsert e.1 e.2 m) []

/-- Work evidence at the commit (R296). -/
def commitWork (s : State) : State :=
  if (rdA s (pgGranger 0) 0x100).bit 3 then s
  else
    let tc := fldA s (pgGranger 0) 0x110 15 12
    { s with granger := { s.granger with
      work := (pairSums s.step.workSamples).foldl (fun l e => noteWork tc l (e.1, e.2.1 / max 1 e.2.2)) s.granger.work } }

/-- Experts that an entry of a map keyed by 8 × expert + tile names. -/
def expertsOf (m : List (Nat × Nat)) : List Nat := m.foldl (fun l e => setInsert (e.1 / 8) l) []

/-- Share of tile t in the tokens for an expert, in 1/65,536. -/
def tokenShare (m : List (Nat × Nat)) (e t : Nat) : Nat :=
  let total := ((m.filter (fun p => decide (p.1 / 8 = e))).map (fun p => p.2)).sum
  mget 0 m (8 * e + t) * 65536 / max 1 total

/-- The shares of an expert after the step (R296). An expert without tokens in the step keeps its shares. -/
def shareExpert (s : State) (e : Nat) : State :=
  let tc := fldA s (pgGranger 0) 0x110 19 16
  (tilesOf s).foldl (fun s t =>
    let key := 8 * e + t.val
    { s with granger := { s.granger with
      shares := mset 0 s.granger.shares key (filterTo (mget 0 s.granger.shares key) (tokenShare s.coll.tokens e t.val) tc) } }) s

/-- The tile of an expert's highest share, the lowest first. -/
def topShare (s : State) (e : Nat) : Nat :=
  ((tilesOf s).map (fun t => t.val)).foldl
    (fun a t => if mget 0 s.granger.shares (8 * e + a) < mget 0 s.granger.shares (8 * e + t) then t else a) 0

/-- A tile pin holds an expert (R323). -/
def expertPinned (s : State) (e : Nat) : Bool := (expertBushels s e).any (fun b => b.2.tilePin.isSome)

/-- Candidates to move (R324): difference, expert, target, in the order of the choice. -/
def expertCandidates (s : State) : List (Nat × Nat × Nat) :=
  let l := s.granger.expertTile.filterMap (fun e =>
    let b := topShare s e.1
    let d := mget 0 s.granger.shares (8 * e.1 + b) - mget 0 s.granger.shares (8 * e.1 + e.2)
    if !expertPinned s e.1 && decide (fldA s (pgGranger 0) 0x128 7 0 * 256 < d)
        && decide (nearUsed s b * 256 ≤ hiWater s * nearCapOf s b)
        && !(s.granger.expertMoves.any (fun m => decide (m.1 = e.1))) then some (d, e.1, b)
    else none)
  sortBy (fun e => 65536 - e.1) l

/-- An expert's bushels start to move, those that Granger may migrate (R319 code 4, R320, R325), with an EXPERT_MOVE record (R336, R338). -/
def moveExpert (s : State) (c : Nat × Nat × Nat) : State :=
  let s := (expertBushels s c.2.1).foldl (fun s b =>
    if onTile c.2.2 b.2 || !mayMigrate s b.1 b.2 then s else startMove s b.1 (1, c.2.2, 0) 4) s
  let old := mget 0 s.granger.expertTile c.2.1
  let share := fun t => sat 16 (mget 0 s.granger.shares (8 * c.2.1 + t))
  let s := report 0 6 0 s.step.att (word (c.2.1 % 65536 + old <<< 16 + c.2.2 <<< 19)) (word (share c.2.2 + share old <<< 16)) s
  { s with granger := { s.granger with expertMoves := s.granger.expertMoves ++ [(c.2.1, c.2.2)] } }

/-- Expert evidence (R296). -/
def commitShares (s : State) : State :=
  let s := if (rdA s (pgGranger 0) 0x100).bit 2 then s else (expertsOf s.coll.tokens).foldl shareExpert s
  { s with coll := { s.coll with tokens := [] } }

/-- Expert moves at the commit (R324); they start once the attempt has ended (R321). -/
def commitMoves (s : State) : State :=
  if (rdA s (pgGranger 0) 0x100).bit 2 then s
  else ((expertCandidates s).take (fldA s (pgGranger 0) 0x128 15 8)).foldl moveExpert s

/-! ### Checkpoints (R531 to R535) -/

/-- Intervals K, M, N (R543). -/
def ckptK (s : State) : Nat := fldA s pgStep 0x118 15 0
def ckptM (s : State) : Nat := fldA s pgStep 0x118 31 16
def ckptN (s : State) : Nat := fldA s pgStep 0x118 47 32

/-- A non-zero interval divides a step number. -/
def due (j k : Nat) : Bool := decide (k ≠ 0) && decide (j % k = 0)

/-- What a checkpoint step j is due to: 1 partner, 2 flash, 4 store, 8 the step itself; 0 for any other step. -/
def ckptBits (s : State) (j : Nat) : Nat :=
  let b := b2n (due j (ckptK s)) + 2 * b2n (due j (ckptM s)) + 4 * b2n (due j (ckptN s))
  if b = 0 then 0 else b + 8

/-- Partner (R535, R543). -/
def partnerOn (s : State) : Bool := (rdA s pgStep 0x138).bit 12
def partnerCoord (s : State) : Nat := fldA s pgStep 0x138 11 0
def partnerBase (s : State) : Nat := fldA s pgStep 0x140 47 21 * 2 ^ 21
def partnerSize (s : State) : Nat := fldA s pgStep 0x150 63 32 * 2 ^ 21
def stageBase (s : State) : Nat := fldA s pgStep 0x148 47 21 * 2 ^ 21
def stageSize (s : State) : Nat := fldA s pgStep 0x150 31 0 * 2 ^ 21

/-- Committed bushels, rising. -/
def committedBushels (s : State) : List (Nat × Bushel) := s.mem.bushels.filter (fun e => e.2.committed)

/-- Bushels that the manifest of b entries takes. -/
def manifestBushels (b : Nat) : Nat := (16 * b + 2 ^ 21 - 1) / 2 ^ 21

/-- Length of an image of b bushels (R532). -/
def imageLen (b : Nat) : Nat := (1 + manifestBushels b + b) * 2 ^ 21

/-- The stage can hold the image: its bushels are MEMORY and not committed (R531). -/
def stageFits (s : State) : Bool :=
  let n := imageLen (committedBushels s).length
  decide (n ≤ stageSize s) && rangeOpen s (stageBase s) n

/-- The stage copy of checkpoint step j starts, or is deferred while the stage is busy (R531, R534). A stage that cannot hold the image takes
none, and COMMAND is set. -/
def startCkpt (j : Nat) (s : State) : State :=
  let new := ckptBits s j
  let b := s.step.ckptDue ||| new
  if b = 0 then s
  else if stage s = sgBusy || decide (stage s = sgCopying) then
    addFld { s with step := { s.step with ckptDue := b } } pgStep 0x178 63 32 1
  else
    let s := { s with step := { s.step with ckptDue := 0 } }
    if !stageFits s then logErr pgStep errCommand 0 s
    else
      let s := setFld (setStage s sgCopying) pgStep 0x1A0 31 0 0xFFFFFFFF
      { s with step := { s.step with
        stageStep := j, duePartner := b.testBit 0 && partnerOn s, dueFlash := b.testBit 1, dueStore := b.testBit 2 } }

/-- A PUT of bytes of this module to the partner, at low priority and with LAUNCH 0 (R533, R535). -/
def partnerPut (src dst n : Nat) (s : State) : State :=
  let ws := [word 7, word src, word dst, word ((n + 63) / 64 * 64), 0, word (partnerCoord s), 0, 0]
  collEnter none ws none (unitWho 5 0 0 none) none s

/-- The sheaf-log copy lies at the end of the partner area, after the image buffers (R535; DESIGN CHOICE, log entry 28). -/
def sheafCopyBase (s : State) : Nat := partnerBase s + partnerSize s - logSlots s * logSlotBytes s

/-- The committed step's sheaf is sent to the partner (R535). -/
def sendSheaf (j : Nat) (s : State) : State :=
  if partnerOn s then
    partnerPut s.step.sheafAddr (sheafCopyBase s + j % max 1 (logSlots s) * logSlotBytes s) (sheafLenAt s s.step.sheafAddr) s
  else s

/-- Copies of changed bushels and gathered bushels leave the window (R374). -/
def dropChanged (ns : List Nat) (s : State) : State := dropWindow (fun c => c.gathered || ns.contains c.bushel) s

/-- The slot ends DONE, or FAULTED with COMMIT_FAIL (R513 step 7, R514). -/
def finishCommit (n j : Nat) (s : State) : State :=
  let bad := s.step.commitFail
  let used := attemptsUsed s
  let s := sheafEnd s (if bad then 2 else 1) used
  let s := sendSheaf j s
  let s := wr s pgStep 0x198 (nowW s)
  let s := if bad then (if s.step.faulted.isNone then recordFault s 22 0 (ownCoord s) s.now else s) else s
  let s := if bad then endSlot (setFld s pgStep 0x178 12 12 1) n .faulted 2 22 else endSlot s n .done 0 0
  let s := setFld (setFld s pgStep 0x178 11 8 0) pgStep 0x178 15 15 0
  let s := wr s pgStep 0x160 (setBits (rd s pgStep 0x160) 0 0 0)
  let s := event pgStep 0x103 1 s
  let s := { s with
    step := { s.step with
      slot := none, relaunch := none, faulted := none, sheafDone := false, voted := false, barrierDone := false }
    granger := { s.granger with afterCommit := true } }
  setPhase (endCursor n s) (restPhase s n)

/-- STEP_COMMIT (R513): mark S has been reached. -/
def stepCommit (s : State) : State :=
  match s.step.slot with
  | none => s
  | some n =>
    if !s.step.voted || !s.step.barrierDone || decide ((slot s n).state ≠ .draining) then s
    else
      let s := setPhase s phCommitting
      let lost := s.mem.unusable
      let s := flushSlot n s
      let ns := changedBushels s
      let j := stepNumber s
      let s := freeShadows n (adoptShadows s)
      let ns := ns ++ tallyBushels s
      let s := tallyCommits s
      let s := foghornCommit s
      let s := addReg s pgStep 0x180 1
      let s := commitShares (commitWork s)
      let s := dropChanged ns s
      let s := { s with
        coll := { s.coll with gatherLog := [] }
        step := { s.step with commitFail := s.step.commitFail || decide (s.mem.unusable ≠ lost) } }
      let bad := s.step.commitFail
      let s := pinMoves (commitMoves (finishCommit n j (retireTags s n)))
      if bad then s else startCkpt j s

def execStepCommit (s : State) : Out' := .next (stepCommit s)

/-! ### Faults, notices and timeouts -/

/-- FAULT_REPORT (R261, R522). -/
def faultReport (code info : Nat) (deferred : Bool) (s : State) : State :=
  if deferred then takeDeferred s else if code = 0 then s else fault code info s

def execFaultReport (code : Fin 27) (info : BitVec 32) (deferred : Bool) (s : State) : Out' :=
  .next (faultReport code.val info.toNat deferred s)

/-- The end of a slot whose attempt is not live: its placement is dropped and the slot ends FAULTED, with the notice's code and origin in
`STEP.FAULT` (R526). -/
def endWaiting (n cls code info origin : Nat) (s : State) : State :=
  let s := recordFault s code info origin s.now
  let s := endSlot (closeStep n (dropPlacement n s)) n .faulted 2 code
  if cls = 2 then setFld s pgStep 0x178 12 12 1 else s

/-- A notice moves a slot that waits for its launch to L′, or ends it (R524, R526, R527). -/
def noticeWaiting (n : Nat) (m : Notice) (s : State) : State :=
  let s := sendNotice s m
  if m.classOf = 0 then
    let s := { s with step := { s.step with relaunch := if s.step.slot = some n then some m.relaunch else s.step.relaunch } }
    setSlot s n { slot s n with effLaunch := word m.relaunch }
  else endWaiting n m.classOf m.code m.info m.origin.toNat s

/-- The first notice of the present attempt is adopted: the attempt is discarded (R524, R526, R529). -/
def noticeLive (n : Nat) (m : Notice) (s : State) : State :=
  let limit := decide (m.classOf = 0) && decide (fldA s pgStep 0x100 3 0 ≤ (slot s n).replays)
  let code := if limit then 19 else m.code
  let info := if limit then m.code else m.info
  let cls := if limit then 1 else m.classOf
  let s := if s.step.faulted.isNone then recordFault s code info m.origin.toNat s.now else s
  let s := sendNotice s m
  let (s, l) := discard s n cls code m.relaunch
  run l s

/-- A step slot that is armed for the attempt of a notice and has not launched it (R527). -/
def armedFor (s : State) (launch : Nat) : Option Nat :=
  (s.slots.find? (fun e => runsStep e.2 && (decide (e.2.state = .armed) || decide (e.2.state = .launched))
    && decide (e.2.effLaunch.toNat = launch) && !e.2.launchedOnce)).map (fun e => e.1)

/-- A notice that no attempt of this module takes: a module that aborted the attempt owes its own notice at L′ (R569); any other drops it
(R461). -/
def noticeNone (m : Notice) (s : State) : State :=
  match s.step.aborted with
  | some (n, l) =>
    if l = m.launch then
      sendNotice { s with step := { s.step with aborted := none, lost := s.step.lost ++ [(n, m.relaunch)] } } m
    else addReg s pgColl 0x188 1
  | none => addReg s pgColl 0x188 1

/-- DISCARD_NOTICE (R512, R524). -/
def discardNotice (m : Notice) (s : State) : State :=
  let stale := noticeNone m s
  match s.step.slot with
  | some n =>
    if s.step.launch ≠ m.launch then
      (match armedFor s m.launch with | some k => noticeWaiting k m s | none => stale)
    else if stepLive s then (if s.step.barrierDone then stale else noticeLive n m s)
    else
      match s.step.relaunch with
      | some l => if l < m.relaunch then noticeWaiting n m s else stale
      | none => stale
  | none => match armedFor s m.launch with | some k => noticeWaiting k m s | none => stale

def execDiscardNotice (notice : Notice) (s : State) : Out' := .next (discardNotice notice s)

/-- The time limit of a step in BT ns (R543). -/
def stepLimit (s : State) : Nat := 1000000 * max 1000 (fldA s pgStep 0x110 31 0)

/-- STEP_TIMEOUT (R512, R530): L + STEP_TIMEOUT is reached; before that nothing happens. -/
def stepTimeout (s : State) : State :=
  match s.step.slot with
  | none => s
  | some n =>
    if !stepLive s || s.step.barrierDone || decide (s.now < s.step.launch + stepLimit s) then s
    else if s.step.voted then
      let s := if s.step.faulted.isNone then recordFault s 23 0 (ownCoord s) s.now else s
      let (s, l) := discard s n 2 23 0
      run l s
    else fault 14 0 s

def execStepTimeout (s : State) : Out' := .next (stepTimeout s)

/-! ### The stage and its consumers -/

/-- Low 32 bits of a tensor PLACE word that gives a bushel's pins and marks (R532). -/
def placeOf (b : Bushel) : Nat :=
  (match b.tierPin with | some t => 1 + t <<< 1 | none => 0) + (match b.tilePin with | some t => 8 + t <<< 4 | none => 0)
  + (match b.clusterPin with | some c => 128 + c <<< 8 | none => 0) + b2n b.committed <<< 13 + b.hint <<< 14
  + (match b.expert with | some e => e <<< 16 | none => 0)

/-- The manifest (R532). -/
def manifest (l : List (Nat × Bushel)) : List Byte := l.flatMap (fun e => leBytes (e.1 + placeOf e.2 <<< 32) 8 ++ leBytes 0 8)

/-- The header of an image (R532). -/
def imageHeader (s : State) (j : Nat) (l : List (Nat × Bushel)) : List Byte :=
  leBytes (1 + ownCoord s <<< 8 + curEpoch s <<< 32) 8 ++ leBytes j 8
  ++ leBytes ((fhMean s).toNat + (fhDev s).toNat <<< 32) 8 ++ leBytes (fhCount s + l.length <<< 32) 8
  ++ leBytes (imageLen l.length) 8 ++ leBytes (crc32c (manifest l)) 8

/-- A range of memory, filled up to whole bushels with zeros. -/
def padBushel (v : List Byte) : List Byte := v ++ List.replicate ((2 ^ 21 - v.length % 2 ^ 21) % 2 ^ 21) 0

/-- The image of step j is written to the stage. -/
def writeImage (j : Nat) (s : State) : State :=
  let l := committedBushels s
  let a := stageBase s
  let base := a + (1 + manifestBushels l.length) * 2 ^ 21
  let s1 := storeHome 0 a (padBushel (imageHeader s j l)) s
  let s1 := storeHome 0 (a + 2 ^ 21) (padBushel (manifest l)) s1
  ((List.range l.length).zip l).foldl (fun t e => storeHome 0 (base + e.1 * 2 ^ 21) (readMem s (e.2.1 * 2 ^ 21) (2 ^ 21)) t) s1

/-- The stage is KEPT once every consumer that is due has finished (R533). -/
def stageSettle (s : State) : State :=
  if stage s = sgBusy && !s.step.duePartner && !s.step.dueFlash && !s.step.dueStore then setStage s sgKept else s

/-- STAGE_COPY_DONE (R531, R533): the image is in the stage, and its consumers start. -/
def stageCopyDone (s : State) : State :=
  if stage s ≠ sgCopying then s
  else
    let n := imageLen (committedBushels s).length
    let s := writeImage s.step.stageStep s
    let s := setFld (setStage s sgBusy) pgStep 0x1A0 31 0 s.step.stageStep
    let half := (partnerSize s - logSlots s * logSlotBytes s) / 2
    let s := if s.step.duePartner then partnerPut (stageBase s) (partnerBase s + (if s.step.partnerHalf then half else 0)) n s else s
    stageSettle s

def execStageCopyDone (s : State) : Out' := .next (stageCopyDone s)

/-- PARTNER_REFRESH_DONE (R533 to R535): this module's refresh ends, or one that another module sent here. A refresh from a module that is not
the partner, or one that does not fit, is refused; the sender's PARTNER_REFUSED is COMMAND, the bit of a refused operation (R606). -/
def partnerRefreshDone (received : Option (Nat × Nat)) (ok : Bool) (s : State) : State :=
  match received with
  | some (coord, j) => if ok && partnerOn s && decide (coord = partnerCoord s) then setFld s pgStep 0x1A8 63 32 j else s
  | none =>
    if !s.step.duePartner || decide (stage s ≠ sgBusy) then s
    else
      let s := { s with step := { s.step with duePartner := false, partnerHalf := s.step.partnerHalf != ok } }
      stageSettle (if ok then setFld s pgStep 0x1A8 31 0 s.step.stageStep else logErr pgStep errCommand 0 s)

def execPartnerRefreshDone (received : Option (BitVec 12 × Nat)) (ok : Bool) (s : State) : Out' :=
  .next (partnerRefreshDone (received.map (fun e => (e.1.toNat, e.2))) ok s)

/-- FLASH_WRITE_DONE (R533, R534): flash keeps the two newest snapshots. -/
def flashWriteDone (ok : Bool) (s : State) : State :=
  if !s.step.dueFlash || decide (stage s ≠ sgBusy) then s
  else
    let s := { s with step := { s.step with dueFlash := false } }
    stageSettle (if ok then
      setFld { s with step := { s.step with flashSteps := (s.step.stageStep :: s.step.flashSteps).take 2 } } pgStep 0x1A0 63 32 s.step.stageStep
    else logErr pgStep errCommand 0 s)

def execFlashWriteDone (ok : Bool) (s : State) : Out' := .next (flashWriteDone ok s)

/-- STORE_DONE (R533). -/
def storeDone (value : Word) (s : State) : State :=
  let s := reservedWrite pgStep 0x158 1 value s
  if value.bit 0 && s.step.dueStore && decide (stage s = sgBusy) then stageSettle { s with step := { s.step with dueStore := false } } else s

def execStoreDone (value : Word) (s : State) : Out' := .next (storeDone value s)

/-! ### Restore and redo (R537 to R539, R544) -/

/-- Errors of a restore (R543). -/
def rsNotHeld : Nat := 1
def rsEcc : Nat := 2
def rsUnreachable : Nat := 3
def rsNotIdle : Nat := 4
def rsSpace : Nat := 5

/-- RESTORE_STAT (R543). -/
def restoreStat (state error : Nat) (s : State) : State := wr s pgStep 0x170 (word (state + error <<< 8))

/-- The source holds an image of the step (R537): the stage by the header that stands in it, flash by its snapshots, and partner memory only
where a partner is enabled. -/
def restoreHeld (s : State) (source j : Nat) : Bool :=
  match source with
  | 1 => decide (stage s ≠ sgCopying) && rangeMemory s (stageBase s) 64 && decide ((rd64 s (stageBase s)).bits 7 0 = 1)
      && decide ((rd64 s (stageBase s + 8)).bits 31 0 = j)
  | 2 => s.step.flashSteps.any (fun x => decide (x % 2 ^ 32 = j))
  | 3 => partnerOn s
  | _ => false

/-- RESTORE (R537). -/
def restore (value : Word) (s : State) : State :=
  let s := reservedWrite pgStep 0x168 (bm 1 0 + bm 63 32) value s
  let source := value.bits 1 0
  let j := value.bits 63 32
  if s.step.restoring.isSome then logErr pgStep errState 0x168 s
  else if !slotsQuiet s then restoreStat 3 rsNotIdle s
  else if !restoreHeld s source j then restoreStat 3 rsNotHeld s
  else restoreStat 1 0 { s with step := { s.step with restoring := some (source, j) } }

def execRestore (value : Word) (s : State) : Out' := .next (restore value s)

/-- One manifest entry is restored: bushel, PLACE word, bytes (R537). -/
def restoreBushel (e : Nat × Nat × List Byte) (s : State) : Except Refuse State :=
  let p := { pinsOf 0 (word e.2.1) with committed := true }
  match placeBushel (e.1, p) (s, 0) with
  | .error r => .error r
  | .ok (s, _) => .ok (storeHome 0 (e.1 * 2 ^ 21) (e.2.2.take (2 ^ 21)) s)

/-- The image that stands in the stage: its manifest entries with their bytes, and its header. -/
def stageImage (s : State) : List (Nat × Nat × List Byte) × List Word :=
  let a := stageBase s
  let header := (List.range 6).map (fun i => rd64 s (a + 8 * i))
  let b := cw header 3 63 32
  let base := a + (1 + manifestBushels b) * 2 ^ 21
  ((List.range b).map (fun i =>
    let m := rd64 s (a + 2 ^ 21 + 16 * i)
    (m.bits 26 0, m.bits 63 32, readMem s (base + i * 2 ^ 21) (2 ^ 21))), header)

/-- Sheaves that the partner held are written back to the log (R537). -/
def restoreSheaves (l : List (Nat × List Byte)) (s : State) : State :=
  l.foldl (fun s e => let a := sheafSlot s e.1; if rangeMemory s a e.2.length then storeHome 0 a e.2 s else s) s

/-- What a restored header sets (R537). -/
def restoreHeader (h : List Word) (s : State) : State :=
  let s := wr s pgStep 0x180 (h.getD 1 0)
  let s := wr s pgFoghorn 0x120 (word (cw h 2 31 0))
  let s := wr s pgFoghorn 0x128 (word (cw h 2 63 32))
  let s := wr s pgFoghorn 0x130 (word (cw h 3 31 0))
  let s := setFld s pgColl 0x150 15 0 (cw h 0 47 32)
  setFld s pgStep 0x178 12 12 0

/-- RESTORE_DONE (R537): the restore in progress ends. From the stage it reads the image that stands there; flash and the partner give the
image, header and sheaves with the command, or an error. -/
def restoreDone (image : List (Nat × Nat × List Byte)) (header : List Word) (sheaves : List (Nat × List Byte)) (error : Nat) (s : State) :
    State :=
  match s.step.restoring with
  | none => s
  | some (source, _) =>
    let s := { s with step := { s.step with restoring := none } }
    let (im, h) := if source = 1 then stageImage s else (image, header)
    let bad := source = 1 ∧ (poisonIn s false (stageBase s) (imageLen im.length)).isSome
    if error ≠ 0 then restoreStat 3 error s
    else if bad then restoreStat 3 rsEcc s
    else
      match allOk restoreBushel im s with
      | .error _ => restoreStat 3 rsSpace s
      | .ok s =>
        let s := if source = 3 then restoreSheaves sheaves s else s
        restoreStat 2 0 (restoreHeader h s)

def execRestoreDone (image : List (Nat × Nat × List Byte)) (header : List Word) (sheaves : List (Nat × List Byte)) (error : Fin 6) (s : State) :
    Out' := .next (restoreDone image header sheaves error.val s)

/-- A write that takes effect only while every slot is quiet (R519, R544). -/
def quietWrite (p : PageRef) (off mask : Nat) (value : Word) (s : State) : State :=
  let s := reservedWrite p off mask value s
  if slotsQuiet s then wr s p off (value &&& word mask) else logErr p errState off s

/-- REDO (R538, R544). -/
def execRedoWrite (value : Word) (s : State) : Out' := .next (quietWrite pgStep 0x160 (bm 0 0 + bm 47 6) value s)

/-- WVER (R544). -/
def execWverWrite (value : Word) (s : State) : Out' := .next (quietWrite pgStep 0x180 all64 value s)

end Sys2Proof.Machine
end

