-- ==== Sys2Proof/Machine/Host.lean ====
section
/-! DEFINITION. Command slots as the host sees them: ABORT and RELEASE (R569, R570), write-back (R571), slot pages and the partial-result window (R550,
R558, R572, R574), the status mirror (R575), pooled-memory failures (R556), and the host link (R545, R548). -/

namespace Sys2Proof.Machine

/-! ### ABORT and RELEASE -/

/-- A step that is aborted ends with its OUTCOME open (R505): the sheaf's end word tells the attempts and the time. -/
def sheafAbort (n : Nat) (s : State) : State :=
  if s.step.slot = some n then
    let s := sheafEnd s 0 (attemptsUsed s)
    { s with step := { s.step with sheafDone := false } }
  else s

/-- A slot ends ABORTED (R572). -/
def abortEnd (n : Nat) (s : State) : State := endSlot (closeStep n (sheafAbort n s)) n .aborted 3 1

/-- ABORT of a slot that is placed or waits for its placement (R569): a step that has launched before owes its peers a notice at its relaunch. -/
def abortPlaced (n : Nat) (s : State) : State :=
  let x := slot s n
  let s := if runsStep x && x.launchedOnce then
      { s with step := { s.step with lost := s.step.lost ++ [(n, x.effLaunch.toNat)] } } else s
  abortEnd n (dropPlacement n s)

/-- ABORT of a RUNNING slot (R569). -/
def abortRunning (n : Nat) (s : State) : State :=
  if s.step.slot = some n then
    let s := { s with step := { s.step with aborted := some (n, s.step.launch) } }
    let (s, l) := discardActions s n
    run l (abortEnd n s)
  else abortEnd n (retireTags (stopTasks s n) n)

/-- ABORT (R569). -/
def abort (n : Nat) (s : State) : State :=
  match (slot s n).state with
  | .armed => abortPlaced n s
  | .launched => abortPlaced n s
  | .running => abortRunning n s
  | _ => logErr pgHostif errState 0x18 s

def execAbort (slot : Fin 64) (s : State) : Out' := .next (abort slot.val s)

/-- A released slot (R570): GEN, ARM_RES and the progress words stay. -/
def released (x : Slot) : Slot := { x with state := .idle, step := false, source := 0, code := 0, att := 0, replays := 0 }

/-- RELEASE (R570). -/
def release (n : Nat) (s : State) : State :=
  match (slot s n).state with
  | .done => setSlot s n (released (slot s n))
  | .faulted => setSlot s n (released (slot s n))
  | .aborted => setSlot s n (released (slot s n))
  | _ => logErr pgHostif errState 0x18 s

def execRelease (slot : Fin 64) (s : State) : Out' := .next (release slot.val s)

/-- SLOT_WRITEBACK_DONE (R571): every line that the slot's tasks wrote has been accepted at its home, and a slot that is not a step ends DONE. -/
def slotWritebackDone (n : Nat) (s : State) : State :=
  if (slot s n).state = .draining && !runsStep (slot s n) then endSlot (flushSlot n s) n .done 0 0 else s

def execSlotWritebackDone (slot : Fin 64) (s : State) : Out' := .next (slotWritebackDone slot.val s)

/-! ### Slot pages -/

/-- STATUS (R572). -/
def statusWord (x : Slot) : Word :=
  word (x.state.code + b2n x.step <<< 3 + (x.source % 4) <<< 4 + (x.code % 256) <<< 8 + (x.gen % 2 ^ 16) <<< 16 + (x.att % 256) <<< 32
    + (x.replays % 16) <<< 40 + (x.armRes % 16) <<< 44)

/-- A word of a slot page below the partial-result window, by its offset (R558); reserved words read 0. -/
def slotWord (x : Slot) (off : Nat) : Word :=
  match off with
  | 0x000 => statusWord x
  | 0x008 => x.launch
  | 0x010 => x.effLaunch
  | 0x020 => x.config
  | 0x028 => x.taskList
  | 0x030 => x.taskCount
  | 0x038 => x.tensorList
  | 0x040 => x.tensorCount
  | 0x048 => x.partialSrc
  | 0x100 => x.armTime
  | 0x108 => x.placeTime
  | 0x110 => x.endTime
  | 0x118 => x.placed
  | 0x120 => x.ended
  | 0x128 => x.layer
  | 0x130 => x.stepNo
  | 0x138 => x.loss
  | 0x140 => x.firstBad
  | _ => 0

/-- An access that BAR2 accepts: naturally aligned, of 8, 16, 32 or 64 bytes (R550). -/
def bar2Access (off size : Nat) : Bool :=
  (decide (size = 8) || decide (size = 16) || decide (size = 32) || decide (size = 64)) && decide (off % size = 0)

/-- Source and size in bytes of a slot's partial-result window (R559, R574). -/
def partialBase (x : Slot) : Nat := x.partialSrc.bits 47 12 * 4096
def partialSize (x : Slot) : Nat := min 14 (x.partialSrc.bits 51 48) * 4096

/-- A byte of a slot page (R558, R574). -/
def slotByte (s : State) (x : Slot) (off : Nat) : Byte :=
  if off < 0x2000 then BitVec.ofNat 8 ((slotWord x (off / 8 * 8)).toNat >>> (8 * (off % 8)))
  else if off - 0x2000 < partialSize x then plainRd s (partialBase x + (off - 0x2000))
  else 0

/-- A read that answers all-ones. -/
def ones (size : Nat) : List Byte := List.replicate size 0xFF

/-- PARTIAL_READ (R574), and a read of the page's words below the window (R550, R558). -/
def partialRead (n off size : Nat) (s : State) : State :=
  let x := slot s n
  let v := (List.range size).map (fun i => slotByte s x (off + i))
  if !bar2Access off size then replyData (ones size) false (hostRefused errAccess (n * 0x10000 + off) s)
  else if off < 0x2000 || decide (partialSize x ≤ off - 0x2000) then replyData v false s
  else if !rangeOpen s (partialBase x) (partialSize x) then
    replyData (ones size) false (hostRefused errAccess (n * 0x10000 + off) s)
  else
    let a := partialBase x + (off - 0x2000)
    match poisonIn s false a size with
    | some line => replyData (ones size) false (logErr pgHostif errCommand 0 (addReg (countPoison line s) pgHostif 0x1D0 1))
    | none => replyData v false (homeAccesses false 0 a size s)

def execPartialRead (slot : Fin 64) (offset : BitVec 16) (size : Nat) (s : State) : Out' :=
  .next (partialRead slot.val offset.toNat size s)

/-! ### The status mirror (R575) -/

/-- Words 0 to 6 of a slot's mirror line. -/
def mirrorWords (x : Slot) : List Word := [statusWord x, x.effLaunch, x.ended, x.layer, x.stepNo, x.loss, x.endTime]

/-- Least interval between progress writes, in BT ns (R580). -/
def mirrorPeriod (s : State) : Nat := max 1 (fld s pgHostif 0x128 31 0) * 1000

/-- MIRROR_WRITE: the device writes a slot's mirror line after a change of its STATUS, or after a change of its progress words once the period has
passed. -/
def mirrorWrite (n : Nat) (s : State) : State :=
  let x := slot s n
  let old := x.mirror
  let new := mirrorWords x
  if !(rdA s pgHostif 0x120).bit 0 || decide (old.take 7 = new) then s
  else
    let status := decide (old.head? ≠ some (statusWord x))
    if !status && decide (s.now < x.mirrorTime + mirrorPeriod s) then s
    else
      setSlot s n { x with
        mirror := new ++ [old.getD 7 0 + 1]
        mirrorTime := if status then x.mirrorTime else s.now }

def execMirrorWrite (slot : Fin 64) (s : State) : Out' := .next (mirrorWrite slot.val s)

/-! ### Pooled memory and the host link -/

/-- A failed UIO read as its reader meets it (R358, R556): the line is poisoned for that reader, and a DMA channel ends with POOLED. -/
def uioRead (line : Nat) (who : Sender) (s : State) : State :=
  match who with
  | .core k store =>
    let s := meetPoison line (ofStep s k) s
    if coreRunning s k then takeTrap k (if store then 7 else 5) (word (64 * line)) 0 0 s else s
  | .host => replyData (ones 64) true (addReg s pgHostif 0x1D0 1)
  | .rowEngine cl =>
    match (cluster s cl).reQueue with
    | [] => s
    | (desc, att, _) :: _ => meetPoison line att.isSome (reComplete cl desc att (reCmd (descWords s desc)) 5 s)
  | .stream t =>
    match streamQ s t.val with
    | [] => s
    | c :: _ => if c.move.isSome then s else meetPoison line c.att.isSome (streamComplete t c (streamWords s c) stEcc s)
  | .dma t n =>
    if dmaState s t n = dmBusy then meetPoison line (dmaOf s t n).att.isSome (dmaFail t n dePooled s) else s
  | .collective i =>
    match s.coll.queue[i]? with
    | some c => if c.executing && c.result.isNone then endWith c (csEcc, some line) s else s
    | none => s

/-- UIO_FAILURE (R556): a UIO read of pooled memory returns an error or meets no completion, or a UIO write fails. -/
def uioFailure (a : Nat) (who : Sender) (write : Bool) (s : State) : State :=
  match bushelAt s a with
  | none => s
  | some b =>
    if b.tier ≠ 3 then s
    else
      let s := addReg s pgHostif 0x1E0 1
      if write then poisonLine s (lineNo a) else uioRead (lineNo a) who s

def execUioFailure (addr : BitVec 48) (who : Sender) (write : Bool) (s : State) : Out' :=
  if hasTile s (senderTile who) then .next (uioFailure addr.toNat who write s) else .refused .noSuchUnit

/-- IDE_INTEGRITY_FAIL (R548): a fatal AER error of the link. -/
def ideIntegrityFail (s : State) : State := { s with out := { s.out with aer := s.out.aer + 1 } }

def execIdeIntegrityFail (s : State) : Out' := .next (ideIntegrityFail s)

/-- HOST_LINK_STATE_CHANGE (R545, R547, R580): the link's state, and its width and rate while it is up. -/
def hostLink (state width rate : Nat) (s : State) : State :=
  let s := setFld s pgHostif 0x100 1 0 state
  setFld (setFld s pgHostif 0x100 12 8 (if state = 2 then width else 0)) pgHostif 0x100 19 16 (if state = 2 then rate else 0)

def execHostLinkStateChange (state : Fin 3) (width : Fin 32) (rate : Fin 16) (s : State) : Out' :=
  .next (hostLink state.val width.val rate.val s)

end Sys2Proof.Machine
end

