-- ==== Sys2Proof/Machine/Registers.lean ====
section
/-! DEFINITION. Register pages as their requesters see them: what a read returns (R589 to R593, R600, R614 to R616, R637, R638, R654), and the
write of a register that has no effect of its own (R584, R592, R596, R599, R600). -/

namespace Sys2Proof.Machine

/-! ### The settings bank's copies and the image slots -/

/-- The active copy of the bank (R632, R633). -/
def activeCopy (s : State) : List (Nat × Word) := if s.keeper.activeB then s.keeper.copyB else s.keeper.copyA

/-- The bytes of a settings copy from 0x008 on. -/
def copyBody (c : List (Nat × Word)) : List Byte := (List.range 191).flatMap (fun i => leBytes (mget 0 c (8 * (i + 1))).toNat 8)

/-- SET_ID of a copy (R638): FORMAT, LENGTH and the CRC of bytes 0x008 to 0x5FF. -/
def setId (c : List (Nat × Word)) : Word := word ((mget 0 c 0).bits 15 0 + 1536 <<< 16 + crc32c (copyBody c) <<< 32)

/-- Bytes of an image slot: slot A or B. -/
def imageOf (s : State) (b : Bool) : List Host.Cell := if b then s.keeper.imageB else s.keeper.imageA

/-- A word of an image's header (R644). -/
def imageWord (s : State) (b : Bool) (off : Nat) : Word := word (leNat ((List.range 8).map (fun i => mget emptyByte (imageOf s b) (off + i))))

/-- The part's bit in PARTS (R644). -/
def partBit : Part → Nat
  | .d2 => 0
  | .d4 => 1
  | .d8 => 2

def imageId (s : State) (b : Bool) : Nat := (imageWord s b 0).bits 63 32
def imageSvn (s : State) (b : Bool) : Nat := (imageWord s b 8).bits 39 32
def imageFmt (s : State) (b : Bool) : Nat := (imageWord s b 0x10).bits 15 0

/-- State of an image slot (R638). -/
def imageState (s : State) (b : Bool) : Nat := if b then s.keeper.stateB else s.keeper.stateA

/-- The active image slot, and the other. -/
def activeSlot (s : State) : Bool := s.keeper.activeB

/-- `SETTINGS.SLOT_x` (R638). -/
def slotWordOf (s : State) (b : Bool) : Word :=
  let act := decide (activeSlot s = b)
  let w := imageWord s b 8
  let st := imageState s b
  let version := if st = 2 then imageSvn s b <<< 8 + w.bits 15 0 <<< 16 + w.bits 23 16 <<< 32 + w.bits 31 24 <<< 40 + imageFmt s b <<< 48 else 0
  word (st % 4 + b2n act <<< 2 + b2n (if act then s.keeper.confirmed else s.keeper.otherConfirmed) <<< 3 + version)

/-- `IDENT.FW` (R615): nothing of the image shows before VERIFY has ended. -/
def fwWord (s : State) : Word :=
  let w := imageWord s (activeSlot s) 8
  let pending := b2n s.keeper.pending <<< 1
  if bootStage s < 3 then word pending
  else word (b2n (activeSlot s) + pending + b2n s.keeper.fallback <<< 2 + w.bits 15 0 <<< 16 + w.bits 23 16 <<< 32 + w.bits 31 24 <<< 40)

/-- `SETTINGS.ACT_STAT` (R638). -/
def actStat (s : State) : Word :=
  word (s.keeper.actState % 8 + b2n s.keeper.atReset <<< 3 + (s.keeper.actCause % 16) <<< 4 + (s.keeper.minSvn % 256) <<< 8)

/-! ### BLK_STAT -/

/-- The block has work in progress (R591): a channel that is BUSY, a queue that is not empty, a placement, a load, a restore. -/
def pageBusy (s : State) (p : PageRef) : Bool :=
  match pageBlock p with
  | some .dma => decide (fld s p 0x130 2 0 = dmBusy)
  | some .stream => !(streamQ s (pageTileNo p)).isEmpty
  | some .coll => !s.coll.queue.isEmpty
  | some .cluster => (rd s p 0x208).bit 8
  | some .granger => (match placing s with | some n => placesOn s (pageTileNo p) n | none => false)
  | some .net => s.net.loading.isSome && decide (pageTileNo p = 0)
  | some .mbox => s.keeper.mboxCmd.isSome
  | some .step => s.step.restoring.isSome || stepLive s
  | _ => false

/-- The page's unit is fenced (R591). -/
def unitFenced (s : State) : PageRef → Bool
  | .cluster c => cmFenced s c || routerFenced s c
  | .core k => coreFenced s k
  | _ => false

/-- An MC page under R360, or a BRIDGE page that reads DOWN. -/
def unitUnusable (s : State) (p : PageRef) : Bool :=
  match pageBlock p with
  | some .mc => mcUnusable s (pageTileNo p) (pageInst p)
  | some .bridge => s.net.downEdges.contains (4 * pageTileNo p + pageInst p)
  | _ => false

/-- A soft reset of the block is under way (R612). -/
def softResetting (s : State) (p : PageRef) : Bool := (rd s p 0x010).bit 1

/-- BLK_STAT.STATE (R591): 1 READY, 2 DISABLED, 3 RESETTING, 4 FENCED, 5 UNUSABLE. -/
def blockState (s : State) (p : PageRef) : Nat :=
  if softResetting s p then 3
  else if unitFenced s p then 4
  else if unitUnusable s p then 5
  else if !(rd s p 0x010).bit 0 && !pageBusy s p then 2
  else 1

/-- BLK_STAT (R591). -/
def blkStat (s : State) (p : PageRef) : Word := setBits (setBits (rd s p 0x018) 2 0 (blockState s p)) 3 3 (b2n (pageBusy s p))

/-! ### Registers of tile 0 only -/

/-- Registers that act package-wide from tile 0 (R331, R392, R441). -/
def tile0Reg (b : Block) (off : Nat) : Bool :=
  match b with
  | .granger => decide (0x100 ≤ off) && decide (off ≤ 0x128) || [0x158, 0x168, 0x188, 0x198, 0x1A0, 0x1A8, 0x1B0].contains off
  | .stream => [0x110, 0x118, 0x120, 0x128].contains off
  | .net => [0x100, 0x108, 0x110, 0x118, 0x120, 0x160, 0x168].contains off
  | _ => false

/-- The register, or the staged register whose active view it is, belongs to tile 0 and this page does not. -/
def tile0Only (p : PageRef) (off : Nat) : Bool :=
  match pageBlock p with
  | none => false
  | some b => decide (pageTileNo p ≠ 0) && (tile0Reg b off || (decide (0x800 ≤ off) && tile0Reg b (off - 0x700)))

/-! ### Reads -/

/-- A memory controller is READY (R395). -/
def mcReady (s : State) (t n : Nat) : Bool := decide (fld s (pgMc (Fin.ofNat 8 t) (Fin.ofNat 3 n)) 0x100 1 0 = 2)

/-- The tiles have started: their memories have a capacity (R331, R641). -/
def tilesUp (s : State) : Bool := decide (6 ≤ bootStage s) && decide (bootStage s ≠ 15)

/-- `GRANGER.OCCn` (R334): a memory that is not READY has no capacity, as at reset (R331). -/
def occWord (s : State) (t n : Nat) : Word :=
  match n with
  | 0 => word (((List.range 24).map (cmUsed s t)).sum + (if tilesUp s then 24 * cmCap else 0) <<< 32)
  | 1 => word (nearUsed s t + (overStacks s t (fun k => if mcReady s t k then stackCap else 0)) <<< 32)
  | 2 => word (deepUsed s t / 32 + (if mcReady s t 2 then deepCapUnits / 32 else 0) <<< 32)
  | _ => word (poolUsed s / 32 + (poolCapUnits s / 32) <<< 32)

/-- A settings word, at its offset in the SETTINGS page (R635). -/
def settingsWord (s : State) (off : Nat) : Word := mget 0 (activeCopy s) (off - 0x100)

/-- Registers whose value is a view of other state; none for a register that holds its own. -/
def computedReg (s : State) (p : PageRef) (b : Block) (off : Nat) : Option Word :=
  match b with
  | .ident => if off = 0x128 then some (fwWord s)
      else if off = 0x130 then some (word (if s.keeper.pending then s.keeper.pendingT else 0))
      else if off = 0x148 then
        let fenced := ((List.range (coreCount s)).filter (fun i => coreFenced s (coreAt i))).length
        some (setBits (rd s p off) 47 32 (sat 16 fenced))
      else none
  | .mbox => if off = 0x130 then some (setBits (rd s p off) 0 0 (b2n s.keeper.mboxCmd.isSome)) else none
  | .settings =>
      if off = 0x100 then some (setId (activeCopy s))
      else if off = 0x108 || (decide (0x180 ≤ off) && decide (off < 0x480)) then some (settingsWord s off)
      else if off = 0x700 then some (setBits (rd s p off) 3 3 (b2n s.keeper.mirrorDue))
      else if off = 0x708 then some (word (s.keeper.leafQ % 2 ^ 21 + (s.keeper.leafCeil % 2 ^ 21) <<< 32))
      else if off = 0x710 then some (word (sat 16 s.keeper.fuseCount + (s.keeper.fuseCount % 96) <<< 16))
      else if off = 0x718 then some (slotWordOf s false)
      else if off = 0x720 then some (slotWordOf s true)
      else if off = 0x728 then some (actStat s)
      else none
  | .beacon => if off = 0x100 then some (nowW s) else none
  | .hostif =>
      if off = 0x138 then some (word (errSum s))
      else if 0x140 ≤ off && decide (off < 0x180) then some (word (tileErr s ((off - 0x140) / 8)))
      else if 0x180 ≤ off && decide (off < 0x1C0) then some (word (clusErr s ((off - 0x180) / 8)))
      else if 0x1F0 ≤ off && decide (off < 0x230) then some (word (dmaErr s ((off - 0x1F0) / 8)))
      else none
  | .dctr => if 0x100 ≤ off && decide (off ≤ 0x150) then some (rd s (pgDctr 0) off) else none
  | .granger =>
      if off = 0x148 then
        match placing s with
        | some n => if placesOn s (pageTileNo p) n then some (setBits (setBits (rd s p off) 0 0 1) 13 8 n) else some (rd s p off)
        | none => some (rd s p off)
      else if 0x170 ≤ off && decide (off ≤ 0x188) then some (occWord s (pageTileNo p) ((off - 0x170) / 8))
      else none
  | .stream => if off = 0x128 then some (setBits (rd s p off) 6 0 (sat 7 (heldLayers s).length)) else none
  | .cluster =>
      if off = 0x300 then
        match p with
        | .cluster c => some (setBits (rd s p off) 3 0 (cmUsed s c.tile.val c.cluster.val))
        | _ => none
      else none
  | .sync =>
      if off = 0x150 then some (ctr s (selected s (Fin.ofNat 8 (pageTileNo p)))).cfg
      else if off = 0x178 then some (word (s.step.att % 256))
      else none
  | .core =>
      match p with
      | .core k =>
        if off = 0x108 then some (word (coreId s k))
        else if off = 0x140 then
          let c := coreOf s k
          some (setBits (setBits (rd s p off) 5 0 c.requests.length) 19 16 (min 8 c.requests.length))
        else none
      | _ => none
  | _ => none

/-- A register that reads 0 to everyone: it is write-only, or its page is not tile 0's. -/
def readsZero (p : PageRef) (b : Block) (off : Nat) : Bool :=
  tile0Only p off || (match specAt b off with | some r => decide (r.acc = .wo) | none => (activeSpec b off).isNone)

/-- The value of the register at an 8-byte offset of a page, without the side effect that its read may have (R584, R593, R596, R600). -/
def regView (s : State) (p : PageRef) (off : Nat) : Word :=
  match pageBlock p with
  | none => 0
  | some b =>
    if off = 0x018 then blkStat s p
    else if readsZero p b off then 0
    else
      match computedReg s p b off with
      | some w => w
      | none => rd s p off

/-! ### Plain writes -/

/-- STAGED_PENDING is set (R600, R602). -/
def markStaged (p : PageRef) (s : State) : State := setFld s p 0x018 4 4 1

/-- The writable bits of a register take a value, the others keep theirs (R596). -/
def storeReg (p : PageRef) (off wmask : Nat) (value : Word) (s : State) : State :=
  wr s p off ((rd s p off &&& ~~~(word wmask)) ||| (value &&& word wmask))

/-- REGISTER_WRITE of a register without an effect of its own (R584, R596, R599, R600). -/
def plainWrite (p : PageRef) (off : Nat) (value : Word) (s : State) : State :=
  match pageBlock p with
  | none => s
  | some b =>
    if tile0Only p off then logErr p errTile0 off s
    else
      match specAt b off with
      | some r =>
        if r.acc = .ro then logErr p errReadOnly off s
        else
          let s := reservedWrite p off (r.wmask ||| r.romask) value s
          let s := storeReg p off r.wmask value s
          if r.acc = .rws then markStaged p s else s
      | none => if (activeSpec b off).isSome then logErr p errReadOnly off s else logErr p errAccess off s

/-! ### Event selectors and counter sources -/

/-- Time-accounting and block event codes of a block (R682, R685, R686), ENGINE in [15:12]. -/
def eventCodes (b : Block) : List Nat :=
  let engine := fun (n : Nat) (causes : List Nat) => ([1, 2, 3] ++ causes).map (fun c => n <<< 12 + c)
  match b with
  | .core => engine 0 [0x10, 0x11, 0x12, 0x13, 0x17, 0x16, 0x14] ++ engine 1 [0x15, 0x14] ++ engine 2 [0x14]
      ++ [0x100, 0x101, 0x102, 0x103, 0x104, 0x105, 0x106]
  | .cluster => engine 0 [0x12, 0x18] ++ [0x100, 0x101, 0x102]
  | .stream => engine 0 [0x1C, 0x17, 0x1B, 0x1A, 0x19, 0x18] ++ engine 1 [0x17, 0x18] ++ engine 2 [0x17, 0x18] ++ [0x100, 0x101, 0x102]
  | .dma => engine 0 [0x1A, 0x22, 0x17, 0x19, 0x18] ++ [0x100]
  | .coll => engine 0 [0x1E, 0x1D, 0x1F, 0x17, 0x18] ++ engine 1 [0x1D, 0x1F, 0x18] ++ [0x100, 0x101, 0x102]
  | .peer => engine 0 [0x21, 0x20, 0x1F] ++ [0x100, 0x101, 0x102]
  | .granger => engine 0 [0x23] ++ [0x100, 0x101, 0x102]
  | .mc => [0x100, 0x101, 0x102, 0x103]
  | .net => [0x100, 0x101, 0x102, 0x103, 0x104]
  | .bridge => [0x100, 0x101]
  | .sync => [0x100, 0x101, 0x102, 0x103, 0x104]
  | .step => [0x100, 0x101, 0x102, 0x103, 0x104]
  | .hostif => [0x100, 0x101]
  | .foghorn => [0x100]
  | _ => []

/-- A write of EVSELn (R592): a code that the block lacks sets COMMAND. A selector of 0 names no code. -/
def evselWrite (p : PageRef) (b : Block) (off : Nat) (value : Word) (s : State) : State :=
  let s := plainWrite p off value s
  let code := value.bits 15 0
  logIf ((specAt b off).isSome && decide (value.bits 16 0 ≠ 0) && !(eventCodes b).contains code) p errCommand code s

/-- A CFG names a source that exists (R689). -/
def cfgNames (s : State) (dev : Bool) (cfg : Word) : Bool :=
  let level := cfg.bits 4 3
  let tileOk := !dev || cfg.bit 24 || decide (cfg.bits 23 21 < s.part.tiles)
  let clusterOk := cfg.bit 25 || decide (cfg.bits 16 12 < 24)
  decide (cfg.bits 2 0 ≠ 7) &&
  (match level with
    | 0 => dev && decide (cfg.bits 11 5 < 32)
    | 1 => tileOk && decide (cfg.bits 11 5 < 96) && (pageBlock (.tile 0 (Fin.ofNat 96 (cfg.bits 11 5)))).isSome
    | _ => tileOk && clusterOk)

/-- A write of CFGn (R689): a source that does not exist sets COMMAND. A CFG with EN 0 names no source. -/
def cfgWrite (p : PageRef) (off : Nat) (value : Word) (s : State) : State :=
  let dev := match p with | .device _ => true | _ => false
  let s := plainWrite p off value s
  logIf (value.bit 27 && !cfgNames s dev value) p errCommand off s

end Sys2Proof.Machine
end

