-- ==== Sys2Proof/Machine/Keeper.lean ====
section
/-! DEFINITION. The Keeper: settings bank and flash mirror (R631 to R640, R676), activation of images and device reset (R613, R646 to R649), and
bring-up (R618, R641 to R643). -/

namespace Sys2Proof.Machine

/-! ### The settings bank -/

/-- Every change of the bank is due in the flash mirror (R636). -/
def bankChanged (s : State) : State := { s with keeper := { s.keeper with mirrorDue := true } }

/-- Replace the active copy. -/
def setActiveCopy (s : State) (c : List (Nat × Word)) : State :=
  bankChanged (if s.keeper.activeB then { s with keeper := { s.keeper with copyB := c } }
    else { s with keeper := { s.keeper with copyA := c } })

/-- Set a word of the active copy. -/
def setSetting (s : State) (o : Nat) (v : Word) : State := setActiveCopy s (mset 0 (activeCopy s) o v)

/-- Page offsets of the staged words of the SETTINGS page (R637). -/
def stagedSettings : List Nat := (List.range 14).map (fun i => 0x110 + 8 * i)

/-- Staged and active values of the SETTINGS page become the words of the active copy (R635). -/
def showSettings (s : State) : State :=
  stagedSettings.foldl (fun s o => wr (wr s pgSettings o (settingsWord s o)) pgSettings (o + 0x700) (settingsWord s o)) s

/-- R675, on the words of BAND, RAMP and COOL_CTRL: the offset in the POWER page of the lowest register that a failed rule names. -/
def powerBad (part : Part) (band ramp cool : Word) : Option Nat :=
  let pmax := band.bits 15 0
  let pfloor := band.bits 31 16
  let target := cool.bits 7 0
  let outMax := cool.bits 15 8
  if part.envelope < pmax || decide (pmax * 100 < part.envelope * 75) || decide (part.envelope * 90 < pfloor * 100) || decide (pmax < pfloor)
      || decide (band.bits 33 32 = 3) then some 0x100
  else if ramp.bits 9 0 = 0 || decide (1000 < ramp.bits 9 0) then some 0x108
  else if (decide (target ≠ 0) && (decide (target < 40) || decide (65 < target) || decide (outMax < target))) || decide (outMax < 45)
      || decide (65 < outMax) || decide (cool.bits 23 16 < 25) || decide (100 < cool.bits 23 16) then some 0x110
  else none

/-- A settings copy breaks R675 (R676). -/
def copyBad (s : State) (c : List (Nat × Word)) : Bool := (powerBad s.part (mget 0 c 0x20) (mget 0 c 0x28) (mget 0 c 0x60)).isSome

/-- Set a staged register and its active value. -/
def setBoth (s : State) (p : PageRef) (off : Nat) (v : Word) : State := wr (wr s p off v) p (off + 0x700) v

/-- Registers whose reset value is "Settings" take their values from the active copy (R72, R637, R673, R676). -/
def loadSettingsRegs (s : State) : State :=
  let c := activeCopy s
  let b := setBits (setBits (rd s pgBeacon 0x108) 0 0 ((mget 0 c 0x10).bits 0 0)) 2 1 ((mget 0 c 0x10).bits 2 1)
  let s := setBoth s pgBeacon 0x108 b
  let s := setBoth s pgPower 0x100 (mget 0 c 0x20 &&& word (bm 33 0))
  let s := setBoth s pgPower 0x108 (mget 0 c 0x28 &&& word (bm 9 0))
  let s := setBoth s pgPower 0x110 (mget 0 c 0x60 &&& word (bm 23 0))
  let s := setBoth s pgPower 0x118 (mget 0 c 0x30 &&& word (bm 1 0))
  showSettings s

/-- The copy that a load takes, and its source (R636, R676): 0 bank, 1 mirror, 2 defaults. `mirror` is 1 where the newer generation of the mirror is
valid, 2 where the older one alone is, and 0 where none is. -/
def settingsSource (s : State) (bankOk : Bool) (mirror mv : Nat) : Nat × List (Nat × Word) :=
  let bank := activeCopy s
  let copy := if mirror = 1 then s.keeper.mirrorCopy else s.keeper.mirrorOlder
  if decide (2500 ≤ mv) && bankOk && !copyBad s bank then (0, bank)
  else if !(decide (2500 ≤ mv) && bankOk) && decide (mirror ≠ 0) && !copyBad s copy then (1, copy)
  else (2, s.part.defaults)

/-- The SETTINGS stage (R636, R651). -/
def loadSettings (bankOk : Bool) (mirror mv : Nat) (s : State) : State :=
  let (src, c) := settingsSource s bankOk mirror mv
  let s := if src = 0 then s else
    let s := setActiveCopy s c
    { s with keeper := { s.keeper with leafQ := s.keeper.leafCeil } }
  let low := b2n (decide (mv < 2500))
  let s := wr s pgSettings 0x700 (word (src + low <<< 2 + (mv % 2 ^ 16) <<< 32))
  let s := setFld (setFld s pgIdent 0x138 5 5 (b2n (decide (src = 1)))) pgIdent 0x138 6 6 low
  loadSettingsRegs s

/-- A commit of the SETTINGS page is rejected (R639); DETAIL is the offset of SET_BEACON. -/
def settingsReject (s : State) : Bool :=
  s.keeper.actState = 1 || decide (s.keeper.actState = 2)
  || (decide (fld s pgSettings 0x110 2 1 ≠ 0) && decide (fld s pgSettings 0x110 0 0 = 0))

/-- A commit of the SETTINGS page: the staged words enter the active copy (R639). -/
def settingsApply (s : State) : State :=
  stagedSettings.foldl (fun s o => setSetting (wr s pgSettings (o + 0x700) (rd s pgSettings o)) (o - 0x100) (rd s pgSettings o)) s

/-- SETTINGS_MIRROR_WRITE (R636): a complete generation takes the place of the older of the two. -/
def settingsMirrorWrite (ok : Bool) (s : State) : State :=
  if s.keeper.mirrorDue && ok then
    { s with keeper := { s.keeper with mirrorCopy := activeCopy s, mirrorOlder := s.keeper.mirrorCopy, mirrorDue := false } }
  else s

def execSettingsMirrorWrite (ok : Bool) (s : State) : Out' := .next (settingsMirrorWrite ok s)

/-- EQ_SEED_SAVE (R465, R635, R640): the port has been ACTIVE for 60 BT s; two words for each of its eight lanes enter the active copy. -/
def eqSeedSave (n : Nat) (seeds : List Word) (s : State) : State :=
  if linkOf s n ≠ lkActive then s
  else (List.range 16).foldl (fun s i => setSetting s (0x80 + 128 * n + 8 * i) (seeds.getD i 0)) s

def execEqSeedSave (port : Fin 6) (seeds : List Word) (s : State) : Out' := .next (eqSeedSave port.val seeds s)

/-! ### Device reset -/

/-- Pages that a device reset leaves (R613): MBOX and SETTINGS. -/
def keptReg (o : Nat) : Bool := decide (0x1000 ≤ o) && decide (o < 0x3000)

/-- A core with a disable record is fenced with cause FAULT at every reset (R202). -/
def fenceDisabled (s : State) : State := (disabledCores s).foldl (fun s i => markFenced s (coreAt i) causeFault) s

/-- The staged slot becomes active, unconfirmed (R646). -/
def switchImage (atReset : Bool) (s : State) : State :=
  let k := s.keeper
  bankChanged { s with keeper := { k with
    prevB := k.activeB, activeB := !k.activeB, otherConfirmed := k.confirmed, confirmed := false, pending := false, wdCount := 0
    actState := 2, actCause := 0, atReset := atReset, actT := k.pendingT, fallback := false, fallbackEvent := false, firstBoot := true } }

/-- The module's state but for the Keeper, its pages and what has left the module (R613): the contents of memory are as after power-on. -/
def resetBlocks (s : State) : State :=
  fenceDisabled { State.reset with
    part := s.part
    regs := s.regs.filter (fun e => keptReg e.1)
    keeper := { s.keeper with chainKnown := false }
    out := s.out
    free := s.free
    pending := s.pending }

/-- DEVICE_RESET (R613): a pending activation takes place at the reset (R646). The Beacon counter may take any value until the first lock (R60): it
starts again from 0. -/
def deviceReset (s : State) : State := resetBlocks (if s.keeper.pending then switchImage true s else s)

def execDeviceReset (s : State) : Out' := .next (deviceReset s)

/-- Fall-back (R649): the previous slot is active and confirmed. -/
def fallBack (cause : Nat) (s : State) : State :=
  let k := s.keeper
  resetBlocks (bankChanged { s with keeper := { k with
    activeB := k.prevB, confirmed := true, otherConfirmed := false, pending := false, actState := 5, actCause := cause, fallback := true
    fallbackEvent := true, firstBoot := false } })

/-- ACTIVATION_TIME (R646): the Beacon counter has come to T. -/
def activationTime (s : State) : State :=
  if !s.keeper.pending || decide (s.now < s.keeper.pendingT) then s
  else if slotsQuiet s then resetBlocks (switchImage false s)
  else chainEvent 6 (bankChanged { s with keeper := { s.keeper with pending := false, actState := 4 } })

def execActivationTime (s : State) : Out' := .next (activationTime s)

/-- CONFIRM_TIMEOUT (R649): 900 s after T without confirmation. -/
def confirmTimeout (s : State) : State :=
  if s.keeper.actState = 2 && decide (s.keeper.actT + 900000000000 ≤ s.now) then fallBack 1 s else s

def execConfirmTimeout (s : State) : Out' := .next (confirmTimeout s)

/-- CONFIRM of the active image (R648): only at READY. -/
def confirmImage (id : Nat) (s : State) : Nat × State :=
  if bootStage s = 9 && decide (imageId s (activeSlot s) = id) then
    (0, bankChanged { s with keeper := { s.keeper with
      confirmed := true, minSvn := max s.keeper.minSvn (imageSvn s (activeSlot s)), actState := 3 } })
  else (3, s)

/-! ### Bring-up -/

/-- KEEPER_WATCHDOG (R618, R649): the Keeper alone is reset; the third reset of an unconfirmed image makes it fall back. -/
def keeperWatchdog (s : State) : State :=
  let s := addFld s pgMbox 0x130 31 16 1
  let n := min 31 (s.keeper.wdCount + 1)
  let s := bankChanged { s with keeper := { s.keeper with wdCount := n, restarting := true } }
  if s.keeper.actState = 2 && decide (3 ≤ n) then fallBack 3 s else s

def execKeeperWatchdog (s : State) : Out' := .next (keeperWatchdog s)

/-- Enter a bring-up stage. -/
def setBoot (s : State) (n : Nat) : State := setFld s pgIdent 0x138 3 0 n

/-- Causes with which a stage can fail bring-up (R50, R642, R659). -/
def failsIn (st cause : Nat) : Bool :=
  match cause with
  | 1 => decide (st = 1)
  | 2 => decide (st = 0)
  | 3 => decide (st = 2)
  | 4 => decide (1 ≤ st) && decide (st ≤ 3)
  | 5 => decide (st = 5)
  | 6 => decide (st = 0)
  | _ => false

/-- Bring-up ends in stage 15 (R642); an unconfirmed image falls back (R649), with cause VERIFY where no image verified, else BOOT_FAIL. -/
def failBoot (cause : Nat) (s : State) : State :=
  let s := chainEvent 4 (setFld (setBoot s 15) pgIdent 0x138 15 8 cause)
  if s.keeper.actState = 2 then fallBack (if cause = 3 then 4 else 2) s else s

/-- The first boot of a newly activated image takes over the previous slot's settings (R648). -/
def firstBootCopy (s : State) : State :=
  if !s.keeper.firstBoot then s
  else
    let prev := if s.keeper.prevB then s.keeper.copyB else s.keeper.copyA
    let old := (mget 0 prev 0).bits 15 0
    let new := imageFmt s (activeSlot s)
    let c := if old = new then prev else Config.convertSettings old new prev
    setActiveCopy { s with keeper := { s.keeper with firstBoot := false } } c

/-- MAGIC, the part bit and SVN of the image in a slot are right (R644). -/
def headerOk (s : State) (b : Bool) : Bool :=
  decide ((imageWord s b 0).bits 31 0 = 0x57464344) && (imageWord s b 8).bit (48 + partBit s.part) && decide (s.keeper.minSvn ≤ imageSvn s b)

/-- VERIFY refuses the active slot and accepts the other (R641): an unconfirmed image falls back with cause VERIFY (R649); a confirmed one gives
way to the other slot, unless that lies below MIN_SVN or holds no valid image (R642). -/
def verifyOther (s : State) : State :=
  if s.keeper.actState = 2 then fallBack 4 s
  else if imageState s (!activeSlot s) = 2 && headerOk s (!activeSlot s) then
    let s := bankChanged { s with keeper := { s.keeper with
      activeB := !s.keeper.activeB, prevB := s.keeper.activeB, otherConfirmed := false, confirmed := true, fallback := true } }
    setBoot s 3
  else failBoot 3 s

/-- The coordinate and the axis sizes of a SET_POSITION word enter IDENT.POSITION and COLL.TORUS (R499, R630). -/
def loadCoord (w : Word) (s : State) : State :=
  let s := setFld (setFld s pgIdent 0x140 23 12 (w.bits 23 12)) pgIdent 0x140 24 24 (w.bits 24 24)
  let t := rd s pgColl 0x130
  let put := fun (x : Word) => setBits (setBits x 11 0 (w.bits 23 12)) 23 12 (w.bits 43 32)
  wr (wr s pgColl 0x130 (put t)) pgColl 0x830 (put (rdA s pgColl 0x130))

/-- The stored position, as the CHAIN stage uses it (R631): the coordinate where COORD_VALID is 1. -/
def loadPosition (s : State) : State :=
  let w := mget 0 (activeCopy s) 8
  if w.bit 24 then loadCoord w s else s

/-- ENUM_WAIT_TIMEOUT (R631): no ENUM in the CHAIN stage: the stored address applies, where there is one. -/
def enumWaitTimeout (s : State) : State :=
  if bootStage s = 4 && !s.keeper.chainKnown then
    let a := (mget 0 (activeCopy s) 8).bits 11 0
    let s := setFld s pgIdent 0x140 11 0 a
    let s := setFld s pgSettings 0x700 5 4 (if a = 0xFFF then 2 else 1)
    { s with keeper := { s.keeper with chainKnown := true } }
  else s

def execEnumWaitTimeout (s : State) : Out' := .next (enumWaitTimeout s)

/-- MC_STAT of every memory controller that is not UNUSABLE (R395, R641). -/
def setMemories (v : Nat) (s : State) : State :=
  (tilesOf s).foldl (fun s t => (List.finRange 3).foldl (fun s n => if mcUnusable s t.val n.val then s else setFld s (pgMc t n) 0x100 1 0 v) s) s

/-- Ports start, or stay DISABLED, at the PEER stage (R457, R462, R629). -/
def startPorts (s : State) : State := (List.range 6).foldl applyPort s

/-- A port keeps the PEER stage from ending (R641): it is training, aligning, identifying or retraining. -/
def portPending (s : State) (n : Nat) : Bool :=
  linkOf s n = lkTrain || decide (linkOf s n = lkAlign) || decide (linkOf s n = lkIdentify) || decide (linkOf s n = lkRetrain)

/-- The module reaches READY (R615, R641, R649). -/
def reachReady (ms : Nat) (s : State) : State :=
  let s := setFld (setFld (setBoot s 9) pgIdent 0x138 4 4 1) pgIdent 0x138 63 32 (sat 32 ms)
  let s := chainEvent 3 s
  if s.keeper.fallbackEvent then chainEvent 5 { s with keeper := { s.keeper with fallbackEvent := false } } else s

/-- The BEACON stage begins as peer-link training ends: the 30 s of R65 run from here, a master that has not taken its role yet takes it (R704),
and a follower without a parent shows none (R73). -/
def startServo (s : State) : State :=
  let s := { s with beacon := { s.beacon with noMasterWait := some 30000000000 } }
  if isMaster s then (if servo s = svFree then takeMaster s else s)
  else if (parentPort s).isNone then setParent s none else s

/-- A stage ends well (R641). VERIFY accepts no image whose header is wrong (R644). CHAIN waits for an address or its timeout, BEACON for lock, HOST for the link. -/
def stageOk (ms : Nat) (s : State) : State :=
  match bootStage s with
  | 0 => setBoot s 1
  | 1 => setBoot s 2
  | 2 => if headerOk s (activeSlot s) then setBoot (firstBootCopy s) 3 else verifyOther s
  | 4 => if s.keeper.chainKnown then setMemories 1 (setBoot (loadPosition s) 5) else s
  | 5 => startPorts (setBoot (refreshRepair (setMemories 2 s)) 6)
  | 6 => if (List.range 6).any (portPending s) then s else startServo (setBoot s 7)
  | 7 => if servo s = svLocked then setBoot s 8 else s
  | 8 => if fld s pgHostif 0x100 1 0 = 2 then reachReady ms s else s
  | _ => s

/-- BRINGUP_STAGE_ADVANCE (R641, R642). While the Keeper restarts after a watchdog reset, it is the restart that ends (R618). -/
def stageAdvance (o : StageOutcome) (ms : Nat) (s : State) : State :=
  if s.keeper.restarting then { s with keeper := { s.keeper with restarting := false } }
  else
    match o with
    | .ok => stageOk ms s
    | .other => if bootStage s = 2 then verifyOther s else s
    | .settings b m mv => if bootStage s = 3 then setBoot (loadSettings b m.val mv.toNat s) 4 else s
    | .fail cause => if failsIn (bootStage s) cause.val then failBoot cause.val s else s

def execBringupStageAdvance (outcome : StageOutcome) (ms : Nat) (s : State) : Out' := .next (stageAdvance outcome ms s)

end Sys2Proof.Machine
end

