-- ==== Sys2Proof/Machine/Commit.lean ====
section
/-! DEFINITION. The header of a page in action: commits (R32, R82, R83, R229, R290, R332 to R335, R394, R434, R443, R500, R501, R544, R581, R600 to R604, R639,
R675, R701), enable and soft reset (R610 to R612), errors (R608, R609). -/

namespace Sys2Proof.Machine

/-! ### What a commit tests -/

/-- The commit would change the active value of one of the registers. -/
def changes (s : State) (p : PageRef) (l : List Nat) : Bool := l.any (fun o => decide (rd s p o ≠ rdA s p o))

/-- Two areas of bushels, each a base and a length, overlap. -/
def overlap (a b : Nat × Nat) : Bool :=
  decide (a.2 ≠ 0) && decide (b.2 ≠ 0) && decide (a.1 < b.1 + b.2) && decide (b.1 < a.1 + a.2)

/-- Two of the staged areas of the STEP page overlap (R544). -/
def stepOverlap (s : State) : Bool :=
  let stage := (fld s pgStep 0x148 47 21, fld s pgStep 0x150 31 0)
  let partner := (fld s pgStep 0x140 47 21, fld s pgStep 0x150 63 32)
  let log := (fld s pgStep 0x130 47 21, fld s pgStep 0x130 55 48 * (fld s pgStep 0x130 59 56 + 1))
  overlap stage partner || overlap stage log || overlap partner log

/-- Bushels of a stream of a trace region of a size in GiB (R694). -/
def regionStream (s : State) (size : Nat) : Nat := size * 512 / (s.part.tiles + 1)

/-- A bushel of the staged trace region is mapped already. -/
def regionTaken (s : State) : Bool :=
  let base := fld s pgTrace 0x100 47 21
  let n := fld s pgTrace 0x108 6 0 * 512
  s.mem.bushels.any (fun e => decide (base ≤ e.1) && decide (e.1 < base + n))

/-- A tile's near memory lacks room for its streams: tile 0 also holds the device stream (R694, R701). -/
def regionNoRoom (s : State) : Bool :=
  let b := regionStream s (fld s pgTrace 0x108 6 0)
  (tilesOf s).any (fun t => decide (nearCapOf s t.val < nearUsed s t.val + (if t.val = 0 then 2 * b else b)))

/-- The rules of a block that a commit fails, each by the lowest register that it names. VMIN and VMAX are compared as they apply (R31, R32; DESIGN
CHOICE, log entry 132). -/
def commitRules (s : State) (p : PageRef) (b : Block) : List (Bool × Nat) :=
  let quiet := slotsQuiet s
  match b with
  | .cluster =>
    [ (decide (2 ≤ fld s p 0x100 1 0), 0x100),
      (decide (min 850 (fld s p 0x110 27 16) < max 550 (fld s p 0x110 11 0)), 0x110),
      ((rd s p 0x208).bit 8 && changes s p [0x210, 0x218], 0x210),
      (decide (2097152 < fld s p 0x218 21 0), 0x218) ]
  | .beacon =>
    let len := fld s p 0x128 15 0
    let work := fld s p 0x128 31 16
    let grd := fld s p 0x128 47 32
    [ (decide (len % 32 ≠ 0) || decide (len < 160) || decide (4096 < len) || decide (work = 0) || decide (grd < 32)
        || decide (len * 11 < (work + grd) * 10), 0x128),
      (!quiet && changes s p [0x128], 0x128),
      ((rd s p 0x108).bit 3 && decide (6 ≤ fld s p 0x108 6 4), 0x108) ]
  | .sync => [(decide (fld s p 0x170 23 0 ≠ 0) && changes s p [0x160, 0x168], 0x160)]
  | .granger =>
    [ (!quiet && changes s p [0x130, 0x138], 0x130),
      (decide (fld s p 0x108 1 0 = 3), 0x108),
      (decide (fld s p 0x120 15 8 < fld s p 0x120 23 16), 0x120) ]
  | .stream => [(!quiet && changes s p [0x110, 0x118, 0x120], 0x110)]
  | .net =>
    [ ((!quiet || (bankTable s (fld s p 0x110 0 0)).isNone) && changes s p [0x110], 0x110),
      (decide (fld s p 0x128 5 0 < 2) || decide (fld s p 0x128 13 8 = 0) || decide (fld s p 0x128 5 0 ≤ fld s p 0x128 13 8), 0x128) ]
  | .coll =>
    [ (!quiet && changes s p [0x130], 0x130),
      (decide (100 < fld s p 0x130 31 24), 0x130),
      (!peerDelayOk (rd s p 0x130) (slotLen s), 0x130),
      (!quiet && changes s p [0x158, 0x160, 0x168, 0x170, 0x178], 0x158) ]
  | .step =>
    [ (!quiet && changes s p [0x100, 0x108, 0x110, 0x118, 0x120, 0x128, 0x130, 0x138, 0x140, 0x148, 0x150], 0x100),
      (decide (1024 < fld s p 0x128 58 48), 0x128),
      (stepOverlap s, 0x130) ]
  | .hostif => [((!quiet || decide (poolUsed s ≠ 0)) && changes s p [0x110, 0x118], 0x110)]
  | .settings =>
    [ ((decide (s.keeper.actState = 1) || decide (s.keeper.actState = 2)) && changes s p stagedSettings, 0x110),
      (decide (fld s p 0x110 2 1 ≠ 0) && decide (fld s p 0x110 0 0 = 0), 0x110) ]
  | .power => [((powerBad s.part (rd s p 0x100) (rd s p 0x108) (rd s p 0x110)).isSome,
      (powerBad s.part (rd s p 0x100) (rd s p 0x108) (rd s p 0x110)).getD 0)]
  | .trace =>
    [ (((rd s p 0x110).bit 0 || !quiet || regionTaken s || regionNoRoom s) && changes s p [0x100, 0x108], 0x100),
      (decide (64 < fld s p 0x108 6 0), 0x108) ]
  | _ => []

/-- The offset that DETAIL gives of a commit that fails (R601); none for a commit that passes. -/
def commitReject (s : State) (p : PageRef) (b : Block) : Option Nat :=
  lowest (((commitRules s p b).filter (fun e => e.1)).map (fun e => e.2))

/-! ### What a commit does beside making values active -/

/-- Take the bushels of a trace region away (R701). -/
def unmapRegion (s : State) : State :=
  let base := fldA s pgTrace 0x100 47 21
  let n := (s.part.tiles + 1) * regionStream s (fldA s pgTrace 0x108 6 0)
  { s with mem := { s.mem with bushels := s.mem.bushels.filter (fun e => !(decide (base ≤ e.1) && decide (e.1 < base + n))) } }

/-- Bytes of a range become what an unlisted address reads as, which is zero. -/
def clearCells (m : List Host.Cell) (a n : Nat) : List Host.Cell := m.filter (fun c => !(decide (a ≤ c.1) && decide (c.1 < a + n)))

/-- Map the region of the active registers (R694, R701): pinned, not committed, zeros. -/
def mapRegion (s : State) : State :=
  let size := fldA s pgTrace 0x108 6 0
  let base := fldA s pgTrace 0x100 47 21
  let b := regionStream s size
  let streams := s.part.tiles + 1
  let s := (List.range (streams * b)).foldl (fun s i =>
    let t := if i / b = s.part.tiles then 0 else i / b
    let (k, s) := takeStack s t
    setBushel s (base + i) { tier := 1, tile := t, cluster := 0, stack := k, committed := false, tierPin := some 1, tilePin := some t }) s
  let s := { s with mem := { s.mem with bytes := clearCells s.mem.bytes (base * 2 ^ 21) (streams * b * 2 ^ 21) } }
  let s := wr s pgTrace 0x118 (word (b2n (decide (size ≠ 0)) + b <<< 32))
  (List.range 9).foldl (fun s k => wr s pgTrace (0x130 + 8 * k) 0) s

/-- A port whose fabric changed identifies its neighbour again (R500). -/
def reidentify (s : State) (n : Nat) : State := applyPort (if linkOf s n = lkActive then setLink s n lkIdentify else s) n

/-- Values of the staged registers of a page, by offset. -/
def stagedValues (s : State) (p : PageRef) (b : Block) : List (Nat × Word) :=
  (blockRegs b).flatMap (fun r => if r.acc = .rws then (List.range r.count).map (fun i => (r.off + 8 * i, rd s p (r.off + 8 * i))) else [])

/-- Values become active (R600, R601). -/
def makeActive (p : PageRef) (l : List (Nat × Word)) (s : State) : State := l.foldl (fun s e => wr s p (e.1 + 0x700) e.2) s

/-- The values of a page become active, with what its chapter adds (R500, R630, R639, R701, R705). -/
def applyValues (p : PageRef) (b : Block) (l : List (Nat × Word)) (s : State) : State :=
  match b with
  | .beacon =>
    let was := isMaster s
    let had := selPps s
    let s := makeActive p l s
    if isMaster s = was then refSelChanged had s else if isMaster s then takeMaster s else takeFollower s
  | .coll =>
    let torus := rdA s p 0x130
    let s := makeActive p l s
    if rdA s p 0x130 = torus then s else (List.range 6).foldl reidentify s
  | .peer => applyPort (makeActive p l s) (pageInst p)
  | .settings => settingsApply s
  | .trace =>
    if changes s p [0x100, 0x108] then mapRegion (makeActive p l (unmapRegion s)) else makeActive p l s
  | .net => refreshSt (makeActive p l s)
  | _ => makeActive p l s

/-- A commit ends APPLIED (R601). -/
def commitDone (p : PageRef) (tag : Nat) (pending : Bool) (s : State) : State :=
  let s := setFld (setFld s p 0x018 6 5 1) p 0x018 63 32 tag
  setFld (setFld s p 0x018 4 4 (b2n pending)) p 0x010 2 2 0

/-- The page's registers act package-wide: tile 0's GRANGER, STREAM and NET pages (R604). -/
def packageWide (p : PageRef) (b : Block) : Bool := [Block.granger, .stream, .net].contains b && decide (pageTileNo p = 0)

/-- A commit starts (R601, R602, R604): a package-wide one applies at the time that tile 0 chooses, any other at once. -/
def commitPage (p : PageRef) (s : State) : State :=
  match pageBlock p with
  | none => s
  | some b =>
    if (stagedValues s p b).isEmpty then logErr p errCommand 0 s
    else if (rd s p 0x010).bit 2 then logErr p errState 0x010 s
    else
      match commitReject s p b with
      | some off => logErr p errCommit off (setFld s p 0x018 6 5 2)
      | none =>
        let l := stagedValues s p b
        let tag := fld s p 0x020 31 0
        if packageWide p b then
          let s := setFld (setFld s p 0x010 2 2 1) p 0x018 4 4 0
          { s with commits := minsert (pageBase p) (l, tag) s.commits }
        else commitDone p tag false (applyValues p b l s)

def execBlkCommit (r : Requester) (page : PageRef) (s : State) : Out' :=
  byPage s r page (commitPage page)

/-- PACKAGE_COMMIT_APPLY (R604): every tile applies the set; a register written since stays staged (R602). -/
def packageApply (p : PageRef) (s : State) : State :=
  match mfind s.commits (pageBase p), pageBlock p with
  | some (l, tag), some b =>
    let s := applyValues p b l { s with commits := merase (pageBase p) s.commits }
    commitDone p tag ((rd s p 0x018).bit 4) s
  | _, _ => s

def execPackageCommitApply (page : PageRef) (s : State) : Out' := atPage s page (packageApply page)

/-! ### Enable (R610, R611) -/

/-- ENABLE of a page is written. -/
def enableWrite (p : PageRef) (e : Bool) (s : State) : State :=
  match pageBlock p with
  | none => s
  | some b =>
    if (blkCap b).testBit 2 then setFld s p 0x010 0 0 (b2n e)
    else if e then s else logErr p errState 0x010 s

def execBlkEnableWrite (r : Requester) (page : PageRef) (enable : Bool) (s : State) : Out' :=
  byPage s r page (enableWrite page enable)

/-! ### Soft reset (R277, R612) -/

/-- A command's words with SYNC_EN 0. -/
def noSync (ws : List Word) : List Word := ws.set 4 (setBits (ws.getD 4 0) 19 19 0)

/-- A channel that is BUSY reads ABORTED; it raises no interrupt and applies no signal (R386). -/
def dmaAbort (t : Fin 8) (n : Fin 32) (s : State) : State :=
  let p := pgDma t n
  if dmaState s t n ≠ dmBusy then s
  else
    let c := dmaOf s t n
    let s := setFld s p 0x130 2 0 dmAborted
    let s := wr s p 0x138 (nowW s)
    let s := setDma s t n { startedInWindow := c.startedInWindow, window := c.window }
    orphans (dmaSync s p) s

/-- The commands of a streaming engine end ABORTED (R380), and the migrations whose copies it holds are abandoned. -/
def streamAbort (t : Fin 8) (s : State) : State :=
  let s := ((streamQ s t.val).filterMap (fun c => c.move)).foldl endMove s
  let q := streamQ s t.val
  let counters := q.flatMap (fun c => syncOf (streamWords s c))
  let s := q.foldl (fun s c => streamFinish false t c (streamWords s c) stAborted s) s
  orphans counters s

/-- The commands of the collective and exchange engines end ABORTED (R483). -/
def collAbort (s : State) : State :=
  let counters := s.coll.queue.flatMap (fun c => if c.layer.isNone then syncOf c.words else [])
  let quiet : List CollCmd := s.coll.queue.map (fun c => { c with words := noSync c.words })
  let s : State := { s with coll := { s.coll with queue := quiet, received := [], slottedOut := [] } }
  orphans counters (s.coll.queue.foldl (fun s c => run [.collDone c csAborted] s) s)

/-- The executing command of a row engine ends with ECC, the queued ones are discarded (R225, R612). -/
def reAbort (cl : ClusterRef) (s : State) : State :=
  match (cluster s cl).reQueue with
  | [] => s
  | (desc, att, who) :: rest =>
    let cmds := ((desc, att, who) :: rest).map (fun e => reCmd (descWords s e.1))
    let counters := cmds.filterMap (fun c => if c.syncEn then some c.sync else none)
    let s := setCluster s cl { cluster s cl with reQueue := [(desc, att, who)] }
    let s := reComplete cl desc att { reCmd (descWords s desc) with syncEn := false } 5 s
    let s := if att.isSome && stepRunning s then fault 4 0 s else s
    orphans counters s

/-- A snapshot on its way is abandoned. -/
def snapAbort (p : PageRef) (s : State) : State :=
  let s := setFld s (bankHome p) 0x150 0 0 0
  { s with snaps := merase (pageBase p) s.snaps }

/-- The block stops its work. -/
def stopBlock (p : PageRef) (b : Block) (s : State) : State :=
  match b, p with
  | .dma, .tile t n => dmaAbort t (Fin.ofNat 32 (n.val - 64)) s
  | .stream, .tile t _ => streamAbort t s
  | .coll, _ => collAbort s
  | .cluster, .cluster c => reAbort c s
  | .dctr, _ => snapAbort p s
  | .tctr, _ => snapAbort p s
  | .ttrace, .tile t _ => traceEmpty s t.val
  | _, _ => s

/-- BLK_SOFT_RESET (R612): the block stops; STATE reads RESETTING until SOFT_RESET_DONE. -/
def softReset (p : PageRef) (s : State) : State :=
  match pageBlock p with
  | none => s
  | some b =>
    if (blkCap b).testBit 1 then setFld (stopBlock p b s) p 0x010 1 1 1
    else logErr p errCommand 0 s

def execBlkSoftReset (r : Requester) (page : PageRef) (s : State) : Out' :=
  byPage s r page (softReset page)

/-- SOFT_RESET_DONE (R612). -/
def softResetDone (p : PageRef) (s : State) : State := setFld s p 0x010 1 1 0

def execSoftResetDone (page : PageRef) (s : State) : Out' := atPage s page (softResetDone page)

/-- A write of BLK_CTRL (R590, R612): a soft reset takes effect before a commit. -/
def ctrlWrite (p : PageRef) (value : Word) (s : State) : State :=
  let s := reservedWrite p 0x010 (bm 2 0) value s
  let s := if value.bit 1 then softReset p s else s
  let s := enableWrite p (value.bit 0) s
  if value.bit 2 then commitPage p s else s

/-! ### Errors (R607 to R609) -/

/-- ERR_STAT_CLEAR (R596, R608). -/
def errClear (p : PageRef) (value : Word) (s : State) : State :=
  reservedWrite p 0x028 (bm 11 0) value (wr s p 0x028 (rd s p 0x028 &&& ~~~value))

def execErrStatClear (page : PageRef) (value : Word) (s : State) : Out' := atPage s page (errClear page value)

/-- Bits of ERR_INJ that hold a value. -/
def injMask : Nat := bm 1 0 + bm 11 8 + bm 31 16

/-- ERR_INJ_WRITE (R609). -/
def errInject (p : PageRef) (value : Word) (s : State) : State :=
  match pageBlock p with
  | none => s
  | some b =>
    let kind := value.bits 1 0
    let bit := value.bits 11 8
    let s := reservedWrite p 0x040 (injMask + bm 32 32) value s
    if kind = 1 then
      if 11 < bit then logErr p errCommand kind s
      else logErr p errInjected 0 (logErr p bit (value.bits 31 16) (wr s p 0x040 (value &&& word injMask)))
    else if kind = 0 then storeReg p 0x040 injMask value s
    else if (blkCap b).testBit 3 then wr s p 0x040 ((value &&& word injMask) ||| word (2 ^ 32))
    else logErr p errCommand kind s

def execErrInjWrite (page : PageRef) (value : Word) (s : State) : Out' := atPage s page (errInject page value)

end Sys2Proof.Machine
end

