-- ==== Sys2Proof/Machine/Chain.lean ====
section
/-! DEFINITION. The mooring chain (R619 to R630): repeater, relay, frames and their responses; firmware images (R644 to R647); attestation (R650 to
R653). -/

namespace Sys2Proof.Machine

/-! ### Frames -/

/-- The module's chain address (R628). -/
def chainAddr (s : State) : Nat := fld s pgIdent 0x140 11 0

/-- An address of R624. -/
def knownAddr (a : Nat) : Bool := decide (a ≤ 0xFFF) || decide (a = 0x8000) || decide (a = 0xFFFF)

/-- A kind of R625. -/
def knownKind (k : Nat) : Bool := (decide (1 ≤ k) && decide (k ≤ 0x0A)) || decide (k = 0x80) || decide (k = 0x81)

/-- Kinds that may be broadcast (R624). -/
def mayBroadcast (k : Nat) : Bool := [0x05, 0x06, 0x07, 0x0A].contains k

/-- A frame that is dropped and counted (R623, R624). -/
def frameBad (f : ChainFrame) : Bool :=
  !f.crcOk || decide (1024 < f.payload.length) || !knownKind f.kind.toNat || !knownAddr f.dst.toNat
  || (decide (f.dst.toNat = 0xFFF) && decide (f.kind.toNat ≠ 1))
  || (decide (f.dst.toNat = 0xFFFF) && !mayBroadcast f.kind.toNat)

/-- CHAIN_DROPS (R623, R654). -/
def countDrop (s : State) : State := addFld s pgMbox 0x130 63 32 1

/-- The repeater forwards a downstream frame, unless the module is the tail (R620). -/
def forward (f : ChainFrame) (s : State) : State :=
  if s.keeper.tail then s else { s with out := { s.out with down := s.out.down ++ [f] } }

/-- A field of a payload, little-endian. -/
def pay (f : ChainFrame) (off n : Nat) : Nat := leNat ((f.payload.drop off).take n)

/-- What a request answers: a status, the data of its response by part, and the state. -/
abbrev Answer := Nat × List (List Byte) × State

/-- A status without data. -/
def plain (status : Nat) (s : State) : Answer := (status, [[]], s)

/-- Status codes (R626). -/
def rsOk : Nat := 0
def rsBadFrame : Nat := 1
def rsRefused : Nat := 3
def rsVerifyFail : Nat := 4
def rsNotLocked : Nat := 5
def rsWriteProtect : Nat := 6
def rsRollback : Nat := 7

/-- RESPONSE frames of a request (R626, R627): one for each part; the Keeper keeps them with the SEQ. -/
def chainRespond (f : ChainFrame) (a : Answer) : State :=
  let s := a.2.2
  let l := (a.2.1.zip (List.range a.2.1.length)).map (fun e =>
    (⟨chainAddr s, 0x80, a.1, f.seq.toNat, e.2, e.1⟩ : ChainOut))
  { s with
    out := { s.out with chain := s.out.chain ++ l }
    keeper := { s.keeper with lastSeq := some f.seq.toNat, lastResp := l } }

/-- The same response again (R626). -/
def repeatResponse (s : State) : State := { s with out := { s.out with chain := s.out.chain ++ s.keeper.lastResp } }

/-- A frame of a kind arrives at the in-port (R621, R623 to R627): a module whose relay is closed takes no part; the others repeat the frame, and the one
that it is for acts and answers. A broadcast is not answered. A request of a shape that R627 does not give is not executed. -/
def receive (kind : Nat) (shape : ChainFrame → Bool) (act : ChainFrame → State → Answer) (f : ChainFrame) (s : State) : State :=
  if s.keeper.bypass || decide (f.kind.toNat ≠ kind) then s
  else
    let s := forward f s
    if frameBad f then countDrop s
    else if chainAddr s = 0xFFF then s
    else if f.dst.toNat ≠ chainAddr s && decide (f.dst.toNat ≠ 0xFFFF) then s
    else if s.keeper.restarting then s
    else if f.dst.toNat = 0xFFFF then (if shape f then (act f s).2.2 else s)
    else if s.keeper.lastSeq = some f.seq.toNat then repeatResponse s
    else chainRespond f (if shape f then act f s else plain rsBadFrame s)

/-! ### Relay and tail (R620, R621) -/

/-- BYPASS_RELAY_CHANGE (R621): a module whose relay opens sends JOINED. -/
def relayChange (closes : Bool) (s : State) : State :=
  if closes then { s with keeper := { s.keeper with bypass := true } }
  else if s.keeper.bypass then chainEvent 1 { s with keeper := { s.keeper with bypass := false } }
  else s

def execBypassRelayChange (closes : Bool) (s : State) : Out' := .next (relayChange closes s)

/-- CHAIN_TAIL_TIMEOUT (R620). -/
def execChainTailTimeout (s : State) : Out' := .next { s with keeper := { s.keeper with tail := true, outLink := false } }

/-- CHAIN_OUT_LINK_UP (R620). -/
def execChainOutLinkUp (s : State) : Out' := .next { s with keeper := { s.keeper with tail := false, outLink := true } }

/-! ### Enumeration and coordinates (R628, R630) -/

/-- A taken chain address is written to the bank and to IDENT.POSITION (R628), and the CHAIN stage knows it (R631). -/
def takeAddress (a : Nat) (s : State) : State :=
  let s := setSetting s 8 (setBits (mget 0 (activeCopy s) 8) 11 0 a)
  let s := setFld (setFld s pgIdent 0x140 11 0 a) pgSettings 0x700 5 4 0
  { s with keeper := { s.keeper with chainKnown := true } }

/-- A module that loses its address under FORCE, at a position beyond the last address, holds no coordinate either, and its ports are DISABLED (R20,
R629). -/
def loseAddress (s : State) : State :=
  let s := takeAddress 0xFFF s
  let s := setSetting s 8 (setBits (mget 0 (activeCopy s) 8) 24 24 0)
  (List.range 6).foldl applyPort (setFld s pgIdent 0x140 24 24 0)

/-- ENUM (R628): the repeater adds 1 to NEXT on its way; an unaddressed module, or any module under FORCE, takes NEXT. -/
def enumFrame (f : ChainFrame) (s : State) : State :=
  if s.keeper.bypass || decide (f.kind.toNat ≠ 1) then s
  else if frameBad f || decide (f.payload.length ≠ 2) then
    let s := forward f s
    if frameBad f then countDrop s else s
  else
    let next := pay f 0 2
    let s := forward { f with payload := leBytes (if next < 4095 then next + 1 else 4095) 2 } s
    let force := f.flags.toNat % 2 = 1
    let own := chainAddr s
    if own = 0xFFF || force then
      if next ≤ 4094 then takeAddress next s
      else if own = 0xFFF then s else loseAddress s
    else
      let s := { s with keeper := { s.keeper with chainKnown := true } }
      if own ≠ next then chainEvent 2 s else s

def execEnum (frame : ChainFrame) (s : State) : Out' := .next (enumFrame frame s)

/-- POSITION word of a SET_COORD frame (R627): COORD and the axis sizes; every other bit is 0. -/
def coordShape (f : ChainFrame) : Bool :=
  decide (f.payload.length = 8) && decide (word (pay f 0 8) &&& ~~~(word (bm 23 12 + bm 43 32)) = 0)

/-- SET_COORD (R630): the coordinate enters the bank, IDENT.POSITION, COLL.TORUS and with it every CORE_ID; ports in ACTIVE identify anew. -/
def setCoord (f : ChainFrame) (s : State) : Answer :=
  if !slotsQuiet s then plain rsRefused s
  else
    let w := word (pay f 0 8) ||| word (2 ^ 24)
    let old := mget 0 (activeCopy s) 8
    let s := setSetting s 8 (setBits w 11 0 (old.bits 11 0))
    plain rsOk ((List.range 6).foldl reidentify (loadCoord w s))

def execSetCoord (frame : ChainFrame) (s : State) : Out' := .next (receive 0x02 coordShape setCoord frame s)

/-! ### READ and WRITE (R625, R627, R639) -/

/-- The health record (R625). -/
def healthWords (s : State) : List Word :=
  [ regView s pgIdent 0x138, regView s pgIdent 0x140, regView s pgStep 0x178, regView s pgHostif 0x138,
    word (fld s pgPower 0x138 11 0), word (fld s pgPower 0x130 27 16), word (fld s pgPower 0x120 15 0), nowW s ]

/-- The field-fuse log (R632, R634): a ring of 96 entries that overwrites its oldest. -/
def fuseWords (s : State) : List Word :=
  let n := s.keeper.fuseCount
  (List.range 96).map (fun i =>
    let k := s.keeper.fuseLog.length
    let seq := if n ≤ 96 then i else (n - 96) + (i + 96 - (n - 96) % 96) % 96
    if seq < n then s.keeper.fuseLog.getD (k - (n - seq)) 0 else 0)

/-- Bytes of a space of READ. -/
def spaceSize (space : Nat) : Nat := if space ≤ 1 then 4096 else if space = 2 then 64 else 768

/-- A word of a space. -/
def spaceWord (s : State) (space off : Nat) : Word :=
  match space with
  | 0 => regView s pgIdent off
  | 1 => regView s pgSettings off
  | 2 => (healthWords s).getD (off / 8) 0
  | _ => (fuseWords s).getD (off / 8) 0

/-- READ's payload (R627). -/
def readShape (f : ChainFrame) : Bool :=
  let space := pay f 0 1
  let count := pay f 2 2
  let off := pay f 4 4
  decide (f.payload.length = 8) && decide (space ≤ 3) && decide (pay f 1 1 = 0) && decide (1 ≤ count) && decide (count ≤ 127)
  && decide (off % 8 = 0) && decide (off + 8 * count ≤ spaceSize space)

/-- CHAIN_READ. -/
def chainRead (f : ChainFrame) (s : State) : Answer :=
  let words := (List.range (pay f 2 2)).map (fun i => spaceWord s (pay f 0 1) (pay f 4 4 + 8 * i))
  (rsOk, [words.flatMap (fun w => leBytes w.toNat 8)], s)

def execChainRead (frame : ChainFrame) (s : State) : Out' := .next (receive 0x03 readShape chainRead frame s)

/-- WRITE's payload (R627). -/
def writeShape (f : ChainFrame) : Bool :=
  let count := pay f 4 2
  decide (1 ≤ count) && decide (count ≤ 127) && decide (pay f 6 2 = 0) && decide (f.payload.length = 8 + 8 * count)
  && decide (pay f 0 4 % 8 = 0) && decide (pay f 0 4 + 8 * count ≤ 4096)

/-- CHAIN_WRITE (R638, R639): the words are staged and committed in one operation. -/
def chainWrite (f : ChainFrame) (s : State) : Answer :=
  if (rdA s pgSettings 0x118).bit 1 then plain rsWriteProtect s
  else
    let s := (List.range (pay f 4 2)).foldl (fun s i => plainWrite pgSettings (pay f 0 4 + 8 * i) (word (pay f (8 + 8 * i) 8)) s) s
    let s := commitPage pgSettings s
    plain (if fld s pgSettings 0x018 6 5 = 1 then rsOk else rsRefused) s

def execChainWrite (frame : ChainFrame) (s : State) : Out' := .next (receive 0x04 writeShape chainWrite frame s)

/-! ### Firmware images (R644, R645) -/

/-- Replace the bytes of an image slot. -/
def setImage (s : State) (b : Bool) (m : List Host.Cell) : State :=
  if b then { s with keeper := { s.keeper with imageB := m } } else { s with keeper := { s.keeper with imageA := m } }

/-- Set the state of an image slot (R638). -/
def setImageState (s : State) (b : Bool) (v : Nat) : State :=
  if b then { s with keeper := { s.keeper with stateB := v } } else { s with keeper := { s.keeper with stateA := v } }

/-- A STAGE payload with an OP (R627). -/
def stageShape (op : Nat) (f : ChainFrame) : Bool :=
  decide (f.payload.length = 12) && decide (pay f 0 1 = op) && decide (pay f 1 3 = 0)
  && (if op = 0 then decide (4096 ≤ pay f 8 4) && decide (pay f 8 4 ≤ 67108864) else decide (pay f 8 4 = 0))

/-- The activation in progress needs the slot that is not active as its fall-back (R645). -/
def actBusy (s : State) : Bool := decide (s.keeper.actState = 1) || decide (s.keeper.actState = 2)

/-- STAGE_BEGIN (R645). -/
def stageBegin (f : ChainFrame) (s : State) : Answer :=
  if actBusy s then plain rsRefused s
  else
    let b := !activeSlot s
    let s := setImageState (setImage s b []) b 1
    plain rsOk { s with keeper := { s.keeper with staging := some (pay f 4 4, pay f 8 4), otherConfirmed := false } }

def execStageBegin (frame : ChainFrame) (s : State) : Out' := .next (receive 0x05 (stageShape 0) stageBegin frame s)

/-- The result of VERIFY on the slot that is not active (R644): the status of the response. -/
def verifyStatus (s : State) (v : VerifyResult) : Nat :=
  let b := !activeSlot s
  if (imageWord s b 0).bits 31 0 ≠ 0x57464344 || !(imageWord s b 8).bit (48 + partBit s.part) || !v.signature || !v.digest then rsVerifyFail
  else if imageSvn s b < s.keeper.minSvn then rsRollback
  else rsOk

/-- STAGE_END (R645). -/
def stageEnd (v : VerifyResult) (f : ChainFrame) (s : State) : Answer :=
  match s.keeper.staging with
  | none => plain rsRefused s
  | some (id, _) =>
    if id ≠ pay f 4 4 then plain rsRefused s
    else
      let st := verifyStatus s v
      let s := setImageState s (!activeSlot s) (if st = rsOk then 2 else 3)
      plain st { s with keeper := { s.keeper with staging := none } }

def execStageEnd (frame : ChainFrame) (verify : VerifyResult) (s : State) : Out' :=
  .next (receive 0x05 (stageShape 1) (stageEnd verify) frame s)

/-- IMAGE's payload (R627). -/
def imageShape (f : ChainFrame) : Bool := decide (9 ≤ f.payload.length) && decide (f.payload.length ≤ 1024)

/-- IMAGE (R645): the bytes enter the staged slot at their offset. -/
def imageData (f : ChainFrame) (s : State) : Answer :=
  match s.keeper.staging with
  | none => plain rsRefused s
  | some (_, len) =>
    let off := pay f 4 4
    if len < off + (f.payload.length - 8) then plain rsBadFrame s
    else
      let b := !activeSlot s
      plain rsOk (setImage s b (cellsSet (imageOf s b) off (f.payload.drop 8)))

/-- A frame of another image than the BEGIN's is dropped and counted (R645): the module that it is for neither acts nor answers. -/
def imageOther (s : State) (f : ChainFrame) : Bool :=
  match s.keeper.staging with
  | some (id, _) => decide (id ≠ pay f 0 4)
  | none => false

/-- IMAGE. -/
def imageFrame (f : ChainFrame) (s : State) : State :=
  let mine := decide (chainAddr s ≠ 0xFFF) && (decide (f.dst.toNat = chainAddr s) || decide (f.dst.toNat = 0xFFFF))
  if !s.keeper.bypass && decide (f.kind.toNat = 6) && !frameBad f && mine && imageShape f && !s.keeper.restarting && imageOther s f then
    countDrop (forward f s)
  else receive 0x06 imageShape imageData f s

def execImage (frame : ChainFrame) (s : State) : Out' := .next (imageFrame frame s)

/-! ### ACTIVATE, CONFIRM and RESET (R646 to R648) -/

/-- Bring-up has ended in stage 15 with NO_IMAGE (R647). -/
def noImage (s : State) : Bool := decide (bootStage s = 15) && decide (fld s pgIdent 0x138 15 8 = 3)

/-- ACTIVATE's payload (R627). -/
def activateShape (f : ChainFrame) : Bool := decide (f.payload.length = 16) && decide (pay f 4 4 = 0)

/-- ACTIVATE (R646, R647). -/
def activate (f : ChainFrame) (s : State) : Answer :=
  let t := pay f 8 8
  let b := !activeSlot s
  if imageState s b ≠ 2 || decide (imageId s b ≠ pay f 0 4) then plain rsRefused s
  else if noImage s && decide (t = 0) then
    plain rsOk (resetBlocks (switchImage false { s with keeper := { s.keeper with pendingT := s.now } }))
  else if servo s ≠ svLocked && !noImage s then plain rsNotLocked s
  else if t < s.now + 10 * 10 ^ 9 || decide (s.now + 604800 * 10 ^ 9 < t) then plain rsRefused s
  else plain rsOk (bankChanged { s with keeper := { s.keeper with pending := true, pendingT := t, actState := 1 } })

def execActivate (frame : ChainFrame) (s : State) : Out' := .next (receive 0x07 activateShape activate frame s)

/-- CONFIRM's payload (R627). -/
def confirmShape (f : ChainFrame) : Bool := decide (f.payload.length = 4)

/-- CONFIRM (R648). -/
def confirm (f : ChainFrame) (s : State) : Answer := let r := confirmImage (pay f 0 4) s; plain r.1 r.2

def execConfirm (frame : ChainFrame) (s : State) : Out' := .next (receive 0x08 confirmShape confirm frame s)

/-- CHAIN_RESET (R613, R625). The response tells the address that the module had. -/
def chainReset (f : ChainFrame) (s : State) : State :=
  let mine := decide (chainAddr s ≠ 0xFFF) && (decide (f.dst.toNat = chainAddr s) || decide (f.dst.toNat = 0xFFFF))
  let acts := !s.keeper.bypass && decide (f.kind.toNat = 0x0A) && !frameBad f && mine && f.payload.isEmpty && !s.keeper.restarting
    && (decide (f.dst.toNat = 0xFFFF) || decide (s.keeper.lastSeq ≠ some f.seq.toNat))
  let s := receive 0x0A (fun f => f.payload.isEmpty) (fun _ s => plain rsOk s) f s
  if acts then deviceReset s else s

def execChainReset (frame : ChainFrame) (s : State) : Out' := .next (chainReset frame s)

/-! ### Attestation (R650 to R653) -/

/-- n bytes of a list, with zeros where it is shorter. -/
def sized (n : Nat) (l : List Byte) : List Byte := (List.range n).map (fun i => l.getD i 0)

/-- The leaf that the Keeper may use (R651, R652): when Q equals CEIL it reserves 1,024 more; none if no record can be read or the key is exhausted. -/
def takeLeaf (s : State) : Option (Nat × State) :=
  let k := s.keeper
  if !k.reservationOk || decide (2 ^ 20 ≤ k.leafQ) then none
  else
    let ceil := if k.leafQ = k.leafCeil then k.leafCeil + 1024 else k.leafCeil
    if ceil ≤ k.leafQ then none
    else some (k.leafQ, bankChanged { s with keeper := { k with leafQ := k.leafQ + 1, leafCeil := ceil } })

/-- Bytes of the active settings copy (R635, R653). -/
def copyBytes (c : List (Nat × Word)) : List Byte := leBytes (setId c).toNat 8 ++ copyBody c

/-- Bytes 0x00 to 0xFF of a report (R653): the length is that of the whole report. -/
def reportHead (s : State) (q : Nat) (nonce : List Byte) : List Byte :=
  let b := activeSlot s
  let w := fun (x : Word) => leBytes x.toNat 8
  w (word (1 + 3084 <<< 16)) ++ w (regView s pgIdent 0x100) ++ w (regView s pgIdent 0x118) ++ w (regView s pgIdent 0x120)
  ++ w (fwWord s) ++ w (slotWordOf s false) ++ w (slotWordOf s true) ++ w (actStat s)
  ++ (List.range 32).map (fun i => mget emptyByte (imageOf s b) (0x20 + i))
  ++ sized 32 (Config.sha256 (copyBytes (activeCopy s))) ++ sized 32 nonce
  ++ w (nowW s) ++ w (regView s pgIdent 0x140) ++ w (regView s pgIdent 0x148) ++ w (word q) ++ List.replicate 64 0

/-- A signed report (R653), or none where the Keeper signs nothing. The state stores the next leaf before the report leaves (R651). -/
def attest (nonce : List Byte) (s : State) : Option (List Byte × State) :=
  match takeLeaf s with
  | none => none
  | some (q, t) =>
    let h := reportHead s q nonce
    some (h ++ sized 2828 (Config.lmsSign q h), t)

/-- ATTEST's payload (R627). -/
def attestShape (f : ChainFrame) : Bool := decide (f.payload.length = 32)

/-- CHAIN_ATTEST (R627, R653): four frames of 771 bytes. -/
def chainAttest (f : ChainFrame) (s : State) : Answer :=
  match attest f.payload s with
  | none => plain rsRefused s
  | some (r, s) => (rsOk, (List.range 4).map (fun p => (r.drop (771 * p)).take 771), s)

def execChainAttest (frame : ChainFrame) (s : State) : Out' := .next (receive 0x09 attestShape chainAttest frame s)

end Sys2Proof.Machine
end

