-- ==== Sys2Proof/Machine/Mailbox.lean ====
section
/-! DEFINITION. The Keeper's mailbox (R654, R655): a write of CMD starts a command, and its row completes it. -/

namespace Sys2Proof.Machine

/-- A write of MBOX.CMD (R655): while BUSY it is ignored and sets STATE; a code that names no command sets COMMAND. -/
def mboxCmd (value : Word) (s : State) : State :=
  let s := reservedWrite pgMbox 0x100 (bm 7 0) value s
  let c := value.bits 7 0
  if s.keeper.mboxCmd.isSome then logErr pgMbox errState 0x100 s
  else if c = 0 || decide (6 < c) then logErr pgMbox errCommand c s
  else { s with keeper := { s.keeper with mboxCmd := some c } }

/-- Arguments. -/
def mboxArg (s : State) (n : Nat) : Word := rd s pgMbox (0x108 + 8 * n)

/-- Address of the result buffer. -/
def mboxBuffer (s : State) : Nat := (mboxArg s 0).bits 47 0

/-- BUSY clears, RESP is valid and MBOX_VEC is raised once (R655). -/
def mboxDone (status len : Nat) (s : State) : State :=
  let s := wr s pgMbox 0x128 (word (status + len <<< 32))
  irq { s with keeper := { s.keeper with mboxCmd := none } } (fld s pgHostif 0x130 24 16)

/-- A command's result goes to the buffer, which must lie in MEMORY bushels that are not committed (R655). -/
def mboxResult (v : List Byte) (s : State) : State :=
  if rangeOpen s (mboxBuffer s) v.length && decide ((mboxArg s 0).bits 63 48 = 0) then
    mboxDone rsOk v.length (storeHome 0 (mboxBuffer s) v s)
  else mboxDone rsBadFrame 0 s

/-- The Keeper completes a command of a code, if that is the command in progress and the Keeper runs (R618). -/
def mboxRun (code : Nat) (f : State → State) (s : State) : State :=
  if s.keeper.mboxCmd = some code && !s.keeper.restarting then f s else s

/-- The buffer can take a result of a length. -/
def mboxOpen (s : State) (n : Nat) : Bool := rangeOpen s (mboxBuffer s) n && decide ((mboxArg s 0).bits 63 48 = 0)

/-- ATTEST: nonce in ARG1 to ARG3 and the buffer's first 8 bytes (R653, R655). No leaf is spent on a buffer that cannot take the report. -/
def mboxAttest (s : State) : State :=
  if !mboxOpen s 3084 then mboxDone rsBadFrame 0 s
  else
    let nonce := (List.range 3).flatMap (fun i => leBytes (mboxArg s (i + 1)).toNat 8) ++ readMem s (mboxBuffer s) 8
    match attest nonce s with
    | none => mboxDone rsRefused 0 s
    | some (r, s) => mboxResult r s

def execMboxAttest (s : State) : Out' := .next (mboxRun 1 mboxAttest s)

/-- IDENTITY: the identity public key, the serial and the certificate signature, 2,740 bytes. -/
def mboxIdentity (s : State) : State := mboxResult (sized 2740 Config.identity) s

def execMboxIdentity (s : State) : Out' := .next (mboxRun 2 mboxIdentity s)

/-- CONFIRM_FW of the image that ARG1 names (R648). -/
def confirmFw (s : State) : State :=
  let r := confirmImage ((mboxArg s 1).bits 31 0) s
  mboxDone r.1 0 r.2

def execConfirmFw (s : State) : Out' := .next (mboxRun 3 confirmFw s)

/-- The core that a global core address names (R138), if the part has it and the module field is this module's. -/
def coreNamed (s : State) (w : Word) : Option CoreRef :=
  let t := w.bits 11 9
  let c := w.bits 8 4
  let own := (regView s (.core ⟨Fin.ofNat 8 t, Fin.ofNat 24 c, Fin.ofNat 16 (w.bits 3 0)⟩) 0x108).toNat
  if hasTile s t && decide (c < 24) && decide (own = w.toNat) then some ⟨Fin.ofNat 8 t, Fin.ofNat 24 c, Fin.ofNat 16 (w.bits 3 0)⟩ else none

/-- SELF_TEST of a fenced core (R197, R198, R655): `faulty` is what the array self-test names, `retestOk` whether the core passes after a repair. The
result word is 0 pass, 1 repaired, 2 still fenced. -/
def mboxSelfTest (faulty : Option ArrayLine) (retestOk : Bool) (s : State) : State :=
  match coreNamed s (mboxArg s 1) with
  | none => mboxDone rsBadFrame 0 s
  | some k =>
    if !mboxOpen s 8 then mboxDone rsBadFrame 0 s
    else if coreState s k ≠ 3 then mboxDone rsRefused 0 s
    else
      match faulty with
      | none => mboxResult (leBytes 0 8) (setCore s k { coreOf s k with needArrayTest := false })
      | some l =>
        let s := failSelfTest k s
        if !(mboxArg s 2).bit 0 then mboxResult (leBytes 2 8) s
        else
          let s := fieldRepair k l s
          if retestOk && !coreDisabled s k then mboxResult (leBytes 1 8) (setCore s k { coreOf s k with needArrayTest := false })
          else mboxResult (leBytes 2 8) s

def execMboxSelfTest (faulty : Option ArrayLine) (retestOk : Bool) (s : State) : Out' := .next (mboxRun 4 (mboxSelfTest faulty retestOk) s)

/-- FUSE_LOG: the 768-byte log (R634). -/
def mboxFuseLog (s : State) : State := mboxResult ((fuseWords s).flatMap (fun w => leBytes w.toNat 8)) s

def execMboxFuseLog (s : State) : Out' := .next (mboxRun 5 mboxFuseLog s)

/-- HEALTH: the health record (R625). -/
def mboxHealth (s : State) : State := mboxResult ((healthWords s).flatMap (fun w => leBytes w.toNat 8)) s

def execMboxHealth (s : State) : Out' := .next (mboxRun 6 mboxHealth s)

end Sys2Proof.Machine
end

