-- ==== Sys2Proof/Machine/Power.lean ====
section
/-! DEFINITION. Power and cooling: the package power loop (R662 to R667, R672), the valve loop (R670, R671), protective shutdown (R661) and
`POWER.PWR_STAT` (R674). -/

namespace Sys2Proof.Machine

/-! ### Bounds of a control window (all in mW) -/

/-- D: what RAMP permits in one window, W_PER_MS × 0.128 W (R663). -/
def rampMW (s : State) : Nat := fldA s pgPower 0x108 9 0 * 128

/-- P_MAX as it applies (R662). -/
def pMaxMW (s : State) : Nat :=
  let m := fldA s pgPower 0x100 15 0 * 1000
  if s.power.undervolt then min m (s.part.envelope * 750) else m

/-- The upper bound of a window (R663, R672). -/
def upperMW (s : State) : Nat := min (pMaxMW s - s.power.outletCut) (s.power.prevMW + rampMW s)

/-- FLOOR_MODE (R666). -/
def floorMode (s : State) : Nat := fldA s pgPower 0x100 33 32

/-- Floor load is permitted (R666). -/
def floorPermitted (s : State) : Bool :=
  match floorMode s with
  | 1 => s.power.stepsSeen
  | 2 => decide (bootStage s = 9)
  | _ => false

/-- The lower bound of a window; none with FLOOR_MODE 0 (R663, R666). -/
def lowerMW (s : State) : Option Nat :=
  if floorMode s = 0 then none
  else if floorPermitted s then some (max (fldA s pgPower 0x100 31 16 * 1000) (s.power.prevMW - rampMW s))
  else some (s.power.prevMW - rampMW s)

/-- `POWER.LOOP_CTRL.FREEZE` (R667). -/
def loopFrozen (s : State) : Bool := (rdA s pgPower 0x118).bit 0

/-! ### The actions of a window -/

/-- FLOOR_LOAD of LOOP_STAT, in 1/256; 255 is every idle array-beat that the field can tell. -/
def floorLoad (s : State) : Nat := fld s pgPower 0x140 23 16

/-- Set the loop's CAP and floor load (R663, R674). -/
def setLoop (cap load : Nat) (s : State) : State :=
  let s := { s with power := { s.power with cap := cap } }
  setFld (setFld s pgPower 0x140 15 0 cap) pgPower 0x140 23 16 load

/-- The loop's move for a measured power (R663, R667). The spec gives the direction and the limits of a move and not its size: that is a free
choice. A CAP action drops floor load. -/
def loopAct (p : Nat) (s : State) : State :=
  let cap := s.power.cap
  let load := floorLoad s
  if loopFrozen s then setLoop cap load s
  else if upperMW s < p then
    let (d, s) := choose s (cap - 1100)
    setLoop (max 1100 (cap - 1 - d)) 0 s
  else
    let short := match lowerMW s with | some l => decide (p < l) | none => false
    if short then
      let (d, s) := choose s (255 - load)
      setLoop cap (min 255 (load + 1 + d)) s
    else
      let (d, s) := choose s (load + 1)
      let (e, s) := choose s (1900 - cap + 1)
      setLoop (if p + rampMW s ≤ upperMW s then min 1900 (cap + e) else cap) (if floorMode s = 0 then 0 else load - d) s

/-- Windows that miss a bound with nothing left to do (R664). -/
def countUnmet (p : Nat) (s : State) : State :=
  if upperMW s < p && decide (s.power.cap ≤ 1100) then
    if pMaxMW s < p then addReg s pgPower 0x160 1 else addReg s pgPower 0x158 1
  else match lowerMW s with
    | some l => if p < l && decide (255 ≤ floorLoad s) then addReg s pgPower 0x158 1 else s
    | none => s

/-- The outlet limit (R672): the valve is fully open and the outlet above OUT_MAX, until it is at OUT_MAX or every CAP is at the floor. -/
def outletLimit (outlet16 : Nat) (s : State) : State :=
  let limit := fldA s pgPower 0x110 15 8 * 16
  let hot := decide (limit < outlet16) && decide (100 ≤ s.power.valve)
  let cut := if hot && decide (1100 < s.power.cap) then s.power.outletCut + rampMW s
    else if outlet16 + 16 ≤ limit then s.power.outletCut - rampMW s else s.power.outletCut
  setFld { s with power := { s.power with outletCut := cut } } pgPower 0x140 34 34 (b2n (hot || decide (cut ≠ 0)))

/-- Units of 1 mW for 128 BT µs in one joule. -/
def jouleUnits : Nat := 7812500

/-- ENERGY and FLOOR_ENERGY (R665, R674). -/
def countEnergy (p floor : Nat) (s : State) : State :=
  let e := s.power.energyRem + p
  let f := s.power.floorRem + floor
  let s := addReg (addReg s pgPower 0x148 (e / jouleUnits)) pgPower 0x150 (f / jouleUnits)
  { s with power := { s.power with energyRem := e % jouleUnits, floorRem := f % jouleUnits } }

/-- What the sensors report (R674). -/
def noteSample (x : PowerSample) (s : State) : State :=
  let w := sat 16 x.inputW
  let s := setFld (setFld s pgPower 0x120 15 0 w) pgPower 0x120 31 16 (max w (fld s pgPower 0x120 31 16))
  let s := wr s pgPower 0x128 (word (sat 16 x.vin + sat 16 x.iin <<< 16))
  let s := setFld s pgPower 0x130 27 16 (sat 12 x.outlet16)
  wr s pgPower 0x138 (word (sat 12 x.tj16 + x.tjAt.cluster.val <<< 16 + x.tjAt.tile.val <<< 21))

/-- The time in which floor load is permitted after a step's slot ends 1 BT s after the last slot (R666). -/
def expireFloor (s : State) : State :=
  if slotsQuiet s && decide (s.power.lastEnd + 1000000000 ≤ s.now) then { s with power := { s.power with stepsSeen := false } } else s

/-- POWER_CONTROL_WINDOW (R663): a window ends once at each Beacon multiple of 128,000; at any other time nothing happens. -/
def controlWindowEnd (x : PowerSample) (s : State) : State :=
  if s.power.shutdown || decide (s.now % 128000 ≠ 0) || decide (s.power.window = some s.now) then s
  else
    let s := { s with power := { s.power with window := some s.now } }
    let p := x.inputW * 1000
    let s := countEnergy p x.floorMW (noteSample x (expireFloor s))
    let s := outletLimit x.outlet16 s
    let s := setFld s pgPower 0x140 35 35 (b2n (floorPermitted s))
    let s := loopAct p (countUnmet p s)
    { s with power := { s.power with prevMW := p } }

def execPowerControlWindow (sample : PowerSample) (s : State) : Out' :=
  if hasTile s sample.tjAt.tile.val then .next (controlWindowEnd sample s) else .refused .noSuchUnit

/-! ### Coolant -/

/-- Hottest junction at or above 90 °C (R671). -/
def junctionHot (s : State) : Bool := decide (1440 ≤ fld s pgPower 0x138 11 0)

/-- VALVE_LOOP_TICK (R671): `opening` is where the loop would set the valve to hold the outlet at OUT_TARGET. -/
def valveTick (inlet16 outlet16 flow opening : Nat) (s : State) : State :=
  let held := decide (fldA s pgPower 0x110 7 0 = 0) || (rdA s pgPower 0x118).bit 1
  let v := if held then s.power.valve else if junctionHot s then 100 else max (fldA s pgPower 0x110 23 16) opening
  let s := { s with power := { s.power with valve := v } }
  wr s pgPower 0x130 (word (sat 12 inlet16 + sat 12 outlet16 <<< 16 + sat 16 flow <<< 32 + sat 8 v <<< 48))

def execValveLoopTick (inlet16 outlet16 flow : Nat) (opening : Fin 101) (s : State) : Out' :=
  .next (valveTick inlet16 outlet16 flow opening.val s)

/-- Tiles are powered: from the TILES stage on, and not after a shutdown. -/
def tilesPowered (s : State) : Bool := decide (5 ≤ bootStage s) && decide (bootStage s ≤ 9) && !s.power.shutdown

/-- INLET_RANGE (R670): the inlet leaves or returns to 20 °C to 45 °C. -/
def inletRange (inlet16 : Nat) (s : State) : State :=
  if tilesPowered s then
    setFld (setFld s pgPower 0x130 11 0 (sat 12 inlet16)) pgPower 0x140 33 33 (b2n (decide (inlet16 < 320) || decide (720 < inlet16)))
  else s

def execInletRange (inlet16 : Nat) (s : State) : Out' := .next (inletRange inlet16 s)

/-! ### Supply -/

/-- UNDERVOLT of LOOP_STAT and the limit of R662. -/
def setUndervolt (b : Bool) (s : State) : State :=
  setFld { s with power := { s.power with undervolt := b } } pgPower 0x140 32 32 (b2n b)

/-- INPUT_UNDERVOLT_BAND (R662). -/
def execInputUndervoltBand (s : State) : Out' := .next (setUndervolt true s)

/-- INPUT_VOLTAGE_RESTORED (R662). -/
def execInputVoltageRestored (s : State) : Out' := .next (setUndervolt false s)

/-- PROTECTIVE_SHUTDOWN (R661): the tiles lose their supplies, and with them all that they hold; the cause is recorded, the Keeper stays at its
chain address and sends EVENT FAILED. The module takes no further step of bring-up before a device reset. -/
def shutdown (cause : Nat) (s : State) : State :=
  let r := resetBlocks s
  let r := wr { r with now := s.now } pgIdent 0x140 (rd s pgIdent 0x140)
  let r := setFld (setBoot r 15) pgPower 0x120 35 32 cause
  chainEvent 4 { r with power := { r.power with shutdown := true } }

/-- A condition that shuts the module down (R661): NO_FLOW is one only while tiles are powered. -/
def shutsDown (s : State) (cause : Nat) : Bool := decide (cause ≠ 0) && (decide (cause ≠ 3) || tilesPowered s)

def execProtectiveShutdown (cause : Fin 7) (s : State) : Out' := .next (if shutsDown s cause.val then shutdown cause.val s else s)

/-! ### PWR_STAT (R597, R674) -/

/-- PWR_STAT_READ: the register, and PEAK_W reset in one event. -/
def readPwrStat (s : State) : State := reply (rd s pgPower 0x120) (setFld s pgPower 0x120 31 16 0)

def execPwrStatRead (s : State) : Out' := .next (readPwrStat s)

end Sys2Proof.Machine
end

