-- ==== Sys2Proof/Machine/Access.lean ====
section
/-! DEFINITION. Accesses to the register window and to the slot pages: what a store does, register by register, and what a load returns (R91, R550,
R561, R583, R584, R593 to R599, R605). -/

namespace Sys2Proof.Machine

/-! ### Refused accesses -/

/-- An access to a reserved page or region (R583): a host access also loads BAD_ACCESS. -/
def noPage (r : Requester) (o : Nat) (s : State) : State :=
  let s := match r with
    | .core _ => s
    | _ => wr s pgHostif 0x1C8 (word o)
  logErr pgHostif errAccess (o % 0x1000) s

/-- An access that is not a naturally aligned 8-byte access (R593). -/
def badShape (r : Requester) (o : Nat) (s : State) : State :=
  match pageOf s.part o with
  | none => noPage r o s
  | some p => logErr p errAccess (o % 0x1000) s

/-! ### Stores -/

/-- LAUNCH_LEAD accepts 2,000 to 1,000,000 (R77). -/
def leadWrite (value : Word) (s : State) : State :=
  if decide (value.toNat < 2000) || decide (1000000 < value.toNat) then logErr pgBeacon errCommand 0x130 s
  else plainWrite pgBeacon 0x130 value s

/-- DMA parameters are refused while the channel is BUSY (R389, R605). -/
def dmaParam (t : Fin 8) (n : Fin 32) (off : Nat) (value : Word) (s : State) : State :=
  if dmaState s t n = dmBusy then logErr (pgDma t n) errState off s else plainWrite (pgDma t n) off value s

/-- QUERY on tile 0, by KIND (R339). -/
def queryWrite (value : Word) (s : State) : State :=
  let key := value.bits 63 8
  let s := reservedWrite (pgGranger 0) 0x1A0 (bm 3 0 + bm 63 8) value s
  match value.bits 3 0 with
  | 1 => queryTask key s
  | 2 => queryCounterOwner key s
  | 3 => queryBushel key s
  | 4 => queryCore key s
  | k => logErr (pgGranger 0) errCommand k (queryResult s 0 0)

/-- A store to TASK_END by a core ends its task; the host's is refused (R244, R272). -/
def taskEndStore (r : Requester) (t : Fin 8) (value : Word) (s : State) : StoreRes :=
  match r with
  | .core k => .done (taskEnd k value s)
  | _ => .done (logErr (pgSync t) errAccess 0x120 s)

/-- A store of RE_SUBMIT (R223). -/
def reStoreBy (r : Requester) (cl : ClusterRef) (value : Word) (s : State) : StoreRes :=
  match r with
  | .core k => if coreCl k = cl then reStoreSubmit k cl value s
      else .done (logErr (.cluster cl) errAccess 0x200 s)
  | _ => .done (reSubmit r cl value s)

/-- A store to a device page. -/
def deviceStore (r : Requester) (b : Block) (p : PageRef) (off : Nat) (v : Word) (s : State) : StoreRes :=
  match b with
  | .mbox => .done (if off = 0x100 then mboxCmd v s else plainWrite p off v s)
  | .beacon => .done (if off = 0x120 then epochSet v s else if off = 0x130 then leadWrite v s else plainWrite p off v s)
  | .peer => .done (if off = 0x108 then linkCmd (pageInst p) v s else plainWrite p off v s)
  | .coll =>
    if off = 0x100 then (match r with | .core k => collStore k v s | _ => .done (collSubmit r v s))
    else .done (if off = 0x118 then groupCmd v s
      else if off = 0x140 then epochCtrlStore v s
      else if off = 0x148 then epochSwitch v s
      else plainWrite p off v s)
  | .foghorn => .done (if off = 0x110 then foghornLoss r v s
      else if off = 0x118 then nfReport r v s
      else if 0x120 ≤ off && decide (off ≤ 0x130) then quietWrite p off (bm 31 0) v s
      else plainWrite p off v s)
  | .step => .done (if off = 0x158 then storeDone v s
      else if off = 0x160 then quietWrite p off (bm 0 0 + bm 47 6) v s
      else if off = 0x168 then restore v s
      else if off = 0x180 then quietWrite p off all64 v s
      else plainWrite p off v s)
  | .trace => .done (if off = 0x110 then traceCtrlStore v s else if off = 0x120 then markStore r v s else plainWrite p off v s)
  | _ => .done (plainWrite p off v s)

/-- A store to a bank page: TCTR or DCTRn (R688 to R692). -/
def bankStore (p : PageRef) (off : Nat) (v : Word) (s : State) : State :=
  if off = 0x110 then bankResetStore p v s
  else if off = 0x120 then sampleStore p v s
  else if off = 0x148 then snapStore p v s
  else if 0x100 ≤ off && decide (off ≤ 0x150) then onBank p off (plainWrite p off v) s
  else if 0x200 ≤ off && decide (off < 0x400) then cfgWrite p off v s
  else plainWrite p off v s

/-- A store to a page of a tile. -/
def tileStore (r : Requester) (b : Block) (t : Fin 8) (n : Fin 96) (off : Nat) (v : Word) (s : State) : StoreRes :=
  let p : PageRef := .tile t n
  match b with
  | .granger => .done (if off = 0x1A0 && decide (t.val = 0) then queryWrite v s else plainWrite p off v s)
  | .stream =>
    if off = 0x100 then (match r with | .core k => streamStore k t v s | _ => .done (streamSubmit r t v s))
    else .done (plainWrite p off v s)
  | .net => .done (if off = 0x108 then stLoad t v s else plainWrite p off v s)
  | .sync =>
    if off = 0x120 then taskEndStore r t v s
    else .done (if off = 0x100 then signalStore r t v s
      else if off = 0x108 then waitValStore r t v s
      else if off = 0x110 then waitGoStore r t v s
      else if off = 0x150 then ctrCfgStore t v s
      else if off = 0x158 then ctrSetStore t v s
      else if off = 0x190 then dbgSnapshot t v s
      else plainWrite p off v s)
  | .ttrace => .done (if off = 0x100 then tileMarkStore r t v s else plainWrite p off v s)
  | .tctr => .done (bankStore p off v s)
  | .dma =>
    let c : Fin 32 := Fin.ofNat 32 (n.val - 64)
    .done (if off = 0x128 then dmaGo r t c v s
      else if 0x100 ≤ off && decide (off ≤ 0x120) then dmaParam t c off v s
      else plainWrite p off v s)
  | _ => .done (plainWrite p off v s)

/-- A store to a register page's block-specific part. -/
def blockStore (r : Requester) (b : Block) (p : PageRef) (off : Nat) (v : Word) (s : State) : StoreRes :=
  match p with
  | .device _ => if b = .dctr then .done (bankStore p off v s) else deviceStore r b p off v s
  | .tile t n => tileStore r b t n off v s
  | .cluster c =>
    if off = 0x200 then reStoreBy r c v s
    else .done (if off = 0x138 then doUnfence c v s else plainWrite p off v s)
  | .core _ => .done (plainWrite p off v s)

/-- A legal store to a register page. -/
def pageStore (r : Requester) (p : PageRef) (off : Nat) (v : Word) (s : State) : StoreRes :=
  match pageBlock p with
  | none => .done s
  | some b =>
    if off = 0x010 then .done (ctrlWrite p v s)
    else if off = 0x028 then .done (errClear p v s)
    else if off = 0x040 then .done (errInject p v s)
    else if 0x048 ≤ off && decide (off ≤ 0x078) then .done (evselWrite p b off v s)
    else if off < 0x100 then .done (plainWrite p off v s)
    else blockStore r b p off v s

/-- A store of a size to a BAR0 offset. -/
def windowStore (r : Requester) (o size : Nat) (v : Word) (s : State) : StoreRes :=
  match pageOf s.part o with
  | none => .done (noPage r o s)
  | some p => if size = 8 && decide (o % 8 = 0) then pageStore r p (o % 0x1000) v s else .done (badShape r o s)

/-! ### Slot pages -/

/-- Configuration words of a slot page take effect only while it is IDLE (R561). -/
def configWrite (n off mask : Nat) (v : Word) (f : Slot → Word → Slot) (s : State) : State :=
  let s := reservedWrite pgHostif off mask v s
  if (slot s n).state = .idle then setSlot s n (f (slot s n) (v &&& word mask)) else logErr pgHostif errState off s

/-- A word of a slot page is written (R558, R559, R561, R562, R569, R570). A write of CMD with both bits set is an ABORT. -/
def slotStore (n off : Nat) (v : Word) (s : State) : State :=
  match off with
  | 0x008 => arm n v s
  | 0x018 =>
    let s := reservedWrite pgHostif 0x18 (bm 1 0) v s
    if v.bit 0 then abort n s else if v.bit 1 then release n s else s
  | 0x020 => configWrite n off (bm 0 0 + bm 56 8) v (fun x w => { x with config := w }) s
  | 0x028 => configWrite n off (bm 47 3) v (fun x w => { x with taskList := w }) s
  | 0x030 => configWrite n off (bm 23 0) v (fun x w => { x with taskCount := w }) s
  | 0x038 => configWrite n off (bm 47 5) v (fun x w => { x with tensorList := w }) s
  | 0x040 => configWrite n off (bm 15 0) v (fun x w => { x with tensorCount := w }) s
  | 0x048 => configWrite n off (bm 47 12 + bm 51 48) v (fun x w => { x with partialSrc := w }) s
  | o =>
    if o = 0 || decide (o = 0x010) || (decide (0x100 ≤ o) && decide (o ≤ 0x140)) || decide (0x2000 ≤ o) then logErr pgHostif errReadOnly off s
    else logErr pgHostif errAccess off s

/-- A host write to BAR2 (R550): the words take effect from the lowest address upwards. -/
def bar2Store (o size : Nat) (ws : List Word) (s : State) : State :=
  if 64 * 0x10000 ≤ o then s
  else if !bar2Access o size then hostRefused errAccess o s
  else (List.range (size / 8)).foldl (fun s i => slotStore (o / 0x10000) (o % 0x10000 + 8 * i) (ws.getD i 0) s) s

/-- REGISTER_WRITE (R596): a write to the register window, or to BAR2. -/
def registerWrite (r : Requester) (bar2 : Bool) (o size : Nat) (ws : List Word) (s : State) : State :=
  if bar2 then bar2Store o size ws s
  else match windowStore r o size (ws.getD 0 0) s with
    | .done s => s
    | .fault => (match r with | .core k => settle k (windowBase + o) s .fault | _ => s)

def execRegisterWrite (r : Requester) (bar2 : Bool) (offset : Nat) (size : Nat) (words : List Word) (s : State) : Out' :=
  byReq s r (registerWrite r bar2 offset size words)

/-! ### Loads -/

/-- A load through a read that has a side effect. -/
def viaReply (f : State → State) (s : State) : LoadRes :=
  let t := f s
  match t.out.reply with
  | .word w => .value w t
  | _ => .value 0 t

/-- What a load of a register returns, with its side effect (R597). -/
def pageLoad (r : Requester) (p : PageRef) (off : Nat) (s : State) : LoadRes :=
  let scope : Option FenceScope := match off with
    | 0x128 => some .cluster
    | 0x130 => some .tile
    | 0x138 => some .device
    | 0x140 => some .fabric
    | _ => none
  match pageBlock p, p with
  | some .sync, _ =>
    match scope with
    | some f => (match r with | .core k => fenceLoad k f s | _ => .value 0 s)
    | none =>
      if off = 0x118 then (match r with | .core k => waitRes k s | _ => .value 4 s)
      else .value (regView s p off) s
  | some .net, .tile t _ => if off = 0x170 then viaReply (readLatMax t) s else .value (regView s p off) s
  | some .stream, .tile t _ => if off = 0x108 then viaReply (readStreamStat t) s else .value (regView s p off) s
  | some .ttrace, .tile t _ => if off = 0x128 then viaReply (readTtraceStat t) s else .value (regView s p off) s
  | some .cluster, .cluster c =>
    if 0x140 ≤ off && decide (off < 0x1C0) then viaReply (readCoreRate ⟨c.tile, c.cluster, Fin.ofNat 16 ((off - 0x140) / 8)⟩) s
    else if off = 0x320 then viaReply (readCmRate c) s
    else .value (regView s p off) s
  | some .core, .core k =>
    if off = 0x140 then viaReply (readSlotStat k) s
    else if off = 0x148 then viaReply (readBankWait k) s
    else .value (regView s p off) s
  | some .coll, _ => if off = 0x108 then viaReply readCollStat s else .value (regView s p off) s
  | some .power, _ => if off = 0x120 then viaReply readPwrStat s else .value (regView s p off) s
  | _, _ => .value (regView s p off) s

/-- A load of a size from a BAR0 offset: all-ones where it is refused (R583, R593). -/
def windowLoad (r : Requester) (o size : Nat) (s : State) : LoadRes :=
  match pageOf s.part o with
  | none => .value (word all64) (noPage r o s)
  | some p => if size = 8 && decide (o % 8 = 0) then pageLoad r p (o % 0x1000) s else .value (word all64) (badShape r o s)

end Sys2Proof.Machine
end

