-- ==== Sys2Proof/Machine/Tile.lean ====
section
/-! DEFINITION. Tile instructions: loads and stores (R112 to R121), descriptor access (R98, R104), weights and multiplies (R122 to R124,
R142 to R154, R160 to R168, R193, R194, R203 to R210), TZERO (R125) and TCVT (R126, R171 to R181). -/

namespace Sys2Proof.Machine

/-- An illegal instruction (R106): cause 2. What mtval holds is not stated. -/
def illegal (s : State) : IRes := .trap { s with free := s.free + 1 } 2 (Config.freeWord s.free) 0 0

/-! ### Loads -/

/-- Lines of a range, each with its first byte in the range. -/
def rangeLines (a n : Nat) : List (Nat × Nat) :=
  (List.zip (List.range (linesOf a n).length) (linesOf a n)).map (fun e => (if e.1 = 0 then addr48 a else 64 * e.2, e.2))

/-- First byte and number of each poisoned line that the core would read in a range. -/
def poisonedLines (s : State) (k : CoreRef) (rs : List (Nat × Nat)) : List (Nat × Nat) :=
  rs.flatMap (fun r => (rangeLines r.1 r.2).filter (fun e => lineBad s k e.2))

/-- Cause of a fault at an address, as TFINFO codes it (R93): 1 UNMAPPED, 2 DEVICE, 3 ECC. -/
def faultCause (s : State) (a : Nat) : Nat :=
  match attrOf s a with
  | .unmapped => 1
  | .device => 2
  | .memory => 3

/-- Lowest faulting byte of a row's ranges, if one faults (R115). -/
def rowFault (s : State) (k : CoreRef) (rs : List (Nat × Nat)) : Option Nat :=
  lowest (badPages s rs ++ (poisonedLines s k rs).map (fun e => e.1))

/-- The row engine of a load: row r comes in, or its place is zeroed (R112, R113). `rs` are the row's ranges. -/
def loadOneRow (k : CoreRef) (t : Tile) (r : Nat) (rs : List (Nat × Nat)) (bad : Bool) (s : State) : State :=
  if bad then
    setCore s k (setRowScales (loadRow (coreOf s k) t r (List.replicate t.rb 0)) t r (List.replicate t.scaleBytes 0))
  else
    let (parts, s) := rs.foldl (fun (acc : List (List Byte) × State) x =>
      let (b, s) := coreRead acc.2 k x.1 x.2
      (acc.1 ++ [b], s)) ([], s)
    let c := loadRow (coreOf s k) t r (parts.getD 0 [])
    setCore s k (setRowScales c t r (parts.getD 1 []))

/-- A load's rows: row number, ranges, and lowest faulting byte. -/
abbrev LoadRow := Nat × List (Nat × Nat) × Option Nat

/-- R115: TFADDR and TFINFO for the lowest masked row, and ROWS_MASKED. -/
def noteMasked (k : CoreRef) (rows : List LoadRow) (s : State) : State :=
  let bad := rows.filter (fun e => e.2.2.isSome)
  match bad with
  | [] => s
  | (r, _, a) :: _ =>
    let a := a.getD 0
    let n := bad.length
    let c := csrSet (coreOf s k) csrTfaddr (word a)
    let c := csrSet c csrTfinfo (word (r + faultCause s a <<< 8 + n <<< 16 + 2 ^ 63))
    event (.core k) 0x104 n (addReg (setCore s k c) (.core k) 0x130 n)

/-- Poisoned lines that a load's rows met: rows with a page that is not MEMORY are not read. -/
def metLines (s : State) (k : CoreRef) (rows : List LoadRow) : List Nat :=
  (rows.filter (fun e => (badPages s e.2.1).isEmpty)).flatMap (fun e => (poisonedLines s k e.2.1).map (fun x => x.2))

/-- Bring the rows in and leave RMASK: `m` with the bits of faulting rows cleared. -/
def loadRows (k : CoreRef) (n : Nat) (rows : List LoadRow) (m : Word) (s : State) : State :=
  let t := tileOf (coreOf s k) n
  let s := rows.foldl (fun s e => loadOneRow k t e.1 e.2.1 e.2.2.isSome s) s
  let bits := bitsOf ((rows.filter (fun e => e.2.2.isSome)).map (fun e => e.1))
  let s := setCore s k (endAhead (setRmask (coreOf s k) n (m &&& ~~~(word bits))) n)
  noteMasked k rows s

/-- A speculative task's load meets an error in shadow data: its fault is deferred (R260, R357). -/
def shadowMet (s : State) (k : CoreRef) (rows : List LoadRow) : Bool := (metLines s k rows).any (shadowRead s k)

/-- Some row cannot be read yet (R18, R353). -/
def rowsWait (s : State) (k : CoreRef) (rows : List LoadRow) : Bool := accessWaits s k (rows.flatMap (fun e => e.2.1))

/-- The end of a load that has met poisoned lines: each is counted and reported; an error in shadow data ends the task with a deferred fault
once the load is complete (R114, R260; log entry 104). -/
def loadDone (k : CoreRef) (met : List Nat) (shadow : Bool) (s : State) : IRes :=
  let s := met.foldl (fun s l => corePoisoned k l s) s
  if shadow then .defer s 5 else .ok s

/-- TLD (R112 to R116). -/
def tldOp (k : CoreRef) (n : Nat) (inc : Bool) (s : State) : IRes :=
  let t := tileOf (coreOf s k) n
  afterChecks (checkRowMem n t) s (fun s =>
    let rows : List LoadRow := t.selected.map (fun r => (r, t.ranges r, rowFault s k (t.ranges r)))
    match rows with
    | [] => .ok s
    | e :: _ =>
      match lowest (badPages s e.2.1) with
      | some a => .trap s 25 (word a) 0 n
      | none =>
        if rowsWait s k rows then memStall k s
        else
          let met := metLines s k rows
          let shadow := shadowMet s k rows
          let s := loadRows k n rows (t.rmask &&& lowMask t.rows) s
          let s := if inc then startAhead k n (setCore s k (advance (coreOf s k) n)) else s
          loadDone k met shadow s)

def execTld (k : CoreRef) (td : Fin 8) (inc : Bool) (s : State) : Out' := atTile s k.tile (issue k (tldOp k td.val inc))

/-- TLDS (R120, R121). -/
def tldsOp (k : CoreRef) (n rs1 rs2 : Nat) (s : State) : IRes :=
  let c := coreOf s k
  let t := tileOf c n
  afterChecks (checkTlds n t) s (fun s =>
    let addr := fun r => ((xRd c rs1).toNat + r * (xRd c rs2).toNat) % 2 ^ 48
    let rows : List LoadRow := (List.range t.rows).map (fun r => (r, [(addr r, t.rb)], rowFault s k [(addr r, t.rb)]))
    match lowest (badPages s (rows.flatMap (fun e => e.2.1))) with
    | some a => .trap s 25 (word a) 0 n
    | none =>
      if rowsWait s k rows then memStall k s
      else
        let met := metLines s k rows
        let shadow := shadowMet s k rows
        loadDone k met shadow (loadRows k n rows (lowMask t.rows) s))

def execTlds (k : CoreRef) (td : Fin 8) (rs1 rs2 : Fin 32) (s : State) : Out' :=
  atTile s k.tile (issue k (tldsOp k td.val rs1.val rs2.val))

/-! ### Store -/

/-- Ranges and bytes that TST writes: the data bytes and scale bytes of every selected row (R119). -/
def storeBytes (c : Core) (t : Tile) : List (Nat × List Byte) :=
  t.selected.flatMap (fun r => (t.rowAddr r, rowBytes c t r) :: (if t.scale = 1 then [(t.scaleAddr r, rowScales c t r)] else []))

/-- TST (R119). -/
def tstOp (k : CoreRef) (n : Nat) (inc : Bool) (s : State) : IRes :=
  let c := coreOf s k
  let t := tileOf c n
  afterChecks (checkRowMem n t) s (fun s =>
    let l := storeBytes c t
    if t.selected.isEmpty then .ok s
    else
      match lowest (badPages s (l.map (fun e => (e.1, e.2.length)))) with
      | some a => .trap s 26 (word a) 0 n
      | none =>
        match storeRanges k l s with
        | .ok s => .ok (if inc then setCore s k (endAhead (advance (coreOf s k) n) n) else s)
        | r => r)

def execTst (k : CoreRef) (td : Fin 8) (inc : Bool) (s : State) : Out' := atTile s k.tile (issue k (tstOp k td.val inc))

/-! ### Descriptor access -/

/-- TDW (R98, R106, R118). -/
def tdwOp (k : CoreRef) (n rs1 sub : Nat) (s : State) : IRes :=
  if 4 < sub then illegal s
  else
    let c := coreOf s k
    .ok (setCore s k (endAhead (tdWr c n sub (xRd c rs1)) n))

def execTdw (k : CoreRef) (td : Fin 8) (rs1 : Fin 32) (sub : Fin 8) (s : State) : Out' :=
  atTile s k.tile (issue k (tdwOp k td.val rs1.val sub.val))

/-- TDR (R98, R106). -/
def tdrOp (k : CoreRef) (n rd sub : Nat) (s : State) : IRes :=
  if 4 < sub then illegal s
  else
    let c := coreOf s k
    .ok (setCore s k (xWr c rd (tdRd c n sub)))

def execTdr (k : CoreRef) (td : Fin 8) (rd : Fin 32) (sub : Fin 8) (s : State) : Out' :=
  atTile s k.tile (issue k (tdrOp k td.val rd.val sub.val))

/-! ### Weights -/

/-- WEIGHTS_VALID of CORE_STAT (R137, R151). -/
def weightsValid (s : State) (k : CoreRef) : Bool := (rd s (.core k) 0x100).bit 3

/-- The scale 1.0 in a scale arrangement (R147, R206). -/
def oneScale (kind : Nat) : Nat :=
  match kind with
  | 1 => 0x7F
  | 2 => 0x3F800000
  | _ => 0

/-- Element of stored row r and column col of a source tile, with its scale; none in a masked row. -/
def srcElem (c : Core) (t : Tile) (r col : Nat) : Option WElem :=
  if t.rmask.bit r then some ⟨elemAt c t r col, rawScale c t r col⟩ else none

/-- Element (j, i) of the weight block that TWL loads: masked rows load as zeros with scale 1.0 (R122, R147, R204, R206, R209). -/
def weightElem (c : Core) (t : Tile) (j i : Nat) : WElem :=
  (if t.trans then srcElem c t i j else srcElem c t j i).getD ⟨0, oneScale t.scale⟩

/-- The weight block of a tile (R122). -/
def weightBlock (c : Core) (t : Tile) : WBlock where
  rows := t.effRows
  cols := t.effCols
  fmt := t.fmt
  scaleKind := t.scale
  trans := t.trans
  elems := (List.range t.effRows).map (fun j => (List.range t.effCols).map (fun i => weightElem c t j i))

/-- TWL (R122, R147, R150, R151): the block goes to the shadow store, replacing one that no multiply has used. -/
def twlOp (k : CoreRef) (n : Nat) (s : State) : IRes :=
  let c := coreOf s k
  let t := tileOf c n
  afterChecks (checkTwl n t) s (fun s =>
    let s := setCore s k { c with shadow := some (weightBlock c t), filling := true }
    .ok (setFld s (.core k) 0x100 3 3 1))

def execTwl (k : CoreRef) (tds : Fin 8) (s : State) : Out' := atTile s k.tile (issue k (twlOp k tds.val))

/-- WEIGHT_FILL_DONE (R147): the fill of the shadow store ends. -/
def weightFillDone (k : CoreRef) (s : State) : State := setCore s k { coreOf s k with filling := false }

def execWeightFillDone (k : CoreRef) (s : State) : Out' := atTile s k.tile (weightFillDone k)

/-! ### Multiply -/

/-- The weight block that the next multiply uses: the shadow block if a TWL has filled one since the last (R149). -/
def nextBlock (s : State) (k : CoreRef) : Option WBlock :=
  if weightsValid s k then
    (match (coreOf s k).shadow with
     | some b => some b
     | none => (coreOf s k).active)
  else none

/-- WEIGHT_SWITCH (R149): the shadow block becomes the active block; the fill has completed. -/
def switchWeights (c : Core) : Core :=
  match c.shadow with
  | some b => { c with active := some b, shadow := none, filling := false }
  | none => c

/-- Element i of effective row r of an activation; none where it forms no term (R204, R206). -/
def actElem (c : Core) (a : Tile) (r i : Nat) : Option WElem := if a.trans then srcElem c a i r else srcElem c a r i

/-- Every product of a beat is a term of its own: BF16 (R162), and scaled transposed operands (R208). -/
def singleTerms (w : WBlock) (a : Tile) : Bool :=
  decide (rateClass w.fmt = 16) || (w.trans && decide (w.scaleKind ≠ 0)) || (a.trans && decide (a.scale ≠ 0))

/-- Product of a weight element and an activation element under their scales (R160 to R166). -/
def product (w : WBlock) (a : Tile) (x y : WElem) : Num :=
  nmul (scaledElem w.fmt w.scaleKind x.code x.scale) (scaledElem a.fmt a.scale y.code y.scale)

/-- Products of output channel j and effective row r, by element; none where there is no term. -/
def products (c : Core) (w : WBlock) (a : Tile) (r j : Nat) : List (Option Num) :=
  (List.range w.cols).map (fun i => (actElem c a r i).map (fun y => product w a (((w.elems.getD j []).getD i ⟨0, 0⟩)) y))

/-- Exact sum of a block's products (R162). -/
def blockTerm (l : List (Option Num)) : Num := (l.filterMap id).foldl nadd (.fin false 0 0)

/-- Blocks of 32. -/
def blocksOf {α : Type} (l : List α) : List (List α) :=
  (List.range ((l.length + 31) / 32)).map (fun b => (l.drop (32 * b)).take 32)

/-- Terms of one output channel and one activation row in one beat (R162, R208). -/
def beatTerms (c : Core) (w : WBlock) (a : Tile) (r j : Nat) : List Num :=
  let ps := products c w a r j
  if singleTerms w a then ps.filterMap id else (blocksOf ps).map blockTerm

/-- Starting value of an accumulator (R144). -/
def startValue (zero : Bool) (c : Core) (d : Tile) (r j : Nat) : Num :=
  if zero then .fin false 0 0 else f32 (BitVec.ofNat 32 (elemAt c d r j))

/-- Results of effective row r, by output channel (R123, R163). -/
def rowResults (zero : Bool) (c : Core) (w : WBlock) (d a : Tile) (r : Nat) : List Lane :=
  (List.range w.rows).map (fun j => beatSum (beatTerms c w a r j ++ [startValue zero c d r j]))

/-- Effective rows that are computed (R102, R206). -/
def computedRows (a : Tile) : List Nat := if a.trans then List.range a.cols else a.selected

/-- Write the results of the computed rows to the destination. -/
def writeResults (zero : Bool) (c : Core) (w : WBlock) (d a : Tile) : Core :=
  (computedRows a).foldl (fun c' r =>
    (List.zip (List.range w.rows) (rowResults zero c w d a r)).foldl (fun c'' e => setElem32 c'' d r e.1 e.2) c') c

/-- A code is ±0 in a format. -/
def zeroCode (fmt code : Nat) : Bool := (decodeFmt (fmtOf fmt) code).isZero

/-- Element i of output channel j is gated in effective row r: its weight or activation is ±0 (R152), or the fill wrote it as zero or left its cell
row without a weight (R147, R153; log entry 106). -/
def gatedAt (c : Core) (w : WBlock) (a : Tile) (r j i : Nat) : Bool :=
  decide (w.rows ≤ j) || decide (w.cols ≤ i) || zeroCode w.fmt ((w.elems.getD j []).getD i ⟨0, 0⟩).code
  || (match actElem c a r i with | some y => zeroCode a.fmt y.code | none => true)

/-- Cells of the 16 cell rows, with a number of elements each, that a test of row and element selects. -/
def countCells (n : Nat) (f : Nat → Nat → Bool) : Nat :=
  ((List.range 16).map (fun j => ((List.range n).filter (f j)).length)).sum

/-- Least and greatest number of gated cells of a row (R143, R153): in the 8-bit class each cell holds one element, and in BF16 each element takes two
cells. A cell of the 4-bit class performs two MACs: it is gated if both are, and whether it counts with one of them gated is not stated. -/
def gatedCells (c : Core) (w : WBlock) (a : Tile) (r : Nat) : Nat × Nat :=
  let g := gatedAt c w a r
  match rateClass w.fmt with
  | 16 => let n := 2 * countCells 32 g; (n, n)
  | 8 => let n := countCells 64 g; (n, n)
  | _ => (countCells 64 (fun j i => g j (2 * i) && g j (2 * i + 1)), countCells 64 (fun j i => g j (2 * i) || g j (2 * i + 1)))

/-- GATED_CELLS of a multiply (R153), in units of 64, while an event line counts it: what does not fill a unit is kept for the next multiply. -/
def gatedEvent (k : CoreRef) (w : WBlock) (a : Tile) (s : State) : State :=
  if (List.range 7).any (fun line => lineSelects s (.core k) 0x101 line) then
    let ns := (computedRows a).map (gatedCells (coreOf s k) w a)
    let lo := (ns.map (fun e => e.1)).sum
    let hi := (ns.map (fun e => e.2)).sum
    let (d, s) := if lo = hi then (0, s) else choose s (hi + 1 - lo)
    let c := coreOf s k
    let n := c.gatedRem + lo + d
    event (.core k) 0x101 (n / 64) (setCore s k { c with gatedRem := n % 64 })
  else s

/-- The twin check compares the last row's results (R193, R207). -/
def twinChecked (a : Tile) : Bool := decide (a.effRows % 2 = 1) && (a.trans || a.rmask.bit (a.effRows - 1))

/-- TWIN_MISMATCH (R194): the event, a transient fault, the fence with cause FAULT, and an array self-test before release. -/
def twinMismatch (k : CoreRef) (s : State) : State :=
  let s := event (.core k) 0x103 1 s
  let s := setCore s k { coreOf s k with needArrayTest := true }
  fenceCoreAs k causeFault (12, coreId s k) s

/-- TMMA and TMMAZ (R123, R124, R149, R193, R206). -/
def tmmaOp (zero : Bool) (k : CoreRef) (nd na : Nat) (twinFault : Bool) (s : State) : IRes :=
  let c := coreOf s k
  let d := tileOf c nd
  let a := tileOf c na
  afterChecks (checkTmma nd d na a (nextBlock s k)) s (fun s =>
    match nextBlock s k with
    | none => .ok s
    | some w =>
      let s := gatedEvent k w a s
      let c := switchWeights (coreOf s k)
      let c := writeResults zero c w d a
      let m := if a.trans then lowMask a.effRows ||| d.rmask else mergeMask a.rows a.rmask d.rmask
      let c := if zero then endAhead (setRmask c nd m) nd else c
      let s := event (.core k) 0x100 ((a.effRows + 1) / 2) (setCore s k c)
      .ok (if twinFault && twinChecked a then twinMismatch k s else s))

def execTmma (k : CoreRef) (tdd tds : Fin 8) (twinFault : Bool) (s : State) : Out' :=
  atTile s k.tile (issue k (tmmaOp false k tdd.val tds.val twinFault))

def execTmmaz (k : CoreRef) (tdd tds : Fin 8) (twinFault : Bool) (s : State) : Out' :=
  atTile s k.tile (issue k (tmmaOp true k tdd.val tds.val twinFault))

/-! ### TZERO -/

/-- TZERO (R125). -/
def tzeroOp (k : CoreRef) (n : Nat) (s : State) : IRes :=
  let c := coreOf s k
  let t := tileOf c n
  afterChecks (checkTzero n t) s (fun s =>
    let c := vSetBytes c t.vr 0 (List.replicate (t.rows * t.rstride) 0)
    let c := vSetBytes c t.svr 0 (List.replicate (256 * t.scaleRegs) 0)
    .ok (setCore s k (endAhead (setRmask c n (lowMask t.rows)) n)))

def execTzero (k : CoreRef) (tdd : Fin 8) (s : State) : Out' := atTile s k.tile (issue k (tzeroOp k tdd.val))

/-! ### TCVT -/

/-- Encoding of an exact value divided by n × 2^e in a format (R172, R173). -/
def encodeNum (fmt : Nat) (r : Rnd) (x : Num) (d : Nat) (e : Int) : Nat :=
  let f := fmtOf fmt
  match x with
  | .fin neg m k =>
    if f.top = 0 && decide (f.eb = 8) then roundIeee f r neg m d (k - e) else satRound f r neg m d (k - e)
  | _ => if fmt = 0 then (toF32R r x) else if fmt = 1 then toBf16 r x else satNonfinite f x

/-- emax of a format (R159). -/
def emaxOf (fmt : Nat) : Int :=
  match fmt with
  | 2 => 8
  | 3 => 15
  | 5 => 4
  | _ => 2

/-- E8M0 scale of a block of source values (R174). -/
def blockScale (fmt : Nat) (l : List Num) : Nat :=
  if l.any (fun x => !x.isFin) then 0xFF
  else
    match topExp l with
    | none => 0x7F
    | some lg => (max 0 (min 254 (lg - emaxOf fmt + 127))).toNat

/-- Random draws of an instruction: key, counter and whether it draws at all (R178). -/
structure Stream where
  on : Bool
  key : Nat
  ctr : Nat
  deriving DecidableEq, Repr

/-- The stream of vr127 (R178). -/
def streamOf (c : Core) (on : Bool) : Stream :=
  ⟨on, leNat ((List.range 8).map (vByte c 127)), leNat ((List.range 8).map (fun i => vByte c 127 (8 + i)))⟩

/-- Rounding of draw n. -/
def Stream.rnd (x : Stream) (n : Nat) : Rnd := if x.on then .stoch (draw x.key x.ctr n) else .near

/-- The advanced counter goes back to vr127 (R178, R180). -/
def advanceStream (x : Stream) (n : Nat) (c : Core) : Core :=
  if x.on then vSetBytes c 127 8 (leBytes ((x.ctr + n) % 2 ^ 64) 8) else c

/-- The running amax of a lane after a row of source magnitudes (R175). -/
def amaxLane (old : Lane) (l : List Num) : Lane :=
  if (f32 old).isNan || l.any Num.isNan then 0x7FC00000
  else if l.any (fun x => !x.isFin) then 0x7F800000
  else
    let m := l.foldl (fun a x => if nlt a (nabs x) then nabs x else a) (.fin false 0 0)
    if nlt (f32 old) m then toF32 m else old

/-- Codes of a converted row: with block scales, with a tally scale, or without (R172 to R175). -/
def convertCodes (d : Tile) (x : Stream) (n0 : Nat) (lane : Nat) (l : List Num) : List Nat :=
  let ix := List.zip (List.range l.length) l
  match d.scale with
  | 1 => (blocksOf ix).flatMap (fun b =>
      let e := blockScale d.fmt (b.map (fun y => y.2))
      b.map (fun y => if e = 0xFF then 0 else encodeNum d.fmt (x.rnd (n0 + y.1)) y.2 1 ((e : Int) - 127)))
  | 2 =>
      match (if tallyValid lane then decodeFmt fmtFp32 lane else .nan) with
      | .fin _ m e => ix.map (fun y => encodeNum d.fmt (x.rnd (n0 + y.1)) y.2 m e)
      | _ => ix.map (fun _ => encodeNum d.fmt .near .nan 1 0)
  | _ => ix.map (fun y => encodeNum d.fmt (x.rnd (n0 + y.1)) y.2 1 0)

/-- Values of a row that a conversion squashes (R173): ±∞ and NaN into FP6 or FP4, but for a destination with block scales. -/
def squashes (d : Tile) (l : List Num) : Nat :=
  if d.scale = 1 || decide ((fmtOf d.fmt).top ≠ 2) then 0 else (l.filter (fun x => !x.isFin)).length

/-- One row of a conversion. -/
def convertRow (d a : Tile) (x : Stream) (r : Nat) (c : Core) : Core :=
  let l := (List.range a.cols).map (srcValue c a r)
  let c := { c with squashed := c.squashed + squashes d l }
  let codes := convertCodes d x (r * 4 * ((a.cols + 3) / 4)) (lane c d.svr r).toNat l
  let c' := setRow c d r codes
  match d.scale with
  | 1 => setRowScales c' d r ((blocksOf l).map (fun b => BitVec.ofNat 8 (blockScale d.fmt b)))
  | 2 => setLane c' (d.svr + 1) r (amaxLane (lane c (d.svr + 1) r) l)
  | _ => c'

/-- One row of a copy (R126, R171). -/
def copyRow (d a : Tile) (r : Nat) (c : Core) : Core :=
  setRowScales (vSetBytes c d.vr (r * d.rstride) (rowBytes c a r)) d r (rowScales c a r)

/-- TCVT copies: equal formats, and SCALE 0b00 or 0b01 on both tiles (R126, R171). -/
def tcvtCopies (d a : Tile) : Bool := decide (d.fmt = a.fmt) && decide (d.scale = a.scale) && decide (a.scale ≠ 2)

/-- TCVT (R126, R171 to R181). RND above 1 is reserved (R106). -/
def tcvtOp (k : CoreRef) (nd ns rnd : Nat) (s : State) : IRes :=
  if 1 < rnd then illegal s
  else
    let c := coreOf s k
    let d := tileOf c nd
    let a := tileOf c ns
    afterChecks (checkTcvt nd d ns a (decide (rnd = 1))) s (fun s =>
      let x := streamOf c (decide (rnd = 1))
      let c := a.selected.foldl (fun c r => if tcvtCopies d a then copyRow d a r c else convertRow d a x r c) c
      let c := advanceStream x (a.rows * ((a.cols + 3) / 4)) c
      .ok (setCore s k (endAhead (setRmask c nd (mergeMask a.rows a.rmask d.rmask)) nd)))

def execTcvt (k : CoreRef) (tdd tds : Fin 8) (rnd : Fin 8) (s : State) : Out' :=
  atTile s k.tile (issue k (tcvtOp k tdd.val tds.val rnd.val))

/-! ### Floor load -/

/-- The package power loop requests floor load on a core: floor load is permitted and running (R154, R663, R666), its cluster's thermal cap is
1,900 Mbeat/s and the core is not fenced (R665). -/
def floorRequested (s : State) (k : CoreRef) : Bool :=
  decide (fld s pgPower 0x140 23 16 ≠ 0)
  && decide (1900 ≤ thermalCap (cluster s (coreCl k)).temp16) && !coreFenced s k

/-- FLOOR_BEAT (R154): an idle array runs a floor beat, which only FLOOR_BEATS counts. -/
def floorBeat (k : CoreRef) (s : State) : State := if floorRequested s k then event (.core k) 0x102 1 s else s

def execFloorBeat (k : CoreRef) (_arrayB : Bool) (s : State) : Out' := atTile s k.tile (floorBeat k)

end Sys2Proof.Machine
end

