-- ==== Sys2Proof/Machine/Vector.lean ====
section
/-! DEFINITION. Vector instructions (R107, R127 to R131, R169, R170, R176 to R181). -/

namespace Sys2Proof.Machine

/-- The 64 FP32 lanes of a register. -/
def lanes (c : Core) (n : Nat) : List Lane := (List.range 64).map (lane c n)

/-- Set all lanes of a register. -/
def setLanes (c : Core) (n : Nat) (l : List Lane) : Core := vSetBytes c n 0 (l.flatMap (fun v => leBytes v.toNat 4))

/-- A lane-wise operation of two registers (R127). -/
def lanewise (f : Lane → Lane → Lane) (k : CoreRef) (vd vs1 vs2 : Nat) (s : State) : IRes :=
  let c := coreOf s k
  .ok (setCore s k (setLanes c vd (List.zipWith f (lanes c vs1) (lanes c vs2))))

def execVadd (k : CoreRef) (vd vs1 vs2 : Fin 128) (s : State) : Out' :=
  atTile s k.tile (issue k (lanewise fadd k vd.val vs1.val vs2.val))

def execVsub (k : CoreRef) (vd vs1 vs2 : Fin 128) (s : State) : Out' :=
  atTile s k.tile (issue k (lanewise fsub k vd.val vs1.val vs2.val))

def execVmul (k : CoreRef) (vd vs1 vs2 : Fin 128) (s : State) : Out' :=
  atTile s k.tile (issue k (lanewise fmul k vd.val vs1.val vs2.val))

def execVmax (k : CoreRef) (vd vs1 vs2 : Fin 128) (s : State) : Out' :=
  atTile s k.tile (issue k (lanewise fmax k vd.val vs1.val vs2.val))

def execVmin (k : CoreRef) (vd vs1 vs2 : Fin 128) (s : State) : Out' :=
  atTile s k.tile (issue k (lanewise fmin k vd.val vs1.val vs2.val))

/-- VFMA: vd ← vs1 × vs2 + vd with one rounding (R127). -/
def vfmaOp (k : CoreRef) (vd vs1 vs2 : Nat) (s : State) : IRes :=
  let c := coreOf s k
  .ok (setCore s k (setLanes c vd
    ((List.range 64).map (fun i => ffma (lane c vs1 i) (lane c vs2 i) (lane c vd i)))))

def execVfma (k : CoreRef) (vd vs1 vs2 : Fin 128) (s : State) : Out' := atTile s k.tile (issue k (vfmaOp k vd.val vs1.val vs2.val))

/-- VFUNC (R128, R170); codes 8 to 127 are reserved. -/
def vfuncOp (k : CoreRef) (vd vs1 code : Nat) (s : State) : IRes :=
  if 7 < code then illegal s
  else
    let c := coreOf s k
    .ok (setCore s k (setLanes c vd ((lanes c vs1).map (vfuncLane code))))

def execVfunc (k : CoreRef) (vd vs1 code : Fin 128) (s : State) : Out' := atTile s k.tile (issue k (vfuncOp k vd.val vs1.val code.val))

/-- The reduction that a VRED code selects (R129, R169). -/
def vredLane (code : Nat) (l : List Lane) : Lane :=
  match code with
  | 0 => tree6 fadd l
  | 1 => tree6 fmax l
  | _ => tree6 fmin l

/-- VRED (R129); codes 3 to 127 are reserved. -/
def vredOp (k : CoreRef) (vd vs1 code : Nat) (s : State) : IRes :=
  if 2 < code then illegal s
  else
    let c := coreOf s k
    .ok (setCore s k (setLanes c vd (vredLane code (lanes c vs1) :: List.replicate 63 0)))

def execVred (k : CoreRef) (vd vs1 code : Fin 128) (s : State) : Out' := atTile s k.tile (issue k (vredOp k vd.val vs1.val code.val))

/-- A VCVT code: source and destination FMT, and whether it rounds stochastically (R176). -/
def vcvtCode (code : Nat) : Option (Nat × Nat × Bool) :=
  match code with
  | 0 => some (0, 1, false)
  | 1 => some (0, 1, true)
  | 2 => some (1, 0, false)
  | 3 => some (0, 2, false)
  | 4 => some (0, 3, false)
  | 5 => some (0, 2, true)
  | 6 => some (0, 3, true)
  | 7 => some (2, 0, false)
  | 8 => some (3, 0, false)
  | _ => none

/-- Lane i of a format's width of a register (R94). -/
def fmtLane (c : Core) (n fmt i : Nat) : Nat :=
  let w := fmtBits fmt / 8
  leNat ((List.range w).map (fun j => vByte c n (w * i + j)))

/-- The 256 bytes that a VCVT writes: the converted lanes, then zeros (R176). -/
def vcvtBytes (c : Core) (vs1 src dst : Nat) (x : Stream) : List Byte :=
  let w := fmtBits dst / 8
  (List.range 64).flatMap (fun i => leBytes (encodeNum dst (x.rnd i) (decodeFmt (fmtOf src) (fmtLane c vs1 src i)) 1 0) w)
    ++ List.replicate (256 - 64 * w) 0

/-- VCVT (R131, R176, R178, R180). -/
def vcvtOp (k : CoreRef) (vd vs1 code : Nat) (s : State) : IRes :=
  match vcvtCode code with
  | none => illegal s
  | some (src, dst, st) =>
    if st && (decide (vd = 127) || decide (vs1 = 127)) then illegal s
    else
      let c := coreOf s k
      let x := streamOf c st
      .ok (setCore s k (advanceStream x 16 (vSetBytes c vd 0 (vcvtBytes c vs1 src dst x))))

def execVcvt (k : CoreRef) (vd vs1 code : Fin 128) (s : State) : Out' := atTile s k.tile (issue k (vcvtOp k vd.val vs1.val code.val))

/-- VLD (R130, R358). -/
def vldOp (k : CoreRef) (vd rs1 : Nat) (s : State) : IRes :=
  let x := xRd (coreOf s k) rs1
  let a := addr48 x.toNat
  if x.toNat % 64 ≠ 0 then .trap s 4 (word a) 0 0
  else
    match lowest (badPages s [(a, 256)]) with
    | some b => .trap s 5 (word b) 0 0
    | none =>
      if accessWaits s k [(a, 256)] then memStall k s
      else match corePoison s k a 256 with
      | some line => poisonTrap k 5 a line s
      | none =>
        let (bytes, s) := coreRead s k a 256
        .ok (setCore s k (vSetBytes (coreOf s k) vd 0 bytes))

def execVld (k : CoreRef) (vd : Fin 128) (rs1 : Fin 32) (s : State) : Out' := atTile s k.tile (issue k (vldOp k vd.val rs1.val))

/-- VST (R130, R256, R358). -/
def vstOp (k : CoreRef) (vd rs1 : Nat) (s : State) : IRes :=
  let c := coreOf s k
  let x := xRd c rs1
  let a := addr48 x.toNat
  if x.toNat % 64 ≠ 0 then .trap s 6 (word a) 0 0
  else
    match lowest (badPages s [(a, 256)]) with
    | some b => .trap s 7 (word b) 0 0
    | none => storeRanges k [(a, (List.range 256).map (vByte c vd))] s

def execVst (k : CoreRef) (vd : Fin 128) (rs1 : Fin 32) (s : State) : Out' := atTile s k.tile (issue k (vstOp k vd.val rs1.val))

/-- VSPLAT (R107). -/
def vsplatOp (k : CoreRef) (vd rs1 : Nat) (s : State) : IRes :=
  let c := coreOf s k
  .ok (setCore s k (setLanes c vd (List.replicate 64 ((xRd c rs1).setWidth 32))))

def execVsplat (k : CoreRef) (vd : Fin 128) (rs1 : Fin 32) (s : State) : Out' := atTile s k.tile (issue k (vsplatOp k vd.val rs1.val))

/-- VEXT (R107). -/
def vextOp (k : CoreRef) (vd rd rs2 : Nat) (s : State) : IRes :=
  let c := coreOf s k
  .ok (setCore s k (xWr c rd ((lane c vd ((xRd c rs2).toNat % 64)).setWidth 64)))

def execVext (k : CoreRef) (vd : Fin 128) (rd rs2 : Fin 32) (s : State) : Out' :=
  atTile s k.tile (issue k (vextOp k vd.val rd.val rs2.val))

/-- VMULX (R107, R127). -/
def vmulxOp (k : CoreRef) (vd rs1 : Nat) (s : State) : IRes :=
  let c := coreOf s k
  .ok (setCore s k (setLanes c vd ((lanes c vd).map (fun v => fmul v ((xRd c rs1).setWidth 32)))))

def execVmulx (k : CoreRef) (vd : Fin 128) (rs1 : Fin 32) (s : State) : Out' := atTile s k.tile (issue k (vmulxOp k vd.val rs1.val))

end Sys2Proof.Machine
end

