-- ==== Sys2Proof/Machine/Scalar.lean ====
section
/-! DEFINITION. The scalar control unit (R88 to R93, R106, R107): instruction fetch, the expansion of compressed instructions, RV64IMA with
Zicsr and Zifencei as the RISC-V specifications that R88 names define them, and the four custom formats. An instruction word is a number. -/

namespace Sys2Proof.Machine

/-! ### Fields and immediates -/

/-- Bits [hi:lo] of an instruction word. -/
def bf (w hi lo : Nat) : Nat := w / 2 ^ lo % 2 ^ (hi + 1 - lo)

/-- A number of n bits, sign-extended to a register. -/
def sx (n v : Nat) : Word := (BitVec.ofNat n v).signExtend 64

/-- The low 32 bits of a result, sign-extended. -/
def sx32 (v : Word) : Word := (v.setWidth 32).signExtend 64

def immI (w : Nat) : Word := sx 12 (bf w 31 20)
def immS (w : Nat) : Word := sx 12 (bf w 31 25 * 32 + bf w 11 7)
def immB (w : Nat) : Word := sx 13 (bf w 31 31 * 4096 + bf w 7 7 * 2048 + bf w 30 25 * 32 + bf w 11 8 * 2)
def immU (w : Nat) : Word := sx 32 (bf w 31 12 * 4096)
def immJ (w : Nat) : Word := sx 21 (bf w 31 31 * 2 ^ 20 + bf w 19 12 * 4096 + bf w 20 20 * 2048 + bf w 30 21 * 2)

/-! ### Compressed instructions: the 32-bit instruction that each stands for -/

def encR (f7 rs2 rs1 f3 rd op : Nat) : Nat := f7 * 2 ^ 25 + rs2 * 2 ^ 20 + rs1 * 2 ^ 15 + f3 * 2 ^ 12 + rd * 2 ^ 7 + op
def encI (imm rs1 f3 rd op : Nat) : Nat := imm % 4096 * 2 ^ 20 + rs1 * 2 ^ 15 + f3 * 2 ^ 12 + rd * 2 ^ 7 + op
def encS (imm rs2 rs1 f3 : Nat) : Nat := encR (bf imm 11 5) rs2 rs1 f3 (bf imm 4 0) 0x23
def encB (imm rs1 f3 : Nat) : Nat := encR (bf imm 12 12 * 64 + bf imm 10 5) 0 rs1 f3 (bf imm 4 1 * 2 + bf imm 11 11) 0x63
def encJ (imm rd : Nat) : Nat :=
  bf imm 20 20 * 2 ^ 31 + bf imm 10 1 * 2 ^ 21 + bf imm 11 11 * 2 ^ 20 + bf imm 19 12 * 2 ^ 12 + rd * 2 ^ 7 + 0x6F

/-- An n-bit immediate, sign-extended to m bits. -/
def sxN (n m v : Nat) : Nat := ((BitVec.ofNat n v).signExtend m).toNat

/-- Quadrant 0. -/
def expand0 (h : Nat) : Option Nat :=
  let rd := 8 + bf h 4 2
  let rs1 := 8 + bf h 9 7
  let immW := bf h 12 10 * 8 + bf h 6 6 * 4 + bf h 5 5 * 64
  let immD := bf h 12 10 * 8 + bf h 6 5 * 64
  match bf h 15 13 with
  | 0 =>
    let imm := bf h 12 11 * 16 + bf h 10 7 * 64 + bf h 6 6 * 4 + bf h 5 5 * 8
    if imm = 0 then none else some (encI imm 2 0 rd 0x13)
  | 2 => some (encI immW rs1 2 rd 0x03)
  | 3 => some (encI immD rs1 3 rd 0x03)
  | 6 => some (encS immW rd rs1 2)
  | 7 => some (encS immD rd rs1 3)
  | _ => none

/-- The register-register and shift forms of quadrant 1. -/
def expandAlu (h : Nat) : Option Nat :=
  let rd := 8 + bf h 9 7
  let rs2 := 8 + bf h 4 2
  let imm := bf h 12 12 * 32 + bf h 6 2
  match bf h 11 10 with
  | 0 => some (encI imm rd 5 rd 0x13)
  | 1 => some (encI (imm + 0x400) rd 5 rd 0x13)
  | 2 => some (encI (sxN 6 12 imm) rd 7 rd 0x13)
  | _ =>
    match bf h 12 12, bf h 6 5 with
    | 0, 0 => some (encR 0x20 rs2 rd 0 rd 0x33)
    | 0, 1 => some (encR 0 rs2 rd 4 rd 0x33)
    | 0, 2 => some (encR 0 rs2 rd 6 rd 0x33)
    | 0, 3 => some (encR 0 rs2 rd 7 rd 0x33)
    | 1, 0 => some (encR 0x20 rs2 rd 0 rd 0x3B)
    | 1, 1 => some (encR 0 rs2 rd 0 rd 0x3B)
    | _, _ => none

/-- C.LUI and C.ADDI16SP. -/
def expandLui (h : Nat) : Option Nat :=
  let rd := bf h 11 7
  let imm := bf h 12 12 * 32 + bf h 6 2
  if imm = 0 then none
  else if rd = 2 then
    some (encI (sxN 10 12 (bf h 12 12 * 512 + bf h 6 6 * 16 + bf h 5 5 * 64 + bf h 4 3 * 128 + bf h 2 2 * 32)) 2 0 2 0x13)
  else some (sxN 6 20 imm * 4096 + rd * 128 + 0x37)

/-- Quadrant 1. -/
def expand1 (h : Nat) : Option Nat :=
  let rd := bf h 11 7
  let imm := sxN 6 12 (bf h 12 12 * 32 + bf h 6 2)
  let rs1 := 8 + bf h 9 7
  let br := sxN 9 13 (bf h 12 12 * 256 + bf h 11 10 * 8 + bf h 6 5 * 64 + bf h 4 3 * 2 + bf h 2 2 * 32)
  match bf h 15 13 with
  | 0 => some (encI imm rd 0 rd 0x13)
  | 1 => if rd = 0 then none else some (encI imm rd 0 rd 0x1B)
  | 2 => some (encI imm 0 0 rd 0x13)
  | 3 => expandLui h
  | 4 => expandAlu h
  | 5 => some (encJ (sxN 12 21 (bf h 12 12 * 2048 + bf h 11 11 * 16 + bf h 10 9 * 256 + bf h 8 8 * 1024 + bf h 7 7 * 64
      + bf h 6 6 * 128 + bf h 5 3 * 2 + bf h 2 2 * 32)) 0)
  | 6 => some (encB br rs1 0)
  | _ => some (encB br rs1 1)

/-- Quadrant 2. -/
def expand2 (h : Nat) : Option Nat :=
  let rd := bf h 11 7
  let rs2 := bf h 6 2
  match bf h 15 13 with
  | 0 => some (encI (bf h 12 12 * 32 + rs2) rd 1 rd 0x13)
  | 2 => if rd = 0 then none else some (encI (bf h 12 12 * 32 + bf h 6 4 * 4 + bf h 3 2 * 64) 2 2 rd 0x03)
  | 3 => if rd = 0 then none else some (encI (bf h 12 12 * 32 + bf h 6 5 * 8 + bf h 4 2 * 64) 2 3 rd 0x03)
  | 4 =>
    if bf h 12 12 = 0 then
      if rs2 ≠ 0 then some (encR 0 rs2 0 0 rd 0x33) else if rd = 0 then none else some (encI 0 rd 0 0 0x67)
    else if rs2 ≠ 0 then some (encR 0 rs2 rd 0 rd 0x33)
    else if rd = 0 then some 0x00100073
    else some (encI 0 rd 0 1 0x67)
  | 6 => some (encS (bf h 12 9 * 4 + bf h 8 7 * 64) rs2 2 2)
  | 7 => some (encS (bf h 12 10 * 8 + bf h 9 7 * 64) rs2 2 3)
  | _ => none

/-- The 32-bit instruction of a compressed one; none for a reserved or floating-point form (R88). -/
def expand16 (h : Nat) : Option Nat :=
  match h % 4 with
  | 0 => expand0 h
  | 1 => expand1 h
  | _ => expand2 h

/-! ### Integer arithmetic -/

/-- Register-register operations by funct3, and the alternatives of funct7 0x20. -/
def aluOp (alt : Bool) (f3 : Nat) (a b : Word) : Word :=
  match f3 with
  | 0 => if alt then a - b else a + b
  | 1 => a <<< (b.toNat % 64)
  | 2 => if a.toInt < b.toInt then 1 else 0
  | 3 => if a.toNat < b.toNat then 1 else 0
  | 4 => a ^^^ b
  | 5 => if alt then a.sshiftRight (b.toNat % 64) else a >>> (b.toNat % 64)
  | 6 => a ||| b
  | _ => a &&& b

/-- The 32-bit operations, sign-extended. -/
def aluOp32 (alt : Bool) (f3 : Nat) (a b : Word) : Word :=
  let x := a.setWidth 32
  let n := b.toNat % 32
  match f3 with
  | 0 => sx32 (if alt then a - b else a + b)
  | 1 => (x <<< n).signExtend 64
  | _ => (if alt then x.sshiftRight n else x >>> n).signExtend 64

/-- Bits [127:64] of a product of integers. -/
def mulHigh (x y : Int) : Word := BitVec.ofInt 64 (x * y / (2 ^ 64 : Nat))

/-- Quotients and remainders of a width, with the results that RISC-V gives a division by zero. -/
def divS {n : Nat} (a b : BitVec n) : BitVec n := if b = 0 then BitVec.allOnes n else a.sdiv b
def divU {n : Nat} (a b : BitVec n) : BitVec n := if b = 0 then BitVec.allOnes n else a / b
def remS {n : Nat} (a b : BitVec n) : BitVec n := if b = 0 then a else a.srem b
def remU {n : Nat} (a b : BitVec n) : BitVec n := if b = 0 then a else a % b

/-- The M extension. -/
def mulOp (f3 : Nat) (a b : Word) : Word :=
  match f3 with
  | 0 => a * b
  | 1 => mulHigh a.toInt b.toInt
  | 2 => mulHigh a.toInt b.toNat
  | 3 => mulHigh a.toNat b.toNat
  | 4 => divS a b
  | 5 => divU a b
  | 6 => remS a b
  | _ => remU a b

/-- The 32-bit forms of the M extension; none for a reserved funct3. -/
def mulOp32 (f3 : Nat) (a b : Word) : Option Word :=
  let x := a.setWidth 32
  let y := b.setWidth 32
  match f3 with
  | 0 => some (sx32 (a * b))
  | 4 => some ((divS x y).signExtend 64)
  | 5 => some ((divU x y).signExtend 64)
  | 6 => some ((remS x y).signExtend 64)
  | 7 => some ((remU x y).signExtend 64)
  | _ => none

/-- The value that an atomic operation of a width stores; none for a reserved funct5. -/
def amoFn (f5 : Nat) {n : Nat} (old src : BitVec n) : Option (BitVec n) :=
  match f5 with
  | 0x00 => some (old + src)
  | 0x01 => some src
  | 0x04 => some (old ^^^ src)
  | 0x08 => some (old ||| src)
  | 0x0C => some (old &&& src)
  | 0x10 => some (if old.toInt ≤ src.toInt then old else src)
  | 0x14 => some (if src.toInt ≤ old.toInt then old else src)
  | 0x18 => some (if old.toNat ≤ src.toNat then old else src)
  | 0x1C => some (if src.toNat ≤ old.toNat then old else src)
  | _ => none

/-- The condition of a branch; none for a reserved funct3. -/
def branchOp (f3 : Nat) (a b : Word) : Option Bool :=
  match f3 with
  | 0 => some (decide (a = b))
  | 1 => some (decide (a ≠ b))
  | 4 => some (decide (a.toInt < b.toInt))
  | 5 => some (decide (b.toInt ≤ a.toInt))
  | 6 => some (decide (a.toNat < b.toNat))
  | 7 => some (decide (b.toNat ≤ a.toNat))
  | _ => none

/-! ### Results -/

/-- The instruction writes a register and completes. -/
def setX (k : CoreRef) (rd : Nat) (v : Word) (s : State) : IRes := .ok (setCore s k (xWr (coreOf s k) rd v))

/-- A result, or an illegal instruction where there is none. -/
def orIllegal (k : CoreRef) (rd : Nat) (v : Option Word) (s : State) : IRes :=
  match v with
  | some v => setX k rd v s
  | none => illegal s

/-! ### Loads and stores (R90, R91, R358) -/

/-- Bytes and sign of a load by funct3; none if reserved. -/
def loadKind (f3 : Nat) : Option (Nat × Bool) :=
  match f3 with
  | 0 => some (1, true)
  | 1 => some (2, true)
  | 2 => some (4, true)
  | 3 => some (8, true)
  | 4 => some (1, false)
  | 5 => some (2, false)
  | 6 => some (4, false)
  | _ => none

/-- A loaded value of a size in bytes, extended to a register. -/
def extend (size : Nat) (sign : Bool) (v : Nat) : Word := if sign then sx (8 * size) v else word (v % 2 ^ (8 * size))

/-- An access that bypasses L1 takes one request slot (R132); with every slot held it waits (R18). -/
def bypass (k : CoreRef) (f : State → IRes) (s : State) : IRes := if slotsFull s k then memStall k s else f (slotUse k 1 s)

/-- A load from a DEVICE page: a load that blocks leaves the instruction to be issued again when its wait or fence has ended. -/
def loadDevice (k : CoreRef) (rd size : Nat) (sign : Bool) (a : Nat) (s : State) : IRes :=
  match windowLoad (.core k) (windowOffset a) size s with
  | .value v s => setX k rd (extend size sign v.toNat) s
  | .blocks s => .stall s

/-- A store to a DEVICE page. -/
def storeDevice (k : CoreRef) (size a : Nat) (v : Word) (s : State) : IRes :=
  match windowStore (.core k) (windowOffset a) size v s with
  | .done s => .ok s
  | .fault => .trap s 7 (word a) 0 0

/-- A scalar load. A misaligned access of MEMORY is not among what the core supports: it raises cause 4, or 6 for a store, after the test of its
pages (R13, R593; log entry 33). mtval holds the address modulo 2^48 (log entry 133). -/
def loadOp (k : CoreRef) (rd size : Nat) (sign : Bool) (addr : Word) (s : State) : IRes :=
  let a := addr48 addr.toNat
  if attrOf s a = .device then bypass k (loadDevice k rd size sign a) s
  else
    match lowest (badPages s [(a, size)]) with
    | some b => .trap s 5 (word b) 0 0
    | none =>
      if a % size ≠ 0 then .trap s 4 (word a) 0 0
      else if accessWaits s k [(a, size)] then memStall k s
      else match corePoison s k a size with
      | some line => poisonTrap k 5 a line s
      | none =>
        let (bytes, s) := coreRead s k a size
        setX k rd (extend size sign (leNat bytes)) s

/-- A scalar store. -/
def storeOp (k : CoreRef) (size : Nat) (addr v : Word) (s : State) : IRes :=
  let a := addr48 addr.toNat
  if attrOf s a = .device then bypass k (storeDevice k size a v) s
  else
    match lowest (badPages s [(a, size)]) with
    | some b => .trap s 7 (word b) 0 0
    | none => if a % size ≠ 0 then .trap s 6 (word a) 0 0 else storeRanges k [(a, leBytes v.toNat size)] s

/-! ### Atomic operations (R91) -/

/-- The line of an atomic access leaves L1, written back if it is dirty: the operation takes place at the home. -/
def evictLine (k : CoreRef) (line : Nat) (s : State) : State :=
  let s := dropResponses (coreIdx k) (fun l => decide (l = line)) (l1Flush s k (fun l => decide (l.line = line)) true)
  let c := coreOf s k
  setCore s k { c with l1 := c.l1.filter (fun l => decide (l.line ≠ line)) }

/-- Bytes of one line are written at the home, in the view of the core's task (R256). -/
def homeWrite (k : CoreRef) (a : Nat) (v : List Byte) (s : State) : State :=
  if coreSpec s k && committedAt s a then writeStorage true (lineNo a) (shadowWrite s a v) else storeHome k.tile.val a v s

/-- What an access of an atomic kind to a page that is not MEMORY raises (R91): cause 5 for LR, and for SC to a DEVICE page. -/
def atomicFault (f5 : Nat) (x : Attr) : Nat :=
  if f5 = 2 then 5 else if f5 = 3 && decide (x = .device) then 5 else 7

/-- What LR, SC or an AMO of a width does at the home: `size` bytes at `a`, whose line L1 does not hold. -/
def atomicAt (k : CoreRef) (f5 size rd a : Nat) (src : Word) (s : State) : IRes :=
  let line := lineNo a
  let s := homeAccess false k.tile.val line s
  let old := leNat (readAs s (coreSpec s k) a size)
  if f5 = 2 then
    let c := coreOf s k
    setX k rd (sx (8 * size) old) (setCore s k { c with reservation := some line })
  else if f5 = 3 then
    let c := coreOf s k
    let ok := decide (c.reservation = some line)
    let s := setCore s k { c with reservation := none }
    setX k rd (if ok then 0 else 1) (if ok then homeWrite k a (leBytes src.toNat size) s else s)
  else
    match amoFn f5 (BitVec.ofNat (8 * size) old) (src.setWidth (8 * size)) with
    | some v => setX k rd (sx (8 * size) old) (homeWrite k a (leBytes v.toNat size) s)
    | none => illegal s

/-- A funct5 that the A extension defines. -/
def atomicOp (f5 rs2 : Nat) : Bool := if f5 = 2 then decide (rs2 = 0) else decide (f5 = 3) || (amoFn f5 (0#8) (0#8)).isSome

/-- LR, SC and the AMOs: the checks of the page and of the alignment (DESIGN CHOICE, log entry 40), then the operation at the home. mtval holds the
address modulo 2^48 (log entry 133). -/
def atomicInstr (k : CoreRef) (f5 size rd : Nat) (addr src : Word) (s : State) : IRes :=
  let a := addr48 addr.toNat
  if attrOf s a ≠ .memory then .trap s (atomicFault f5 (attrOf s a)) (word a) 0 0
  else if a % size ≠ 0 then .trap s (if f5 = 2 then 4 else 6) (word a) 0 0
  else if f5 ≠ 2 && !committedOk s k a then .trap s 7 (word a) 0 0
  else if heldAt s a then .stall s
  else bypass k (fun s =>
    let s := evictLine k (lineNo a) (reachHome k (lineNo a) s)
    if poisonedAs s (coreSpec s k) (lineNo a) then poisonTrap k (if f5 = 2 then 5 else 7) a (lineNo a) s
    else atomicAt k f5 size rd a src s) s

/-! ### CSRs (R88, R93) -/

/-- The standard machine-mode CSRs of a hart with machine and user mode. -/
def machineCsr (a : Nat) : Bool :=
  [0x300, 0x301, 0x304, 0x305, 0x306, 0x30A, 0x320, 0x340, 0x341, 0x342, 0x343, 0x344, 0xB00, 0xB02, 0xF11, 0xF12, 0xF13, 0xF14,
    0xF15].contains a || (decide (0x323 ≤ a) && decide (a ≤ 0x33F)) || (decide (0xB03 ≤ a) && decide (a ≤ 0xB1F))

/-- The CSR exists and the mode may access it: the custom CSRs of R93 in every mode, the standard ones in machine mode. -/
def csrOpen (c : Core) (a : Nat) : Bool := decide (a = 0x800) || (decide (0xCC0 ≤ a) && decide (a ≤ 0xCC4)) || (c.machine && machineCsr a)

/-- Addresses whose top bits mark them read-only. -/
def csrReadOnly (a : Nat) : Bool := decide (a / 1024 = 3)

/-- What a read of a CSR returns (R55, R93); mhartid holds CORE_ID (DESIGN CHOICE, log entry 134). -/
def csrRead (s : State) (k : CoreRef) (a : Nat) : Word :=
  match a with
  | 0xCC0 => nowW s
  | 0xF14 => rd s (.core k) 0x108
  | 0xCC3 => rd s (.core k) 0x108
  | 0xCC4 => word (fld s (.cluster (coreCl k)) (0x140 + 8 * k.core.val) 15 0)
  | _ => csrGet (coreOf s k) a

/-- A write of a CSR. The write of minstret is what the next instruction finds: the instruction's own count comes after it. The fields of mstatus, misa, mtvec and mepc that the part fixes keep their values. -/
def csrWrite (c : Core) (a : Nat) (v : Word) : Core :=
  match a with
  | 0x800 => setTrunahead c v
  | 0x300 =>
    let mpp := if v.bits 12 11 = 3 then 3 else 0
    csrSet c a (setBits ((v &&& word (bm 3 3 + bm 7 7 + bm 17 17 + bm 21 21)) ||| word (2 ^ 33)) 12 11 mpp)
  | 0x301 => c
  | 0xB02 => csrSet c a (if (csrGet c 0x320).bit 2 then v else v - 1)
  | 0x305 => csrSet c a (v &&& ~~~(word 3))
  | 0x341 => csrSet c a (v &&& ~~~(word 1))
  | _ => csrSet c a v

/-- The Zicsr instructions: funct3, source register number or immediate, destination. -/
def csrOp (k : CoreRef) (f3 a src rd : Nat) (s : State) : IRes :=
  let c := coreOf s k
  let v := if f3 < 4 then xRd c src else word src
  let writes := decide (f3 % 4 = 1) || decide (src ≠ 0)
  if f3 % 4 = 0 || !csrOpen c a || (writes && csrReadOnly a) then illegal s
  else
    let old := csrRead s k a
    let new := match f3 % 4 with
      | 1 => v
      | 2 => old ||| v
      | _ => old &&& ~~~v
    let s := if writes then setCore s k (csrWrite c a new) else s
    setX k rd old s

/-! ### System instructions -/

/-- MRET: the return from the core monitor. -/
def mretOp (k : CoreRef) (s : State) : IRes :=
  let c := coreOf s k
  if !c.machine then illegal s
  else
    let st := csrGet c csrMstatus
    let new := setBits (setBits (setBits st 3 3 (b2n (st.bit 7))) 7 7 1) 12 11 0
    let new := if st.bits 12 11 = 3 then new else setBits new 17 17 0
    .jump (setCore s k { csrSet c csrMstatus new with machine := decide (st.bits 12 11 = 3) }) (csrGet c csrMepc)

/-- ECALL, EBREAK, MRET and WFI. WFI ends at once in machine mode and is illegal in user mode (R13; log entry 34). The RISC-V specification lets mtval
of EBREAK be 0 or the pc. -/
def systemOp (k : CoreRef) (w : Nat) (s : State) : IRes :=
  let c := coreOf s k
  match w with
  | 0x00000073 => .trap s (if c.machine then 11 else 8) 0 0 0
  | 0x00100073 => let (n, s) := freshNat s; .trap s 3 (if n % 2 = 0 then 0 else c.pc) 0 0
  | 0x30200073 => mretOp k s
  | 0x10500073 => if c.machine then .ok s else illegal s
  | _ => illegal s

/-! ### Custom formats (R106, R107) -/

/-- Format TM. -/
def tmInstr (k : CoreRef) (w : Nat) (s : State) : IRes :=
  let td := bf w 9 7
  let rs1 := bf w 19 15
  let rs2 := bf w 24 20
  let sub := bf w 27 25
  if bf w 11 10 ≠ 0 || decide (bf w 31 28 ≠ 0) then illegal s
  else match bf w 14 12 with
  | 0 => if rs1 ≠ 0 || decide (rs2 ≠ 0) || decide (1 < sub) then illegal s else tldOp k td (decide (sub = 1)) s
  | 1 => if rs1 ≠ 0 || decide (rs2 ≠ 0) || decide (1 < sub) then illegal s else tstOp k td (decide (sub = 1)) s
  | 2 => if sub ≠ 0 then illegal s else tldsOp k td rs1 rs2 s
  | 3 => if rs2 ≠ 0 then illegal s else tdwOp k td rs1 sub s
  | 4 => if rs1 ≠ 0 then illegal s else tdrOp k td rs2 sub s
  | _ => illegal s

/-- Format TC. -/
def tcInstr (k : CoreRef) (w : Nat) (s : State) : IRes :=
  let tdd := bf w 9 7
  let tds := bf w 12 10
  let rnd := bf w 18 16
  if bf w 31 19 ≠ 0 then illegal s
  else match bf w 15 13 with
  | 0 => if tdd ≠ 0 || decide (rnd ≠ 0) then illegal s else twlOp k tds s
  | 1 => if rnd ≠ 0 then illegal s else tmmaOp false k tdd tds false s
  | 2 => if rnd ≠ 0 then illegal s else tmmaOp true k tdd tds false s
  | 3 => if tds ≠ 0 || decide (rnd ≠ 0) then illegal s else tzeroOp k tdd s
  | 4 => tcvtOp k tdd tds rnd s
  | _ => illegal s

/-- Format VV. -/
def vvInstr (k : CoreRef) (w : Nat) (s : State) : IRes :=
  let vd := bf w 13 7
  let vs1 := bf w 20 14
  let vs2 := bf w 27 21
  match bf w 31 28 with
  | 0 => lanewise fadd k vd vs1 vs2 s
  | 1 => lanewise fsub k vd vs1 vs2 s
  | 2 => lanewise fmul k vd vs1 vs2 s
  | 3 => vfmaOp k vd vs1 vs2 s
  | 4 => lanewise fmax k vd vs1 vs2 s
  | 5 => lanewise fmin k vd vs1 vs2 s
  | 6 => vfuncOp k vd vs1 vs2 s
  | 7 => vredOp k vd vs1 vs2 s
  | 8 => vcvtOp k vd vs1 vs2 s
  | _ => illegal s

/-- Format VX. -/
def vxInstr (k : CoreRef) (w : Nat) (s : State) : IRes :=
  let vd := bf w 13 7
  let rs1 := bf w 21 17
  let rs2 := bf w 26 22
  if bf w 31 27 ≠ 0 || (decide (bf w 16 14 ≠ 3) && decide (rs2 ≠ 0)) then illegal s
  else match bf w 16 14 with
  | 0 => vldOp k vd rs1 s
  | 1 => vstOp k vd rs1 s
  | 2 => vsplatOp k vd rs1 s
  | 3 => vextOp k vd rs1 rs2 s
  | 4 => vmulxOp k vd rs1 s
  | _ => illegal s

/-! ### One instruction -/

/-- OP-IMM and OP-IMM-32. -/
def immInstr (k : CoreRef) (w : Nat) (s : State) : IRes :=
  let a := xRd (coreOf s k) (bf w 19 15)
  let f3 := bf w 14 12
  let f6 := bf w 31 26
  if f3 = 1 then (if f6 = 0 then setX k (bf w 11 7) (aluOp false 1 a (word (bf w 25 20))) s else illegal s)
  else if f3 = 5 then
    (if f6 = 0 || decide (f6 = 0x10) then setX k (bf w 11 7) (aluOp (decide (f6 = 0x10)) 5 a (word (bf w 25 20))) s else illegal s)
  else setX k (bf w 11 7) (aluOp false f3 a (immI w)) s

def immInstr32 (k : CoreRef) (w : Nat) (s : State) : IRes :=
  let a := xRd (coreOf s k) (bf w 19 15)
  let f7 := bf w 31 25
  match bf w 14 12 with
  | 0 => setX k (bf w 11 7) (sx32 (a + immI w)) s
  | 1 => if f7 = 0 then setX k (bf w 11 7) (aluOp32 false 1 a (word (bf w 24 20))) s else illegal s
  | 5 => if f7 = 0 || decide (f7 = 0x20) then setX k (bf w 11 7) (aluOp32 (decide (f7 = 0x20)) 5 a (word (bf w 24 20))) s else illegal s
  | _ => illegal s

/-- OP and OP-32. -/
def regInstr (k : CoreRef) (w : Nat) (s : State) : IRes :=
  let c := coreOf s k
  let a := xRd c (bf w 19 15)
  let b := xRd c (bf w 24 20)
  let f3 := bf w 14 12
  match bf w 31 25 with
  | 0 => setX k (bf w 11 7) (aluOp false f3 a b) s
  | 1 => setX k (bf w 11 7) (mulOp f3 a b) s
  | 0x20 => if f3 = 0 || decide (f3 = 5) then setX k (bf w 11 7) (aluOp true f3 a b) s else illegal s
  | _ => illegal s

def regInstr32 (k : CoreRef) (w : Nat) (s : State) : IRes :=
  let c := coreOf s k
  let a := xRd c (bf w 19 15)
  let b := xRd c (bf w 24 20)
  let f3 := bf w 14 12
  match bf w 31 25 with
  | 0 => if f3 = 0 || decide (f3 = 1) || decide (f3 = 5) then setX k (bf w 11 7) (aluOp32 false f3 a b) s else illegal s
  | 1 => orIllegal k (bf w 11 7) (mulOp32 f3 a b) s
  | 0x20 => if f3 = 0 || decide (f3 = 5) then setX k (bf w 11 7) (aluOp32 true f3 a b) s else illegal s
  | _ => illegal s

/-- The effect of a 32-bit instruction; `len` is its length in memory, 2 for one that a compressed form stands for. -/
def execWord (k : CoreRef) (len w : Nat) (s : State) : IRes :=
  let c := coreOf s k
  let a := xRd c (bf w 19 15)
  let b := xRd c (bf w 24 20)
  let rd := bf w 11 7
  let f3 := bf w 14 12
  let next := c.pc + word len
  match w % 128 with
  | 0x37 => setX k rd (immU w) s
  | 0x17 => setX k rd (c.pc + immU w) s
  | 0x6F => .jump (setCore s k (xWr c rd next)) (c.pc + immJ w)
  | 0x67 => if f3 = 0 then .jump (setCore s k (xWr c rd next)) ((a + immI w) &&& ~~~(word 1)) else illegal s
  | 0x63 => match branchOp f3 a b with
    | some t => .jump s (if t then c.pc + immB w else next)
    | none => illegal s
  | 0x03 => match loadKind f3 with
    | some (size, sign) => loadOp k rd size sign (a + immI w) s
    | none => illegal s
  | 0x23 => if f3 < 4 then storeOp k (2 ^ f3) (a + immS w) b s else illegal s
  | 0x13 => immInstr k w s
  | 0x1B => immInstr32 k w s
  | 0x33 => regInstr k w s
  | 0x3B => regInstr32 k w s
  | 0x0F => if f3 ≤ 1 then .ok s else illegal s
  | 0x2F =>
    if (f3 = 2 || decide (f3 = 3)) && atomicOp (bf w 31 27) (bf w 24 20) then atomicInstr k (bf w 31 27) (2 ^ f3) rd a b s else illegal s
  | 0x73 => if f3 = 0 then systemOp k w s else csrOp k f3 (bf w 31 20) (bf w 19 15) rd s
  | 0x0B => tmInstr k w s
  | 0x2B => tcInstr k w s
  | 0x5B => vvInstr k w s
  | 0x7B => vxInstr k w s
  | _ => illegal s

/-- What the fetch of n bytes at an address meets before it can read: a page that is not MEMORY, a switch, or a poisoned line (R91, R359). -/
def fetchStop (k : CoreRef) (a n : Nat) (s : State) : Option IRes :=
  match lowest (badPages s [(a, n)]) with
  | some b => some (.trap s 1 (word b) 0 0)
  | none =>
    if accessWaits s k [(a, n)] then some (memStall k s)
    else (corePoison s k a n).map (fun line => poisonTrap k 1 a line s)

/-- The second halfword of a 32-bit instruction, and its effect. -/
def fetchHigh (k : CoreRef) (a lo : Nat) (s : State) : IRes :=
  match fetchStop k (addr48 (a + 2)) 2 s with
  | some r => r
  | none =>
    let (hi, s) := coreRead s k (addr48 (a + 2)) 2
    execWord k 4 (lo + 65536 * leNat hi) s

/-- Length of the instruction whose first halfword is given. -/
def instrLen (lo : Nat) : Nat := if lo % 4 = 3 then 4 else 2

/-- The effect of the instruction whose first halfword has been fetched. -/
def execFetched (k : CoreRef) (a lo : Nat) (s : State) : IRes :=
  if lo % 4 = 3 then fetchHigh k a lo s
  else match expand16 lo with
    | some w => execWord k 2 w s
    | none => illegal s

/-- SCALAR_INSTRUCTION (R88, R91): the core fetches the instruction at its pc and executes it. -/
def scalarStep (k : CoreRef) (s : State) : State :=
  if !canIssue s k then s
  else
    let pc := (coreOf s k).pc
    let a := addr48 pc.toNat
    match fetchStop k a 2 s with
    | some r => finish k 2 pc r
    | none =>
      let (lo, s) := coreRead s k a 2
      let h := leNat lo
      finish k (instrLen h) pc (execFetched k a h s)

def execScalarInstruction (k : CoreRef) (s : State) : Out' := atTile s k.tile (scalarStep k)

end Sys2Proof.Machine
end

