-- ==== Sys2Proof/Machine/Dispatch.lean ====
section
/-! DEFINITION. The effect of every command on the state but its queue: one arm per constructor of `Instr`. -/

namespace Sys2Proof.Machine

def exec (i : Instr) (s : State) : Host.Outcome State Fault Refusal :=
  match i with
  | .rateWindowEnd windows controlRates => Sys2Proof.Machine.execRateWindowEnd windows controlRates s
  | .unfence r cl value => Sys2Proof.Machine.execUnfence r cl value s
  | .arraySelfTest k faulty => Sys2Proof.Machine.execArraySelfTest k faulty s
  | .floorSelfTestEnd k => Sys2Proof.Machine.execFloorSelfTestEnd k s
  | .coreRateRead k => Sys2Proof.Machine.execCoreRateRead k s
  | .cmRateRead cl => Sys2Proof.Machine.execCmRateRead cl s
  | .beaconSlotBoundary late => Sys2Proof.Machine.execBeaconSlotBoundary late s
  | .streamEjectSignal node stream => Sys2Proof.Machine.execStreamEjectSignal node stream s
  | .beaconExchange port sample => Sys2Proof.Machine.execBeaconExchange port sample s
  | .beaconStepCorrection parentTime => Sys2Proof.Machine.execBeaconStepCorrection parentTime s
  | .parentLost => Sys2Proof.Machine.execParentLost s
  | .parentFound port sample => Sys2Proof.Machine.execParentFound port sample s
  | .holdoverExpiry => Sys2Proof.Machine.execHoldoverExpiry s
  | .noMasterTimeout => Sys2Proof.Machine.execNoMasterTimeout s
  | .ppsEdge => Sys2Proof.Machine.execPpsEdge s
  | .refInputLost input => Sys2Proof.Machine.execRefInputLost input s
  | .refInputTimeout input => Sys2Proof.Machine.execRefInputTimeout input s
  | .epochSet r value => Sys2Proof.Machine.execEpochSet r value s
  | .arm slot value => Sys2Proof.Machine.execArm slot value s
  | .slotPlacement slot => Sys2Proof.Machine.execSlotPlacement slot s
  | .rePlacement slot => Sys2Proof.Machine.execRePlacement slot s
  | .effectiveLaunch slot => Sys2Proof.Machine.execEffectiveLaunch slot s
  | .taskStart k => Sys2Proof.Machine.execTaskStart k s
  | .taskEnd k value => Sys2Proof.Machine.execTaskEnd k value s
  | .tagQuarantineExpiry cl tag => Sys2Proof.Machine.execTagQuarantineExpiry cl tag s
  | .scalarInstruction k => Sys2Proof.Machine.execScalarInstruction k s
  | .trunaheadWrite k value => Sys2Proof.Machine.execTrunaheadWrite k value s
  | .tld k td inc => Sys2Proof.Machine.execTld k td inc s
  | .runaheadFetch k td => Sys2Proof.Machine.execRunaheadFetch k td s
  | .tst k td inc => Sys2Proof.Machine.execTst k td inc s
  | .tlds k td rs1 rs2 => Sys2Proof.Machine.execTlds k td rs1 rs2 s
  | .tdw k td rs1 sub => Sys2Proof.Machine.execTdw k td rs1 sub s
  | .tdr k td rd sub => Sys2Proof.Machine.execTdr k td rd sub s
  | .twl k tds => Sys2Proof.Machine.execTwl k tds s
  | .weightFillDone k => Sys2Proof.Machine.execWeightFillDone k s
  | .tmma k tdd tds twinFault => Sys2Proof.Machine.execTmma k tdd tds twinFault s
  | .tmmaz k tdd tds twinFault => Sys2Proof.Machine.execTmmaz k tdd tds twinFault s
  | .tzero k tdd => Sys2Proof.Machine.execTzero k tdd s
  | .tcvt k tdd tds rnd => Sys2Proof.Machine.execTcvt k tdd tds rnd s
  | .floorBeat k arrayB => Sys2Proof.Machine.execFloorBeat k arrayB s
  | .vadd k vd vs1 vs2 => Sys2Proof.Machine.execVadd k vd vs1 vs2 s
  | .vsub k vd vs1 vs2 => Sys2Proof.Machine.execVsub k vd vs1 vs2 s
  | .vmul k vd vs1 vs2 => Sys2Proof.Machine.execVmul k vd vs1 vs2 s
  | .vfma k vd vs1 vs2 => Sys2Proof.Machine.execVfma k vd vs1 vs2 s
  | .vmax k vd vs1 vs2 => Sys2Proof.Machine.execVmax k vd vs1 vs2 s
  | .vmin k vd vs1 vs2 => Sys2Proof.Machine.execVmin k vd vs1 vs2 s
  | .vfunc k vd vs1 code => Sys2Proof.Machine.execVfunc k vd vs1 code s
  | .vred k vd vs1 code => Sys2Proof.Machine.execVred k vd vs1 code s
  | .vcvt k vd vs1 code => Sys2Proof.Machine.execVcvt k vd vs1 code s
  | .vld k vd rs1 => Sys2Proof.Machine.execVld k vd rs1 s
  | .vst k vd rs1 => Sys2Proof.Machine.execVst k vd rs1 s
  | .vsplat k vd rs1 => Sys2Proof.Machine.execVsplat k vd rs1 s
  | .vext k vd rd rs2 => Sys2Proof.Machine.execVext k vd rd rs2 s
  | .vmulx k vd rs1 => Sys2Proof.Machine.execVmulx k vd rs1 s
  | .slotStatRead k => Sys2Proof.Machine.execSlotStatRead k s
  | .bankWaitMaxRead k => Sys2Proof.Machine.execBankWaitMaxRead k s
  | .memoryResponse who => Sys2Proof.Machine.execMemoryResponse who s
  | .requestTimeout who => Sys2Proof.Machine.execRequestTimeout who s
  | .reSubmit r cl value => Sys2Proof.Machine.execReSubmit r cl value s
  | .reFill cl => Sys2Proof.Machine.execReFill cl s
  | .reSmaxStep cl => Sys2Proof.Machine.execReSmaxStep cl s
  | .reSmaxFinal cl => Sys2Proof.Machine.execReSmaxFinal cl s
  | .reDot cl => Sys2Proof.Machine.execReDot cl s
  | .reSmaxBwd cl => Sys2Proof.Machine.execReSmaxBwd cl s
  | .reMomStep cl => Sys2Proof.Machine.execReMomStep cl s
  | .reMomFinal cl => Sys2Proof.Machine.execReMomFinal cl s
  | .reSave cl => Sys2Proof.Machine.execReSave cl s
  | .reLoad cl => Sys2Proof.Machine.execReLoad cl s
  | .signal r tile value => Sys2Proof.Machine.execSignal r tile value s
  | .waitValWrite r tile value => Sys2Proof.Machine.execWaitValWrite r tile value s
  | .waitGo r tile value => Sys2Proof.Machine.execWaitGo r tile value s
  | .waitResLoad r => Sys2Proof.Machine.execWaitResLoad r s
  | .waitTimeout k => Sys2Proof.Machine.execWaitTimeout k s
  | .fenceCluster r => Sys2Proof.Machine.execFenceCluster r s
  | .fenceTile r => Sys2Proof.Machine.execFenceTile r s
  | .fenceDevice r => Sys2Proof.Machine.execFenceDevice r s
  | .fenceFabric r => Sys2Proof.Machine.execFenceFabric r s
  | .fenceComplete k => Sys2Proof.Machine.execFenceComplete k s
  | .ctrCfgWrite tile value => Sys2Proof.Machine.execCtrCfgWrite tile value s
  | .ctrSet tile value => Sys2Proof.Machine.execCtrSet tile value s
  | .dbgSelWrite tile value => Sys2Proof.Machine.execDbgSelWrite tile value s
  | .shadowMerge bushel => Sys2Proof.Machine.execShadowMerge bushel s
  | .heatWindowEnd tile => Sys2Proof.Machine.execHeatWindowEnd tile s
  | .migrationSwitch bushel => Sys2Proof.Machine.execMigrationSwitch bushel s
  | .bisnpResponse bushel line dirty => Sys2Proof.Machine.execBisnpResponse bushel line dirty s
  | .biTimeout bushel => Sys2Proof.Machine.execBiTimeout bushel s
  | .queryTask key => Sys2Proof.Machine.execQueryTask key s
  | .queryCounterOwner key => Sys2Proof.Machine.execQueryCounterOwner key s
  | .queryBushel key => Sys2Proof.Machine.execQueryBushel key s
  | .queryCore key => Sys2Proof.Machine.execQueryCore key s
  | .cxlmemRead addr len caches => Sys2Proof.Machine.execCxlmemRead addr len caches s
  | .cxlmemWrite addr data => Sys2Proof.Machine.execCxlmemWrite addr data s
  | .memoryEccError place uncorrectable => Sys2Proof.Machine.execMemoryEccError place uncorrectable s
  | .memoryUnusable tile controller => Sys2Proof.Machine.execMemoryUnusable tile controller s
  | .windowCursorVisit slot => Sys2Proof.Machine.execWindowCursorVisit slot s
  | .layerArrivalSignal layer => Sys2Proof.Machine.execLayerArrivalSignal layer s
  | .streamSubmit r tile value => Sys2Proof.Machine.execStreamSubmit r tile value s
  | .streamFetch tile => Sys2Proof.Machine.execStreamFetch tile s
  | .streamDrop tile => Sys2Proof.Machine.execStreamDrop tile s
  | .streamCopy tile => Sys2Proof.Machine.execStreamCopy tile s
  | .streamStatRead tile => Sys2Proof.Machine.execStreamStatRead tile s
  | .dmaGo r tile channel value => Sys2Proof.Machine.execDmaGo r tile channel value s
  | .dmaBurst tile => Sys2Proof.Machine.execDmaBurst tile s
  | .dmaShareWindow tile => Sys2Proof.Machine.execDmaShareWindow tile s
  | .dmaComplete tile channel => Sys2Proof.Machine.execDmaComplete tile channel s
  | .patrolScrub tile controller corrected => Sys2Proof.Machine.execPatrolScrub tile controller corrected s
  | .openPacketHop node output => Sys2Proof.Machine.execOpenPacketHop node output s
  | .stLoad tile value => Sys2Proof.Machine.execStLoad tile value s
  | .stLoadDone => Sys2Proof.Machine.execStLoadDone s
  | .routerBufferUe node => Sys2Proof.Machine.execRouterBufferUe node s
  | .routeRewrite => Sys2Proof.Machine.execRouteRewrite s
  | .bridgeFlitCrcFail tile side => Sys2Proof.Machine.execBridgeFlitCrcFail tile side s
  | .bridgeDown tile side => Sys2Proof.Machine.execBridgeDown tile side s
  | .latMaxRead tile => Sys2Proof.Machine.execLatMaxRead tile s
  | .welurFlitReceive port flit => Sys2Proof.Machine.execWelurFlitReceive port flit s
  | .replayTimeout port => Sys2Proof.Machine.execReplayTimeout port s
  | .portSignalDetect port => Sys2Proof.Machine.execPortSignalDetect port s
  | .linkTrainComplete port result => Sys2Proof.Machine.execLinkTrainComplete port result s
  | .linkIdentify port info => Sys2Proof.Machine.execLinkIdentify port info s
  | .linkTrainTimeout port => Sys2Proof.Machine.execLinkTrainTimeout port s
  | .peerLinkLost port => Sys2Proof.Machine.execPeerLinkLost port s
  | .linkCmdRetrain port value => Sys2Proof.Machine.execLinkCmdRetrain port value s
  | .eqSeedSave port seeds => Sys2Proof.Machine.execEqSeedSave port seeds s
  | .peerCredit port credits => Sys2Proof.Machine.execPeerCredit port credits s
  | .peerSlottedReceive port packet => Sys2Proof.Machine.execPeerSlottedReceive port packet s
  | .peerPacketReceive port packet => Sys2Proof.Machine.execPeerPacketReceive port packet s
  | .groupCreate value => Sys2Proof.Machine.execGroupCreate value s
  | .groupRetire value => Sys2Proof.Machine.execGroupRetire value s
  | .groupQuarantineExpiry id => Sys2Proof.Machine.execGroupQuarantineExpiry id s
  | .collSubmit r value => Sys2Proof.Machine.execCollSubmit r value s
  | .allGather index => Sys2Proof.Machine.execAllGather index s
  | .reduceScatter index => Sys2Proof.Machine.execReduceScatter index s
  | .allReduce index => Sys2Proof.Machine.execAllReduce index s
  | .broadcast index => Sys2Proof.Machine.execBroadcast index s
  | .barrier index => Sys2Proof.Machine.execBarrier index s
  | .gatherShard index => Sys2Proof.Machine.execGatherShard index s
  | .put index => Sys2Proof.Machine.execPut index s
  | .dispatch index => Sys2Proof.Machine.execDispatch index s
  | .combine index => Sys2Proof.Machine.execCombine index s
  | .collCommandComplete index => Sys2Proof.Machine.execCollCommandComplete index s
  | .epochCtrlWrite value => Sys2Proof.Machine.execEpochCtrlWrite value s
  | .epochSwitch value => Sys2Proof.Machine.execEpochSwitch value s
  | .collStatRead => Sys2Proof.Machine.execCollStatRead s
  | .stepVote => Sys2Proof.Machine.execStepVote s
  | .stepCommit => Sys2Proof.Machine.execStepCommit s
  | .foghornLoss r value => Sys2Proof.Machine.execFoghornLoss r value s
  | .nfReport r value => Sys2Proof.Machine.execNfReport r value s
  | .faultReport code info deferred => Sys2Proof.Machine.execFaultReport code info deferred s
  | .discardNotice notice => Sys2Proof.Machine.execDiscardNotice notice s
  | .relaunch => Sys2Proof.Machine.execRelaunch s
  | .stepTimeout => Sys2Proof.Machine.execStepTimeout s
  | .stageCopyDone => Sys2Proof.Machine.execStageCopyDone s
  | .partnerRefreshDone received ok => Sys2Proof.Machine.execPartnerRefreshDone received ok s
  | .flashWriteDone ok => Sys2Proof.Machine.execFlashWriteDone ok s
  | .storeDone value => Sys2Proof.Machine.execStoreDone value s
  | .restore value => Sys2Proof.Machine.execRestore value s
  | .restoreDone image header sheaves error => Sys2Proof.Machine.execRestoreDone image header sheaves error s
  | .redoWrite value => Sys2Proof.Machine.execRedoWrite value s
  | .wverWrite value => Sys2Proof.Machine.execWverWrite value s
  | .abort slot => Sys2Proof.Machine.execAbort slot s
  | .release slot => Sys2Proof.Machine.execRelease slot s
  | .slotWritebackDone slot => Sys2Proof.Machine.execSlotWritebackDone slot s
  | .partialRead slot offset size => Sys2Proof.Machine.execPartialRead slot offset size s
  | .mirrorWrite slot => Sys2Proof.Machine.execMirrorWrite slot s
  | .uioFailure addr who write => Sys2Proof.Machine.execUioFailure addr who write s
  | .ideIntegrityFail => Sys2Proof.Machine.execIdeIntegrityFail s
  | .blkCommit r page => Sys2Proof.Machine.execBlkCommit r page s
  | .packageCommitApply page => Sys2Proof.Machine.execPackageCommitApply page s
  | .blkSoftReset r page => Sys2Proof.Machine.execBlkSoftReset r page s
  | .softResetDone page => Sys2Proof.Machine.execSoftResetDone page s
  | .blkEnableWrite r page enable => Sys2Proof.Machine.execBlkEnableWrite r page enable s
  | .errStatClear page value => Sys2Proof.Machine.execErrStatClear page value s
  | .errInjWrite page value => Sys2Proof.Machine.execErrInjWrite page value s
  | .registerWrite r bar2 offset size words => Sys2Proof.Machine.execRegisterWrite r bar2 offset size words s
  | .deviceReset => Sys2Proof.Machine.execDeviceReset s
  | .keeperWatchdog => Sys2Proof.Machine.execKeeperWatchdog s
  | .bypassRelayChange closes => Sys2Proof.Machine.execBypassRelayChange closes s
  | .chainTailTimeout => Sys2Proof.Machine.execChainTailTimeout s
  | .enum frame => Sys2Proof.Machine.execEnum frame s
  | .setCoord frame => Sys2Proof.Machine.execSetCoord frame s
  | .chainRead frame => Sys2Proof.Machine.execChainRead frame s
  | .chainWrite frame => Sys2Proof.Machine.execChainWrite frame s
  | .stageBegin frame => Sys2Proof.Machine.execStageBegin frame s
  | .stageEnd frame verify => Sys2Proof.Machine.execStageEnd frame verify s
  | .image frame => Sys2Proof.Machine.execImage frame s
  | .activate frame => Sys2Proof.Machine.execActivate frame s
  | .confirm frame => Sys2Proof.Machine.execConfirm frame s
  | .chainAttest frame => Sys2Proof.Machine.execChainAttest frame s
  | .chainReset frame => Sys2Proof.Machine.execChainReset frame s
  | .enumWaitTimeout => Sys2Proof.Machine.execEnumWaitTimeout s
  | .activationTime => Sys2Proof.Machine.execActivationTime s
  | .confirmTimeout => Sys2Proof.Machine.execConfirmTimeout s
  | .settingsMirrorWrite ok => Sys2Proof.Machine.execSettingsMirrorWrite ok s
  | .bringupStageAdvance outcome ms => Sys2Proof.Machine.execBringupStageAdvance outcome ms s
  | .mboxAttest => Sys2Proof.Machine.execMboxAttest s
  | .mboxIdentity => Sys2Proof.Machine.execMboxIdentity s
  | .confirmFw => Sys2Proof.Machine.execConfirmFw s
  | .mboxSelfTest faulty retestOk => Sys2Proof.Machine.execMboxSelfTest faulty retestOk s
  | .mboxFuseLog => Sys2Proof.Machine.execMboxFuseLog s
  | .mboxHealth => Sys2Proof.Machine.execMboxHealth s
  | .powerControlWindow sample => Sys2Proof.Machine.execPowerControlWindow sample s
  | .valveLoopTick inlet16 outlet16 flow opening => Sys2Proof.Machine.execValveLoopTick inlet16 outlet16 flow opening s
  | .protectiveShutdown cause => Sys2Proof.Machine.execProtectiveShutdown cause s
  | .inputUndervoltBand => Sys2Proof.Machine.execInputUndervoltBand s
  | .pwrStatRead => Sys2Proof.Machine.execPwrStatRead s
  | .counterBankReset page value => Sys2Proof.Machine.execCounterBankReset page value s
  | .sampleSelWrite page value => Sys2Proof.Machine.execSampleSelWrite page value s
  | .snap page value => Sys2Proof.Machine.execSnap page value s
  | .snapDone page => Sys2Proof.Machine.execSnapDone page s
  | .traceCtrlWrite value => Sys2Proof.Machine.execTraceCtrlWrite value s
  | .traceMark r value => Sys2Proof.Machine.execTraceMark r value s
  | .ttraceMark r tile value => Sys2Proof.Machine.execTtraceMark r tile value s
  | .traceFifoWrite stream => Sys2Proof.Machine.execTraceFifoWrite stream s
  | .traceFullTimeTick => Sys2Proof.Machine.execTraceFullTimeTick s
  | .traceSampleTick => Sys2Proof.Machine.execTraceSampleTick s
  | .ttraceStatRead tile => Sys2Proof.Machine.execTtraceStatRead tile s
  | .refInputValid input => Sys2Proof.Machine.execRefInputValid input s
  | .bridgeTrainingLost tile side => Sys2Proof.Machine.execBridgeTrainingLost tile side s
  | .bridgeRetrained tile side modules lanes => Sys2Proof.Machine.execBridgeRetrained tile side modules lanes s
  | .hostLinkStateChange state width rate => Sys2Proof.Machine.execHostLinkStateChange state width rate s
  | .chainOutLinkUp => Sys2Proof.Machine.execChainOutLinkUp s
  | .inputVoltageRestored => Sys2Proof.Machine.execInputVoltageRestored s
  | .inletRange inlet16 => Sys2Proof.Machine.execInletRange inlet16 s

end Sys2Proof.Machine
end

