-- ==== Sys2Proof/Machine/Tick.lean ====
section
/-! DEFINITION. What happens while no command takes place: the Beacon counter counts (R52, R61), and the engines account for their time (R682 to
R685). Commands take no Beacon time, so an engine is busy or stalled only through what its state holds between commands (DESIGN CHOICE, log entry
1). -/

namespace Sys2Proof.Machine

/-- What an engine does in a BT ns (R683): it is idle or busy, or it stalls for a cause (R684). -/
inductive Activity where
  | idle
  | busy
  | stall (cause : Nat)
  deriving DecidableEq, Repr

/-- Busy when a condition holds, else idle. -/
def busyIf (c : Bool) : Activity := if c then .busy else .idle

/-- At least 24 of a core's request slots wait at one cluster-memory bank (R135). -/
def crowdedBank (c : Core) : Bool :=
  (List.range 32).any (fun n => decide (24 ≤ (c.requests.filter (fun r => decide (r.bank = some n))).length))

/-- Core issue (R685). A TASK_END that waits for peer writes waits for its fence. -/
def coreActivity (s : State) (k : CoreRef) : Activity :=
  if coreFenced s k || !coreRunning s k then .idle
  else if (coreOf s k).resLoad then .stall 0x010
  else if (coreOf s k).fence.isSome then .stall 0x011
  else if (coreOf s k).slotStall && slotsFull s k then .stall (if crowdedBank (coreOf s k) then 0x012 else 0x013)
  else match (coreOf s k).heldStore with
    | some (o, _) => .stall (if o % 0x1000 = 0x120 then 0x011 else 0x016)
    | none => .busy

/-- A command of the collective engine has data to move: what other members sent it has arrived, or it has its result. -/
def collMoves (s : State) (c : CollCmd) : Bool := c.executing && (c.result.isSome || s.coll.received.any (contributes c))

/-- A collective engine: a command that moves data, one that waits for the NEXT epoch, or one that waits for other members (R685). -/
def collActivity (s : State) (exchange : Bool) : Activity :=
  let mine := s.coll.queue.filter (fun c => decide (7 < coOp c.words) = exchange)
  if mine.any (collMoves s) then .busy
  else if mine.any (fun c => c.held) && !exchange then .stall 0x01E
  else if mine.any (fun c => c.executing) then .stall 0x01D
  else .idle

/-- A channel that is BUSY moves bursts, or has used up the budget of its rate share (R387, R685). -/
def dmaActivity (s : State) (t : Fin 8) (n : Fin 32) : Activity :=
  let c := dmaOf s t n
  if dmaState s t n ≠ dmBusy then .idle
  else if !c.finishing && decide (c.issued < dmaCount s (pgDma t n)) && !mayIssue s t n then .stall 0x01A
  else .busy

/-- A port's transmitter: packets wait while it retrains, or for credit (R453, R685); a packet is sent within one command. -/
def portActivity (s : State) (n : Nat) : Activity :=
  if (port s n).waiting.isEmpty then .idle
  else if linkOf s n = lkRetrain then .stall 0x021
  else if linkOf s n = lkActive then .stall 0x01F
  else .idle

/-- What an engine of a page does; engines whose work is done within one command are idle between commands. -/
def activity (s : State) (p : PageRef) (engine : Nat) : Activity :=
  if !(rd s p 0x010).bit 0 then .idle
  else match pageBlock p, p, engine with
  | some .core, .core k, 0 => coreActivity s k
  | some .cluster, .cluster c, 0 => busyIf (!(cluster s c).reQueue.isEmpty)
  | some .stream, .tile t _, 0 =>
    if s.mem.moves.any (fun m => m.switching && decide (m.tile = t.val)) then .stall 0x01C
    else busyIf (!(mget [] s.streams t.val).isEmpty)
  | some .dma, .tile t n, 0 => dmaActivity s t (Fin.ofNat 32 (n.val - 64))
  | some .coll, _, 0 => collActivity s false
  | some .coll, _, 1 => collActivity s true
  | some .peer, _, 0 => portActivity s (pageInst p)
  | some .granger, _, 0 => busyIf (match placing s with | some n => placesOn s (pageTileNo p) n | none => false)
  | _, _, _ => .idle

/-- The step waits only for the stage copy (R510). -/
def ckptWaits (s : State) : Bool :=
  match s.step.slot with
  | some n => decide ((slot s n).state = .running) && slotTasksEnded s n && decide (s.step.deferred = 0) && s.step.faulted.isNone
      && decide (stage s = sgCopying)
  | none => false

/-- The event code counts this BT ns (R682, R683). -/
def timeCounts (s : State) (p : PageRef) (code : Nat) : Bool :=
  let ev := code % 4096
  if ev < 0x100 then
    match activity s p (code / 4096) with
    | .idle => decide (ev = 2)
    | .busy => decide (ev = 1)
    | .stall c => decide (ev = 3) || decide (ev = c)
  else decide (pageBlock p = some .step) && decide (code = 0x102) && ckptWaits s

/-- One enabled event line of a page counts one BT ns, if its code does (R592, R681). -/
def timeLine (p : PageRef) (b : Block) (line : Nat) (sel : Word) (t s : State) : State :=
  if sel.bit 16 && (eventCodes b).contains (sel.bits 15 0) && timeCounts t p (sel.bits 15 0) then countLine s p line 1 else s

/-- Time accounting of one BT ns: every enabled line that carries a time-accounting event. -/
def accountTime (s : State) : State :=
  s.regs.foldl
    (fun (u : State) (e : Nat × Word) =>
      if 0x048 ≤ e.1 % 0x1000 && decide (e.1 % 0x1000 ≤ 0x078) && e.2.bit 16 then
        match pageOf s.part e.1 with
        | some p => match pageBlock p with
          | some b => timeLine p b ((e.1 % 0x1000 - 0x048) / 8) e.2 s u
          | none => u
        | none => u
      else u) s

/-- The waits that run by ticks: for the reference inputs (R704), for a master (R65), and between exchanges (R56). -/
def spendWaits (s : State) : State :=
  { s with beacon := { s.beacon with
    refWait := s.beacon.refWait.map (fun n => n - 1)
    noMasterWait := s.beacon.noMasterWait.map (fun n => n - 1)
    exchangeWait := s.beacon.exchangeWait.filterMap (fun e => if e.2 ≤ 1 then none else some (e.1, e.2 - 1)) } }

/-- One BT ns passes: the counter advances by one modulo 2^64, unless it is held after a step correction (R61); a held
counter spends one unit of its hold. -/
def advanceTime (s : State) : State :=
  let s := spendWaits s
  if s.beacon.hold = 0 then { s with now := (s.now + 1) % 2 ^ 64 }
  else { s with beacon := { s.beacon with hold := s.beacon.hold - 1 } }

/-- Bring-up found no reference clock: no clocked island runs (R50, R642). -/
def noRefClock (s : State) : Bool := decide (bootStage s = 15) && decide (fld s pgIdent 0x138 15 8 = 1)

/-- A core's held store is made again: its register takes it, or it stays held (R223, R244, R379, R476). -/
def retryStore (s : State) (i : Nat) : State :=
  let k := coreAt i
  match (coreOf s k).heldStore with
  | none => s
  | some (o, v) =>
    match windowStore (.core k) o 8 v (setCore s k { coreOf s k with heldStore := none }) with
    | .done s => s
    | .fault => settle k (windowBase + o) s .fault

/-- Held stores are tried again, the lowest core first. -/
def retryStores (s : State) : State :=
  ((s.cores.filter (fun e => e.2.heldStore.isSome)).map (fun e => e.1)).foldl retryStore s

/-- A BT ns in which no command takes place. -/
def tick (s : State) : State := if noRefClock s then s else retryStores (advanceTime (accountTime s))

end Sys2Proof.Machine
end

