-- ==== Sys2Proof/Safety.lean ====
section
/-! DEFINITION. The terms that claims are stated in: a command completes, what it leaves unchanged, and the invariant of every step. -/

namespace Sys2Proof.Safety

open Sys2Proof.Machine

/-- The command has its effect: `exec` answers a next state, and that state meets `P`. -/
def Completes (i : Instr) (s : State) (P : State → Prop) : Prop := ∃ t, exec i s = .next t ∧ P t

/-- The command has an effect of its own, which meets `P`, and what that effect sets off follows it: a signal with the tasks it wakes, or a fault. -/
def CompletesThen (i : Instr) (s : State) (after : State → State) (P : State → Prop) : Prop := ∃ u, exec i s = .next (after u) ∧ P u

/-- A component of the state. -/
inductive Field where
  | part
  | now
  | beacon
  | regs
  | slots
  | tasks
  | ctrs
  | cores
  | clusters
  | mem
  | granger
  | streams
  | dmas
  | dmaNext
  | net
  | ports
  | coll
  | control
  | step
  | keeper
  | power
  | traces
  | snaps
  | commits
  | out
  | free
  | pending
  deriving DecidableEq, Repr

/-- Two states agree in a component. -/
def Field.Same (s t : State) : Field → Prop
  | .part => t.part = s.part
  | .now => t.now = s.now
  | .beacon => t.beacon = s.beacon
  | .regs => t.regs = s.regs
  | .slots => t.slots = s.slots
  | .tasks => t.tasks = s.tasks
  | .ctrs => t.ctrs = s.ctrs
  | .cores => t.cores = s.cores
  | .clusters => t.clusters = s.clusters
  | .mem => t.mem = s.mem
  | .granger => t.granger = s.granger
  | .streams => t.streams = s.streams
  | .dmas => t.dmas = s.dmas
  | .dmaNext => t.dmaNext = s.dmaNext
  | .net => t.net = s.net
  | .ports => t.ports = s.ports
  | .coll => t.coll = s.coll
  | .control => t.control = s.control
  | .step => t.step = s.step
  | .keeper => t.keeper = s.keeper
  | .power => t.power = s.power
  | .traces => t.traces = s.traces
  | .snaps => t.snaps = s.snaps
  | .commits => t.commits = s.commits
  | .out => t.out = s.out
  | .free => t.free = s.free
  | .pending => t.pending = s.pending

/-- From `s` to `t` no component changes but the named ones. -/
def Frame (fs : List Field) (s t : State) : Prop := ∀ f, f ∉ fs → f.Same s t

/-- A BAR0 offset in a page of the event counters: the pages `TCTR` of the tiles and `DCTR` of the device (R687, R688). -/
def inBank (o : Nat) : Prop :=
  (∃ t : Fin 8, pageBase (pgTctr t) ≤ o ∧ o < pageBase (pgTctr t) + 0x1000) ∨
  (∃ d : Fin 16, pageBase (pgDctr d) ≤ o ∧ o < pageBase (pgDctr d) + 0x1000)

/-- From `s` to `t` no register changes but those at the listed pages and offsets, and those of the event counters' pages. -/
def RegFrame (l : List (PageRef × Nat)) (s t : State) : Prop :=
  ∀ o, (∀ e ∈ l, o ≠ pageBase e.1 + e.2) → ¬ inBank o → regRd t o = regRd s o

/-- The components that a command may change; all others it leaves as they are. -/
def touches : Instr → List Field
  | .rateWindowEnd _ _ => [.regs, .slots, .tasks, .ctrs, .cores, .clusters, .mem, .granger, .streams, .net, .coll, .control, .step, .power, .traces, .out]
  | .unfence _ _ _ => [.regs, .cores, .out]
  | .arraySelfTest _ _ => [.regs, .slots, .tasks, .ctrs, .cores, .clusters, .mem, .granger, .coll, .control, .step, .keeper, .power, .traces, .out]
  | .floorSelfTestEnd _ => [.regs, .slots, .tasks, .ctrs, .cores, .clusters, .mem, .granger, .coll, .control, .step, .power, .traces, .out]
  | .coreRateRead _ => [.regs, .out]
  | .cmRateRead _ => [.regs, .out]
  | .beaconSlotBoundary _ => [.regs, .slots, .tasks, .ctrs, .cores, .clusters, .mem, .granger, .streams, .net, .ports, .coll, .control, .step, .power, .traces, .out, .free]
  | .streamEjectSignal _ _ => [.regs, .slots, .tasks, .ctrs, .cores, .clusters, .mem, .granger, .net, .coll, .control, .step, .power, .traces, .out]
  | .beaconExchange _ _ => [.now, .beacon, .regs, .slots, .tasks, .ctrs, .cores, .clusters, .mem, .granger, .ports, .coll, .control, .step, .power, .traces, .out, .free]
  | .beaconStepCorrection _ => [.now, .beacon, .regs]
  | .parentLost => [.beacon, .regs, .ports]
  | .parentFound _ _ => [.now, .beacon, .regs, .slots, .tasks, .ctrs, .cores, .clusters, .mem, .granger, .ports, .coll, .control, .step, .power, .traces, .out, .free]
  | .holdoverExpiry => [.regs, .slots, .tasks, .ctrs, .cores, .clusters, .mem, .granger, .coll, .control, .step, .power, .traces, .out]
  | .noMasterTimeout => [.beacon, .regs, .out]
  | .ppsEdge => [.now, .beacon, .regs, .free]
  | .refInputLost _ => [.beacon, .regs]
  | .refInputTimeout _ => [.beacon, .regs]
  | .epochSet _ _ => [.now, .beacon, .regs, .out]
  | .arm _ _ => [.regs, .slots, .tasks, .granger, .step, .traces]
  | .slotPlacement _ => [.regs, .slots, .tasks, .ctrs, .cores, .clusters, .mem, .granger, .streams, .coll, .control, .step, .power, .traces, .out, .free]
  | .rePlacement _ => [.regs, .slots, .tasks, .ctrs, .cores, .clusters, .mem, .granger, .streams, .coll, .control, .step, .power, .traces, .out, .free]
  | .effectiveLaunch _ => [.regs, .slots, .tasks, .ctrs, .cores, .clusters, .mem, .granger, .streams, .net, .ports, .coll, .control, .step, .power, .traces, .out, .free]
  | .taskStart _ => [.regs, .tasks, .cores, .clusters, .mem, .granger, .net, .traces, .out, .free]
  | .taskEnd _ _ => [.regs, .slots, .tasks, .ctrs, .cores, .clusters, .mem, .granger, .net, .coll, .control, .step, .power, .traces, .out, .free]
  | .tagQuarantineExpiry _ _ => [.clusters]
  | .scalarInstruction _ => [.now, .beacon, .regs, .slots, .tasks, .ctrs, .cores, .clusters, .mem, .granger, .streams, .dmas, .net, .ports, .coll, .control, .step, .keeper, .power, .traces, .snaps, .commits, .out, .free]
  | .trunaheadWrite _ _ => [.regs, .slots, .tasks, .ctrs, .cores, .clusters, .mem, .granger, .coll, .control, .step, .power, .traces, .out]
  | .tld _ _ _ => [.regs, .slots, .tasks, .ctrs, .cores, .clusters, .mem, .granger, .streams, .net, .coll, .control, .step, .power, .traces, .out, .free]
  | .runaheadFetch _ _ => [.regs, .cores, .net]
  | .tst _ _ _ => [.regs, .slots, .tasks, .ctrs, .cores, .clusters, .mem, .granger, .streams, .net, .coll, .control, .step, .power, .traces, .out, .free]
  | .tlds _ _ _ _ => [.regs, .slots, .tasks, .ctrs, .cores, .clusters, .mem, .granger, .streams, .net, .coll, .control, .step, .power, .traces, .out, .free]
  | .tdw _ _ _ _ => [.regs, .slots, .tasks, .ctrs, .cores, .clusters, .mem, .granger, .coll, .control, .step, .power, .traces, .out, .free]
  | .tdr _ _ _ _ => [.regs, .slots, .tasks, .ctrs, .cores, .clusters, .mem, .granger, .coll, .control, .step, .power, .traces, .out, .free]
  | .twl _ _ => [.regs, .slots, .tasks, .ctrs, .cores, .clusters, .mem, .granger, .coll, .control, .step, .power, .traces, .out]
  | .weightFillDone _ => [.cores]
  | .tmma _ _ _ _ => [.regs, .slots, .tasks, .ctrs, .cores, .clusters, .mem, .granger, .coll, .control, .step, .power, .traces, .out, .free]
  | .tmmaz _ _ _ _ => [.regs, .slots, .tasks, .ctrs, .cores, .clusters, .mem, .granger, .coll, .control, .step, .power, .traces, .out, .free]
  | .tzero _ _ => [.regs, .slots, .tasks, .ctrs, .cores, .clusters, .mem, .granger, .coll, .control, .step, .power, .traces, .out]
  | .tcvt _ _ _ _ => [.regs, .slots, .tasks, .ctrs, .cores, .clusters, .mem, .granger, .coll, .control, .step, .power, .traces, .out, .free]
  | .floorBeat _ _ => [.regs, .out]
  | .vadd _ _ _ _ => [.regs, .slots, .tasks, .ctrs, .cores, .clusters, .mem, .granger, .coll, .control, .step, .power, .traces, .out]
  | .vsub _ _ _ _ => [.regs, .slots, .tasks, .ctrs, .cores, .clusters, .mem, .granger, .coll, .control, .step, .power, .traces, .out]
  | .vmul _ _ _ _ => [.regs, .slots, .tasks, .ctrs, .cores, .clusters, .mem, .granger, .coll, .control, .step, .power, .traces, .out]
  | .vfma _ _ _ _ => [.regs, .slots, .tasks, .ctrs, .cores, .clusters, .mem, .granger, .coll, .control, .step, .power, .traces, .out]
  | .vmax _ _ _ _ => [.regs, .slots, .tasks, .ctrs, .cores, .clusters, .mem, .granger, .coll, .control, .step, .power, .traces, .out]
  | .vmin _ _ _ _ => [.regs, .slots, .tasks, .ctrs, .cores, .clusters, .mem, .granger, .coll, .control, .step, .power, .traces, .out]
  | .vfunc _ _ _ _ => [.regs, .slots, .tasks, .ctrs, .cores, .clusters, .mem, .granger, .coll, .control, .step, .power, .traces, .out, .free]
  | .vred _ _ _ _ => [.regs, .slots, .tasks, .ctrs, .cores, .clusters, .mem, .granger, .coll, .control, .step, .power, .traces, .out, .free]
  | .vcvt _ _ _ _ => [.regs, .slots, .tasks, .ctrs, .cores, .clusters, .mem, .granger, .coll, .control, .step, .power, .traces, .out, .free]
  | .vld _ _ _ => [.regs, .slots, .tasks, .ctrs, .cores, .clusters, .mem, .granger, .streams, .net, .coll, .control, .step, .power, .traces, .out, .free]
  | .vst _ _ _ => [.regs, .slots, .tasks, .ctrs, .cores, .clusters, .mem, .granger, .streams, .net, .coll, .control, .step, .power, .traces, .out, .free]
  | .vsplat _ _ _ => [.regs, .slots, .tasks, .ctrs, .cores, .clusters, .mem, .granger, .coll, .control, .step, .power, .traces, .out]
  | .vext _ _ _ _ => [.regs, .slots, .tasks, .ctrs, .cores, .clusters, .mem, .granger, .coll, .control, .step, .power, .traces, .out]
  | .vmulx _ _ _ => [.regs, .slots, .tasks, .ctrs, .cores, .clusters, .mem, .granger, .coll, .control, .step, .power, .traces, .out]
  | .slotStatRead _ => [.regs, .out]
  | .bankWaitMaxRead _ => [.regs, .out]
  | .memoryResponse _ => [.regs, .slots, .tasks, .ctrs, .cores, .clusters, .mem, .granger, .streams, .net, .coll, .control, .step, .power, .traces, .out, .free]
  | .requestTimeout _ => [.regs, .slots, .tasks, .ctrs, .cores, .clusters, .mem, .granger, .streams, .dmas, .net, .coll, .control, .step, .power, .traces, .out, .free]
  | .reSubmit _ _ _ => [.regs, .slots, .tasks, .ctrs, .cores, .clusters, .mem, .granger, .coll, .control, .step, .power, .traces, .out]
  | .reFill _ => [.regs, .slots, .tasks, .ctrs, .cores, .clusters, .mem, .granger, .streams, .net, .coll, .control, .step, .power, .traces, .out, .free]
  | .reSmaxStep _ => [.regs, .slots, .tasks, .ctrs, .cores, .clusters, .mem, .granger, .streams, .net, .coll, .control, .step, .power, .traces, .out, .free]
  | .reSmaxFinal _ => [.regs, .slots, .tasks, .ctrs, .cores, .clusters, .mem, .granger, .streams, .net, .coll, .control, .step, .power, .traces, .out, .free]
  | .reDot _ => [.regs, .slots, .tasks, .ctrs, .cores, .clusters, .mem, .granger, .streams, .net, .coll, .control, .step, .power, .traces, .out, .free]
  | .reSmaxBwd _ => [.regs, .slots, .tasks, .ctrs, .cores, .clusters, .mem, .granger, .streams, .net, .coll, .control, .step, .power, .traces, .out, .free]
  | .reMomStep _ => [.regs, .slots, .tasks, .ctrs, .cores, .clusters, .mem, .granger, .streams, .net, .coll, .control, .step, .power, .traces, .out, .free]
  | .reMomFinal _ => [.regs, .slots, .tasks, .ctrs, .cores, .clusters, .mem, .granger, .streams, .net, .coll, .control, .step, .power, .traces, .out, .free]
  | .reSave _ => [.regs, .slots, .tasks, .ctrs, .cores, .clusters, .mem, .granger, .streams, .net, .coll, .control, .step, .power, .traces, .out, .free]
  | .reLoad _ => [.regs, .slots, .tasks, .ctrs, .cores, .clusters, .mem, .granger, .streams, .net, .coll, .control, .step, .power, .traces, .out, .free]
  | .signal _ _ _ => [.regs, .slots, .tasks, .ctrs, .cores, .clusters, .mem, .granger, .coll, .control, .step, .power, .traces, .out]
  | .waitValWrite _ _ _ => [.regs, .cores, .out]
  | .waitGo _ _ _ => [.regs, .slots, .tasks, .ctrs, .cores, .clusters, .mem, .granger, .coll, .control, .step, .power, .traces, .out]
  | .waitResLoad _ => [.regs, .cores, .net, .out]
  | .waitTimeout _ => [.regs, .ctrs, .cores, .mem]
  | .fenceCluster _ => [.regs, .cores, .clusters, .mem, .granger, .net, .out, .free]
  | .fenceTile _ => [.regs, .cores, .clusters, .mem, .granger, .net, .out, .free]
  | .fenceDevice _ => [.regs, .cores, .clusters, .mem, .granger, .net, .out, .free]
  | .fenceFabric _ => [.regs, .cores, .clusters, .mem, .granger, .net, .out, .free]
  | .fenceComplete _ => [.cores]
  | .ctrCfgWrite _ _ => [.regs, .ctrs, .out]
  | .ctrSet _ _ => [.regs, .slots, .tasks, .ctrs, .cores, .clusters, .mem, .granger, .coll, .control, .step, .power, .traces, .out]
  | .dbgSelWrite _ _ => [.regs, .out]
  | .shadowMerge _ => [.regs, .mem, .out]
  | .heatWindowEnd _ => [.regs, .mem, .granger, .streams]
  | .migrationSwitch _ => [.regs, .slots, .tasks, .ctrs, .cores, .clusters, .mem, .granger, .streams, .ports, .coll, .control, .step, .power, .traces, .out, .free]
  | .bisnpResponse _ _ _ => [.regs, .slots, .tasks, .ctrs, .cores, .clusters, .mem, .granger, .streams, .ports, .coll, .control, .step, .power, .traces, .out, .free]
  | .biTimeout _ => [.regs, .slots, .tasks, .ctrs, .cores, .clusters, .mem, .granger, .streams, .ports, .coll, .control, .step, .power, .traces, .out, .free]
  | .queryTask _ => [.regs]
  | .queryCounterOwner _ => [.regs]
  | .queryBushel _ => [.regs]
  | .queryCore _ => [.regs]
  | .cxlmemRead _ _ _ => [.regs, .slots, .tasks, .ctrs, .cores, .clusters, .mem, .granger, .streams, .coll, .control, .step, .power, .traces, .out, .free]
  | .cxlmemWrite _ _ => [.regs, .cores, .mem, .granger, .out, .free]
  | .memoryEccError _ _ => [.regs, .slots, .tasks, .ctrs, .cores, .clusters, .mem, .granger, .streams, .coll, .control, .step, .power, .traces, .out]
  | .memoryUnusable _ _ => [.regs, .slots, .tasks, .ctrs, .cores, .clusters, .mem, .granger, .streams, .coll, .control, .step, .power, .traces, .out]
  | .windowCursorVisit _ => [.regs, .slots, .tasks, .ctrs, .cores, .clusters, .mem, .granger, .streams, .coll, .control, .step, .power, .traces, .out]
  | .layerArrivalSignal _ => [.regs, .slots, .tasks, .ctrs, .cores, .clusters, .mem, .granger, .coll, .control, .step, .power, .traces, .out]
  | .streamSubmit _ _ _ => [.regs, .slots, .tasks, .ctrs, .cores, .clusters, .mem, .granger, .streams, .coll, .control, .step, .power, .traces, .out]
  | .streamFetch _ => [.regs, .slots, .tasks, .ctrs, .cores, .clusters, .mem, .granger, .streams, .coll, .control, .step, .power, .traces, .out, .free]
  | .streamDrop _ => [.regs, .slots, .tasks, .ctrs, .cores, .clusters, .mem, .granger, .streams, .coll, .control, .step, .power, .traces, .out, .free]
  | .streamCopy _ => [.regs, .slots, .tasks, .ctrs, .cores, .clusters, .mem, .granger, .streams, .coll, .control, .step, .power, .traces, .out, .free]
  | .streamStatRead _ => [.regs, .out]
  | .dmaGo _ _ _ _ => [.regs, .slots, .tasks, .ctrs, .cores, .clusters, .mem, .granger, .dmas, .coll, .control, .step, .power, .traces, .out]
  | .dmaBurst _ => [.regs, .slots, .tasks, .ctrs, .cores, .clusters, .mem, .granger, .streams, .dmas, .dmaNext, .coll, .control, .step, .power, .traces, .out, .free]
  | .dmaShareWindow _ => [.dmas]
  | .dmaComplete _ _ => [.regs, .slots, .tasks, .ctrs, .cores, .clusters, .mem, .granger, .dmas, .coll, .control, .step, .power, .traces, .out]
  | .patrolScrub _ _ _ => [.regs, .out]
  | .openPacketHop _ _ => [.regs, .cores, .clusters, .mem, .granger, .net, .ports, .out, .free]
  | .stLoad _ _ => [.regs, .net, .out]
  | .stLoadDone => [.regs, .net, .out]
  | .routerBufferUe _ => [.regs, .slots, .tasks, .ctrs, .cores, .clusters, .mem, .granger, .streams, .net, .coll, .control, .step, .power, .traces, .out]
  | .routeRewrite => [.regs, .slots, .tasks, .ctrs, .cores, .clusters, .mem, .granger, .streams, .net, .coll, .control, .step, .power, .traces, .out]
  | .bridgeFlitCrcFail _ _ => [.regs]
  | .bridgeDown _ _ => [.regs, .slots, .tasks, .ctrs, .cores, .clusters, .mem, .granger, .net, .coll, .control, .step, .power, .traces, .out]
  | .latMaxRead _ => [.regs, .out]
  | .welurFlitReceive _ _ => [.regs, .slots, .tasks, .ctrs, .cores, .clusters, .mem, .granger, .ports, .coll, .control, .step, .power, .traces, .out]
  | .replayTimeout _ => [.regs, .slots, .tasks, .ctrs, .cores, .clusters, .mem, .granger, .ports, .coll, .control, .step, .power, .traces, .out]
  | .portSignalDetect _ => [.regs]
  | .linkTrainComplete _ _ => [.regs]
  | .linkIdentify _ _ => [.regs, .slots, .tasks, .ctrs, .cores, .clusters, .mem, .granger, .ports, .coll, .control, .step, .power, .traces, .out]
  | .linkTrainTimeout _ => [.regs, .slots, .tasks, .ctrs, .cores, .clusters, .mem, .granger, .ports, .coll, .control, .step, .power, .traces, .out]
  | .peerLinkLost _ => [.regs, .slots, .tasks, .ctrs, .cores, .clusters, .mem, .granger, .ports, .coll, .control, .step, .power, .traces, .out]
  | .linkCmdRetrain _ _ => [.regs, .slots, .tasks, .ctrs, .cores, .clusters, .mem, .granger, .ports, .coll, .control, .step, .power, .traces, .out]
  | .eqSeedSave _ _ => [.keeper]
  | .peerCredit _ _ => [.regs, .ports, .out]
  | .peerSlottedReceive _ _ => [.regs, .slots, .tasks, .ctrs, .cores, .clusters, .mem, .granger, .ports, .coll, .control, .step, .power, .traces, .out]
  | .peerPacketReceive _ _ => [.regs, .slots, .tasks, .ctrs, .cores, .clusters, .mem, .granger, .streams, .net, .ports, .coll, .control, .step, .power, .traces, .out, .free]
  | .groupCreate _ => [.regs, .coll, .out]
  | .groupRetire _ => [.regs, .coll, .out]
  | .groupQuarantineExpiry _ => [.regs, .coll]
  | .collSubmit _ _ => [.regs, .slots, .tasks, .ctrs, .cores, .clusters, .mem, .granger, .streams, .coll, .control, .step, .power, .traces, .out]
  | .allGather _ => [.regs, .slots, .tasks, .ctrs, .cores, .clusters, .mem, .granger, .streams, .ports, .coll, .control, .step, .power, .traces, .out, .free]
  | .reduceScatter _ => [.regs, .slots, .tasks, .ctrs, .cores, .clusters, .mem, .granger, .streams, .ports, .coll, .control, .step, .power, .traces, .out, .free]
  | .allReduce _ => [.regs, .slots, .tasks, .ctrs, .cores, .clusters, .mem, .granger, .streams, .ports, .coll, .control, .step, .power, .traces, .out, .free]
  | .broadcast _ => [.regs, .slots, .tasks, .ctrs, .cores, .clusters, .mem, .granger, .streams, .ports, .coll, .control, .step, .power, .traces, .out, .free]
  | .barrier _ => [.regs, .slots, .tasks, .ctrs, .cores, .clusters, .mem, .granger, .streams, .ports, .coll, .control, .step, .power, .traces, .out, .free]
  | .gatherShard _ => [.regs, .slots, .tasks, .ctrs, .cores, .clusters, .mem, .granger, .streams, .ports, .coll, .control, .step, .power, .traces, .out, .free]
  | .put _ => [.regs, .slots, .tasks, .ctrs, .cores, .clusters, .mem, .granger, .streams, .ports, .coll, .control, .step, .power, .traces, .out, .free]
  | .dispatch _ => [.regs, .slots, .tasks, .ctrs, .cores, .clusters, .mem, .granger, .streams, .ports, .coll, .control, .step, .power, .traces, .out, .free]
  | .combine _ => [.regs, .slots, .tasks, .ctrs, .cores, .clusters, .mem, .granger, .streams, .ports, .coll, .control, .step, .power, .traces, .out, .free]
  | .collCommandComplete _ => [.regs, .slots, .tasks, .ctrs, .cores, .clusters, .mem, .granger, .coll, .control, .step, .power, .traces, .out]
  | .epochCtrlWrite _ => [.regs, .out]
  | .epochSwitch _ => [.regs, .slots, .tasks, .ctrs, .cores, .clusters, .mem, .granger, .streams, .ports, .coll, .control, .step, .power, .traces, .out, .free]
  | .collStatRead => [.regs, .out]
  | .stepVote => [.regs, .slots, .tasks, .ctrs, .cores, .clusters, .mem, .granger, .streams, .coll, .control, .step, .power, .traces, .out]
  | .stepCommit => [.regs, .slots, .tasks, .ctrs, .cores, .clusters, .mem, .granger, .streams, .net, .coll, .control, .step, .power, .traces, .out, .free]
  | .foghornLoss _ _ => [.regs, .slots, .tasks, .ctrs, .cores, .clusters, .mem, .granger, .coll, .control, .step, .power, .traces, .out]
  | .nfReport _ _ => [.regs, .slots, .tasks, .ctrs, .cores, .clusters, .mem, .granger, .coll, .control, .step, .power, .traces, .out]
  | .faultReport _ _ _ => [.regs, .slots, .tasks, .ctrs, .cores, .clusters, .mem, .granger, .coll, .control, .step, .power, .traces, .out]
  | .discardNotice _ => [.regs, .slots, .tasks, .ctrs, .cores, .clusters, .mem, .granger, .coll, .control, .step, .power, .traces, .out]
  | .relaunch => [.regs, .slots, .tasks, .ctrs, .cores, .clusters, .mem, .granger, .streams, .net, .ports, .coll, .control, .step, .power, .traces, .out, .free]
  | .stepTimeout => [.regs, .slots, .tasks, .ctrs, .cores, .clusters, .mem, .granger, .coll, .control, .step, .power, .traces, .out]
  | .stageCopyDone => [.regs, .slots, .tasks, .ctrs, .cores, .clusters, .mem, .granger, .streams, .coll, .control, .step, .power, .traces, .out, .free]
  | .partnerRefreshDone _ _ => [.regs, .step, .out]
  | .flashWriteDone _ => [.regs, .step, .out]
  | .storeDone _ => [.regs, .step, .out]
  | .restore _ => [.regs, .step, .out]
  | .restoreDone _ _ _ _ => [.regs, .cores, .mem, .granger, .streams, .step, .out, .free]
  | .redoWrite _ => [.regs, .out]
  | .wverWrite _ => [.regs, .out]
  | .abort _ => [.regs, .slots, .tasks, .ctrs, .cores, .clusters, .mem, .granger, .coll, .control, .step, .power, .traces, .out]
  | .release _ => [.regs, .slots, .out]
  | .slotWritebackDone _ => [.regs, .slots, .cores, .clusters, .mem, .granger, .net, .power, .out, .free]
  | .partialRead _ _ _ => [.regs, .slots, .tasks, .ctrs, .cores, .clusters, .mem, .granger, .streams, .coll, .control, .step, .power, .traces, .out, .free]
  | .mirrorWrite _ => [.slots]
  | .uioFailure _ _ _ => [.regs, .slots, .tasks, .ctrs, .cores, .clusters, .mem, .granger, .streams, .dmas, .net, .coll, .control, .step, .power, .traces, .out, .free]
  | .ideIntegrityFail => [.out]
  | .blkCommit _ _ => [.beacon, .regs, .slots, .tasks, .ctrs, .cores, .clusters, .mem, .granger, .ports, .coll, .control, .step, .keeper, .power, .traces, .commits, .out]
  | .packageCommitApply _ => [.beacon, .regs, .slots, .tasks, .ctrs, .cores, .clusters, .mem, .granger, .ports, .coll, .control, .step, .keeper, .power, .traces, .commits, .out]
  | .blkSoftReset _ _ => [.regs, .slots, .tasks, .ctrs, .cores, .clusters, .mem, .granger, .streams, .dmas, .net, .coll, .control, .step, .power, .traces, .snaps, .out, .free]
  | .softResetDone _ => [.regs]
  | .blkEnableWrite _ _ _ => [.regs, .out]
  | .errStatClear _ _ => [.regs, .out]
  | .errInjWrite _ _ => [.regs, .out]
  | .registerWrite _ _ _ _ _ => [.now, .beacon, .regs, .slots, .tasks, .ctrs, .cores, .clusters, .mem, .granger, .streams, .dmas, .net, .ports, .coll, .control, .step, .keeper, .power, .traces, .snaps, .commits, .out, .free]
  | .deviceReset => [.now, .beacon, .regs, .slots, .tasks, .ctrs, .cores, .clusters, .mem, .granger, .streams, .dmas, .dmaNext, .net, .ports, .coll, .control, .step, .keeper, .power, .traces, .snaps, .commits]
  | .keeperWatchdog => [.now, .beacon, .regs, .slots, .tasks, .ctrs, .cores, .clusters, .mem, .granger, .streams, .dmas, .dmaNext, .net, .ports, .coll, .control, .step, .keeper, .power, .traces, .snaps, .commits]
  | .bypassRelayChange _ => [.keeper, .out]
  | .chainTailTimeout => [.keeper]
  | .enum _ => [.regs, .slots, .tasks, .ctrs, .cores, .clusters, .mem, .granger, .ports, .coll, .control, .step, .keeper, .power, .traces, .out]
  | .setCoord _ => [.regs, .slots, .tasks, .ctrs, .cores, .clusters, .mem, .granger, .ports, .coll, .control, .step, .keeper, .power, .traces, .out]
  | .chainRead _ => [.regs, .keeper, .out]
  | .chainWrite _ => [.beacon, .regs, .slots, .tasks, .ctrs, .cores, .clusters, .mem, .granger, .ports, .coll, .control, .step, .keeper, .power, .traces, .commits, .out]
  | .stageBegin _ => [.regs, .keeper, .out]
  | .stageEnd _ _ => [.regs, .keeper, .out]
  | .image _ => [.regs, .keeper, .out]
  | .activate _ => [.now, .beacon, .regs, .slots, .tasks, .ctrs, .cores, .clusters, .mem, .granger, .streams, .dmas, .dmaNext, .net, .ports, .coll, .control, .step, .keeper, .power, .traces, .snaps, .commits, .out]
  | .confirm _ => [.regs, .keeper, .out]
  | .chainAttest _ => [.regs, .keeper, .out]
  | .chainReset _ => [.now, .beacon, .regs, .slots, .tasks, .ctrs, .cores, .clusters, .mem, .granger, .streams, .dmas, .dmaNext, .net, .ports, .coll, .control, .step, .keeper, .power, .traces, .snaps, .commits, .out]
  | .enumWaitTimeout => [.regs, .keeper]
  | .activationTime => [.now, .beacon, .regs, .slots, .tasks, .ctrs, .cores, .clusters, .mem, .granger, .streams, .dmas, .dmaNext, .net, .ports, .coll, .control, .step, .keeper, .power, .traces, .snaps, .commits, .out]
  | .confirmTimeout => [.now, .beacon, .regs, .slots, .tasks, .ctrs, .cores, .clusters, .mem, .granger, .streams, .dmas, .dmaNext, .net, .ports, .coll, .control, .step, .keeper, .power, .traces, .snaps, .commits]
  | .settingsMirrorWrite _ => [.keeper]
  | .bringupStageAdvance _ _ => [.now, .beacon, .regs, .slots, .tasks, .ctrs, .cores, .clusters, .mem, .granger, .streams, .dmas, .dmaNext, .net, .ports, .coll, .control, .step, .keeper, .power, .traces, .snaps, .commits, .out]
  | .mboxAttest => [.regs, .cores, .mem, .granger, .keeper, .out, .free]
  | .mboxIdentity => [.regs, .cores, .mem, .granger, .keeper, .out, .free]
  | .confirmFw => [.regs, .keeper, .out]
  | .mboxSelfTest _ _ => [.regs, .slots, .tasks, .ctrs, .cores, .clusters, .mem, .granger, .coll, .control, .step, .keeper, .power, .traces, .out, .free]
  | .mboxFuseLog => [.regs, .cores, .mem, .granger, .keeper, .out, .free]
  | .mboxHealth => [.regs, .cores, .mem, .granger, .keeper, .out, .free]
  | .powerControlWindow _ => [.regs, .power, .free]
  | .valveLoopTick _ _ _ _ => [.regs, .power]
  | .protectiveShutdown _ => [.now, .beacon, .regs, .slots, .tasks, .ctrs, .cores, .clusters, .mem, .granger, .streams, .dmas, .dmaNext, .net, .ports, .coll, .control, .step, .keeper, .power, .traces, .snaps, .commits, .out]
  | .inputUndervoltBand => [.regs, .power]
  | .pwrStatRead => [.regs, .out]
  | .counterBankReset _ _ => [.regs, .out]
  | .sampleSelWrite _ _ => [.regs, .out]
  | .snap _ _ => [.regs, .snaps, .out]
  | .snapDone _ => [.regs, .cores, .mem, .granger, .snaps, .out, .free]
  | .traceCtrlWrite _ => [.regs, .traces, .out]
  | .traceMark _ _ => [.regs, .traces, .out]
  | .ttraceMark _ _ _ => [.regs, .traces, .out]
  | .traceFifoWrite _ => [.regs, .cores, .mem, .granger, .traces, .out, .free]
  | .traceFullTimeTick => [.regs, .traces]
  | .traceSampleTick => [.regs, .traces]
  | .ttraceStatRead _ => [.regs, .out]
  | .refInputValid _ => [.beacon, .regs, .free]
  | .bridgeTrainingLost _ _ => [.regs]
  | .bridgeRetrained _ _ _ _ => [.regs]
  | .hostLinkStateChange _ _ _ => [.regs]
  | .chainOutLinkUp => [.keeper]
  | .inputVoltageRestored => [.regs, .power]
  | .inletRange _ => [.regs]

/-- The page that a command acts on, for the commands that act on a page of any block. -/
def pageNamed : Instr → Option PageRef
  | .blkCommit _ p => some p
  | .packageCommitApply p => some p
  | .blkSoftReset _ p => some p
  | .softResetDone p => some p
  | .blkEnableWrite _ p _ => some p
  | .errStatClear p _ => some p
  | .errInjWrite p _ => some p
  | .counterBankReset p _ => some p
  | .sampleSelWrite p _ => some p
  | .snap p _ => some p
  | .snapDone p => some p
  | _ => none

/-- A request frame of a kind reaches a module that acts on it and answers: the relay is open, the frame is sound and for this module alone, and its
SEQ is not that of the last request (R621, R623, R624, R626). -/
def Takes (kind : Nat) (f : ChainFrame) (s : State) : Prop :=
  s.keeper.bypass = false ∧ s.keeper.restarting = false ∧ f.kind.toNat = kind ∧ frameBad f = false ∧ chainAddr s ≠ 0xFFF ∧
  f.dst.toNat = chainAddr s ∧ s.keeper.lastSeq ≠ some f.seq.toNat

/-- From `s` to `t` the module has sent one RESPONSE to a request, with a status and data (R626, R627). -/
def Answers (f : ChainFrame) (status : Nat) (data : List Byte) (s t : State) : Prop :=
  t.out.chain = s.out.chain ++ [⟨chainAddr s, 0x80, status, f.seq.toNat, 0, data⟩] ∧ t.keeper.lastSeq = some f.seq.toNat

/-- The core at its pc can issue, and its fetch reads the instruction `w`, of `len` bytes, in the state `u` (R88, R91). -/
def Fetches (k : CoreRef) (w len : Nat) (s u : State) : Prop :=
  canIssue s k = true ∧ fetchStop k (addr48 (coreOf s k).pc.toNat) 2 s = none ∧
  ∃ lo r, coreRead s k (addr48 (coreOf s k).pc.toNat) 2 = (lo, r) ∧
    ((leNat lo % 4 ≠ 3 ∧ expand16 (leNat lo) = some w ∧ len = 2 ∧ u = r) ∨
     (leNat lo % 4 = 3 ∧ fetchStop k (addr48 (addr48 (coreOf s k).pc.toNat + 2)) 2 r = none ∧ len = 4 ∧
       ∃ hi, coreRead r k (addr48 (addr48 (coreOf s k).pc.toNat + 2)) 2 = (hi, u) ∧ w = leNat lo + 65536 * leNat hi))

/-- What every step keeps: memory in its canonical form, and the Beacon counter a 64-bit number (R52). -/
structure Inv (s : State) : Prop where
  mem : Memory.wf s.mem = true
  now : s.now < 2 ^ 64

end Sys2Proof.Safety
end

