-- ==== Sys2Proof/Certificates/Slice0/Obligations.lean ====
section
/-! DEFINITION. What is claimed of the model: one definition for each statement, from the numbered rules of the spec. -/

open Sys2Proof Sys2Proof.Machine Sys2Proof.Safety

/-- On a master, REF_INPUT_LOST clears the input's REF_OK bit of BEACON.STAT and keeps the servo's state, and REF_INPUT_VALID sets it; a
selected 10 MHz input that was the only one still awaited takes a master from ACQUIRE to LOCKED. REF_INPUT_TIMEOUT of an awaited input,
10 s after the role, clears the bit and ends the wait. Of the registers nothing but BEACON.STAT changes. On a follower the input's
validity is noted and nothing else changes. (R68, R69, R704.) -/
def Obligations.BeaconReferenceInputs : Prop :=
  (∀ (i : RefInput) (s : State), isMaster s = true →
    Completes (.refInputLost i) s (fun t => rd t pgBeacon 0x110 = setBits (rd s pgBeacon 0x110) (refBit i) (refBit i) 0 ∧
      Frame [.regs, .beacon] s t ∧ RegFrame [(pgBeacon, 0x110)] s t) ∧
    Completes (.refInputValid i) s (fun t => (rd t pgBeacon 0x110).bit (refBit i) = true ∧
      Frame [.regs, .beacon, .free] s t ∧ RegFrame [(pgBeacon, 0x110)] s t)) ∧
  (∀ s : State, isMaster s = true → sel10M s = true → servo s = svAcquire → s.beacon.awaitPps = false →
    Completes (.refInputValid .mhz10) s (fun t => servo t = svLocked ∧ firstLock t = true ∧ t.beacon.await10M = false)) ∧
  (∀ s : State, isMaster s = true → s.beacon.await10M = true → s.beacon.valid10M = false → s.beacon.refWait = some 0 →
    Completes (.refInputTimeout .mhz10) s (fun t => (rd t pgBeacon 0x110).bit 14 = false ∧ t.beacon.await10M = false ∧
      t.beacon.awaitPps = s.beacon.awaitPps ∧ Frame [.regs, .beacon] s t ∧ RegFrame [(pgBeacon, 0x110)] s t)) ∧
  (∀ s : State, isMaster s = true → s.beacon.awaitPps = true → s.beacon.validPps = false → s.beacon.refWait = some 0 →
    Completes (.refInputTimeout .pps) s (fun t => (rd t pgBeacon 0x110).bit 15 = false ∧ t.beacon.awaitPps = false ∧
      t.beacon.await10M = s.beacon.await10M ∧ Frame [.regs, .beacon] s t ∧ RegFrame [(pgBeacon, 0x110)] s t)) ∧
  (∀ (i : RefInput) (s : State), isMaster s = false →
    exec (.refInputLost i) s = .next (setValid i false s) ∧ exec (.refInputValid i) s = .next (setValid i true s) ∧
    exec (.refInputTimeout i) s = .next s)

/-- On a master before its first lock EPOCH_SET sets the counter at once when 1PPS is not selected, and waits for the edge when it is; at an
edge of a valid 1PPS the counter takes the waiting value, or else the nearest multiple of 1,000,000,000 modulo 2^64. After the first
lock the edge does not change the counter, which is only slewed, and EPOCH_SET, as on a follower, is ignored and sets STATE in
BEACON.ERR_STAT. (R60, R68, R70, R704.) -/
def Obligations.BeaconLoads : Prop :=
  (∀ (r : Requester) (v : Word) (s : State), badRequester s r = false → issues s r = true → isMaster s = true → firstLock s = false →
    (selPps s = false → Completes (.epochSet r v) s (fun t => t.now = v.toNat ∧ Frame [.now] s t)) ∧
    (selPps s = true → Completes (.epochSet r v) s (fun t => t.now = s.now ∧ t.beacon.epochPending = some v ∧
      Frame [.beacon] s t))) ∧
  (∀ (r : Requester) (v : Word) (s : State), badRequester s r = false → issues s r = true → (isMaster s = false ∨ firstLock s = true) →
    Completes (.epochSet r v) s (fun t => t.now = s.now ∧ (rd t pgBeacon 0x028).bit 4 = true ∧
      Frame [.regs, .out] s t ∧ RegFrame [(pgBeacon, 0x028), (pgBeacon, 0x038)] s t)) ∧
  (∀ s : State, isMaster s = true → selPps s = true → (rd s pgBeacon 0x110).bit 15 = true →
    Completes .ppsEdge s (fun t =>
      t.now = (if firstLock s then s.now else match s.beacon.epochPending with
        | some v => v.toNat
        | none => (s.now + 500000000) / 1000000000 * 1000000000 % 2 ^ 64) ∧
      t.beacon.awaitPps = false ∧ Frame [.now, .beacon, .regs, .free] s t ∧ RegFrame [(pgBeacon, 0x110)] s t))

/-- On a follower that needs no step, an exchange that is due on an ACTIVE port that is, or becomes, the parent writes BEACON.OFFSET, the
port's delay and the parent's port number, and the next exchange on the port is due 1,024 BT ns later. After the first lock a LOCKED
servo stays LOCKED within ±6 BT ns and enters ACQUIRE beyond it, and an offset above 1 BT µs gives UNLOCKED with STEP_REQUIRED; before
it, an offset beyond ±4 BT ns loads the counter from the parent in one step. A parent that a follower without one finds has the same
effect as an exchange with it. On any module an exchange sends the module's own BEACON packet. (R56, R57, R60, R61, R62, R63, R74,
R497.) -/
def Obligations.BeaconServoExchange : Prop :=
  (∀ (n : Fin 6) (x : BeaconSample) (s : State), isMaster s = false → stepRequired s = false → linkState s n = 5 →
    s.beacon.exchangeWait = [] → chooseParent (noteLead n x (exchangeSent n s)) = some n →
    Completes (.beaconExchange n x) s (fun t =>
      rd t pgBeacon 0x118 = word ((x.offset16 % 2 ^ 32).toNat + (x.delay16 % 2 ^ 32).toNat <<< 32) ∧
      fld t pgBeacon 0x110 6 4 = n.val ∧ t.beacon.exchangeWait = [(n.val, 1024)] ∧
      (firstLock s = true → servo s = svLocked → x.offset16.natAbs ≤ 96 → servo t = svLocked ∧ t.now = s.now) ∧
      (firstLock s = true → servo s = svLocked → 96 < x.offset16.natAbs → x.offset16.natAbs ≤ 16000 → servo t = svAcquire ∧ t.now = s.now) ∧
      (firstLock s = true → 16000 < x.offset16.natAbs → servo t = svUnlocked ∧ stepRequired t = true ∧ t.now = s.now) ∧
      (firstLock s = false → 64 < x.offset16.natAbs → servo t = svAcquire ∧ t.now = (((s.now : Int) - x.offset16 / 16) % 2 ^ 64).toNat))) ∧
  (∀ (n : Fin 6) (x : BeaconSample) (s : State), isMaster s = false → stepRequired s = false → linkState s n = 5 →
    s.beacon.exchangeWait = [] → parentPort s = none → x.master.isSome = true → chooseParent (noteLead n x (exchangeSent n s)) = some n →
    exec (.parentFound n x) s = exec (.beaconExchange n x) s ∧
    Completes (.parentFound n x) s (fun t => fld t pgBeacon 0x110 6 4 = n.val ∧ fld t (pgPeer n) 0x168 31 0 = (x.delay16 % 2 ^ 32).toNat ∧
      (firstLock s = true → servo s = svHoldover → x.offset16.natAbs ≤ 96 → servo t = svLocked ∧ t.now = s.now))) ∧
  (∀ (n : Fin 6) (x : BeaconSample) (s : State), isMaster s = true → linkState s n = 5 → s.beacon.exchangeWait = [] → x.master = none →
    Completes (.beaconExchange n x) s (fun t => t.out.packets = s.out.packets ++ [(n.val, beaconPacket s)] ∧ Frame [.beacon, .ports, .out] s t))

/-- A follower in LOCKED or ACQUIRE that loses its parent with no other port that leads to the master enters HOLDOVER after its first lock
and FREE before it; with another such port it takes that port as parent and keeps its state. HOLDOVER_EXPIRY in a HOLDOVER that has
lasted longer than HOLDOVER_LIMIT gives UNLOCKED, and faults a RUNNING step with BEACON_UNLOCKED. NO_MASTER_TIMEOUT, when its 30 s have
passed, sets NO_MASTER and sends EVENT NO_MASTER. The step correction loads the parent's time into a counter that is behind it and holds
one that is ahead, clears STEP_REQUIRED and gives ACQUIRE. (R61, R63, R64, R65.) -/
def Obligations.BeaconServoEvents : Prop :=
  (∀ (p : Fin 6) (s : State), parentPort s = some p → servo s ≠ svUnlocked →
    (chooseParent (setPort s p.val { port s p.val with lead := none }) = none →
      Completes .parentLost s (fun t => servo t = (if firstLock s then svHoldover else svFree) ∧ fld t pgBeacon 0x110 6 4 = 7 ∧
        (firstLock s = true → t.beacon.holdoverSince = s.now) ∧ t.now = s.now ∧
        Frame [.regs, .ports, .beacon] s t ∧ RegFrame [(pgBeacon, 0x110)] s t)) ∧
    (∀ m, chooseParent (setPort s p.val { port s p.val with lead := none }) = some m →
      Completes .parentLost s (fun t => servo t = servo s ∧ fld t pgBeacon 0x110 6 4 = m.val ∧
        Frame [.regs, .ports] s t ∧ RegFrame [(pgBeacon, 0x110)] s t))) ∧
  (∀ s : State, servo s = svHoldover → (rd s pgBeacon 0x138).toNat < s.now - s.beacon.holdoverSince → stepRunning s = false →
    Completes .holdoverExpiry s (fun t => servo t = svUnlocked ∧ Frame [.regs] s t ∧ RegFrame [(pgBeacon, 0x110)] s t)) ∧
  (∀ s : State, servo s = svHoldover → (rd s pgBeacon 0x138).toNat < s.now - s.beacon.holdoverSince → stepRunning s = true →
    exec .holdoverExpiry s = .next (fault 3 0 (setServo s svUnlocked))) ∧
  (∀ s : State, isMaster s = false → firstLock s = false → parentPort s = none → s.beacon.noMasterWait = some 0 →
    Completes .noMasterTimeout s (fun t => (rd t pgBeacon 0x110).bit 29 = true ∧
      t.out.chain = s.out.chain ++ [⟨fld s pgIdent 0x140 11 0, 0x81, 0, 0, 0, [7, 0]⟩] ∧
      t.beacon.noMasterWait = none ∧ Frame [.regs, .beacon, .out] s t ∧ RegFrame [(pgBeacon, 0x110)] s t)) ∧
  (∀ (w : Word) (s : State), stepRequired s = true → slotsQuiet s = true →
    Completes (.beaconStepCorrection w) s (fun t => stepRequired t = false ∧ servo t = svAcquire ∧
      (s.now ≤ w.toNat → t.now = w.toNat ∧ t.beacon.hold = s.beacon.hold) ∧
      (w.toNat < s.now → t.now = s.now ∧ t.beacon.hold = s.now - w.toNat) ∧
      Frame [.now, .beacon, .regs] s t ∧ RegFrame [(pgBeacon, 0x110)] s t))

/-- On a READY module with a LOCKED servo, an arm of an IDLE slot that leaves LAUNCH_LEAD is accepted: the slot is ARMED with the written
LAUNCH, ARM_RES 1, GEN advanced by 1 modulo 2^16, its effective launch time and ARM_TIME, and it joins Granger's queue at the end. Any
other arm leaves the slot's state, GEN and Granger's queue as they are, and records LAUNCH and ARM_RES 4, 5, 3 or 2, the first that
applies. No other slot changes. (R76, R77, R303, R562, R563.) -/
def Obligations.SlotArm : Prop :=
  (∀ (n : Fin 64) (v : Word) (s : State), (slot s n.val).state = .idle → isReady s = true → servo s = svLocked →
    s.now + launchLead s ≤ v.toNat →
    Completes (.arm n v) s (fun t =>
      (slot t n.val).state = .armed ∧ (slot t n.val).launch = v ∧ (slot t n.val).armRes = 1 ∧
      (slot t n.val).gen = ((slot s n.val).gen + 1) % 2 ^ 16 ∧ (slot t n.val).effLaunch = word (effective s v.toNat) ∧
      (slot t n.val).armTime = word s.now ∧ t.granger.queue = s.granger.queue ++ [(n.val, s.now)] ∧
      (∀ m, m ≠ n.val → slot t m = slot s m))) ∧
  (∀ (n : Fin 64) (v : Word) (s : State),
    ((slot s n.val).state ≠ .idle ∨ isReady s = false ∨ servo s ≠ svLocked ∨ v.toNat < s.now + launchLead s) →
    Completes (.arm n v) s (fun t =>
      (slot t n.val).state = (slot s n.val).state ∧ (slot t n.val).launch = v ∧ (slot t n.val).gen = (slot s n.val).gen ∧
      (slot t n.val).armRes = (if (slot s n.val).state ≠ .idle then 4 else if !isReady s then 5 else if servo s ≠ svLocked then 3 else 2) ∧
      t.granger = s.granger ∧ (∀ m, m ≠ n.val → slot t m = slot s m)))

/-- An ABORT of an ARMED, LAUNCHED or RUNNING slot ends it ABORTED; that of a step's live attempt discards the attempt first. A RELEASE of a
DONE, FAULTED or ABORTED slot gives IDLE with STEP, SOURCE, CODE, ATT and REPLAYS cleared and GEN and ARM_RES kept. In the other states
in which R569 and R570 ignore them, both leave every slot as it is and set STATE in HOSTIF.ERR_STAT. The end of the write-back of a
DRAINING slot that is not a step ends it DONE. (R565, R569, R570, R571.) -/
def Obligations.SlotEnds : Prop :=
  (∀ (n : Fin 64) (s : State), ((slot s n.val).state = .armed ∨ (slot s n.val).state = .launched) →
    Completes (.abort n) s (fun t => (slot t n.val).state = .aborted ∧ (slot t n.val).source = 3 ∧ (slot t n.val).code = 1)) ∧
  (∀ (n : Fin 64) (s : State), (slot s n.val).state = .running →
    (s.step.slot ≠ some n.val → Completes (.abort n) s (fun t => (slot t n.val).state = .aborted ∧ (slot t n.val).endTime = word s.now)) ∧
    (s.step.slot = some n.val → exec (.abort n) s = .next (abortRunning n.val s))) ∧
  (∀ (n : Fin 64) (s : State), ((slot s n.val).state = .done ∨ (slot s n.val).state = .faulted ∨ (slot s n.val).state = .aborted) →
    Completes (.release n) s (fun t =>
      slot t n.val = { slot s n.val with state := .idle, step := false, source := 0, code := 0, att := 0, replays := 0 } ∧
      (∀ m, m ≠ n.val → slot t m = slot s m) ∧ Frame [.slots] s t)) ∧
  (∀ (n : Fin 64) (s : State), ((slot s n.val).state ≠ .done ∧ (slot s n.val).state ≠ .faulted ∧ (slot s n.val).state ≠ .aborted) →
    Completes (.release n) s (fun t => (rd t pgHostif 0x028).bit 4 = true ∧ Frame [.regs, .out] s t)) ∧
  (∀ (n : Fin 64) (s : State),
    ((slot s n.val).state ≠ .armed ∧ (slot s n.val).state ≠ .launched ∧ (slot s n.val).state ≠ .running) →
    Completes (.abort n) s (fun t => (rd t pgHostif 0x028).bit 4 = true ∧ Frame [.regs, .out] s t)) ∧
  (∀ (n : Fin 64) (s : State), (slot s n.val).state = .draining → runsStep (slot s n.val) = false →
    Completes (.slotWritebackDone n) s (fun t => (slot t n.val).state = .done ∧ (slot t n.val).source = 0 ∧ (slot t n.val).code = 0 ∧
      (slot t n.val).endTime = word s.now))

/-- At the end of the placement of the ARMED slot at the front of Granger's queue, which starts as it is queued or as the last one ends, and
after no re-placement that is due before it unless the slot is a replay, a slot that placement accepts is LAUNCHED with its placement
time and leaves the queue, and a slot that it refuses is FAULTED with SOURCE 1 and the refusal's code. A re-placement, with no other
placement running, that finds a core for every stranded task keeps the slot LAUNCHED with a new placement time; one that fails otherwise
than by SPEC_LIMIT gives FAULTED with SOURCE 1. (R303, R328, R329, R330, R565, R567.) -/
def Obligations.SlotPlacement : Prop :=
  (∀ (n : Fin 64) (q : Nat) (l : List (Nat × Nat)) (s s' : State) (p : Plan) (b : Nat), s.granger.queue = (n.val, q) :: l →
    (slot s n.val).state = .armed → (isReplay (slot s n.val) || !rePlaceFirst s (placeStart s q)) = true →
    decidePlacement s (placeStart s q) n.val (slot s n.val) = .placed s' p b →
    Completes (.slotPlacement n) s (fun t => (slot t n.val).state = .launched ∧ (slot t n.val).placeTime = word s.now ∧
      n.val ∉ t.granger.queue.map (fun e => e.1))) ∧
  (∀ (n : Fin 64) (q : Nat) (l : List (Nat × Nat)) (s : State) (e : Refuse), s.granger.queue = (n.val, q) :: l →
    (slot s n.val).state = .armed → (isReplay (slot s n.val) || !rePlaceFirst s (placeStart s q)) = true →
    decidePlacement s (placeStart s q) n.val (slot s n.val) = .refused e →
    Completes (.slotPlacement n) s (fun t => (slot t n.val).state = .faulted ∧ (slot t n.val).source = 1 ∧ (slot t n.val).code = e.code)) ∧
  (∀ (n : Fin 64) (s s' : State) (l : List (Task × Fin 8)), (slot s n.val).state = .launched → stranded s n.val ≠ [] → frontRuns s = none →
    allOk (rePlaceTask (rePlaceStart s n.val)) (stranded s n.val) (s, []) = .ok (s', l) →
    Completes (.rePlacement n) s (fun t => (slot t n.val).state = .launched ∧ (slot t n.val).placeTime = word s.now)) ∧
  (∀ (n : Fin 64) (s : State) (e : Refuse), (slot s n.val).state = .launched → stranded s n.val ≠ [] → frontRuns s = none →
    allOk (rePlaceTask (rePlaceStart s n.val)) (stranded s n.val) (s, []) = .error e → e.code ≠ rfSpecLimit →
    Completes (.rePlacement n) s (fun t => (slot t n.val).state = .faulted ∧ (slot t n.val).source = 1 ∧ (slot t n.val).code = e.code))

/-- At the effective launch time a LAUNCHED slot with no tasks, no stranded task, an agreeing slot table and a LOCKED or HOLDOVER servo ends
DONE; with the servo FREE, ACQUIRE or UNLOCKED a slot that is not a step ends FAULTED with SOURCE 2 and BEACON_UNLOCKED; and a slot
still ARMED ends FAULTED with SOURCE 1 and PLACE_LATE. A placed slot with tasks that meets none of R503's and R566's obstacles launches:
its tasks take their launch's ATT and wait, and BEACON.LAUNCH takes its effective launch time. A relaunch is the effective launch of the
slot that waits for a replay. (R64, R78, R305, R526, R565, R566.) -/
def Obligations.SlotLaunch : Prop :=
  (∀ (n : Fin 64) (s : State), lostDue s n.val = none → (slot s n.val).effLaunch.toNat ≤ s.now → (slot s n.val).state = .launched → stranded s n.val = [] →
    (slot s n.val).taskCount = 0 → unlocked s = false → tableMismatch s = false →
    (s.net.rewriteDue = false ∨ (slot s n.val).replays = 0) →
    Completes (.effectiveLaunch n) s (fun t => (slot t n.val).state = .done ∧ (slot t n.val).endTime = word s.now)) ∧
  (∀ (n : Fin 64) (s : State), lostDue s n.val = none → (slot s n.val).effLaunch.toNat ≤ s.now → (slot s n.val).state = .launched → stranded s n.val = [] →
    runsStep (slot s n.val) = false → unlocked s = true → (s.net.rewriteDue = false ∨ (slot s n.val).replays = 0) →
    Completes (.effectiveLaunch n) s (fun t => (slot t n.val).state = .faulted ∧ (slot t n.val).source = 2 ∧ (slot t n.val).code = 3)) ∧
  (∀ (n : Fin 64) (s : State), lostDue s n.val = none → (slot s n.val).effLaunch.toNat ≤ s.now → (slot s n.val).state = .armed →
    Completes (.effectiveLaunch n) s (fun t => (slot t n.val).state = .faulted ∧ (slot t n.val).source = 1 ∧
      (slot t n.val).code = rfPlaceLate)) ∧
  (∀ (n : Fin 64) (s : State), lostDue s n.val = none → (slot s n.val).effLaunch.toNat ≤ s.now → (slot s n.val).state = .launched →
    stranded s n.val = [] → (slot s n.val).taskCount ≠ 0 → unlocked s = false → tableMismatch s = false → s.net.rewriteDue = false →
    (runsStep (slot s n.val) = false →
      exec (.effectiveLaunch n) s = .next (launchPlain n.val (settleMoves (wr (autoReset false s) pgBeacon 0x148 (slot s n.val).effLaunch)))) ∧
    (runsStep (slot s n.val) = true → stepInWay s n.val = false → shadowShort s n.val = false → redoOn s = false →
      launchAfter s (slot s n.val).effLaunch.toNat ≤ (slot s n.val).effLaunch.toNat →
      exec (.effectiveLaunch n) s = .next (launchStep n.val
        (settleMoves (wr (autoReset (!(slot s n.val).launchedOnce) s) pgBeacon 0x148 (slot s n.val).effLaunch))))) ∧
  (∀ (n : Fin 64) (s : State), replaySlot s = some n.val → exec .relaunch s = exec (.effectiveLaunch n) s ∧
    (lostDue s n.val = none → (slot s n.val).effLaunch.toNat ≤ s.now → (slot s n.val).state = .launched → stranded s n.val = [] →
      (slot s n.val).taskCount ≠ 0 → unlocked s = false → tableMismatch s = false → s.net.rewriteDue = false →
      runsStep (slot s n.val) = true → stepInWay s n.val = false → shadowShort s n.val = false → redoOn s = false →
      launchAfter s (slot s n.val).effLaunch.toNat ≤ (slot s n.val).effLaunch.toNat →
      exec .relaunch s = .next (launchStep n.val
        (settleMoves (wr (autoReset (!(slot s n.val).launchedOnce) s) pgBeacon 0x148 (slot s n.val).effLaunch)))))

/-- A naturally aligned read of PARTIAL below the region's size returns the region's bytes when its lines are open and not poisoned, and
zeros at or above that size; a misshaped read returns all ones and sets ACCESS in HOSTIF.ERR_STAT. The mirror line takes the slot's
status and progress words and a new sequence number. The link command sets HOSTIF's link state, and width and rate while the link is up.
A failed UIO write of a pooled line poisons it and counts; a failed UIO read by the host counts and answers all ones, poisoned. An IDE
failure adds one fatal AER error. (R545, R547, R548, R556, R574, R576, R580.) -/
def Obligations.HostReads : Prop :=
  (∀ (n : Fin 64) (o : BitVec 16) (k : Nat) (s : State), bar2Access o.toNat k = true → 0x2000 ≤ o.toNat →
    o.toNat - 0x2000 < partialSize (slot s n.val) → o.toNat - 0x2000 + k ≤ partialSize (slot s n.val) →
    rangeOpen s (partialBase (slot s n.val)) (partialSize (slot s n.val)) = true →
    poisonIn s false (partialBase (slot s n.val) + (o.toNat - 0x2000)) k = none →
    Completes (.partialRead n o k) s (fun t => t.out.reply =
      .data ((List.range k).map (fun i => plainRd s (partialBase (slot s n.val) + (o.toNat - 0x2000 + i)))) false)) ∧
  (∀ (n : Fin 64) (o : BitVec 16) (k : Nat) (s : State), bar2Access o.toNat k = true → 0x2000 ≤ o.toNat →
    partialSize (slot s n.val) ≤ o.toNat - 0x2000 →
    Completes (.partialRead n o k) s (fun t => t.out.reply = .data (List.replicate k 0) false ∧ Frame [.out] s t)) ∧
  (∀ (n : Fin 64) (o : BitVec 16) (k : Nat) (s : State), bar2Access o.toNat k = false →
    Completes (.partialRead n o k) s (fun t => t.out.reply = .data (List.replicate k 0xFF) false ∧
      (rd t pgHostif 0x028).bit 0 = true ∧ Frame [.regs, .out] s t)) ∧
  (∀ (n : Fin 64) (s : State), (rdA s pgHostif 0x120).bit 0 = true → (slot s n.val).mirror.head? ≠ some (statusWord (slot s n.val)) →
    Completes (.mirrorWrite n) s (fun t => (slot t n.val).mirror =
      mirrorWords (slot s n.val) ++ [(slot s n.val).mirror.getD 7 0 + 1] ∧ (slot t n.val).state = (slot s n.val).state ∧
      Frame [.slots] s t)) ∧
  (∀ (st : Fin 3) (w : Fin 32) (r : Fin 16) (s : State), Completes (.hostLinkStateChange st w r) s (fun t =>
      fld t pgHostif 0x100 1 0 = st.val ∧ fld t pgHostif 0x100 12 8 = (if st.val = 2 then w.val else 0) ∧
      fld t pgHostif 0x100 19 16 = (if st.val = 2 then r.val else 0) ∧ Frame [.regs] s t ∧ RegFrame [(pgHostif, 0x100)] s t)) ∧
  (∀ (a : BitVec 48) (who : Sender) (b : Bushel) (s : State), hasTile s (senderTile who) = true → bushelAt s a.toNat = some b → b.tier = 3 →
    Completes (.uioFailure a who true) s (fun t => rd t pgHostif 0x1E0 = rd s pgHostif 0x1E0 + 1 ∧
      lineNo a.toNat ∈ t.mem.poison ∧ t.mem.bytes = s.mem.bytes ∧ Frame [.regs, .mem] s t)) ∧
  (∀ (a : BitVec 48) (b : Bushel) (s : State), bushelAt s a.toNat = some b → b.tier = 3 →
    Completes (.uioFailure a .host false) s (fun t => rd t pgHostif 0x1E0 = rd s pgHostif 0x1E0 + 1 ∧
      rd t pgHostif 0x1D0 = rd s pgHostif 0x1D0 + 1 ∧ t.out.reply = .data (List.replicate 64 0xFF) true ∧ Frame [.regs, .out] s t)) ∧
  (∀ s : State, Completes .ideIntegrityFail s (fun t => t.out.aer = s.out.aer + 1 ∧ Frame [.out] s t))

/-- A signal of another attempt changes no counter and is counted as stale. Any other signal, by any agent, adds INC to its counter,
saturating at 2^64 − 1, and records who signalled and when; what it wakes or releases follows. One to a counter that is no barrier and
has no waiter changes no other counter. While every slot is quiet CTR_SET loads value and base of the selected counter without waiters
and clears ORPHAN and OVERFLOW, and CTR_CFG takes the writable bits of a configuration that R280 accepts and clears ORPHAN; while some
slot is not quiet both set STATE in SYNC.ERR_STAT and leave every counter. A write of DBG_SEL loads the snapshot's value, base and
configuration words. (R253, R263, R265, R279, R280, R281, R288, R289, R292.) -/
def Obligations.SyncCounters : Prop :=
  (∀ (r : Requester) (tile : Fin 8) (w : Word) (s : State), badRequester s r = false → issues s r = true → hasTile s tile.val = true →
    hasTile s (w.bits 18 0 / 2 ^ 16) = true → s.control = [] → (reqAtt s r).isSome = true → reqAtt s r ≠ some s.step.att →
    Completes (.signal r tile w) s (fun t => t.ctrs = s.ctrs ∧
      rd t (pgCtr (w.bits 18 0)) 0x180 = rd s (pgCtr (w.bits 18 0)) 0x180 + 1)) ∧
  (∀ (r : Requester) (tile : Fin 8) (w : Word) (s : State), badRequester s r = false → issues s r = true → hasTile s tile.val = true →
    hasTile s (w.bits 18 0 / 2 ^ 16) = true → exec (.signal r tile w) s = .next (run [.signal (w.bits 18 0) (w.bits 63 32)
      (reqWho (reservedWrite (pgSync tile) 0x100 (bm 18 0 + bm 63 32) w s) r) (reqAtt (reservedWrite (pgSync tile) 0x100 (bm 18 0 + bm 63 32) w s) r)]
      (reservedWrite (pgSync tile) 0x100 (bm 18 0 + bm 63 32) w s))) ∧
  (∀ (i inc : Nat) (who : Word) (att : Option Nat) (s : State), hasTile s (i / 2 ^ 16) = true → (att = none ∨ att = some s.step.att) →
    (ctr (doSignal s i inc who att).1 i).value = min ((ctr s i).value + inc) (2 ^ 64 - 1) ∧
    (ctr (doSignal s i inc who att).1 i).base = (ctr s i).base ∧ (ctr (doSignal s i inc who att).1 i).lastWho = who ∧
    (ctr (doSignal s i inc who att).1 i).lastTime = s.now) ∧
  (∀ (r : Requester) (tile : Fin 8) (w : Word) (s : State), badRequester s r = false → issues s r = true → hasTile s tile.val = true →
    hasTile s (w.bits 18 0 / 2 ^ 16) = true → (reqAtt s r = none ∨ reqAtt s r = some s.step.att) →
    (ctr s (w.bits 18 0)).cfg.bit 1 = false → (ctr s (w.bits 18 0)).hw.all (fun o => o.isNone) = true → (ctr s (w.bits 18 0)).chain = [] → s.control = [] →
    Completes (.signal r tile w) s (fun t =>
      (ctr t (w.bits 18 0)).value = min ((ctr s (w.bits 18 0)).value + w.bits 63 32) (2 ^ 64 - 1) ∧
      (ctr t (w.bits 18 0)).base = (ctr s (w.bits 18 0)).base ∧
      (ctr t (w.bits 18 0)).lastWho = reqWho s r ∧ (ctr t (w.bits 18 0)).lastTime = s.now ∧
      (∀ j, j ≠ w.bits 18 0 → ctr t j = ctr s j))) ∧
  (∀ (tile : Fin 8) (w : Word) (s : State), hasTile s tile.val = true → slotsQuiet s = true →
    (ctr s (selected s tile)).hw.all (fun o => o.isNone) = true → (ctr s (selected s tile)).chain = [] → s.control = [] →
    Completes (.ctrSet tile w) s (fun t =>
      (ctr t (selected s tile)).value = w.toNat ∧ (ctr t (selected s tile)).base = w.toNat ∧
      (ctr t (selected s tile)).orphan = false ∧ (ctr t (selected s tile)).overflow = false ∧
      (∀ j, j ≠ selected s tile → ctr t j = ctr s j))) ∧
  (∀ (tile : Fin 8) (w : Word) (s : State), hasTile s tile.val = true → slotsQuiet s = true → badBarrier s (selected s tile) w = false →
    Completes (.ctrCfgWrite tile w) s (fun t =>
      ctr t (selected s tile) = { ctr s (selected s tile) with cfg := w &&& word cfgMask, orphan := false } ∧
      (∀ j, j ≠ selected s tile → ctr t j = ctr s j) ∧ Frame [.regs, .ctrs, .out] s t)) ∧
  (∀ (tile : Fin 8) (w : Word) (s : State), hasTile s tile.val = true → slotsQuiet s = false →
    Completes (.ctrSet tile w) s (fun t => (rd t (pgSync tile) 0x028).bit 4 = true ∧ Frame [.regs, .out] s t) ∧
    Completes (.ctrCfgWrite tile w) s (fun t => (rd t (pgSync tile) 0x028).bit 4 = true ∧ Frame [.regs, .out] s t)) ∧
  (∀ (tile : Fin 8) (w : Word) (s : State), hasTile s tile.val = true →
    Completes (.dbgSelWrite tile w) s (fun t =>
      rd t (pgSync tile) 0x190 = w &&& word (bm 15 0) ∧
      rd t (pgSync tile) 0x198 = word (ctr s (tile.val * 2 ^ 16 + w.bits 15 0)).value ∧
      rd t (pgSync tile) 0x1A0 = word (ctr s (tile.val * 2 ^ 16 + w.bits 15 0)).base ∧
      rd t (pgSync tile) 0x1A8 = (ctr s (tile.val * 2 ^ 16 + w.bits 15 0)).cfg ∧ Frame [.regs, .out] s t))

/-- A core's store of WAIT_VAL sets its wait value. WAIT_GO on a counter of the part that has reached the awaited count ends the wait at
once with result 1. A load of WAIT_RES returns the result of a wait that has ended, clears the wait and, after a satisfied wait with
ACQUIRE, leaves no clean line in the L1, and returns 4 when no wait is armed. The timeout of an armed wait with a time ends it with
result 3. From the host WAIT_VAL and WAIT_GO set ACCESS in SYNC.ERR_STAT and change nothing else, and WAIT_RES reads 4. (R269, R270,
R271, R272.) -/
def Obligations.CoreWaits : Prop :=
  (∀ (k : CoreRef) (tile : Fin 8) (w : Word) (s : State), hasTile s tile.val = true → hasTile s k.tile.val = true → issues s (.core k) = true →
    Completes (.waitValWrite (.core k) tile w) s (fun t => coreOf t k = { coreOf s k with waitVal := w } ∧ Frame [.cores] s t) ∧
    (w.bits 31 21 = 0 → w.bits 63 48 = 0 → w.bit 19 = false → hasTile s (w.bits 18 0 / 2 ^ 16) = true →
      (coreOf s k).waitVal.toNat ≤ (ctr s (w.bits 18 0)).value →
      Completes (.waitGo (.core k) tile w) s (fun t => (coreOf t k).wait = some ⟨w.bits 18 0, w.bit 20, some 1, (coreOf s k).waitVal.toNat, s.now⟩ ∧
        Frame [.regs, .ctrs, .cores, .mem] s t))) ∧
  (∀ (tile : Fin 8) (w : Word) (s : State), hasTile s tile.val = true →
    Completes (.waitValWrite .host tile w) s (fun t => (rd t (pgSync tile) 0x028).bit 0 = true ∧ Frame [.regs, .out] s t) ∧
    Completes (.waitGo .host tile w) s (fun t => (rd t (pgSync tile) 0x028).bit 0 = true ∧ Frame [.regs, .out] s t)) ∧
  (∀ s : State, Completes (.waitResLoad .host) s (fun t => t.out.reply = .word 4 ∧ Frame [.out] s t)) ∧
  (∀ (k : CoreRef) (s : State), hasTile s k.tile.val = true → issues s (.core k) = true →
    ((coreOf s k).wait = none → Completes (.waitResLoad (.core k)) s (fun t => t.out.reply = .word 4 ∧ Frame [.out] s t)) ∧
    (∀ i a c e b, (coreOf s k).wait = some ⟨i, a, some c, e, b⟩ →
      Completes (.waitResLoad (.core k)) s (fun t => t.out.reply = .word (word c) ∧ (coreOf t k).wait = none ∧
        (a = true → c = 1 → (coreOf t k).l1.all (fun l => l.dirty) = true) ∧ Frame [.cores, .net, .out] s t)) ∧
    (∀ i a e b, (coreOf s k).wait = some ⟨i, a, none, e, b⟩ →
      ((ctr s i).hw.filterMap id ++ (ctr s i).chain).any (fun w => ownWaiter k w && decide (w.timeout ≠ 0) && decide (w.timeout ≤ s.now)) = true →
      Completes (.waitTimeout k) s (fun t => (coreOf t k).wait = some ⟨i, a, some 3, e, s.now⟩ ∧ Frame [.regs, .ctrs, .cores, .mem] s t)))

/-- A core's load of a fence register with no fence under way starts a fence of that scope; FENCE_COMPLETE ends the fence, a fabric fence
once no put of the core is open; the load of that scope that follows returns 0. A host load of any of the four returns 0 and has no
other effect. (R283.) -/
def Obligations.Fences : Prop :=
  (∀ (k : CoreRef) (s : State), hasTile s k.tile.val = true → issues s (.core k) = true → (coreOf s k).fenceDone = none → (coreOf s k).fence = none →
    Completes (.fenceCluster (.core k)) s (fun t => (coreOf t k).fence = some .cluster) ∧
    Completes (.fenceTile (.core k)) s (fun t => (coreOf t k).fence = some .tile) ∧
    Completes (.fenceDevice (.core k)) s (fun t => (coreOf t k).fence = some .device) ∧
    Completes (.fenceFabric (.core k)) s (fun t => (coreOf t k).fence = some .fabric)) ∧
  (∀ (k : CoreRef) (s : State), hasTile s k.tile.val = true → issues s (.core k) = true → (coreOf s k).fence = none →
    ∀ c ∈ [(FenceScope.cluster, Instr.fenceCluster (.core k)), (.tile, .fenceTile (.core k)), (.device, .fenceDevice (.core k)),
      (.fabric, .fenceFabric (.core k))],
      (coreOf s k).fenceDone = some c.1 →
      Completes c.2 s (fun t => t.out.reply = .word 0 ∧ (coreOf t k).fenceDone = none ∧ Frame [.cores, .out] s t)) ∧
  (∀ s : State, ∀ c ∈ [Instr.fenceCluster .host, .fenceTile .host, .fenceDevice .host, .fenceFabric .host],
    Completes c s (fun t => t.out.reply = .word 0 ∧ Frame [.out] s t)) ∧
  (∀ (k : CoreRef) (f : FenceScope) (s : State), hasTile s k.tile.val = true → (coreOf s k).fence = some f →
    (f ≠ .fabric ∨ putsOpen s k = false) →
    Completes (.fenceComplete k) s (fun t => coreOf t k = { coreOf s k with fence := none, fenceDone := some f } ∧ Frame [.cores] s t))

/-- An IDLE core with READY tasks starts one of them: the core is RUNNING and the task is RUNNING from now. The ending store of a RUNNING
task, with no signal to send and no other piece, ends the task DONE with the EXIT code of the store; in general it performs the fence of
the task's widest scope and then ends the task, which sends its signals in order, and with a fabric fence it is held while a put of the
core is open. The end of a tag's quarantine frees the tag. (R137, R241, R243, R244, R249.) -/
def Obligations.Tasks : Prop :=
  (∀ (k : CoreRef) (s : State), hasTile s k.tile.val = true → coreState s k = 0 → readyOn s k ≠ [] →
    Completes (.taskStart k) s (fun t => coreState t k = 1 ∧
      ∃ u ∈ readyOn s k, ∃ v ∈ t.tasks, sameTask v u = true ∧ v.state = .running ∧ v.startTime = s.now)) ∧
  (∀ (k : CoreRef) (w : Word) (s : State) (u : Task), hasTile s k.tile.val = true → issues s (.core k) = true → runningTask s k = some u → taskAt s (taskKey u) = some u →
    (u.sigs = [] → piecesOf s u = [u] → s.control = [] →
      Completes (.taskEnd k w) s (fun t => ∃ v ∈ t.tasks, sameTask v u = true ∧ v.state = .ended ∧ v.status = 1 ∧ v.exit = w.bits 7 0)) ∧
    ((endScope u ≠ .fabric ∨ putsOpen s k = false) → exec (.taskEnd k w) s = .next (run [.endTask (taskKey u) 1 (w.bits 7 0) 0 false none]
      (fenceL1 k (endScope u) (reservedWrite (pgSync k.tile) 0x120 (bm 7 0) w s)))) ∧
    (endScope u = .fabric → putsOpen s k = true → exec (.taskEnd k w) s = .next (holdStore k (pgSync k.tile) 0x120 w s))) ∧
  (∀ (s : State) (u : Task) (e : Nat), taskAt s (taskKey u) = some u → u.state = .running → piecesOf s u = [u] →
    (∃ v ∈ (doEndTask s (taskKey u) 1 e 0 false none).1.tasks, sameTask v u = true ∧ v.state = .ended ∧ v.status = 1 ∧ v.exit = e) ∧
    (doEndTask s (taskKey u) 1 e 0 false none).2 = taskSignals u) ∧
  (∀ (cl : ClusterRef) (g : BitVec 16) (q : Nat) (s : State), hasTile s cl.tile.val = true →
    (mget {} (cluster s cl).tags g.toNat).quarantine = some q → q ≤ s.now →
    Completes (.tagQuarantineExpiry cl g) s (fun t => (mget {} (cluster t cl).tags g.toNat).quarantine = none ∧
      (mget {} (cluster t cl).tags g.toNat).next = (mget {} (cluster s cl).tags g.toNat).next ∧ Frame [.clusters] s t))

/-- At a multiple of 1,024 BT ns a rate window of one cluster that has not ended there yet, with no self-test under way, every core, memory
and router rate at 1,100 Mbeat/s or above and below the thermal fence's temperature, and with no control node below 1,100, leaves every
core's RATE field and CM_RATE's RATE at the measured rates, clears the low-window counts and changes no core's state. A read of
CORE_RATEn or of CM_RATE returns the register and puts the present rate in the field of the lowest rate, and changes no other register.
(R26, R37, R40, R43, R48, R396, R407.) -/
def Obligations.RateWindows : Prop :=
  (∀ (w : ClusterWindow) (rates : List Nat) (s : State), hasTile s w.cl.tile.val = true → s.now % 1024 = 0 →
    (cluster s w.cl).window ≠ some s.now → (rates = [] ∨ s.net.controlWindow ≠ some s.now) → selfTesting s w.cl = false →
    (∀ n : Fin 16, 1100 ≤ w.rates.getD n.val 0 ∧ w.rates.getD n.val 0 < 2 ^ 16) → 1100 ≤ w.memRate → w.memRate < 2 ^ 16 →
    1100 ≤ w.routerRate → w.temp16 < 1680 → (∀ r ∈ rates, 1100 ≤ r) →
    Completes (.rateWindowEnd [w] rates) s (fun t =>
      (∀ n : Fin 16, fld t (.cluster w.cl) (0x140 + 8 * n.val) 15 0 = w.rates.getD n.val 0) ∧
      fld t (.cluster w.cl) 0x320 15 0 = w.memRate ∧ rd t (.cluster w.cl) 0x130 = rd s (.cluster w.cl) 0x130 ∧
      (cluster t w.cl).lowMem = 0 ∧ (cluster t w.cl).lowRouter = 0 ∧ (cluster t w.cl).temp16 = w.temp16 ∧
      (∀ n, n < rates.length → mget 0 t.net.controlLow n = 0) ∧ (∀ k, coreState t k = coreState s k) ∧
      Frame [.regs, .cores, .clusters, .net] s t ∧
      RegFrame ((PageRef.cluster w.cl, 0x120) :: (.cluster w.cl, 0x320) ::
        (List.finRange 16).map (fun n => (PageRef.cluster w.cl, 0x140 + 8 * n.val))) s t)) ∧
  (∀ (k : CoreRef) (s : State), hasTile s k.tile.val = true →
    Completes (.coreRateRead k) s (fun t => t.out.reply = .word (rd s (.cluster (coreCl k)) (0x140 + 8 * k.core.val)) ∧
      fld t (.cluster (coreCl k)) (0x140 + 8 * k.core.val) 31 16 = fld s (.cluster (coreCl k)) (0x140 + 8 * k.core.val) 15 0 ∧
      Frame [.regs, .out] s t ∧ RegFrame [(.cluster (coreCl k), 0x140 + 8 * k.core.val)] s t)) ∧
  (∀ (cl : ClusterRef) (s : State), hasTile s cl.tile.val = true →
    Completes (.cmRateRead cl) s (fun t => t.out.reply = .word (rd s (.cluster cl) 0x320) ∧
      fld t (.cluster cl) 0x320 31 16 = fld s (.cluster cl) 0x320 15 0 ∧
      Frame [.regs, .out] s t ∧ RegFrame [(.cluster cl, 0x320)] s t))

/-- While every slot is quiet, UNFENCE takes each fenced core of its bits that has no disable record into self-test, first the array
self-test where one is owed and else the floor self-test, and leaves every other core of the cluster as it is; while some slot is not
quiet it sets STATE in the page's ERR_STAT and leaves every core, unless every core that it names is in its self-test. A passed array
self-test of a release starts the floor self-test, a failed one keeps the core fenced, and at bring-up a core that passes after its
repair leaves the fence. A floor self-test of 64 windows at 0.85 V, none below 1,100 Mbeat/s, ends the fence: the core is IDLE, with
FENCED 0, CAUSE 0 and its FENCE_STAT bit 0; with a window below, the core stays fenced. With no self-test under way the two ends have no
effect. (R46, R47, R48, R197, R202.) -/
def Obligations.CoreRelease : Prop :=
  (∀ (r : Requester) (cl : ClusterRef) (v : Word) (s : State), badRequester s r = false → issues s r = true → hasTile s cl.tile.val = true →
    slotsQuiet s = true → v.toNat < 2 ^ 16 → Completes (.unfence r cl v) s (fun t =>
      (∀ n : Fin 16, v.bit n.val = true → coreState s ⟨cl.tile, cl.cluster, n⟩ = 3 → coreDisabled s ⟨cl.tile, cl.cluster, n⟩ = false →
        coreState t ⟨cl.tile, cl.cluster, n⟩ = 4 ∧
        (coreOf t ⟨cl.tile, cl.cluster, n⟩).arrayTest = (coreOf s ⟨cl.tile, cl.cluster, n⟩).needArrayTest ∧
        (coreOf t ⟨cl.tile, cl.cluster, n⟩).floorTest = !(coreOf s ⟨cl.tile, cl.cluster, n⟩).needArrayTest) ∧
      (∀ n : Fin 16, (v.bit n.val = false ∨ coreState s ⟨cl.tile, cl.cluster, n⟩ ≠ 3 ∨ coreDisabled s ⟨cl.tile, cl.cluster, n⟩ = true) →
        coreState t ⟨cl.tile, cl.cluster, n⟩ = coreState s ⟨cl.tile, cl.cluster, n⟩ ∧
        coreOf t ⟨cl.tile, cl.cluster, n⟩ = coreOf s ⟨cl.tile, cl.cluster, n⟩) ∧
      Frame [.regs, .cores, .out] s t)) ∧
  (∀ (r : Requester) (cl : ClusterRef) (v : Word) (s : State), badRequester s r = false → issues s r = true → hasTile s cl.tile.val = true →
    slotsQuiet s = false → unfenceSelfTest cl v s = false →
    Completes (.unfence r cl v) s (fun t => (rd t (.cluster cl) 0x028).bit 4 = true ∧ Frame [.regs, .out] s t ∧
      RegFrame [(.cluster cl, 0x028), (.cluster cl, 0x038)] s t)) ∧
  (∀ (k : CoreRef) (s : State), hasTile s k.tile.val = true → (coreOf s k).arrayTest = true →
    Completes (.arraySelfTest k none) s (fun t =>
      coreOf t k = { coreOf s k with arrayTest := false, needArrayTest := false, floorTest := true, selfWindows := none, selfLow := false } ∧
      Frame [.cores] s t)) ∧
  (∀ (k : CoreRef) (l : ArrayLine) (s : State), hasTile s k.tile.val = true → (coreOf s k).arrayTest = true → coreState s k = 4 →
    Completes (.arraySelfTest k (some l)) s (fun t => coreState t k = 3 ∧ (coreOf t k).arrayTest = false)) ∧
  (∀ (k : CoreRef) (s : State), hasTile s k.tile.val = true → (coreOf s k).arrayTest = false → awaitsRetest s k = true →
    Completes (.arraySelfTest k none) s (fun t => coreState t k = 0)) ∧
  (∀ (k : CoreRef) (s : State), hasTile s k.tile.val = true → (coreOf s k).floorTest = true → (coreOf s k).selfWindows = some 64 →
    ((coreOf s k).selfLow = true → coreState s k = 4 → Completes (.floorSelfTestEnd k) s (fun t => coreState t k = 3 ∧ (coreOf t k).floorTest = false)) ∧
    ((coreOf s k).selfLow = false → Completes (.floorSelfTestEnd k) s (fun t => coreState t k = 0 ∧ fld t (.cluster (coreCl k)) (0x140 + 8 * k.core.val) 35 32 = 0 ∧
      (rd t (.cluster (coreCl k)) 0x130).bit k.core.val = false ∧ (coreOf t k).floorTest = false ∧ Frame [.regs, .cores, .granger] s t ∧
      RegFrame [(.core k, 0x100), (.cluster (coreCl k), 0x140 + 8 * k.core.val), (.cluster (coreCl k), 0x130)] s t))) ∧
  (∀ (k : CoreRef) (f : Option ArrayLine) (s : State), hasTile s k.tile.val = true →
    (((coreOf s k).floorTest = false ∨ (coreOf s k).selfWindows ≠ some 64) → exec (.floorSelfTestEnd k) s = .next s) ∧
    ((coreOf s k).arrayTest = false → inTilesStage s = false → exec (.arraySelfTest k f) s = .next s))

/-- A write of TRUNAHEAD stores the value, at most 64, and moves the pc on. A run-ahead takes a request slot for the next line of a MEMORY
page that L1 does not hold while it holds fewer than 8 and more than 8 are free, and takes the line off its list; a line that L1 holds
only leaves the list. A response of a bank with one waiting core request removes it; a response of another home with one waiting packet
takes the packet away and sends a response to its source; with nothing waiting there is no effect. The reads of SLOT_STAT and
BANK_WAIT_MAX return the value and reset HIGH to IN_USE and WAIT to 0. (R93, R116, R117, R132, R133, R141.) -/
def Obligations.CoreMemorySlots : Prop :=
  (∀ (k : CoreRef) (v : Word) (s : State), hasTile s k.tile.val = true → canIssue s k = true →
    Completes (.trunaheadWrite k v) s (fun t =>
      coreOf t k = retired (csrSet (coreOf s k) csrTrunahead (word (min 64 v.toNat))) ((coreOf s k).pc + 4) ∧
      (∀ j, j ≠ k → coreOf t j = coreOf s j) ∧ Frame [.regs, .cores, .out] s t ∧ RegFrame [] s t)) ∧
  (∀ (k : CoreRef) (n : Fin 8) (line : Nat) (rest : List Nat) (s : State), hasTile s k.tile.val = true →
    mget [] (coreOf s k).ahead n.val = line :: rest → (bushelAt s (64 * line)).isSome = true → attrOf s (64 * line) = .memory →
    ((l1Find (coreOf s k) line).isSome = true →
      Completes (.runaheadFetch k n) s (fun t => coreOf t k = { coreOf s k with ahead := mset [] (coreOf s k).ahead n.val rest } ∧
        Frame [.cores] s t)) ∧
    (l1Find (coreOf s k) line = none → (coreOf s k).requests.length < 8 → slotsInUse (coreOf s k) < 40 →
      Completes (.runaheadFetch k n) s (fun t => (coreOf t k).requests.map Request.line = (coreOf s k).requests.map Request.line ++ [line] ∧
        mget [] (coreOf t k).ahead n.val = rest ∧ Frame [.regs, .cores, .net] s t ∧ RegFrame [(.core k, 0x140)] s t))) ∧
  (∀ (cl : ClusterRef) (n : Fin 32) (s : State), hasTile s cl.tile.val = true → (mget {} (cluster s cl).banks n.val).waiting = [] →
    (bankCores s cl n.val = [] → exec (.memoryResponse (.bank cl n)) s = .next s) ∧
    (∀ m r, bankCores s cl n.val = [.core m r] →
      Completes (.memoryResponse (.bank cl n)) s (fun t => ∀ q ∈ (coreOf t ⟨cl.tile, cl.cluster, m⟩).requests, q.line ≠ r.line))) ∧
  (∀ (node : Fin 320) (s : State), hasTile s (node.val / 40) = true →
    (s.net.atHome.filter (fun p => decide (p.dst = node.val)) = [] → exec (.memoryResponse (.home node)) s = .next s) ∧
    (∀ p, s.net.atHome.filter (fun p => decide (p.dst = node.val)) = [p] →
      Completes (.memoryResponse (.home node)) s (fun t => p ∉ t.net.atHome ∧
        ∃ q, t.net.packets.getLast? = some q ∧ q.kind = .response ∧ q.src = p.dst ∧ q.dst = p.src ∧ q.line = p.line))) ∧
  (∀ (k : CoreRef) (s : State), hasTile s k.tile.val = true →
    Completes (.slotStatRead k) s (fun t =>
      t.out.reply = .word (setBits (setBits (rd s (.core k) 0x140) 5 0 (slotsInUse (coreOf s k))) 19 16 (min 8 (coreOf s k).requests.length)) ∧
      fld t (.core k) 0x140 13 8 = slotsInUse (coreOf s k) ∧ Frame [.regs, .out] s t ∧ RegFrame [(.core k, 0x140)] s t) ∧
    Completes (.bankWaitMaxRead k) s (fun t => t.out.reply = .word (rd s (.core k) 0x148) ∧ rd t (.core k) 0x148 = 0 ∧
      Frame [.regs, .out] s t ∧ RegFrame [(.core k, 0x148)] s t))

/-- TDW writes word W0 to W4 of a descriptor from a register and ends its run-ahead; TDR reads one into a register. TZERO that passes its
checks writes zeros to the tile's data and scale registers, changes no other byte of the vector registers, and sets RMASK to its rows.
TWL that passes its checks puts the tile's block into the shadow store and starts its fill, which WEIGHT_FILL_DONE ends. Each
instruction moves the pc on by 4, is counted by minstret, and changes no other core. A floor beat changes no register outside the event
counters. (R94, R98, R102, R106, R122, R125, R147, R154.) -/
def Obligations.TileDescriptors : Prop :=
  (∀ (k : CoreRef) (n : Fin 8) (r : Fin 32) (sub : Fin 8) (s : State), hasTile s k.tile.val = true → canIssue s k = true → sub.val ≤ 4 →
    Completes (.tdw k n r sub) s (fun t =>
      coreOf t k = retired (endAhead (tdWr (coreOf s k) n.val sub.val (xRd (coreOf s k) r.val)) n.val) ((coreOf s k).pc + 4) ∧
      (∀ j, j ≠ k → coreOf t j = coreOf s j) ∧ Frame [.regs, .cores, .out] s t ∧ RegFrame [] s t) ∧
    Completes (.tdr k n r sub) s (fun t =>
      coreOf t k = retired (xWr (coreOf s k) r.val (tdRd (coreOf s k) n.val sub.val)) ((coreOf s k).pc + 4) ∧
      (∀ j, j ≠ k → coreOf t j = coreOf s j) ∧ Frame [.regs, .cores, .out] s t ∧ RegFrame [] s t)) ∧
  (∀ (k : CoreRef) (n : Fin 8) (s : State), hasTile s k.tile.val = true → canIssue s k = true →
    checkTzero n.val (tileOf (coreOf s k) n.val) = .pass →
    Completes (.tzero k n) s (fun t => (coreOf t k).pc = (coreOf s k).pc + 4 ∧
      tdRd (coreOf t k) n.val 4 = lowMask (tileOf (coreOf s k) n.val).rows ∧
      (∀ i, mget 0 (coreOf t k).v i =
        (if 256 * (tileOf (coreOf s k) n.val).vr ≤ i ∧
            i < 256 * (tileOf (coreOf s k) n.val).vr + (tileOf (coreOf s k) n.val).rows * (tileOf (coreOf s k) n.val).rstride then 0
         else if 256 * (tileOf (coreOf s k) n.val).svr ≤ i ∧
            i < 256 * (tileOf (coreOf s k) n.val).svr + 256 * (tileOf (coreOf s k) n.val).scaleRegs then 0
         else mget 0 (coreOf s k).v i)) ∧
      (coreOf t k).x = (coreOf s k).x ∧ (∀ j, j ≠ k → coreOf t j = coreOf s j) ∧ Frame [.regs, .cores, .out] s t ∧ RegFrame [] s t)) ∧
  (∀ (k : CoreRef) (n : Fin 8) (s : State), hasTile s k.tile.val = true → canIssue s k = true →
    checkTwl n.val (tileOf (coreOf s k) n.val) = .pass →
    Completes (.twl k n) s (fun t =>
      coreOf t k = retired { coreOf s k with shadow := some (weightBlock (coreOf s k) (tileOf (coreOf s k) n.val)), filling := true }
        ((coreOf s k).pc + 4) ∧
      (rd t (.core k) 0x100).bit 3 = true ∧ (∀ j, j ≠ k → coreOf t j = coreOf s j) ∧
      Frame [.regs, .cores, .out] s t ∧ RegFrame [(.core k, 0x100)] s t)) ∧
  (∀ (k : CoreRef) (s : State), hasTile s k.tile.val = true →
    Completes (.weightFillDone k) s (fun t => coreOf t k = { coreOf s k with filling := false } ∧ (∀ j, j ≠ k → coreOf t j = coreOf s j) ∧
      Frame [.cores] s t) ∧
    ∀ b, Completes (.floorBeat k b) s (fun t => (floorRequested s k = false → t = s) ∧ Frame [.regs, .out] s t ∧ RegFrame [] s t))

/-- A tile instruction whose checks find an empty tile only moves the pc on by 4 and is counted by minstret. One whose checks name a format
fault enters the trap with cause 27, one whose checks name a shape fault with cause 24, with the check's code and descriptor. (R108,
R109, R110, R111.) -/
def Obligations.TileChecks : Prop :=
  ∀ (k : CoreRef) (n m : Fin 8) (a b : Fin 32) (inc f : Bool) (rnd : Fin 8) (s : State), hasTile s k.tile.val = true →
    canIssue s k = true → rnd.val ≤ 1 →
    ∀ e ∈ [(Instr.tld k n inc, checkRowMem n.val (tileOf (coreOf s k) n.val)),
           (.tst k n inc, checkRowMem n.val (tileOf (coreOf s k) n.val)),
           (.tlds k n a b, checkTlds n.val (tileOf (coreOf s k) n.val)),
           (.twl k n, checkTwl n.val (tileOf (coreOf s k) n.val)),
           (.tmma k n m f, checkTmma n.val (tileOf (coreOf s k) n.val) m.val (tileOf (coreOf s k) m.val) (nextBlock s k)),
           (.tmmaz k n m f, checkTmma n.val (tileOf (coreOf s k) n.val) m.val (tileOf (coreOf s k) m.val) (nextBlock s k)),
           (.tzero k n, checkTzero n.val (tileOf (coreOf s k) n.val)),
           (.tcvt k n m rnd, checkTcvt n.val (tileOf (coreOf s k) n.val) m.val (tileOf (coreOf s k) m.val) (decide (rnd.val = 1)))],
      (e.2 = .empty → Completes e.1 s (fun t => coreOf t k = retired (coreOf s k) ((coreOf s k).pc + 4) ∧
        Frame [.regs, .cores, .out] s t ∧ RegFrame [] s t)) ∧
      (∀ td, e.2 = .format td → exec e.1 s = .next (takeTrap k 27 (tileTval 0 td) 0 td s)) ∧
      (∀ code td, e.2 = .shape code td → exec e.1 s = .next (takeTrap k 24 (tileTval code td) code td s))

/-- A TLD or TLDS whose checks pass, whose rows meet no page that is not MEMORY and no poisoned line, and which can issue moves the pc on by
4 and leaves RMASK at the rows loaded. A TST whose stored ranges are MEMORY, open and not poisoned, and which can issue, moves the pc
on. While nothing else waits at a bank of the core's cluster memory, BASE advances by the rows with INC 1 and keeps its value otherwise,
a TST keeps RMASK and the vector registers, and no general register changes. A TLD or TST with no selected row only moves the pc on.
(R18, R90, R112, R113, R119, R120, R121, R353.) -/
def Obligations.TileMemory : Prop :=
  (∀ (k : CoreRef) (n : Fin 8) (inc : Bool) (s : State), hasTile s k.tile.val = true → canIssue s k = true →
    checkRowMem n.val (tileOf (coreOf s k) n.val) = .pass → (tileOf (coreOf s k) n.val).selected ≠ [] →
    accessWaits s k ((tileOf (coreOf s k) n.val).selected.flatMap (tileOf (coreOf s k) n.val).ranges) = false →
    (∀ r ∈ (tileOf (coreOf s k) n.val).selected, badPages s ((tileOf (coreOf s k) n.val).ranges r) = [] ∧
      poisonedLines s k ((tileOf (coreOf s k) n.val).ranges r) = []) →
    Completes (.tld k n inc) s (fun t => (coreOf t k).pc = (coreOf s k).pc + 4 ∧
      tdRd (coreOf t k) n.val 4 = (tileOf (coreOf s k) n.val).rmask &&& lowMask (tileOf (coreOf s k) n.val).rows ∧
      ((∀ m : Fin 32, bankLoad s (coreCl k) m = 0) →
        (tileOf (coreOf t k) n.val).base = (if inc then (tileOf (coreOf s k) n.val).rowAddr (tileOf (coreOf s k) n.val).rows
          else (tileOf (coreOf s k) n.val).base) ∧
        (coreOf t k).x = (coreOf s k).x) ∧
      Frame [.regs, .slots, .tasks, .ctrs, .cores, .clusters, .mem, .granger, .streams, .net, .coll, .control, .step, .power, .traces, .out, .free] s t)) ∧
  (∀ (k : CoreRef) (n : Fin 8) (a b : Fin 32) (s : State), hasTile s k.tile.val = true → canIssue s k = true →
    checkTlds n.val (tileOf (coreOf s k) n.val) = .pass →
    accessWaits s k ((List.range (tileOf (coreOf s k) n.val).rows).map (fun r =>
      (((xRd (coreOf s k) a.val).toNat + r * (xRd (coreOf s k) b.val).toNat) % 2 ^ 48, (tileOf (coreOf s k) n.val).rb))) = false →
    (∀ r, r < (tileOf (coreOf s k) n.val).rows →
      badPages s [(((xRd (coreOf s k) a.val).toNat + r * (xRd (coreOf s k) b.val).toNat) % 2 ^ 48, (tileOf (coreOf s k) n.val).rb)] = [] ∧
      poisonedLines s k
        [(((xRd (coreOf s k) a.val).toNat + r * (xRd (coreOf s k) b.val).toNat) % 2 ^ 48, (tileOf (coreOf s k) n.val).rb)] = []) →
    Completes (.tlds k n a b) s (fun t => (coreOf t k).pc = (coreOf s k).pc + 4 ∧
      tdRd (coreOf t k) n.val 4 = lowMask (tileOf (coreOf s k) n.val).rows ∧
      ((∀ m : Fin 32, bankLoad s (coreCl k) m = 0) →
        (tileOf (coreOf t k) n.val).base = (tileOf (coreOf s k) n.val).base ∧ (coreOf t k).x = (coreOf s k).x) ∧
      Frame [.regs, .slots, .tasks, .ctrs, .cores, .clusters, .mem, .granger, .streams, .net, .coll, .control, .step, .power, .traces, .out, .free] s t)) ∧
  (∀ (k : CoreRef) (n : Fin 8) (inc : Bool) (s : State), hasTile s k.tile.val = true → canIssue s k = true →
    checkRowMem n.val (tileOf (coreOf s k) n.val) = .pass →
    ((tileOf (coreOf s k) n.val).selected = [] →
      Completes (.tld k n inc) s (fun t => coreOf t k = retired (coreOf s k) ((coreOf s k).pc + 4) ∧ Frame [.regs, .cores, .out] s t) ∧
      Completes (.tst k n inc) s (fun t => coreOf t k = retired (coreOf s k) ((coreOf s k).pc + 4) ∧ Frame [.regs, .cores, .out] s t)) ∧
    ((tileOf (coreOf s k) n.val).selected ≠ [] →
      accessWaits s k ((storeBytes (coreOf s k) (tileOf (coreOf s k) n.val)).map (fun e => (e.1, e.2.length))) = false →
      (∀ e ∈ storeBytes (coreOf s k) (tileOf (coreOf s k) n.val), badPages s [(e.1, e.2.length)] = [] ∧
        closedPages s k [(e.1, e.2.length)] = [] ∧ corePoisonStore s k e.1 e.2.length = none) →
      Completes (.tst k n inc) s (fun t => (coreOf t k).pc = (coreOf s k).pc + 4 ∧
        ((∀ m : Fin 32, bankLoad s (coreCl k) m = 0) →
          (tileOf (coreOf t k) n.val).rmask = (tileOf (coreOf s k) n.val).rmask ∧
          (tileOf (coreOf t k) n.val).base = (if inc then (tileOf (coreOf s k) n.val).rowAddr (tileOf (coreOf s k) n.val).rows
            else (tileOf (coreOf s k) n.val).base) ∧
          (coreOf t k).x = (coreOf s k).x ∧ (coreOf t k).v = (coreOf s k).v) ∧
        Frame [.regs, .slots, .tasks, .ctrs, .cores, .clusters, .mem, .granger, .streams, .net, .coll, .control, .step, .power, .traces, .out, .free] s t)))

/-- A TMMA or TMMAZ whose checks pass with valid weights and no twin mismatch makes the shadow block, if there is one, the active block,
writes the computed rows' results and moves the pc on by 4; TMMA keeps every descriptor, TMMAZ sets the destination's RMASK. A twin
mismatch of a checked last row moves the pc on and owes the core an array self-test; with no checked row there is none. A TCVT whose
checks pass converts or copies the selected rows, sets the destination's RMASK to the source's in the tile's rows, and moves the pc on.
(R123, R124, R126, R149, R171, R178, R193, R194, R206.) -/
def Obligations.TileMultiply : Prop :=
  (∀ (k : CoreRef) (n m : Fin 8) (w : WBlock) (s : State), hasTile s k.tile.val = true → canIssue s k = true → nextBlock s k = some w →
    checkTmma n.val (tileOf (coreOf s k) n.val) m.val (tileOf (coreOf s k) m.val) (some w) = .pass →
    Completes (.tmma k n m false) s (fun t => (coreOf t k).pc = (coreOf s k).pc + 4 ∧ (coreOf t k).active = some w ∧
      (coreOf t k).shadow = none ∧ (coreOf t k).tds = (coreOf s k).tds ∧ (coreOf t k).x = (coreOf s k).x ∧
      (coreOf t k).v = (writeResults false (switchWeights (coreOf s k)) w (tileOf (coreOf s k) n.val) (tileOf (coreOf s k) m.val)).v ∧
      (∀ j, j ≠ k → coreOf t j = coreOf s j) ∧ Frame [.regs, .cores, .out, .free] s t ∧ RegFrame [] s t) ∧
    Completes (.tmmaz k n m false) s (fun t => (coreOf t k).pc = (coreOf s k).pc + 4 ∧ (coreOf t k).active = some w ∧
      (coreOf t k).shadow = none ∧ (coreOf t k).x = (coreOf s k).x ∧
      tdRd (coreOf t k) n.val 4 = (if (tileOf (coreOf s k) m.val).trans
        then lowMask (tileOf (coreOf s k) m.val).effRows ||| (tileOf (coreOf s k) n.val).rmask
        else mergeMask (tileOf (coreOf s k) m.val).rows (tileOf (coreOf s k) m.val).rmask (tileOf (coreOf s k) n.val).rmask) ∧
      (coreOf t k).v = (writeResults true (switchWeights (coreOf s k)) w (tileOf (coreOf s k) n.val) (tileOf (coreOf s k) m.val)).v ∧
      (∀ j, j ≠ k → coreOf t j = coreOf s j) ∧ Frame [.regs, .cores, .out, .free] s t ∧ RegFrame [] s t) ∧
    (twinChecked (tileOf (coreOf s k) m.val) = false →
      exec (.tmma k n m true) s = exec (.tmma k n m false) s ∧ exec (.tmmaz k n m true) s = exec (.tmmaz k n m false) s) ∧
    (twinChecked (tileOf (coreOf s k) m.val) = true →
      Completes (.tmma k n m true) s (fun t => (coreOf t k).needArrayTest = true ∧ (coreOf t k).pc = (coreOf s k).pc + 4) ∧
      Completes (.tmmaz k n m true) s (fun t => (coreOf t k).needArrayTest = true ∧ (coreOf t k).pc = (coreOf s k).pc + 4))) ∧
  (∀ (k : CoreRef) (n m : Fin 8) (rnd : Fin 8) (s : State), hasTile s k.tile.val = true → canIssue s k = true → rnd.val ≤ 1 →
    checkTcvt n.val (tileOf (coreOf s k) n.val) m.val (tileOf (coreOf s k) m.val) (decide (rnd.val = 1)) = .pass →
    Completes (.tcvt k n m rnd) s (fun t => (coreOf t k).pc = (coreOf s k).pc + 4 ∧
      tdRd (coreOf t k) n.val 4 =
        mergeMask (tileOf (coreOf s k) m.val).rows (tileOf (coreOf s k) m.val).rmask (tileOf (coreOf s k) n.val).rmask ∧
      (tcvtCopies (tileOf (coreOf s k) n.val) (tileOf (coreOf s k) m.val) = true → rnd.val = 0 →
        (coreOf t k).v = ((tileOf (coreOf s k) m.val).selected.foldl (fun c r =>
          copyRow (tileOf (coreOf s k) n.val) (tileOf (coreOf s k) m.val) r c) (coreOf s k)).v) ∧
      (coreOf t k).x = (coreOf s k).x ∧ (∀ j, j ≠ k → coreOf t j = coreOf s j) ∧ Frame [.regs, .cores, .out] s t ∧ RegFrame [] s t))

/-- VADD, VSUB, VMUL, VMAX, VMIN, VFMA, VFUNC with a defined function, VRED with a defined reduction, VSPLAT and VMULX write the 64 lanes of
their destination with the lane-wise results, and VEXT one register, from the operands before the instruction; the pc moves on by 4 and
minstret counts the instruction. No other register of the core, no other core, no memory and no register outside the event counters
changes. (R107, R127, R128, R129, R170.) -/
def Obligations.VectorLanes : Prop :=
  (∀ (k : CoreRef) (d a b : Fin 128) (r : Fin 32) (s : State), hasTile s k.tile.val = true → canIssue s k = true →
    ∀ e ∈ [(Instr.vadd k d a b, List.zipWith fadd (lanes (coreOf s k) a.val) (lanes (coreOf s k) b.val)),
           (.vsub k d a b, List.zipWith fsub (lanes (coreOf s k) a.val) (lanes (coreOf s k) b.val)),
           (.vmul k d a b, List.zipWith fmul (lanes (coreOf s k) a.val) (lanes (coreOf s k) b.val)),
           (.vmax k d a b, List.zipWith fmax (lanes (coreOf s k) a.val) (lanes (coreOf s k) b.val)),
           (.vmin k d a b, List.zipWith fmin (lanes (coreOf s k) a.val) (lanes (coreOf s k) b.val)),
           (.vfma k d a b, (List.range 64).map (fun i =>
             ffma (lane (coreOf s k) a.val i) (lane (coreOf s k) b.val i) (lane (coreOf s k) d.val i))),
           (.vsplat k d r, List.replicate 64 ((xRd (coreOf s k) r.val).setWidth 32)),
           (.vmulx k d r, (lanes (coreOf s k) d.val).map (fun v => fmul v ((xRd (coreOf s k) r.val).setWidth 32)))],
      Completes e.1 s (fun t => coreOf t k = retired (setLanes (coreOf s k) d.val e.2) ((coreOf s k).pc + 4) ∧
        (∀ j, j ≠ k → coreOf t j = coreOf s j) ∧ Frame [.regs, .cores, .out] s t ∧ RegFrame [] s t)) ∧
  (∀ (k : CoreRef) (d a c : Fin 128) (s : State), hasTile s k.tile.val = true → canIssue s k = true →
    (c.val ≤ 7 → Completes (.vfunc k d a c) s (fun t =>
      coreOf t k = retired (setLanes (coreOf s k) d.val ((lanes (coreOf s k) a.val).map (vfuncLane c.val))) ((coreOf s k).pc + 4) ∧
      (∀ j, j ≠ k → coreOf t j = coreOf s j) ∧ Frame [.regs, .cores, .out] s t ∧ RegFrame [] s t)) ∧
    (c.val ≤ 2 → Completes (.vred k d a c) s (fun t =>
      coreOf t k = retired (setLanes (coreOf s k) d.val (vredLane c.val (lanes (coreOf s k) a.val) :: List.replicate 63 0)) ((coreOf s k).pc + 4) ∧
      (∀ j, j ≠ k → coreOf t j = coreOf s j) ∧ Frame [.regs, .cores, .out] s t ∧ RegFrame [] s t))) ∧
  (∀ (k : CoreRef) (d : Fin 128) (r q : Fin 32) (s : State), hasTile s k.tile.val = true → canIssue s k = true →
    Completes (.vext k d r q) s (fun t =>
      coreOf t k = retired (xWr (coreOf s k) r.val ((lane (coreOf s k) d.val ((xRd (coreOf s k) q.val).toNat % 64)).setWidth 64)) ((coreOf s k).pc + 4) ∧
      (∀ j, j ≠ k → coreOf t j = coreOf s j) ∧ Frame [.regs, .cores, .out] s t ∧ RegFrame [] s t))

/-- A VLD or VST of a 64-byte aligned address whose page is MEMORY completes where it can issue, the VLD where no line is poisoned and the
VST where no bushel is closed to it, and moves the pc on by 4. Where L1 holds the lines, the VLD reads the 256 bytes of L1 into its
register and no other, and the VST writes the register's 256 bytes into L1 and no other byte of L1 or of memory. A VCVT with a defined
code writes the converted bytes, and advances the stream of vr127 when its conversion is stochastic. (R18, R90, R92, R130, R131, R180,
R353.) -/
def Obligations.VectorMemoryAndConversion : Prop :=
  (∀ (k : CoreRef) (d : Fin 128) (r : Fin 32) (s : State), hasTile s k.tile.val = true → canIssue s k = true →
    (xRd (coreOf s k) r.val).toNat % 64 = 0 → badPages s [(addr48 (xRd (coreOf s k) r.val).toNat, 256)] = [] →
    accessWaits s k [(addr48 (xRd (coreOf s k) r.val).toNat, 256)] = false →
    corePoison s k (addr48 (xRd (coreOf s k) r.val).toNat) 256 = none →
    Completes (.vld k d r) s (fun t => (coreOf t k).pc = (coreOf s k).pc + 4 ∧ Frame [.regs, .slots, .tasks, .ctrs, .cores, .clusters, .mem, .granger, .streams, .net, .coll, .control, .step, .power, .traces, .out, .free] s t ∧
      ((linesOf (addr48 (xRd (coreOf s k) r.val).toNat) 256).all (fun l => (l1Find (coreOf s k) l).isSome) = true →
        (∀ b, b < 256 → vByte (coreOf t k) d.val b = l1Byte (coreOf s k) ((xRd (coreOf s k) r.val).toNat + b)) ∧
        (∀ i, (i < 256 * d.val ∨ 256 * d.val + 256 ≤ i) → mget 0 (coreOf t k).v i = mget 0 (coreOf s k).v i) ∧
        (coreOf t k).l1 = (coreOf s k).l1 ∧ (coreOf t k).x = (coreOf s k).x ∧ Frame [.regs, .cores, .out] s t))) ∧
  (∀ (k : CoreRef) (d : Fin 128) (r : Fin 32) (s : State), hasTile s k.tile.val = true → canIssue s k = true →
    (xRd (coreOf s k) r.val).toNat % 64 = 0 → badPages s [(addr48 (xRd (coreOf s k) r.val).toNat, 256)] = [] →
    closedPages s k [(addr48 (xRd (coreOf s k) r.val).toNat, 256)] = [] →
    accessWaits s k [(addr48 (xRd (coreOf s k) r.val).toNat, 256)] = false →
    corePoisonStore s k (addr48 (xRd (coreOf s k) r.val).toNat) 256 = none →
    Completes (.vst k d r) s (fun t => (coreOf t k).pc = (coreOf s k).pc + 4 ∧ Frame [.regs, .slots, .tasks, .ctrs, .cores, .clusters, .mem, .granger, .streams, .net, .coll, .control, .step, .power, .traces, .out, .free] s t ∧
      ((linesOf (addr48 (xRd (coreOf s k) r.val).toNat) 256).all (fun l => (l1Find (coreOf s k) l).isSome) = true →
        (coreOf s k).l1.all (fun l => decide (l.bytes.length = 64)) = true →
        (coreOf t k).x = (coreOf s k).x ∧ (coreOf t k).v = (coreOf s k).v ∧
        (∀ b, b < 256 → l1Byte (coreOf t k) ((xRd (coreOf s k) r.val).toNat + b) = vByte (coreOf s k) d.val b) ∧
        (∀ a, addr48 a ∉ addrs (addr48 (xRd (coreOf s k) r.val).toNat) 256 → l1Byte (coreOf t k) a = l1Byte (coreOf s k) a) ∧
        Frame [.regs, .cores, .out] s t))) ∧
  (∀ (k : CoreRef) (d a c : Fin 128) (src dst : Nat) (st : Bool) (s : State), hasTile s k.tile.val = true → canIssue s k = true →
    vcvtCode c.val = some (src, dst, st) → (st = true → d.val ≠ 127 ∧ a.val ≠ 127) →
    Completes (.vcvt k d a c) s (fun t =>
      coreOf t k = retired (advanceStream (streamOf (coreOf s k) st) 16
          (vSetBytes (coreOf s k) d.val 0 (vcvtBytes (coreOf s k) a.val src dst (streamOf (coreOf s k) st)))) ((coreOf s k).pc + 4) ∧
      (∀ j, j ≠ k → coreOf t j = coreOf s j) ∧ Frame [.regs, .cores, .out] s t ∧ RegFrame [] s t))

/-- In a flit step that no slotted flit takes, a free output of an unfenced node whose only request is an unmasked packet sends one flit of
it; with its last flit the packet moves one hop to the neighbour, and before that it holds the output. A slotted flit that is due takes
the step instead. With no packet in the network, or at a fenced node, nothing happens. The timeout of a host request answers all ones
with an error and counts; that of a busy DMA channel sets its ECC error; that of a streaming engine ends its command with ECC; that of a
core takes its request away and enters its trap; each is then a fault of a RUNNING step; that of a requester with nothing outstanding
has no effect. LAT_MAX returns its value and falls to 0. A buffer error fences an unfenced node, loses the packets inside it, and asks
for a rewrite, and then a RUNNING step has its fence fault and what the node carried is evacuated or lost; a rewrite that finds every
node reachable counts and clears the request. (R412, R413, R415, R417, R420, R437, R438, R439, R442.) -/
def Obligations.NetPackets : Prop :=
  (∀ (x : Fin 320) (o : Fin 8) (p : NetPacket) (y i : Nat) (s : State), hasTile s (nodeTile x.val) = true → nodeFenced s x.val = false →
    (∀ q ∈ s.net.packets, expired s q = false ∧ injectorFenced s q = false) → mget 0 s.net.heldSteps (8 * x.val + o.val) = 0 →
    (arbOf s x.val o.val).current = none → requests s x.val o.val = [p] → p.high = false → o.val ≠ 0 →
    neighbour s x.val o.val = some (y, i) →
    (p.progress + 1 = p.flits → Completes (.openPacketHop x o) s (fun t =>
      (∃ q, t.net.packets = s.net.packets.erase p ++ [q] ∧ q.node = y ∧ q.port = i ∧
        q.src = p.src ∧ q.dst = p.dst ∧ q.line = p.line ∧ q.data = p.data ∧ q.age = p.age) ∧
      (arbOf t x.val o.val).current = none ∧ Frame [.regs, .net, .out] s t)) ∧
    (p.progress + 1 < p.flits → Completes (.openPacketHop x o) s (fun t =>
      (arbOf t x.val o.val).current = some { p with progress := p.progress + 1 } ∧
      t.net.packets = s.net.packets.replace p { p with progress := p.progress + 1 } ∧ Frame [.regs, .net, .out] s t))) ∧
  (∀ (x : Fin 320) (o : Fin 8) (n : Nat) (s : State), hasTile s (nodeTile x.val) = true → nodeFenced s x.val = false →
    mget 0 s.net.heldSteps (8 * x.val + o.val) = n + 1 → (arbOf s x.val o.val).current = none →
    Completes (.openPacketHop x o) s (fun t => mget 0 t.net.heldSteps (8 * x.val + o.val) = n ∧ t.net.packets = s.net.packets ∧
      Frame [.net] s t)) ∧
  (∀ (x : Fin 320) (o : Fin 8) (s : State), hasTile s (nodeTile x.val) = true →
    (nodeFenced s x.val = true ∨
      (s.net.packets = [] ∧ mget 0 s.net.heldSteps (8 * x.val + o.val) = 0 ∧ (arbOf s x.val o.val).current = none)) →
    exec (.openPacketHop x o) s = .next s) ∧
  (∀ s : State, Completes (.requestTimeout .host) s (fun t => t.out.reply = .data (List.replicate 64 0xFF) true) ∧
    (stepRunning s = false → Completes (.requestTimeout .host) s (fun t =>
      rd t pgHostif 0x1D0 = rd s pgHostif 0x1D0 + 1 ∧ Frame [.regs, .out] s t ∧ RegFrame [(pgHostif, 0x1D0)] s t)) ∧
    (∀ (d : Fin 8) (n : Fin 32), hasTile s d.val = true →
      (dmaState s d n = dmBusy → CompletesThen (.requestTimeout (.dma d n)) s netTimeout (fun t => (dmaOf t d n).error = deEcc ∧
        (dmaOf t d n).finishing = true ∧ Frame [.dmas] s t)) ∧
      (dmaState s d n ≠ dmBusy → exec (.requestTimeout (.dma d n)) s = .next s) ∧
      (streamQ s d.val = [] → exec (.requestTimeout (.stream d)) s = .next s) ∧
      (∀ c l, streamQ s d.val = c :: l → c.move = none → CompletesThen (.requestTimeout (.stream d)) s
        (fun u => netTimeout (if cw (streamWords s c) 4 19 19 = 1 then
          signal (cw (streamWords s c) 4 18 0) (cw (streamWords s c) 4 63 32) (unitWho 4 d.val 0 c.att) c.att u else u))
        (fun t => streamQ t d.val = l ∧ fld t (pgStream d) 0x108 23 16 = stEcc))) ∧
    (∀ (k : CoreRef) (b : Bool) (r : Request), hasTile s k.tile.val = true →
      (coreOf s k).requests.filter (fun r => r.bank.isNone) = [r] →
      CompletesThen (.requestTimeout (.core k b)) s
        (fun u => (fun v => if coreRunning v k then takeTrap k (if b then 7 else 5) (Config.freeWord v.free) 0 0 { v with free := v.free + 1 } else v)
          (netTimeout u))
        (fun t => r ∉ (coreOf t k).requests ∧ Frame [.cores] s t))) ∧
  (∀ (tile : Fin 8) (s : State), hasTile s tile.val = true →
    Completes (.latMaxRead tile) s (fun t => t.out.reply = .word (rd s (pgNet tile) 0x170) ∧ rd t (pgNet tile) 0x170 = 0 ∧
      Frame [.regs, .out] s t ∧ RegFrame [(pgNet tile, 0x170)] s t)) ∧
  (∀ (x : Fin 320) (s : State), hasTile s (nodeTile x.val) = true → nodeFenced s x.val = false →
    CompletesThen (.routerBufferUe x) s
      (fun u => stopUnitLost x.val ((fun v => if nodeNo x.val < 24 then
          evacuate v (fun b => decide (b.tier = 0) && decide (b.tile = nodeTile x.val) && decide (b.cluster = nodeNo x.val)) else v)
        (if stepRunning u then fault 1 (if nodeNo x.val < 24 then unitFenceInfo s (nodeTile x.val) (nodeNo x.val) 0 2 causeFault
          else unitFenceInfo s (nodeTile x.val) (nodeNo x.val - 24) 0 4 causeFault) u else u))) (fun t => nodeFenced t x.val = true ∧ t.net.rewriteDue = true ∧
      (∀ p ∈ t.net.packets, p.node ≠ x.val) ∧ t.mem = s.mem ∧ Frame [.regs, .granger, .net, .traces, .out] s t)) ∧
  (∀ s : State, (s.net.rewriteDue = false → exec .routeRewrite s = .next s) ∧
    (s.net.rewriteDue = true → cutOff s = [] →
      Completes .routeRewrite s (fun t => t.net.rewriteDue = false ∧ rd t (pgNet 0) 0x160 = rd s (pgNet 0) 0x160 + 1 ∧
        t.net.packets = s.net.packets ∧ Frame [.regs, .net] s t ∧ RegFrame [(pgNet 0, 0x118), (pgNet 0, 0x160)] s t)))

/-- On a side that faces a tile, a flit with a bad CRC counts one replay, lost training gives TRAINING and counts, and a retrained bridge
that is not down is ACTIVE with its modules and repaired lanes. A bridge that fails for good reads DOWN on both tiles' sides, and its
edge is fenced until reset, which is fault 25 on a D2 and a fence fault of a RUNNING step: a later retraining has no effect. On a side
that faces no tile nothing happens. (R403, R404, R437, R444.) -/
def Obligations.NetBridges : Prop :=
  (∀ (tile : Fin 8) (side : Fin 4) (u : Nat) (s : State), hasTile s tile.val = true → facing s tile.val side.val = some u →
    Completes (.bridgeFlitCrcFail tile side) s (fun t => rd t (pgBridge tile side) 0x108 = rd s (pgBridge tile side) 0x108 + 1 ∧
      Frame [.regs] s t ∧ RegFrame [(pgBridge tile side, 0x108)] s t) ∧
    Completes (.bridgeTrainingLost tile side) s (fun t => fld t (pgBridge tile side) 0x100 1 0 = 1 ∧
      rd t (pgBridge tile side) 0x120 = rd s (pgBridge tile side) 0x120 + 1 ∧
      Frame [.regs] s t ∧ RegFrame [(pgBridge tile side, 0x100), (pgBridge tile side, 0x120)] s t) ∧
    (∀ (m : Fin 16) (l : Fin 4096), s.net.downEdges.contains (4 * tile.val + side.val) = false →
      Completes (.bridgeRetrained tile side m l) s (fun t => fld t (pgBridge tile side) 0x100 1 0 = 2 ∧
        fld t (pgBridge tile side) 0x100 11 8 = m.val ∧ fld t (pgBridge tile side) 0x100 27 16 = l.val ∧
        Frame [.regs] s t ∧ RegFrame [(pgBridge tile side, 0x100)] s t)) ∧
    (∀ (m : Fin 16) (l : Fin 4096), s.net.downEdges.contains (4 * tile.val + side.val) = true →
      exec (.bridgeRetrained tile side m l) s = .next s ∧ exec (.bridgeDown tile side) s = .next s) ∧
    (s.net.downEdges.contains (4 * tile.val + side.val) = false →
      CompletesThen (.bridgeDown tile side) s
        (fun u => (fun v => if stepRunning v then fault 1 (edgeFenceInfo s tile.val side.val) v else v) (if s.part = .d2 then fault 25 0 u else u)) (fun t => fld t (pgBridge tile side) 0x100 1 0 = 3 ∧
        fld t (pgBridge (Fin.ofNat 8 u) (Fin.ofNat 4 (backSide side.val))) 0x100 1 0 = 3 ∧
        t.net.downEdges.contains (4 * tile.val + side.val) = true ∧ t.net.downEdges.contains (4 * u + backSide side.val) = true ∧
        t.net.rewriteDue = true ∧ Frame [.regs, .net, .traces] s t))) ∧
  (∀ (tile : Fin 8) (side : Fin 4) (m : Fin 16) (l : Fin 4096) (s : State), hasTile s tile.val = true →
    facing s tile.val side.val = none →
    exec (.bridgeFlitCrcFail tile side) s = .next s ∧ exec (.bridgeTrainingLost tile side) s = .next s ∧
    exec (.bridgeRetrained tile side m l) s = .next s ∧ exec (.bridgeDown tile side) s = .next s)

/-- A write of 1 to ST_LOAD on tile 0 with no load under way empties the standby bank and starts a load; on another tile, or during a load,
it is ignored and logged. The end of a load puts an accepted image into the standby bank and reads LOADED, and leaves the bank alone
with the refusal's code where the image is refused; with no load under way it has no effect. A slot boundary outside a step attempt, or
before its time, has no effect; within one that has no entries, packets or buffers it advances the slot number. The signal of an
ejecting entry, once its home has accepted the flits, takes its oldest count of flits away, and without flits there is none. (R421,
R422, R426, R432, R433, R434, R442.) -/
def Obligations.SlotTables : Prop :=
  (∀ (tile : Fin 8) (v : Word) (s : State), hasTile s tile.val = true → tile.val ≠ 0 →
    Completes (.stLoad tile v) s (fun t => (rd t (pgNet tile) 0x028).bit 5 = true ∧ Frame [.regs, .out] s t ∧
      RegFrame [(pgNet tile, 0x028), (pgNet tile, 0x038)] s t)) ∧
  (∀ s : State, hasTile s 0 = true →
    (s.net.loading = none → Completes (.stLoad 0 1) s (fun t => t.net.loading = some (fld s (pgNet 0) 0x100 47 6 * 64) ∧ bankTable t (1 - activeBank s) = none ∧
      bankTable t (activeBank s) = bankTable s (activeBank s) ∧ fld t (pgNet 0) 0x118 1 0 = 1 ∧ fld t (pgNet 0) 0x118 27 8 = 0 ∧
      Frame [.regs, .net] s t ∧ RegFrame [(pgNet 0, 0x118), (pgNet 0, 0x120)] s t)) ∧
    (s.net.loading ≠ none → Completes (.stLoad 0 1) s (fun t => (rd t (pgNet 0) 0x028).bit 4 = true ∧ Frame [.regs, .out] s t)) ∧
    (s.net.loading = none → exec .stLoadDone s = .next s) ∧
    (∀ a, s.net.loading = some a →
      (∀ tb, readTable { s with net := { s.net with loading := none } } a = .ok tb →
        Completes .stLoadDone s (fun t => t.net.loading = none ∧ bankTable t (1 - activeBank s) = some tb ∧
          bankTable t (activeBank s) = bankTable s (activeBank s) ∧ fld t (pgNet 0) 0x118 1 0 = 2 ∧
          Frame [.regs, .net] s t ∧ RegFrame [(pgNet 0, 0x118), (pgNet 0, 0x120)] s t)) ∧
      (∀ code x, readTable { s with net := { s.net with loading := none } } a = .error (code, x) →
        Completes .stLoadDone s (fun t => t.net.loading = none ∧ t.net.bank0 = s.net.bank0 ∧ t.net.bank1 = s.net.bank1 ∧
          fld t (pgNet 0) 0x118 27 8 = (code + x <<< 8) % 2 ^ 20 ∧ (rd t (pgNet 0) 0x028).bit 7 = true ∧
          Frame [.regs, .net, .out] s t)))) ∧
  (∀ (late : List (Fin 320)) (s : State),
    ((stepLive s = false ∨ s.now < s.step.launch + s.net.slotIndex * slotLen s) → exec (.beaconSlotBoundary late) s = .next s) ∧
    (stepLive s = true → s.step.launch + s.net.slotIndex * slotLen s ≤ s.now → entriesNow s = [] → s.net.buffers = [] → s.coll.slottedOut = [] → (∀ n, (port s n).slotted = []) →
      Completes (.beaconSlotBoundary late) s (fun t => t.net.slotIndex = s.net.slotIndex + 1 ∧ t.net.buffers = [] ∧
        (∀ n, port t n = port s n) ∧ Frame [.net, .ports] s t))) ∧
  (∀ (node : Fin 320) (x : Fin 4096) (s : State), node.val < 40 * s.part.tiles →
    (s.net.ejected.find? (fun e => decide (e.1 = 4096 * node.val + x.val)) = none → exec (.streamEjectSignal node x) s = .next s) ∧
    (∀ e, s.net.ejected.find? (fun e => decide (e.1 = 4096 * node.val + x.val)) = some e → flitsHeld s node.val x.val = false →
      ((streamAt s x.val).all (fun d => !d.syncEn) = true →
        Completes (.streamEjectSignal node x) s (fun t => t.net.ejected = s.net.ejected.erase e ∧ Frame [.net] s t)) ∧
      (∀ d, streamAt s x.val = some d → d.syncEn = true →
        exec (.streamEjectSignal node x) s = .next (signal d.sync e.2
          (unitWho 4 (nodeTile node.val) 0 (some s.step.att)) (some s.step.att)
          { s with net := { s.net with ejected := s.net.ejected.erase e } }))))

/-- A store of RE_SUBMIT by a core of the cluster, of an aligned address in the cluster's own memory and with room in the queue, queues the
command; to a full queue the store is held and its core issues nothing until there is room; of another address it enters the trap with
cause 7 in a running core; by any other agent it is ignored and sets ACCESS. A command of another operation than the one at the front,
on an empty queue, or that would touch a bushel being switched, has no effect. With nothing else waiting at the banks of the cluster's
memory, a command with NROWS 0 completes with DONE, and a refused one with its status, RE_ERR_DESC and COMMAND in ERR_STAT; both leave
the queue and advance RE_DONE, and signal their counter after it where they name one. (R219, R223, R224, R225, R228.) -/
def Obligations.RowEngineQueue : Prop :=
  (∀ (k : CoreRef) (v : Word) (s : State), hasTile s k.tile.val = true → issues s (.core k) = true → v.bits 63 48 = 0 →
    (v.bits 47 0 % 64 = 0 → localRange s (coreCl k) (v.bits 47 0) 64 = true →
      ((cluster s (coreCl k)).reQueue.length < 32 → Completes (.reSubmit (.core k) (coreCl k) v) s (fun t =>
        (cluster t (coreCl k)).reQueue = (cluster s (coreCl k)).reQueue ++ [(v.bits 47 0, reqAtt s (.core k), reqWho s (.core k))] ∧
        fld t (.cluster (coreCl k)) 0x208 5 0 = (cluster s (coreCl k)).reQueue.length + 1 ∧ fld t (.cluster (coreCl k)) 0x208 8 8 = 1 ∧
        Frame [.regs, .clusters] s t ∧ RegFrame [(.cluster (coreCl k), 0x208)] s t)) ∧
      (32 ≤ (cluster s (coreCl k)).reQueue.length → exec (.reSubmit (.core k) (coreCl k) v) s = .next (holdStore k (.cluster (coreCl k)) 0x200 v s))) ∧
    ((v.bits 47 0 % 64 ≠ 0 ∨ localRange s (coreCl k) (v.bits 47 0) 64 = false) → coreRunning s k = true →
      exec (.reSubmit (.core k) (coreCl k) v) s =
        .next (takeTrap k 7 (word (regAddr (.cluster (coreCl k)) 0x200)) 0 0 s))) ∧
  (∀ (cl : ClusterRef) (v : Word) (s : State), hasTile s cl.tile.val = true →
    Completes (.reSubmit .host cl v) s (fun t => (rd t (.cluster cl) 0x028).bit 0 = true ∧ Frame [.regs, .out] s t ∧
      RegFrame [(.cluster cl, 0x028), (.cluster cl, 0x038)] s t) ∧
    ∀ k : CoreRef, hasTile s k.tile.val = true → issues s (.core k) = true → coreCl k ≠ cl →
      Completes (.reSubmit (.core k) cl v) s (fun t => (rd t (.cluster cl) 0x028).bit 0 = true ∧ Frame [.regs, .out] s t ∧
        RegFrame [(.cluster cl, 0x028), (.cluster cl, 0x038)] s t)) ∧
  (∀ (cl : ClusterRef) (s : State), hasTile s cl.tile.val = true →
    ∀ e ∈ [(Instr.reFill cl, 0), (.reSmaxStep cl, 1), (.reSmaxFinal cl, 2), (.reDot cl, 3), (.reSmaxBwd cl, 4), (.reMomStep cl, 5),
           (.reMomFinal cl, 6), (.reSave cl, 7), (.reLoad cl, 8)],
      ((cluster s cl).reQueue = [] → exec e.1 s = .next s) ∧
      (∀ d att w l, (cluster s cl).reQueue = (d, att, w) :: l →
        ((reCmd (descWords s d)).op ≠ e.2 → (reCmd (descWords s d)).op ≤ 8 → exec e.1 s = .next s) ∧
        (reHeld s cl d (reCmd (descWords s d)) = true → exec e.1 s = .next s) ∧
        ((reCmd (descWords s d)).op = e.2 → reHeld s cl d (reCmd (descWords s d)) = false → (∀ m : Fin 32, bankLoad s cl m = 0) → poisonIn s false d 64 = none →
          ((reCmd (descWords s d)).nrows = 0 → CompletesThen e.1 s
            (fun u => if (reCmd (descWords s d)).syncEn then signal (reCmd (descWords s d)).sync 1 (reWho cl att) att u else u) (fun t => (cluster t cl).reQueue = l ∧
            fld t (.cluster cl) 0x208 23 16 = 1 ∧ fld t (.cluster cl) 0x208 5 0 = l.length % 64 ∧
            (cluster t cl).side = (cluster s cl).side)) ∧
          (∀ st, (reCmd (descWords s d)).nrows ≠ 0 → reRefused s cl (reCmd (descWords s d)) = some st →
            CompletesThen e.1 s (fun u => if (reCmd (descWords s d)).syncEn then signal (reCmd (descWords s d)).sync 1 (reWho cl att) att u else u) (fun t => (cluster t cl).reQueue = l ∧ fld t (.cluster cl) 0x208 23 16 = st ∧
              rd t (.cluster cl) 0x230 = word d ∧ (rd t (.cluster cl) 0x028).bit 7 = true ∧ (cluster t cl).side = (cluster s cl).side)))))

/-- With no poisoned line or record, no uncorrectable error armed on the cluster's page, no bushel of the command being switched, and
nothing else waiting at the banks of the cluster's memory, a command of any of the nine operations that its checks accept leaves the
queue with status DONE, and its counter is signalled after it where it names one. FILL sets each of its side-memory records to PARAM0
and PARAM1 and leaves the others. A DOT of one row adds the row's product sum to the high half of its record. A LOAD of one row loads
the record from memory, and a SAVE of one row stores it to memory. (R215, R216, R219, R224, R225.) -/
def Obligations.RowEngineRows : Prop :=
  (∀ (cl : ClusterRef) (s : State) (d : Nat) (att : Option Nat) (w : Word) (l : List (Nat × Option Nat × Word)),
    hasTile s cl.tile.val = true → (cluster s cl).reQueue = (d, att, w) :: l → s.mem.poison = [] → s.mem.windowPoison = [] →
    (cluster s cl).sidePoison = [] → armedKind s (.cluster cl) ≠ 3 → (∀ m : Fin 32, bankLoad s cl m = 0) → reHeld s cl d (reCmd (descWords s d)) = false →
    reRefused s cl (reCmd (descWords s d)) = none →
    ∀ e ∈ [(Instr.reFill cl, 0), (.reSmaxStep cl, 1), (.reSmaxFinal cl, 2), (.reDot cl, 3), (.reSmaxBwd cl, 4), (.reMomStep cl, 5),
           (.reMomFinal cl, 6), (.reSave cl, 7), (.reLoad cl, 8)],
      (reCmd (descWords s d)).op = e.2 →
      CompletesThen e.1 s (fun u => if (reCmd (descWords s d)).syncEn then signal (reCmd (descWords s d)).sync 1 (reWho cl att) att u else u) (fun t => (cluster t cl).reQueue = l ∧ fld t (.cluster cl) 0x208 23 16 = 1 ∧
        Frame [.regs, .slots, .tasks, .ctrs, .cores, .clusters, .mem, .granger, .streams, .net, .coll, .control, .step, .power, .traces, .out, .free] s t)) ∧
  (∀ (cl : ClusterRef) (s : State) (d : Nat) (att : Option Nat) (w : Word) (l : List (Nat × Option Nat × Word)),
    hasTile s cl.tile.val = true → (cluster s cl).reQueue = (d, att, w) :: l → s.mem.poison = [] → s.mem.windowPoison = [] →
    (cluster s cl).sidePoison = [] → (∀ m : Fin 32, bankLoad s cl m = 0) → reHeld s cl d (reCmd (descWords s d)) = false →
    reRefused s cl (reCmd (descWords s d)) = none →
    (reCmd (descWords s d)).first + (reCmd (descWords s d)).nrows ≤ 65536 →
    ((reCmd (descWords s d)).op = 0 → CompletesThen (.reFill cl) s
      (fun u => if (reCmd (descWords s d)).syncEn then signal (reCmd (descWords s d)).sync 1 (reWho cl att) att u else u) (fun t => ∀ i, mget 0 (cluster t cl).side i =
      (if (reCmd (descWords s d)).first ≤ i ∧ i < (reCmd (descWords s d)).first + (reCmd (descWords s d)).nrows
       then mkRec (reCmd (descWords s d)).param0 (reCmd (descWords s d)).param1 else mget 0 (cluster s cl).side i))) ∧
    ((reCmd (descWords s d)).op = 3 → (reCmd (descWords s d)).nrows = 1 → 0 < (reCmd (descWords s d)).len →
      CompletesThen (.reDot cl) s
      (fun u => if (reCmd (descWords s d)).syncEn then signal (reCmd (descWords s d)).sync 1 (reWho cl att) att u else u) (fun t => mget 0 (cluster t cl).side (reCmd (descWords s d)).first =
        mkRec (recLo (mget 0 (cluster s cl).side (reCmd (descWords s d)).first))
          (fadd (recHi (mget 0 (cluster s cl).side (reCmd (descWords s d)).first))
            (pieceSum (List.zipWith fmul
              (reLanes (reCmd (descWords s d)).ifmt (readMem s (reRow (reCmd (descWords s d)) (reCmd (descWords s d)).src 0)
                ((reCmd (descWords s d)).len * reSize (reCmd (descWords s d)).ifmt)) (reCmd (descWords s d)).len)
              (reLanes (reCmd (descWords s d)).ifmt (readMem s (reRow (reCmd (descWords s d)) (reCmd (descWords s d)).src2 0)
                ((reCmd (descWords s d)).len * reSize (reCmd (descWords s d)).ifmt)) (reCmd (descWords s d)).len)))))) ∧
    ((reCmd (descWords s d)).op = 8 → (reCmd (descWords s d)).nrows = 1 → CompletesThen (.reLoad cl) s
      (fun u => if (reCmd (descWords s d)).syncEn then signal (reCmd (descWords s d)).sync 1 (reWho cl att) att u else u) (fun t =>
      mget 0 (cluster t cl).side (reCmd (descWords s d)).first = rd64 s (addr48 (reCmd (descWords s d)).src))) ∧
    ((reCmd (descWords s d)).op = 7 → (reCmd (descWords s d)).nrows = 1 →
      CompletesThen (.reSave cl) s
      (fun u => if (reCmd (descWords s d)).syncEn then signal (reCmd (descWords s d)).sync 1 (reWho cl att) att u else u) (fun t => ∀ a, a < 2 ^ 48 → a ∉ addrs (d + 0x38) 8 → memRd t a =
        (if a ∈ addrs (reCmd (descWords s d)).dst 8
         then (leBytes (mget 0 (cluster s cl).side (reCmd (descWords s d)).first).toNat 8).getD
           ((a + 2 ^ 48 - (reCmd (descWords s d)).dst) % 2 ^ 48) 0
         else memRd s a))))

/-- Once the tile's heat window has lasted its length, its end halves the heat of the tile's bushels, adds the window's samples, clears
them, and changes no home (moves may start); with FREEZE_HEAT it leaves the bushels' heat. Before that it does nothing. The switch of a
move whose copy is at the front of its engine's queue, of a bushel with no poisoned line and no line held by the host, gives the bushel
its new home and ends the move, where no access is held for it and no pin change is due; with lines held it sends one snoop for each and
waits. The last response ends the switch, an earlier one takes its line off, and BI_TIMEOUT abandons it with the bushel where it was
once the time limit has passed. A response with dirty data stores it at the home. The merge of an adopted shadow leaves no line to
merge. (R257, R296, R319, R332, R353, R354, R360, R378.) -/
def Obligations.GrangerMoves : Prop :=
  (∀ (tile : Fin 8) (s : State), hasTile s tile.val = true →
    (s.now < mget 0 s.granger.heatEnd tile.val + heatWindow s → exec (.heatWindowEnd tile) s = .next s) ∧
    (mget 0 s.granger.heatEnd tile.val + heatWindow s ≤ s.now →
      (freezeHeat s = false → Completes (.heatWindowEnd tile) s (fun t =>
        (∀ n b, mfind s.mem.bushels n = some b → mfind t.mem.bushels n =
          some (if b.tile = tile.val then { b with heat := b.heat / 2 + samplesOf b, origin := [] } else b)) ∧
        t.mem.bytes = s.mem.bytes ∧ mget 0 t.granger.heatEnd tile.val = s.now ∧ Frame [.regs, .mem, .granger, .streams] s t)) ∧
      (freezeHeat s = true → Completes (.heatWindowEnd tile) s (fun t => t.mem.bushels = s.mem.bushels ∧ t.mem.bytes = s.mem.bytes ∧
        Frame [.regs, .mem, .granger, .streams] s t)))) ∧
  (∀ (n : BitVec 27) (s : State),
    (moveOf s n.toNat = none → exec (.migrationSwitch n) s = .next s ∧ exec (.biTimeout n) s = .next s) ∧
    (copyFront s n.toNat = none → exec (.migrationSwitch n) s = .next s) ∧
    (∀ m, moveOf s n.toNat = some m →
      (m.switching = false → copyFront s n.toNat ≠ none → (∀ l ∈ s.mem.poison, l / 32768 ≠ n.toNat) →
        (heldLines s n.toNat = [] → s.mem.held = [] → s.granger.pinMoves = [] → ∀ b, mfind s.mem.bushels n.toNat = some b →
          Completes (.migrationSwitch n) s (fun t => moveOf t n.toNat = none ∧
            (∃ b', mfind t.mem.bushels n.toNat = some b' ∧ b'.tier = m.tier ∧ b'.tile = m.tile ∧ b'.cluster = m.cluster ∧
              b'.committed = b.committed ∧ b'.heat = b.heat) ∧ Frame [.regs, .cores, .mem, .streams, .out, .free] s t)) ∧
        (heldLines s n.toNat ≠ [] →
          Completes (.migrationSwitch n) s (fun t =>
            moveOf t n.toNat = some { m with switching := true, snoops := heldLines s n.toNat, since := s.now } ∧
            copyFront t n.toNat = none ∧ t.mem.bytes = s.mem.bytes ∧ Frame [.regs, .mem, .streams, .out, .free] s t))) ∧
      (m.switching = true → exec (.migrationSwitch n) s = .next s ∧
        (s.now < m.since + biLimit s → exec (.biTimeout n) s = .next s) ∧
        (m.since + biLimit s ≤ s.now → s.mem.held = [] →
          Completes (.biTimeout n) s (fun t => moveOf t n.toNat = none ∧ t.mem.bushels = s.mem.bushels ∧ t.mem.bytes = s.mem.bytes ∧
            Frame [.regs, .mem, .streams, .out] s t ∧ RegFrame ((List.finRange 8).map (fun x => (pgStream x, 0x108))) s t)) ∧
        (∀ line : Fin 32768, (m.snoops.filter (fun x => decide (x ≠ 32768 * n.toNat + line.val)) ≠ [] →
          Completes (.bisnpResponse n line none) s (fun t =>
            moveOf t n.toNat = some { m with snoops := m.snoops.filter (fun x => decide (x ≠ 32768 * n.toNat + line.val)) } ∧
            (32768 * n.toNat + line.val) ∉ t.mem.snoop ∧ t.mem.bushels = s.mem.bushels ∧ Frame [.regs, .mem] s t)) ∧
          (m.snoops.filter (fun x => decide (x ≠ 32768 * n.toNat + line.val)) = [] → s.mem.held = [] → s.granger.pinMoves = [] →
            ∀ b, mfind s.mem.bushels n.toNat = some b →
            Completes (.bisnpResponse n line none) s (fun t => moveOf t n.toNat = none ∧
              (∃ b', mfind t.mem.bushels n.toNat = some b' ∧ b'.tier = m.tier ∧ b'.tile = m.tile ∧ b'.cluster = m.cluster) ∧
              Frame [.regs, .cores, .mem, .streams, .out, .free] s t))))) ∧
    (∀ (line : Fin 32768) (v : List Byte) (b : Bushel), moveOf s n.toNat = none → mfind s.mem.bushels n.toNat = some b → b.tier < 2 →
      attrOf s (64 * (32768 * n.toNat + line.val)) = .memory → v.length = 64 →
      Completes (.bisnpResponse n line (some v)) s (fun t => (32768 * n.toNat + line.val) ∉ t.mem.snoop ∧
        (∀ i, i < 64 → memRd t (64 * (32768 * n.toNat + line.val) + i) = v.getD i 0) ∧
        Frame [.regs, .cores, .mem, .granger, .out, .free] s t))) ∧
  (∀ (n : BitVec 27) (s : State),
    (mfind s.mem.bushels n.toNat = none → exec (.shadowMerge n) s = .next s) ∧
    (∀ b, mfind s.mem.bushels n.toNat = some b →
      (b.merging = 0 → exec (.shadowMerge n) s = .next s) ∧
      (b.merging ≠ 0 → Completes (.shadowMerge n) s (fun t =>
        mfind t.mem.bushels n.toNat = some { b with merging := 0 } ∧ t.mem.bytes = s.mem.bytes ∧
        Frame [.regs, .mem, .out] s t ∧ RegFrame [] s t))))

/-- A query of a task, a counter's owner, a bushel or a core writes the result words of its table to QUERY_RES0 and QUERY_RES1 and changes
nothing else: a task that is not known, a bushel that is not mapped, and a core that the part lacks or that is another module's give 0
in both words. (R339.) -/
def Obligations.GrangerQueries : Prop :=
  (∀ (key : BitVec 56) (s : State),
    (lastStarted (s.tasks.filter (fun t => decide (t.desc = key.toNat % 2 ^ 48))) = none →
      Completes (.queryTask key) s (fun t => rd t (pgGranger 0) 0x1A8 = 0 ∧ rd t (pgGranger 0) 0x1B0 = 0 ∧ Frame [.regs] s t ∧
        RegFrame [(pgGranger 0, 0x1A8), (pgGranger 0, 0x1B0)] s t)) ∧
    (∀ u, lastStarted (s.tasks.filter (fun t => decide (t.desc = key.toNat % 2 ^ 48))) = some u →
      Completes (.queryTask key) s (fun t => rd t (pgGranger 0) 0x1A8 = taskWho u ∧
        rd t (pgGranger 0) 0x1B0 = word (u.state.code + u.pieces <<< 8) ∧ Frame [.regs] s t ∧
        RegFrame [(pgGranger 0, 0x1A8), (pgGranger 0, 0x1B0)] s t)) ∧
    Completes (.queryCounterOwner key) s (fun t => rd t (pgGranger 0) 0x1A8 = (ctr s (key.toNat % 2 ^ 19)).owner ∧
      rd t (pgGranger 0) 0x1B0 = 0 ∧ Frame [.regs] s t ∧ RegFrame [(pgGranger 0, 0x1A8), (pgGranger 0, 0x1B0)] s t) ∧
    (mfind s.mem.bushels (key.toNat % 2 ^ 27) = none →
      Completes (.queryBushel key) s (fun t => rd t (pgGranger 0) 0x1A8 = 0 ∧ rd t (pgGranger 0) 0x1B0 = 0 ∧ Frame [.regs] s t)) ∧
    (∀ b, mfind s.mem.bushels (key.toNat % 2 ^ 27) = some b → b.tier < 4 → b.tile < 8 → b.cluster < 32 → b.hint < 4 →
      Completes (.queryBushel key) s (fun t => (rd t (pgGranger 0) 0x1A8).bit 0 = true ∧ fld t (pgGranger 0) 0x1A8 2 1 = b.tier ∧
        fld t (pgGranger 0) 0x1A8 5 3 = b.tile ∧ fld t (pgGranger 0) 0x1A8 10 6 = b.cluster ∧
        (rd t (pgGranger 0) 0x1A8).bit 11 = b.committed ∧ (rd t (pgGranger 0) 0x1A8).bit 14 = moving s (key.toNat % 2 ^ 27) ∧
        fld t (pgGranger 0) 0x1A8 16 15 = b.hint ∧ rd t (pgGranger 0) 0x1B0 = word b.heat ∧ Frame [.regs] s t)) ∧
    ((hasTile s (key.toNat / 2 ^ 9 % 8) = false ∨ 24 ≤ key.toNat / 16 % 32 ∨ key.toNat / 2 ^ 12 % 4096 ≠ ownCoord s) →
      Completes (.queryCore key) s (fun t => rd t (pgGranger 0) 0x1A8 = 0 ∧ rd t (pgGranger 0) 0x1B0 = 0 ∧ Frame [.regs] s t))) ∧
  (∀ (k : CoreRef) (key : BitVec 56) (s : State), hasTile s k.tile.val = true →
    key.toNat = k.core.val + 16 * k.cluster.val + 2 ^ 9 * k.tile.val + 2 ^ 12 * ownCoord s →
    Completes (.queryCore key) s (fun t => fld t (pgGranger 0) 0x1A8 15 0 = sat 16 (speedOf s k) ∧
      fld t (pgGranger 0) 0x1A8 31 16 = sat 16 (coreOf s k).speed ∧ (rd t (pgGranger 0) 0x1A8).bit 32 = excluded s k ∧
      Frame [.regs] s t ∧ RegFrame [(pgGranger 0, 0x1A8), (pgGranger 0, 0x1B0)] s t))

/-- A host read of MEMORY that is not being switched and not poisoned returns its bytes and changes no byte, and a caching read enters its
last line in the snoop filter; an access to a bushel that is being switched is held and nothing else happens; one that touches a page
that is not MEMORY returns all ones with the error indication, counts, and sets ACCESS. A host write of MEMORY of an uncompressed tier
that no committed bushel closes sets exactly its bytes; one that is refused sets ACCESS or STATE, counts, and writes nothing. An
uncorrectable error poisons the stored copy that has it, the home, the shadow line, the window copy or the side-memory record, and in a
cluster memory counts; a corrected one poisons nothing. A controller that loses training is UNUSABLE. A scrub pass that is on adds its
corrected words to CE_COUNT and sets CE. (R351, R357, R358, R360, R395, R552.) -/
def Obligations.HostMemory : Prop :=
  (∀ (a : BitVec 48) (n : Fin 65) (s : State),
    (rangeMemory s a.toNat n.val = true → heldRange s a.toNat n.val = false →
      (linesOf a.toNat n.val).filter (poisonedAs s false) = [] → ∀ c,
      Completes (.cxlmemRead a n c) s (fun t => t.out.reply = .data (readMem s a.toNat n.val) false ∧ t.mem.bytes = s.mem.bytes ∧
        (c = true → ∀ l, (linesOf a.toNat n.val).getLast? = some l → l ∈ t.mem.snoop) ∧ Frame [.regs, .mem, .out, .free] s t)) ∧
    (rangeMemory s a.toNat n.val = true → heldRange s a.toNat n.val = true → ∀ c,
      Completes (.cxlmemRead a n c) s (fun t => t.mem.held = s.mem.held ++ [.read a.toNat n.val c] ∧ t.mem.bytes = s.mem.bytes ∧
        t.mem.bushels = s.mem.bushels ∧ Frame [.mem] s t)) ∧
    (rangeMemory s a.toNat n.val = false → ∀ c, Completes (.cxlmemRead a n c) s (fun t =>
      t.out.reply = .data (List.replicate n.val 0xFF) true ∧ rd t pgHostif 0x1D0 = rd s pgHostif 0x1D0 + 1 ∧
      rd t pgHostif 0x1C8 = word a.toNat ∧ (rd t pgHostif 0x028).bit 0 = true ∧ Frame [.regs, .out] s t ∧
      RegFrame [(pgHostif, 0x1C8), (pgHostif, 0x1D0), (pgHostif, 0x028), (pgHostif, 0x038)] s t))) ∧
  (∀ (a : BitVec 48) (v : List Byte) (s : State), v.length ≤ 64 →
    (rangeMemory s a.toNat v.length = true → heldRange s a.toNat v.length = false →
      (slotsQuiet s = true ∨ touchesCommitted s a.toNat v.length = false) →
      (∀ i ∈ bushelsOf a.toNat v.length, ∀ b, mfind s.mem.bushels i = some b → b.tier < 2) →
      Completes (.cxlmemWrite a v) s (fun t =>
        (∀ i, i < v.length → memRd t (a.toNat + i) = v.getD i 0) ∧
        (∀ x, addr48 x ∉ addrs a.toNat v.length → memRd t x = memRd s x) ∧ Frame [.regs, .cores, .mem, .granger, .out, .free] s t)) ∧
    (rangeMemory s a.toNat v.length = true → heldRange s a.toNat v.length = true →
      Completes (.cxlmemWrite a v) s (fun t => t.mem.held = s.mem.held ++ [.write a.toNat v] ∧ t.mem.bytes = s.mem.bytes ∧
        t.mem.bushels = s.mem.bushels ∧ Frame [.mem] s t)) ∧
    (rangeMemory s a.toNat v.length = false → Completes (.cxlmemWrite a v) s (fun t =>
      rd t pgHostif 0x1D8 = rd s pgHostif 0x1D8 + 1 ∧ (rd t pgHostif 0x028).bit 0 = true ∧ Frame [.regs, .out] s t)) ∧
    (rangeMemory s a.toNat v.length = true → heldRange s a.toNat v.length = false → slotsQuiet s = false → touchesCommitted s a.toNat v.length = true →
      Completes (.cxlmemWrite a v) s (fun t =>
        rd t pgHostif 0x1D8 = rd s pgHostif 0x1D8 + 1 ∧ (rd t pgHostif 0x028).bit 4 = true ∧ Frame [.regs, .out] s t))) ∧
  (∀ (a : BitVec 48) (b : Bushel) (s : State), bushelAt s a.toNat = some b → b.tier = 0 → b.tile < 8 → b.cluster < 24 →
    Completes (.memoryEccError (.home a) true) s (fun t => lineNo a.toNat ∈ t.mem.poison ∧ t.mem.bytes = s.mem.bytes ∧
      rd t (.cluster ⟨Fin.ofNat 8 b.tile, Fin.ofNat 24 b.cluster⟩) 0x310 =
        rd s (.cluster ⟨Fin.ofNat 8 b.tile, Fin.ofNat 24 b.cluster⟩) 0x310 + 1 ∧
      rd t (.cluster ⟨Fin.ofNat 8 b.tile, Fin.ofNat 24 b.cluster⟩) 0x318 = word (64 * lineNo a.toNat) ∧
      Frame [.regs, .mem, .out] s t) ∧
    Completes (.memoryEccError (.home a) false) s (fun t => t.mem = s.mem ∧ Frame [.regs, .out] s t) ∧
    (lineNo a.toNat ∈ s.mem.shadowLines → Completes (.memoryEccError (.shadow a) true) s (fun t =>
      lineNo a.toNat ∈ t.mem.shadowPoison ∧ t.mem.poison = s.mem.poison ∧ Frame [.regs, .mem, .out] s t)) ∧
    (copyAt s a.toNat = true → Completes (.memoryEccError (.window a) true) s (fun t =>
      lineNo a.toNat ∈ t.mem.windowPoison ∧ t.mem.poison = s.mem.poison ∧ Frame [.regs, .mem, .out] s t))) ∧
  (∀ (cl : ClusterRef) (i : Fin 65536) (s : State), hasTile s cl.tile.val = true →
    Completes (.memoryEccError (.record cl i) true) s (fun t => i.val ∈ (cluster t cl).sidePoison ∧
      (rd t (.cluster cl) 0x028).bit errUe = true ∧ Frame [.regs, .clusters, .out] s t)) ∧
  (∀ (tile : Fin 8) (c : Fin 3) (n : Nat) (s : State), hasTile s tile.val = true →
    (mcUnusable s tile.val c.val = true → exec (.memoryUnusable tile c) s = .next s) ∧
    (mcUnusable s tile.val c.val = false → (∀ e ∈ s.mem.bushels, homeIs tile.val c.val e.2 = false) →
      s.mem.shadowAlloc = [] → s.mem.copies = [] →
      Completes (.memoryUnusable tile c) s (fun t => mcUnusable t tile.val c.val = true ∧ fld t (pgMc tile c) 0x100 1 0 = 3 ∧
        t.mem.bytes = s.mem.bytes ∧ Frame [.regs, .mem] s t ∧
        RegFrame ((pgMc tile c, 0x100) :: (List.finRange 8).map (fun x => (pgGranger x, 0x190))) s t)) ∧
    (fldA s (pgMc tile c) 0x120 15 0 = 0 → exec (.patrolScrub tile c n) s = .next s) ∧
    (fldA s (pgMc tile c) 0x120 15 0 ≠ 0 → mcUnusable s tile.val c.val = false → n ≠ 0 →
      Completes (.patrolScrub tile c n) s (fun t => rd t (pgMc tile c) 0x108 = rd s (pgMc tile c) 0x108 + word n ∧
        (rd t (pgMc tile c) 0x028).bit errCe = true ∧ Frame [.regs, .out] s t ∧
        RegFrame [(pgMc tile c, 0x108), (pgMc tile c, 0x028), (pgMc tile c, 0x038)] s t)))

/-- A write of SUBMIT queues the descriptor while the queue has room; with a full queue a write of the host or of another agent that is not
a core sets FULL and the full error, and a core's store is held. Reading STAT clears FULL. A FETCH or DROP of Granger completes with
DONE on an engine that is not lost, and signals its counter after it where it names one: after the FETCH, of a range of which nothing is
being switched, every bushel of the range that takes window space on the tile has a copy, after the DROP the tile holds no copy of the
range. A COPY of open, unpoisoned memory completes with DONE and signals likewise; where its ranges do not overlap and no home is
compressed it sets exactly the destination's bytes, beside its status word, to the source's. On an empty queue the three have no effect,
and neither has one whose operation is not that of the front command. (R353, R356, R366, R371, R377, R378, R379, R380, R393.) -/
def Obligations.StreamEngine : Prop :=
  (∀ (r : Requester) (tile : Fin 8) (v : Word) (s : State), hasTile s tile.val = true → badRequester s r = false → issues s r = true →
    ((streamQ s tile.val).length < 64 → Completes (.streamSubmit r tile v) s (fun t =>
      streamQ t tile.val = streamQ s tile.val ++ [⟨some (v.bits 47 0), [], reqAtt s r, reqWho s r, 0, none⟩] ∧
      fld t (pgStream tile) 0x108 6 0 = (streamQ s tile.val).length + 1 ∧ Frame [.regs, .streams, .out] s t ∧
      RegFrame [(pgStream tile, 0x108), (pgStream tile, 0x028), (pgStream tile, 0x038)] s t)) ∧
    (64 ≤ (streamQ s tile.val).length → (∀ k, r ≠ .core k) → Completes (.streamSubmit r tile v) s (fun t =>
      fld t (pgStream tile) 0x108 9 9 = 1 ∧ (rd t (pgStream tile) 0x028).bit errFull = true ∧ Frame [.regs, .out] s t)) ∧
    (64 ≤ (streamQ s tile.val).length → ∀ k, r = .core k →
      exec (.streamSubmit r tile v) s = .next (holdStore k (pgStream tile) 0x100 v s))) ∧
  (∀ (tile : Fin 8) (s : State), hasTile s tile.val = true →
    Completes (.streamStatRead tile) s (fun t => t.out.reply = .word (rd s (pgStream tile) 0x108) ∧
      fld t (pgStream tile) 0x108 9 9 = 0 ∧ Frame [.regs, .out] s t ∧ RegFrame [(pgStream tile, 0x108)] s t) ∧
    (streamQ s tile.val = [] → exec (.streamFetch tile) s = .next s ∧ exec (.streamDrop tile) s = .next s ∧
      exec (.streamCopy tile) s = .next s) ∧
    (∀ c l, streamQ s tile.val = c :: l → (stOp (streamWords s c) ≠ 1 → exec (.streamFetch tile) s = .next s) ∧
      (stOp (streamWords s c) ≠ 2 → exec (.streamDrop tile) s = .next s) ∧
      (stOp (streamWords s c) = 1 ∨ stOp (streamWords s c) = 2 → descStatus s c = none → exec (.streamCopy tile) s = .next s))) ∧
  (∀ (tile : Fin 8) (c : StreamCmd) (l : List StreamCmd) (s : State), hasTile s tile.val = true → streamQ s tile.val = c :: l →
    streamLost s tile = false → c.desc = none →
    (stOp c.words = 1 → 0 < stLen c.words → rangeMemory s (stSrc c.words) (stLen c.words) = true →
      heldRange s (stSrc c.words) (stLen c.words) = false →
      (∀ n ∈ bushelsOf (stSrc c.words) (stLen c.words), bushelPoison s n = none) →
      CompletesThen (.streamFetch tile) s
        (fun u => if cw c.words 4 19 19 = 1 then signal (cw c.words 4 18 0) (cw c.words 4 63 32) (unitWho 4 tile.val 0 c.att) c.att u else u) (fun t => streamQ t tile.val = l ∧ fld t (pgStream tile) 0x108 23 16 = 1 ∧
        (∀ n ∈ bushelsOf (stSrc c.words) (stLen c.words), needsCopy s n = true → windowTile s n = tile.val → hasCopy t n = true) ∧
        t.mem.bytes = s.mem.bytes ∧ Frame [.regs, .mem, .granger, .streams, .traces, .out, .free] s t)) ∧
    (stOp c.words = 2 → CompletesThen (.streamDrop tile) s
        (fun u => if cw c.words 4 19 19 = 1 then signal (cw c.words 4 18 0) (cw c.words 4 63 32) (unitWho 4 tile.val 0 c.att) c.att u else u) (fun t => streamQ t tile.val = l ∧ fld t (pgStream tile) 0x108 23 16 = 1 ∧
        (∀ w ∈ t.mem.copies, ¬ (w.tile = tile.val ∧ w.bushel ∈ bushelsOf (stSrc c.words) (stLen c.words))) ∧
        (∀ w ∈ s.mem.copies, w.tile ≠ tile.val → w ∈ t.mem.copies) ∧ t.mem.bytes = s.mem.bytes ∧
        Frame [.regs, .mem, .streams, .traces, .out] s t))) ∧
  (∀ (tile : Fin 8) (c : StreamCmd) (l : List StreamCmd) (a : Nat) (s : State), hasTile s tile.val = true →
    streamQ s tile.val = c :: l → c.move = none → streamLost s tile = false →
    c.desc = some a → descStatus s c = none → streamBad s c = false → stOp (descWords s a) = 3 →
    0 < stLen (descWords s a) → rangeMemory s (stSrc (descWords s a)) (stLen (descWords s a)) = true →
    rangeMemory s (stDst (descWords s a)) (stLen (descWords s a)) = true →
    (slotsQuiet s = true ∨ touchesCommitted s (stDst (descWords s a)) (stLen (descWords s a)) = false) →
    heldRange s (stSrc (descWords s a)) (stLen (descWords s a)) = false →
    heldRange s (stDst (descWords s a)) (stLen (descWords s a)) = false →
    poisonIn s false (stSrc (descWords s a)) (stLen (descWords s a)) = none →
    CompletesThen (.streamCopy tile) s
        (fun u => if cw (descWords s a) 4 19 19 = 1 then signal (cw (descWords s a) 4 18 0) (cw (descWords s a) 4 63 32) (unitWho 4 tile.val 0 c.att) c.att u else u) (fun t => streamQ t tile.val = l ∧ fld t (pgStream tile) 0x108 23 16 = 1 ∧
      ((∀ x ∈ addrs (stDst (descWords s a)) (stLen (descWords s a)), x ∉ addrs (stSrc (descWords s a)) (stLen (descWords s a))) → (∀ e ∈ s.mem.bushels, e.2.tier < 2) →
      (∀ i, i < stLen (descWords s a) → addr48 (stDst (descWords s a) + i) ∉ addrs (a + 0x38) 8 →
        memRd t (stDst (descWords s a) + i) = plainRd s (stSrc (descWords s a) + i)) ∧
      (∀ x, addr48 x ∉ addrs (stDst (descWords s a)) (stLen (descWords s a)) → addr48 x ∉ addrs (a + 0x38) 8 → memRd t x = memRd s x)) ∧
      Frame [.regs, .cores, .mem, .granger, .streams, .traces, .out, .free] s t))

/-- A visit of a slot's cursor to a layer that is resident or in flight, and is not being dropped, takes the visit off the plan, notes it,
records the layer in STREAM.WINDOW_STAT while no other cursor's step is live and in the slot, and makes the layer's arrival signals due.
A visit to another layer of STREAM tensors, while the window has room, notes the visit and queues a FETCH of each tensor on each tile
that is to hold copies of it; with a full window it queues DROPs of the layer released first. With no live cursor, no plan, or with a
full window and no layer to release, nothing happens. The due signals of a resident layer leave each cursor's list, and before the
launches their counters are held in order, each with the engine that sends it; those of a layer that is not resident wait. (R293, R370,
R371, R372, R373, R375, R393.) -/
def Obligations.WindowCursor : Prop :=
  (∀ (n : Fin 64) (s : State), (cursorLive s n.val = false ∨ cursorOf s n.val = none) → exec (.windowCursorVisit n) s = .next s) ∧
  (∀ (n : Fin 64) (c : Cursor) (s : State), cursorLive s n.val = true → cursorOf s n.val = some c →
    (c.plan = [] → exec (.windowCursorVisit n) s = .next s) ∧
    (∀ layer back rest, c.plan = (layer, back) :: rest →
      (((resident s layer || inFlight s layer) && !dropping s layer) = true →
        Completes (.windowCursorVisit n) s (fun t =>
          cursorOf t n.val = some { c with plan := rest, visited := c.visited ++ [(layer, back)], arrivals := c.arrivals ++ dueEntries s layer false } ∧
          ((stepLive s = true ∧ s.step.slot ≠ some n.val) ∨ fld t (pgStream 0) 0x128 32 16 = (layer + b2n back <<< 16) % 2 ^ 17) ∧
          (slot t n.val).layer = word (layer + b2n back <<< 16) ∧ (slot t n.val).state = (slot s n.val).state ∧
          Frame [.regs, .slots, .granger] s t ∧ RegFrame [(pgStream 0, 0x128)] s t)) ∧
      (((resident s layer || inFlight s layer) && !dropping s layer) = false →
        (windowDepth s ≤ (heldLayers s).length → releaseChoice s layer = none → exec (.windowCursorVisit n) s = .next s) ∧
        ((heldLayers s).length < windowDepth s ∨ releaseChoice s layer ≠ none →
          (∀ i ∈ layerEntries s layer, isStream s i = true) → Completes (.windowCursorVisit n) s (fun t =>
            cursorOf t n.val = some { c with plan := rest, visited := c.visited ++ [(layer, back)], arrivals := c.arrivals ++ dueEntries s layer true } ∧
            (∀ i ∈ layerEntries s layer, ∀ b ∈ tensorBushels s i, needsCopy s b = true → hasTile s (windowTile s b) = true →
              ∃ q ∈ streamQ t (windowTile s b), stOp q.words = 1 ∧ stSrc q.words = (ltWord s i 0).bits 47 0 ∧
                stLen q.words = (ltWord s i 1).bits 39 0 ∧ q.layer = layer) ∧
            Frame [.regs, .slots, .granger, .streams] s t))))) ∧
  (∀ (layer : BitVec 16) (s : State),
    (resident s layer.toNat = false → exec (.layerArrivalSignal layer) s = .next s) ∧
    (resident s layer.toNat = true → (s.granger.cursors.map (fun c => c.slot)).Nodup →
      (∀ c ∈ s.granger.cursors, cursorAtt s c.slot = none) →
      Completes (.layerArrivalSignal layer) s (fun t =>
        t.granger.cursors = s.granger.cursors.map (fun c =>
          { c with arrivals := c.arrivals.filter (fun e => decide (e.1 ≠ layer.toNat)),
                   held := c.held ++ (c.arrivals.filter (fun e => decide (e.1 = layer.toNat))).map (fun e =>
                     ((ltWord s e.2 2).bits 18 0, if isGather s e.2 then 5 else 4, if isGather s e.2 then gatherTile s e.2 else 0)) }) ∧
        Frame [.granger] s t)))

/-- A GO of an enabled channel that is not BUSY, with legal fixed addresses and a count above 0, makes it BUSY from now, for the attempt of
the requester; a GO of a BUSY or disabled channel is ignored and sets STATE. A burst of the next channel between open, unpoisoned ranges
adds its bytes to the issued and returned counts, and between uncompressed ranges that do not overlap sets exactly its destination bytes
to the source's; with no channel that may issue it has no effect. The share window takes each channel's budget, for every 4,000 BT ns
window since its last one, off what it has started. A BUSY channel that has issued all its bytes completes DONE, with DONE_TIME and
COMPLETIONS, and then signals its counter and raises its interrupt where it names them. (R381, R382, R384, R387, R388.) -/
def Obligations.DmaChannels : Prop :=
  (∀ (r : Requester) (tile : Fin 8) (n : Fin 32) (s : State), hasTile s tile.val = true → badRequester s r = false → issues s r = true →
    exec (.dmaGo r tile n 0) s = .next s ∧
    ((dmaState s tile n = dmBusy ∨ (rd s (pgDma tile n) 0x010).bit 0 = false) →
      Completes (.dmaGo r tile n 1) s (fun t => (rd t (pgDma tile n) 0x028).bit 4 = true ∧ Frame [.regs, .out] s t)) ∧
    (dmaState s tile n ≠ dmBusy → (rd s (pgDma tile n) 0x010).bit 0 = true → dmaCount s (pgDma tile n) ≠ 0 →
      (srcFixed s (pgDma tile n) = true → fixedBad s (pgDma tile n) (dmaSrc s (pgDma tile n)) = false) →
      (dstFixed s (pgDma tile n) = true → fixedBad s (pgDma tile n) (dmaDst s (pgDma tile n)) = false) →
      Completes (.dmaGo r tile n 1) s (fun t => dmaState t tile n = dmBusy ∧
        dmaOf t tile n = { started := s.now, att := reqAtt s r, startedInWindow := (dmaOf s tile n).startedInWindow,
                           window := (dmaOf s tile n).window } ∧
        Frame [.regs, .dmas] s t ∧ RegFrame [(pgDma tile n, 0x130)] s t))) ∧
  (∀ (tile : Fin 8) (s : State), hasTile s tile.val = true →
    ((nextChannel s tile = none ∨ dmaLost s tile = true) → exec (.dmaBurst tile) s = .next s) ∧
    (∀ n src dst len, dmaLost s tile = false → nextChannel s tile = some n →
      len = min (burstBytes s (pgDma tile n)) (dmaCount s (pgDma tile n) - (dmaOf s tile n).issued) →
      src = addr48 (if srcFixed s (pgDma tile n) then dmaSrc s (pgDma tile n) else dmaSrc s (pgDma tile n) + (dmaOf s tile n).issued) →
      dst = addr48 (if dstFixed s (pgDma tile n) then dmaDst s (pgDma tile n) else dmaDst s (pgDma tile n) + (dmaOf s tile n).issued) →
      rangeMemory s src len = true → rangeMemory s dst len = true → (slotsQuiet s = true ∨ touchesCommitted s dst len = false) →
      heldRange s src len = false → heldRange s dst len = false → poisonIn s false src len = none →
      Completes (.dmaBurst tile) s (fun t =>
        (dmaOf t tile n).issued = (dmaOf s tile n).issued + len ∧ (dmaOf t tile n).returned = (dmaOf s tile n).returned + len ∧
        mget 0 t.dmaNext tile.val = (n.val + 1) % 32 ∧
        (srcFixed s (pgDma tile n) = false →
          (∀ x ∈ addrs dst len, dmaCount s (pgDma tile n) ≤ (x + 2 ^ 48 - dmaSrc s (pgDma tile n)) % 2 ^ 48) →
          (∀ e ∈ s.mem.bushels, e.2.tier < 2) →
          (∀ i, i < len → memRd t (dst + i) = plainRd s (src + i)) ∧
          (∀ x, addr48 x ∉ addrs dst len → memRd t x = memRd s x)) ∧ Frame [.regs, .cores, .mem, .granger, .dmas, .dmaNext, .out, .free] s t)) ∧
    Completes (.dmaShareWindow tile) s (fun t => (∀ n : Fin 32, (dmaOf t tile n).startedInWindow =
        (if s.now / 4000 ≤ (dmaOf s tile n).window then (dmaOf s tile n).startedInWindow
         else if dmaShare s (pgDma tile n) = 0 then 0
         else max 0 ((dmaOf s tile n).startedInWindow - ((s.now / 4000 - (dmaOf s tile n).window : Nat) : Int) * dmaBudget s (pgDma tile n))) ∧
        (dmaOf t tile n).window = max (s.now / 4000) (dmaOf s tile n).window ∧
        (dmaOf t tile n).issued = (dmaOf s tile n).issued ∧ (dmaOf t tile n).returned = (dmaOf s tile n).returned) ∧ Frame [.dmas] s t)) ∧
  (∀ (tile : Fin 8) (n : Fin 32) (s : State), hasTile s tile.val = true →
    ((dmaState s tile n ≠ dmBusy ∨ dmaLost s tile = true) → exec (.dmaComplete tile n) s = .next s) ∧
    (dmaState s tile n = dmBusy → dmaLost s tile = false → (dmaOf s tile n).finishing = false → (dmaOf s tile n).issued = dmaCount s (pgDma tile n) →
      CompletesThen (.dmaComplete tile n) s
        (fun u => (fun v => if (rd v (pgDma tile n) 0x118).bit 32 then irq v (fld v (pgDma tile n) 0x118 48 40) else v)
          (if (rd s (pgDma tile n) 0x120).bit 19 then signal (fld s (pgDma tile n) 0x120 18 0) (fld s (pgDma tile n) 0x120 63 32)
            (unitWho 2 tile.val n.val (dmaOf s tile n).att) (dmaOf s tile n).att u else u)) (fun t => dmaState t tile n = 2 ∧ fld t (pgDma tile n) 0x130 15 8 = 0 ∧
        rd t (pgDma tile n) 0x138 = nowW s ∧ rd t (pgDma tile n) 0x140 = rd s (pgDma tile n) 0x140 + 1 ∧
        Frame [.regs, .dmas, .traces, .out] s t)))

/-- A signal on every lane takes DETECT to TRAIN; trained lanes take TRAIN or RETRAIN to ALIGN and aligned flits ALIGN to IDENTIFY; an
identification that succeeds gives ACTIVE with the neighbour's coordinate and port, and one that fails DOWN with its cause, while not
all ports are DOWN. Training that lasts 200 BT ms from DETECT, or 100 BT ms from RETRAIN, gives DOWN with TRAIN_FAIL, or RETRAIN_FAIL
when the port was retraining. A lost link in ACTIVE gives RETRAIN and counts, and is then a fault of a RUNNING step. A write of 1 to
RETRAIN gives RETRAIN from ACTIVE, and from DOWN where the port may run, and clears the cause; a DOWN port that may not run goes
DISABLED. In any other state each of them leaves the port as it is. (R452, R462, R463, R464, R465, R466.) -/
def Obligations.PeerLinks : Prop :=
  (∀ (n : Fin 6) (s : State),
    (linkState s n = 1 → Completes (.portSignalDetect n) s (fun t => linkState t n = 2 ∧ Frame [.regs] s t ∧
      RegFrame [(pgPeer n, 0x110)] s t)) ∧
    (linkState s n ≠ 1 → exec (.portSignalDetect n) s = .next s) ∧
    ((linkState s n = 2 ∨ linkState s n = 6) → ∀ margins, Completes (.linkTrainComplete n (.trained margins)) s (fun t => linkState t n = 3 ∧
      fld t (pgPeer n) 0x110 15 8 = 0xFF ∧ rd t (pgPeer n) 0x160 = margins ∧ Frame [.regs] s t ∧
      RegFrame [(pgPeer n, 0x110), (pgPeer n, 0x160)] s t)) ∧
    (linkState s n = 3 → Completes (.linkTrainComplete n .aligned) s (fun t => linkState t n = 4 ∧ Frame [.regs] s t ∧
      RegFrame [(pgPeer n, 0x110)] s t)) ∧
    (linkState s n ≠ 2 → linkState s n ≠ 6 → ∀ margins, exec (.linkTrainComplete n (.trained margins)) s = .next s) ∧
    (linkState s n ≠ 3 → exec (.linkTrainComplete n .aligned) s = .next s)) ∧
  (∀ (n : Fin 6) (i : NeighbourInfo) (s : State),
    (linkState s n = 4 → identifyCause s n.val i = 0 → Completes (.linkIdentify n i) s (fun t => linkState t n = 5 ∧
      fld t (pgPeer n) 0x118 11 0 = i.coord.toNat ∧ fld t (pgPeer n) 0x118 14 12 = i.port.val ∧ (rd t (pgPeer n) 0x118).bit 15 = true ∧
      (port t n.val).retraining = false ∧ Frame [.regs, .ports, .out] s t)) ∧
    (linkState s n = 4 → identifyCause s n.val i ≠ 0 → (port s n.val).retry = [] → (port s n.val).waiting = [] →
      (∃ m : Fin 6, m ≠ n ∧ linkState s m ≠ 7) → Completes (.linkIdentify n i) s (fun t => linkState t n = 7 ∧ fld t (pgPeer n) 0x110 7 4 = identifyCause s n.val i ∧
        Frame [.regs, .ports] s t ∧ RegFrame [(pgPeer n, 0x110)] s t)) ∧
    (linkState s n ≠ 4 → exec (.linkIdentify n i) s = .next s)) ∧
  (∀ (n : Fin 6) (s : State),
    (linkState s n ≠ 0 → linkState s n ≠ 5 → linkState s n ≠ 7 → (port s n.val).retry = [] → (port s n.val).waiting = [] →
      (∃ m : Fin 6, m ≠ n ∧ linkState s m ≠ 7) →
      (port s n.val).since + (if (port s n.val).retraining then 100000000 else 200000000) ≤ s.now → Completes (.linkTrainTimeout n) s (fun t => linkState t n = 7 ∧
        fld t (pgPeer n) 0x110 7 4 = (if (port s n.val).retraining then 6 else 3) ∧ Frame [.regs, .ports] s t ∧
        RegFrame [(pgPeer n, 0x110)] s t)) ∧
    ((linkState s n = 0 ∨ linkState s n = 5 ∨ linkState s n = 7 ∨
      s.now < (port s n.val).since + (if (port s n.val).retraining then 100000000 else 200000000)) →
      exec (.linkTrainTimeout n) s = .next s) ∧
    (linkState s n = 5 →
      (∀ c ∈ [Instr.peerLinkLost n, .linkCmdRetrain n 1], CompletesThen c s (leaveActive n.val) (fun t => linkState t n = 6 ∧
        rd t (pgPeer n) 0x138 = rd s (pgPeer n) 0x138 + 1 ∧ (port t n.val).retraining = true ∧
        (port t n.val).waiting = (port s n.val).waiting ∧ Frame [.regs, .ports] s t ∧
        RegFrame [(pgPeer n, 0x110), (pgPeer n, 0x138)] s t))) ∧
    (linkState s n = 7 → portAllowed s n.val = false → (port s n.val).retry = [] → (port s n.val).waiting = [] →
      Completes (.linkCmdRetrain n 1) s (fun t => linkState t n = 0 ∧ fld t (pgPeer n) 0x110 7 4 = 1 ∧ Frame [.regs, .ports] s t ∧
        RegFrame [(pgPeer n, 0x110)] s t)) ∧
    (linkState s n = 7 → portAllowed s n.val = true → Completes (.linkCmdRetrain n 1) s (fun t => linkState t n = 6 ∧ fld t (pgPeer n) 0x110 7 4 = 0 ∧
        (port t n.val).txSeq = 0 ∧ (port t n.val).retraining = true ∧ Frame [.regs, .ports] s t ∧
        RegFrame [(pgPeer n, 0x110), (pgPeer n, 0x138)] s t)) ∧
    (linkState s n ≠ 5 → exec (.peerLinkLost n) s = .next s) ∧
    (linkState s n ≠ 5 → linkState s n ≠ 7 → exec (.linkCmdRetrain n 1) s = .next s) ∧
    exec (.linkCmdRetrain n 0) s = .next s)

/-- At an ACTIVE port an intact flit whose SEQ follows is accepted and takes the receive sequence on; any other intact flit is not, and
makes NAK due; both acknowledge the flits up to the one they name; a flit that is not intact counts its codewords, is discarded, and
makes NAK due. 4 BT µs without a new acknowledgement count a replay of every unacknowledged flit. Returned credits add up to the
buffer's size. A packet for another module that has made 48 hops, or has expired, is dropped and counted; one that leaves by another
attachment goes onto the package's network; one of the next epoch, or one for memory that is being switched, is held with its credits. A
SLOTTED packet of the present step and group waits for its slot while the port's buffer has room for its flits; without room it is
dropped and counted, and one of another step or group is dropped and counted. At a port that is not ACTIVE none of them has an effect.
(R451, R452, R453, R458, R460, R461, R467, R468, R495.) -/
def Obligations.PeerFlits : Prop :=
  (∀ (n : Fin 6) (f : WelurFlit) (s : State), linkState s n = 5 → (port s n.val).waiting = [] →
    (f.uncorrectable = 0 → f.crcOk = true → f.nak = false → f.seq.toNat = ((port s n.val).rxSeq + 1) % 2 ^ 15 →
      Completes (.welurFlitReceive n f) s (fun t => (port t n.val).rxSeq = f.seq.toNat ∧ (port t n.val).waitReplay = false ∧
        (port t n.val).retry = (match (port s n.val).retry.findIdx? (fun e => decide (e.1 = f.ack.toNat)) with
          | some i => (port s n.val).retry.drop (i + 1) | none => (port s n.val).retry) ∧
        rd t (pgPeer n) 0x120 = rd s (pgPeer n) 0x120 + word f.corrected ∧ Frame [.regs, .ports] s t ∧
        RegFrame [(pgPeer n, 0x120), (pgPeer n, 0x128)] s t)) ∧
    (f.uncorrectable = 0 → f.crcOk = true → f.nak = false → f.seq.toNat ≠ ((port s n.val).rxSeq + 1) % 2 ^ 15 →
      Completes (.welurFlitReceive n f) s (fun t => (port t n.val).rxSeq = (port s n.val).rxSeq ∧ (port t n.val).waitReplay = true ∧
        (port t n.val).retry = (match (port s n.val).retry.findIdx? (fun e => decide (e.1 = f.ack.toNat)) with
          | some i => (port s n.val).retry.drop (i + 1) | none => (port s n.val).retry) ∧
        Frame [.regs, .ports] s t ∧ RegFrame [(pgPeer n, 0x120), (pgPeer n, 0x128)] s t)) ∧
    ((f.uncorrectable ≠ 0 ∨ f.crcOk = false) → Completes (.welurFlitReceive n f) s (fun t =>
        port t n.val = { port s n.val with waitReplay := true } ∧
        rd t (pgPeer n) 0x120 = rd s (pgPeer n) 0x120 + word f.corrected ∧
        rd t (pgPeer n) 0x128 = rd s (pgPeer n) 0x128 + word f.uncorrectable ∧ Frame [.regs, .ports] s t ∧
        RegFrame [(pgPeer n, 0x120), (pgPeer n, 0x128)] s t)) ∧
    (∀ w : Word, Completes (.peerCredit n w) s (fun t =>
      (port t n.val).credits = (List.range 4).map (fun v => min 512 ((port s n.val).credits.getD v 0 + w.bits (16 * v + 15) (16 * v))) ∧
      Frame [.ports] s t))) ∧
  (∀ (n : Fin 6) (s : State), linkState s n = 5 →
    (((port s n.val).retry = [] ∨ s.now < (port s n.val).ackSince + 4000) → exec (.replayTimeout n) s = .next s) ∧
    ((port s n.val).retry ≠ [] → (port s n.val).ackSince + 4000 ≤ s.now → (recentReplays s (port s n.val)).length < 16 → (∀ e ∈ (port s n.val).retry, e.2.1 + 1 < 8) →
      Completes (.replayTimeout n) s (fun t =>
        (port t n.val).retry = (port s n.val).retry.map (fun e => (e.1, e.2.1 + 1, e.2.2)) ∧ linkState t n = 5 ∧
        rd t (pgPeer n) 0x130 = rd s (pgPeer n) 0x130 + 1 ∧ Frame [.regs, .ports, .out] s t ∧
        RegFrame [(pgPeer n, 0x130)] s t))) ∧
  (∀ (n : Fin 6) (p : PeerPacket) (s : State), linkState s n = 5 → 4 ≤ p.kind.val → p.kind.val < 10 →
    (p.dst.toNat ≠ ownCoord s → 48 ≤ p.hops → Completes (.peerPacketReceive n p) s (fun t =>
      rd t (pgPeer n) 0x150 = rd s (pgPeer n) 0x150 + 1 ∧ t.coll = s.coll ∧ Frame [.regs, .ports, .out] s t)) ∧
    (peerExpired s p = true → (p.dst.toNat = ownCoord s ∨ p.hops < 48) → Completes (.peerPacketReceive n p) s (fun t =>
      rd t (pgPeer n) 0x158 = rd s (pgPeer n) 0x158 + 1 ∧ t.coll = s.coll ∧ Frame [.regs, .ports, .out] s t)) ∧
    (∀ o d, p.dst.toNat ≠ ownCoord s → p.hops < 48 → peerExpired s p = false → routePort s p.dst.toNat = some (o, d) →
      portNode s n.val ≠ portNode s o → Completes (.peerPacketReceive n p) s (fun t =>
        ∃ q, t.net.packets = s.net.packets ++ [q] ∧ q.src = portNode s n.val ∧ q.dst = portNode s o ∧ q.kind = .transit)) ∧
    (p.dst.toNat = ownCoord s → peerExpired s p = false → staleLaunch s p = false → (p.kind.val = 4 → staleGroup s p = false) →
      p.epoch.toNat ≠ curEpoch s → nextEpoch s = some p.epoch.toNat → Completes (.peerPacketReceive n p) s (fun t =>
        t.coll.heldPackets = s.coll.heldPackets ++ [(n.val, p)] ∧ Frame [.coll] s t)) ∧
    (p.dst.toNat = ownCoord s → peerExpired s p = false → staleLaunch s p = false → (p.kind.val = 4 → staleGroup s p = false) →
      p.epoch.toNat = curEpoch s → (packetRanges s p).any (fun e => heldRange s e.1 e.2) = true →
      exec (.peerPacketReceive n p) s = .next (holdAccess (.packet n.val p) s))) ∧
  (∀ (n : Fin 6) (p : PeerPacket) (s : State), linkState s n = 5 → p.kind.val = 3 →
    (staleLaunch s p = false → staleGroup s p = false → ((port s n.val).slotted.map (fun e => slottedFlits e.2)).sum + slottedFlits p ≤ 2048 →
      Completes (.peerSlottedReceive n p) s (fun t => port t n.val = { port s n.val with slotted := (port s n.val).slotted ++
        [((p.token.toNat / 1024 + fldA s pgColl 0x130 35 32) % 2 ^ 14, p)] } ∧ Frame [.ports] s t)) ∧
    (staleLaunch s p = true → Completes (.peerSlottedReceive n p) s (fun t => rd t pgColl 0x188 = rd s pgColl 0x188 + 1 ∧
      Frame [.regs] s t ∧ RegFrame [(pgColl, 0x188)] s t)) ∧
    (staleLaunch s p = false → staleGroup s p = true → Completes (.peerSlottedReceive n p) s (fun t =>
      rd t pgColl 0x180 = rd s pgColl 0x180 + 1 ∧ Frame [.regs] s t ∧ RegFrame [(pgColl, 0x180)] s t)) ∧
    (staleLaunch s p = false → staleGroup s p = false → 2048 < ((port s n.val).slotted.map (fun e => slottedFlits e.2)).sum + slottedFlits p →
      stepRunning s = false → Completes (.peerSlottedReceive n p) s (fun t =>
        rd t (pgOfNode (portNode s n.val)) 0x148 = rd s (pgOfNode (portNode s n.val)) 0x148 + word (slottedFlits p) ∧
        Frame [.regs] s t ∧ RegFrame [(pgOfNode (portNode s n.val), 0x148)] s t))) ∧
  (∀ (n : Fin 6) (f : WelurFlit) (p : PeerPacket) (w : Word) (s : State), linkState s n ≠ 5 →
    exec (.welurFlitReceive n f) s = .next s ∧ exec (.replayTimeout n) s = .next s ∧ exec (.peerCredit n w) s = .next s ∧
    exec (.peerPacketReceive n p) s = .next s ∧ exec (.peerSlottedReceive n p) s = .next s)

/-- CREATE of a free ID with a legal definition and room in the table makes the group live with its generation and numbering from 0; RETIRE
of a live group that no command names puts its entry in quarantine, whose end, once its 256 BT µs have passed, frees the ID. A write of
EPOCH_CTRL that keeps NEXT, or with no command held, takes its writable bits. EPOCH_SWITCH with NEXT_EN 1 and no command of the present
epoch makes NEXT the present epoch, clears NEXT_EN and releases the held commands; otherwise it is counted, logged and changes no epoch.
Reading STAT clears FULL. (R470, R472, R474, R492, R494, R499.) -/
def Obligations.CollGroups : Prop :=
  (∀ (v : Word) (s : State),
    (v.bits 1 0 = 1 → s.coll.groups.length < 4096 → mfind s.coll.groups ((rd s pgColl 0x110).bits 11 0) = none → badGroup s (rd s pgColl 0x110) = false →
      Completes (.groupCreate v) s (fun t =>
        groupOf t ((rd s pgColl 0x110).bits 11 0) = some ⟨(rd s pgColl 0x110).bits 19 12, rd s pgColl 0x110, none⟩ ∧
        mget 0 t.coll.numbers ((rd s pgColl 0x110).bits 11 0) = 0 ∧ fld t pgColl 0x120 3 0 = 1 ∧ t.coll.queue = s.coll.queue ∧
        Frame [.regs, .coll, .out] s t ∧ RegFrame [(pgColl, 0x120), (pgColl, 0x128), (pgColl, 0x028), (pgColl, 0x038)] s t)) ∧
    (v.bits 1 0 = 1 → 4096 ≤ s.coll.groups.length → Completes (.groupCreate v) s (fun t => fld t pgColl 0x120 3 0 = grTableFull ∧
        t.coll = s.coll ∧ Frame [.regs, .out] s t)) ∧
    (v.bits 1 0 = 2 → s.coll.queue.any (names ((rd s pgColl 0x110).bits 11 0)) = true →
      Completes (.groupRetire v) s (fun t => fld t pgColl 0x120 3 0 = 5 ∧ t.coll = s.coll ∧ Frame [.regs, .out] s t)) ∧
    (∀ g, v.bits 1 0 = 2 → s.coll.queue.any (names ((rd s pgColl 0x110).bits 11 0)) = false → groupOf s ((rd s pgColl 0x110).bits 11 0) = some g →
      g.gen = (rd s pgColl 0x110).bits 19 12 →
      Completes (.groupRetire v) s (fun t => groupOf t ((rd s pgColl 0x110).bits 11 0) = none ∧
        mfind t.coll.groups ((rd s pgColl 0x110).bits 11 0) = some { g with quarantine := some (s.now + 256000) } ∧
        fld t pgColl 0x120 3 0 = 1 ∧ Frame [.regs, .coll, .out] s t ∧
        RegFrame [(pgColl, 0x120), (pgColl, 0x128), (pgColl, 0x028), (pgColl, 0x038)] s t)) ∧
    Completes .collStatRead s (fun t => t.out.reply = .word (rd s pgColl 0x108) ∧ fld t pgColl 0x108 8 8 = 0 ∧
      Frame [.regs, .out] s t ∧ RegFrame [(pgColl, 0x108)] s t)) ∧
  (∀ (id : BitVec 12) (g : Group) (s : State), mfind s.coll.groups id.toNat = some g →
    (∀ q, g.quarantine = some q →
      (q ≤ s.now → Completes (.groupQuarantineExpiry id) s (fun t => mfind t.coll.groups id.toNat = none ∧
        Frame [.regs, .coll] s t ∧ RegFrame [(pgColl, 0x128)] s t)) ∧
      (s.now < q → exec (.groupQuarantineExpiry id) s = .next s)) ∧
    (g.quarantine = none → exec (.groupQuarantineExpiry id) s = .next s)) ∧
  (∀ (v : Word) (s : State), v &&& ~~~(word (bm 16 0 + bm 51 32)) = 0 →
    ((s.coll.queue.all (fun c => !c.held) = true ∨ v.bits 15 0 = fld s pgColl 0x140 15 0) →
      Completes (.epochCtrlWrite v) s (fun t => rd t pgColl 0x140 = v ∧ Frame [.regs] s t ∧ RegFrame [(pgColl, 0x140)] s t)) ∧
    (s.coll.queue.any (fun c => c.held) = true → v.bits 15 0 ≠ fld s pgColl 0x140 15 0 →
      Completes (.epochCtrlWrite v) s (fun t => rd t pgColl 0x140 = rd s pgColl 0x140 ∧ (rd t pgColl 0x028).bit 4 = true ∧
        Frame [.regs, .out] s t))) ∧
  (∀ s : State,
    (∀ e, nextEpoch s = some e → s.coll.queue.any (fun c => decide (c.epoch = curEpoch s)) = false → s.coll.heldPackets = [] →
      Completes (.epochSwitch 1) s (fun t => curEpoch t = e ∧ nextEpoch t = none ∧
        t.coll.queue = s.coll.queue.map (fun c => { c with held := false }) ∧ Frame [.regs, .coll] s t ∧
        RegFrame [(pgColl, 0x150), (pgColl, 0x140)] s t)) ∧
    ((nextEpoch s = none ∨ s.coll.queue.any (fun c => decide (c.epoch = curEpoch s)) = true) →
      Completes (.epochSwitch 1) s (fun t => curEpoch t = curEpoch s ∧ (rd t pgColl 0x028).bit 4 = true ∧
        t.coll = s.coll ∧ Frame [.regs, .out] s t)) ∧
    exec (.epochSwitch 0) s = .next s)

/-- A submission to a full queue sets FULL and the full error, but a core's store is held; one with room, the present epoch and a descriptor
that is not poisoned joins the end of the queue with its group's next number. A command of an attachment that is not fenced of the six
group operations that may start in a live group, whose checks pass and to which nothing has arrived yet, is executing afterwards; with
no live group of its generation it ends with GROUP. One that executes and has taken every chunk due ends with DONE, and one for which
nothing has arrived, or with a range that is being switched, waits. A command with its result leaves the queue, with its status in STAT;
then follow its signals, its fault, the arrival signals of a gather, and mark S of the step's barrier. (R476, R478, R481, R483, R499.) -/
def Obligations.CollCommands : Prop :=
  (∀ (r : Requester) (v : Word) (s : State), badRequester s r = false → issues s r = true →
    (64 ≤ s.coll.queue.length → ∀ k, r = .core k → exec (.collSubmit r v) s = .next (holdStore k pgColl 0x100 v s)) ∧
    (64 ≤ s.coll.queue.length → (∀ k, r ≠ .core k) → Completes (.collSubmit r v) s (fun t => fld t pgColl 0x108 8 8 = 1 ∧
      (rd t pgColl 0x028).bit errFull = true ∧ t.coll = s.coll ∧ Frame [.regs, .out] s t)) ∧
    (s.coll.queue.length < 64 → cw (descWords s (v.bits 47 0)) 0 47 32 = curEpoch s →
      poisonIn s false (v.bits 47 0) 64 = none → Completes (.collSubmit r v) s (fun t => (∃ c, t.coll.queue = s.coll.queue ++ [c] ∧ c.desc = some (v.bits 47 0) ∧
          c.words = descWords s (v.bits 47 0) ∧ c.executing = false ∧ c.held = false ∧
          c.result = earlyStatus s (some (v.bits 47 0)) (descWords s (v.bits 47 0)) ∧
          c.number = mget 0 s.coll.numbers (numberKey (descWords s (v.bits 47 0)))) ∧
        fld t pgColl 0x108 6 0 = (s.coll.queue.length + 1) ∧ Frame [.regs, .coll, .out] s t ∧
        RegFrame [(pgColl, 0x108), (pgColl, 0x028), (pgColl, 0x038)] s t))) ∧
  (∀ (i : Nat) (c : CollCmd) (s : State), s.coll.queue[i]? = some c → c.result = none →
    ∀ e ∈ [(Instr.allGather i, 1), (.reduceScatter i, 2), (.allReduce i, 3), (.broadcast i, 4), (.barrier i, 5), (.gatherShard i, 6)],
      ((coOp c.words ≠ e.2 ∨ attachmentLost s c.tile = true ∨ (cmdRanges s c).any (fun x => heldRange s x.1 x.2) = true) →
        exec e.1 s = .next s) ∧
      (coOp c.words = e.2 → attachmentLost s c.tile = false → (cmdRanges s c).any (fun x => heldRange s x.1 x.2) = false →
        (c.executing = false → mayStart s i c = false → exec e.1 s = .next s) ∧
        (c.executing = false → mayStart s i c = true → ringOf s c = none →
          Completes e.1 s (fun t => { c with result := some 3 } ∈ t.coll.queue ∧ Frame [.coll] s t)) ∧
        (∀ r, ringOf s c = some r →
          (c.executing = false → mayStart s i c = true → c.layer = none → startStatus s c r = none →
            (ownTag { c with executing := true } r (setCmd c { c with executing := true } s)).1 = none → s.coll.received = [] → c.got < chunksDue c.words r →
            Completes e.1 s (fun t => (∃ d ∈ t.coll.queue, d.executing = true ∧ d.words = c.words ∧ d.number = c.number ∧ d.got = c.got) ∧
              Frame [.regs, .cores, .mem, .granger, .ports, .coll, .out, .free] s t)) ∧
          (c.executing = true → s.coll.received.filter (contributes c) = [] →
            (c.got < chunksDue c.words r → exec e.1 s = .next s) ∧
            (chunksDue c.words r ≤ c.got →
              Completes e.1 s (fun t => { c with result := some 1 } ∈ t.coll.queue ∧ Frame [.coll] s t)))))) ∧
  (∀ (i : Nat) (c : CollCmd) (st : Nat) (s : State), s.coll.queue[i]? = some c → c.result = some st → st < 256 → c.layer = none →
    cw c.words 4 19 19 = 0 → (rd s pgColl 0x140).bit 51 = false → stepRunning s = false →
    s.control = [] → endStatus s c st = st → Completes (.collCommandComplete i) s (fun t => t.coll.queue = s.coll.queue.filter (fun d => decide (d ≠ c)) ∧
      fld t pgColl 0x108 23 16 = st ∧ Frame [.regs, .cores, .mem, .coll, .control, .step, .traces, .out] s t)) ∧
  (∀ (i : Nat) (c : CollCmd) (st : Nat) (s : State), s.coll.queue[i]? = some c → c.result = some st →
    exec (.collCommandComplete i) s = .next (
      (fun u => if isStepBarrier c && decide (endStatus s c st = csDone) && stepLive u then { u with step := { u.step with barrierDone := true } } else u)
        ((fun u => if endStatus s c st = csDone then gatherArrival c u else u) (run [.collDone c (endStatus s c st)] (notePass c s)))) ∧
    (st < 256 → (collComplete s c st).1.coll.queue = s.coll.queue.filter (fun d => decide (d ≠ c)) ∧ fld (collComplete s c st).1 pgColl 0x108 23 16 = st)) ∧
  (∀ (i : Nat) (c : CollCmd) (s : State), s.coll.queue[i]? = some c → c.result = none → exec (.collCommandComplete i) s = .next s)

/-- A PUT to another module that may start and whose source is readable is executing afterwards, with one unanswered packet for each piece.
A PUT that executes ends with DONE once nothing is unanswered, and waits before. A DISPATCH or COMBINE of a live group that may start,
with no route to send and no row to answer, is executing afterwards. One that executes ends with DONE once nothing is unanswered and END
has arrived from every other member in its own train mode, waits while something is unanswered, and ends with GROUP where its group is
not live. (R478, R481, R483, R489, R490.) -/
def Obligations.PutAndExchange : Prop :=
  (∀ (i : Nat) (c : CollCmd) (s : State), s.coll.queue[i]? = some c → c.result = none → coOp c.words = 7 → attachmentLost s c.tile = false →
    (putRanges s c).any (fun x => heldRange s x.1 x.2) = false →
    (c.executing = false → mayStart s i c = true → readStatus s (coSrc c.words) (coBytes c.words) = none →
      cw c.words 5 11 0 ≠ ownCoord s → Completes (.put i) s (fun t => ∃ d ∈ t.coll.queue, d.executing = true ∧ d.words = c.words ∧
        d.number = c.number ∧ d.unacked = (putPackets s c).map (fun p => ackKey p.addr.toNat p.dst.toNat))) ∧
    (c.executing = true → c.unacked ≠ [] → exec (.put i) s = .next s) ∧
    (c.executing = true → c.unacked = [] → Completes (.put i) s (fun t => { c with result := some 1 } ∈ t.coll.queue ∧
      Frame [.coll] s t))) ∧
  (∀ (i : Nat) (c : CollCmd) (s : State), s.coll.queue[i]? = some c → c.result = none → attachmentLost s c.tile = false →
    ∀ e ∈ [(Instr.dispatch i, 8), (.combine i, 9)], coOp c.words = e.2 →
    (if e.2 = 8 then dispatchRanges s c else combineRanges s c).any (fun x => heldRange s x.1 x.2) = false →
    (∀ r, c.executing = false → mayStart s i c = true → ringOf s c = some r → coCount c.words = 0 → heldRows s = [] →
      Completes e.1 s (fun t => (∃ d ∈ t.coll.queue, d.executing = true ∧ d.words = c.words ∧ d.number = c.number) ∧
        t.mem.bytes = s.mem.bytes)) ∧
    (c.executing = true →
      (ringOf s c = none → Completes e.1 s (fun t => { c with result := some 3 } ∈ t.coll.queue ∧ Frame [.coll] s t)) ∧
      (∀ r, ringOf s c = some r →
        (∀ p ∈ s.coll.received, p.kind.val = 6 → p.group.toNat = coGroup c.words → p.seq.toNat = c.number → shapeStatus c p = none) →
        (c.unacked ≠ [] → exec e.1 s = .next s) ∧
        (c.unacked = [] → endsIn s c r = true →
          Completes e.1 s (fun t => { c with result := some 1 } ∈ t.coll.queue ∧ Frame [.coll] s t)))))

/-- A seed save of an ACTIVE port writes its sixteen words of the active settings copy. A mirror write that is due and succeeds makes the
mirror's newest generation equal to the active copy, and the one before it the older. A device reset leaves the Keeper, the part and
what has left the module, and gives memory, slots, tasks and the Beacon their reset values. At activation time a staged image becomes
active and unconfirmed while every slot is quiet, and the activation fails otherwise. An unconfirmed image falls back to the previous
slot at its timeout and at the third watchdog reset; a watchdog reset counts. Bring-up advances from RESET and POWER, from VERIFY with a
good header, and from SETTINGS with the bank loaded, ends at 15 with the cause of a failure, and first ends a restart. ENUM's timeout
sets the stored address. (R613, R618, R631, R635, R636, R640, R641, R642, R646, R649.) -/
def Obligations.KeeperEvents : Prop :=
  (∀ (n : Fin 6) (seeds : List Word) (s : State),
    (linkState s n = 5 → Completes (.eqSeedSave n seeds) s (fun t =>
      (∀ i, i < 16 → mget 0 (activeCopy t) (0x80 + 128 * n.val + 8 * i) = seeds.getD i 0) ∧
      (∀ o, (o < 0x80 + 128 * n.val ∨ 0x80 + 128 * n.val + 128 ≤ o) → mget 0 (activeCopy t) o = mget 0 (activeCopy s) o) ∧
      Frame [.keeper] s t)) ∧
    (linkState s n ≠ 5 → exec (.eqSeedSave n seeds) s = .next s)) ∧
  (∀ s : State,
    (s.keeper.mirrorDue = true → Completes (.settingsMirrorWrite true) s (fun t => t.keeper.mirrorCopy = activeCopy s ∧ t.keeper.mirrorOlder = s.keeper.mirrorCopy ∧
      t.keeper.mirrorDue = false ∧ activeCopy t = activeCopy s ∧ Frame [.keeper] s t)) ∧
    exec (.settingsMirrorWrite false) s = .next s ∧
    (s.keeper.pending = false → Completes .deviceReset s (fun t => t.keeper = { s.keeper with chainKnown := false } ∧ t.part = s.part ∧
      t.out = s.out ∧ t.pending = s.pending ∧ t.mem = State.reset.mem ∧ t.slots = State.reset.slots ∧ t.tasks = State.reset.tasks ∧
      t.ctrs = State.reset.ctrs ∧ t.beacon = State.reset.beacon ∧ t.now = State.reset.now)) ∧
    ((s.keeper.pending = false ∨ s.now < s.keeper.pendingT) → exec .activationTime s = .next s) ∧
    (s.keeper.pending = true → s.keeper.pendingT ≤ s.now → slotsQuiet s = true → Completes .activationTime s (fun t => t.keeper.activeB = !s.keeper.activeB ∧
      t.keeper.prevB = s.keeper.activeB ∧ t.keeper.confirmed = false ∧ t.keeper.pending = false ∧ t.keeper.actState = 2)) ∧
    (s.keeper.pending = true → s.keeper.pendingT ≤ s.now → slotsQuiet s = false → Completes .activationTime s (fun t => t.keeper.activeB = s.keeper.activeB ∧
      t.keeper.pending = false ∧ t.keeper.actState = 4 ∧ Frame [.keeper, .out] s t)) ∧
    ((s.keeper.actState ≠ 2 ∨ s.now < s.keeper.actT + 900000000000) → exec .confirmTimeout s = .next s) ∧
    (s.keeper.actState = 2 → s.keeper.actT + 900000000000 ≤ s.now → Completes .confirmTimeout s (fun t => t.keeper.activeB = s.keeper.prevB ∧ t.keeper.confirmed = true ∧
      t.keeper.actState = 5 ∧ t.keeper.actCause = 1)) ∧
    ((s.keeper.actState ≠ 2 ∨ s.keeper.wdCount < 2) → Completes .keeperWatchdog s (fun t => t.keeper.wdCount = min 31 (s.keeper.wdCount + 1) ∧
      t.keeper.restarting = true ∧ fld t pgMbox 0x130 31 16 = min (fld s pgMbox 0x130 31 16 + 1) (2 ^ 16 - 1) ∧
      Frame [.regs, .keeper] s t ∧ RegFrame [(pgMbox, 0x130)] s t)) ∧
    (s.keeper.actState = 2 → 2 ≤ s.keeper.wdCount → Completes .keeperWatchdog s (fun t => t.keeper.activeB = s.keeper.prevB ∧
      t.keeper.actState = 5 ∧ t.keeper.actCause = 3)) ∧
    (bootStage s = 4 → s.keeper.chainKnown = false → Completes .enumWaitTimeout s (fun t => t.keeper.chainKnown = true ∧
      fld t pgIdent 0x140 11 0 = (mget 0 (activeCopy s) 8).bits 11 0 ∧ Frame [.regs, .keeper] s t ∧
      RegFrame [(pgIdent, 0x140), (pgSettings, 0x700)] s t)) ∧
    ((bootStage s ≠ 4 ∨ s.keeper.chainKnown = true) → exec .enumWaitTimeout s = .next s)) ∧
  (∀ (o : StageOutcome) (ms : Nat) (s : State), s.keeper.restarting = true →
    Completes (.bringupStageAdvance o ms) s (fun t => t.keeper = { s.keeper with restarting := false } ∧ Frame [.keeper] s t)) ∧
  (∀ (ms : Nat) (s : State), s.keeper.restarting = false →
    (bootStage s ≤ 1 → Completes (.bringupStageAdvance .ok ms) s (fun t => bootStage t = bootStage s + 1 ∧ Frame [.regs] s t ∧
      RegFrame [(pgIdent, 0x138)] s t)) ∧
    (bootStage s = 2 → headerOk s (activeSlot s) = true → Completes (.bringupStageAdvance .ok ms) s (fun t => bootStage t = 3 ∧
      Frame [.regs, .keeper] s t ∧ RegFrame [(pgIdent, 0x138)] s t)) ∧
    (bootStage s = 3 → ∀ bankOk mirror mv, Completes (.bringupStageAdvance (.settings bankOk mirror mv) ms) s (fun t => bootStage t = 4 ∧
      fld t pgSettings 0x700 1 0 = (settingsSource s bankOk mirror.val mv.toNat).1 ∧ fld t pgSettings 0x700 2 2 = b2n (decide (mv.toNat < 2500)) ∧
      fld t pgSettings 0x700 47 32 = mv.toNat ∧ Frame [.regs, .keeper] s t)) ∧
    (bootStage s ≠ 3 → ∀ bankOk mirror mv, exec (.bringupStageAdvance (.settings bankOk mirror mv) ms) s = .next s) ∧
    (bootStage s = 8 → fld s pgHostif 0x100 1 0 = 2 → Completes (.bringupStageAdvance .ok ms) s (fun t => bootStage t = 9 ∧
      isReady t = true ∧ Frame [.regs, .keeper, .out] s t ∧ RegFrame [(pgIdent, 0x138)] s t)) ∧
    (∀ cause : Fin 8, failsIn (bootStage s) cause.val = true → s.keeper.actState ≠ 2 →
      Completes (.bringupStageAdvance (.fail cause) ms) s (fun t => bootStage t = 15 ∧ fld t pgIdent 0x138 15 8 = cause.val ∧
        Frame [.regs, .out] s t ∧ RegFrame [(pgIdent, 0x138)] s t)))

/-- A RUNNING step whose tasks have ended, without deferred faults and with its loss written where Foghorn is on, votes: its slot is
DRAINING and, with no step group, mark S is reached; while the stage is being copied the vote waits. A voted step at mark S that changed
no committed memory, with no partner, commits: its slot ends DONE, WVER advances and no step is left. Any other voted step at mark S
leaves no step either, with its slot DONE or FAULTED. A loss of the present attempt is taken once in RUNNING, with Foghorn off as no
verdict, and is else ignored and sets STATE; one of another attempt has no effect. A fault has no effect without a live attempt, only
counts after the first, and after the vote is recorded. A deferred fault of a RUNNING step is counted. A notice for a waiting slot moves
its launch, and a stale one counts. Without a step, at mark S, or before its limit, the timeout has no effect. (R260, R461, R510, R512,
R513, R516, R517, R522, R524.) -/
def Obligations.StepControl : Prop :=
  (∀ (n : Nat) (s : State), s.step.slot = some n → (slot s n).state = .running → slotTasksEnded s n = true → s.step.deferred = 0 →
    (fhOn s = true → s.step.lossWritten = true) →
    (stage s = sgCopying → exec .stepVote s = .next s) ∧
    (stage s ≠ sgCopying → stepGroupOn s = false → Completes .stepVote s (fun t => t.step.voted = true ∧ t.step.barrierDone = true ∧
      (slot t n).state = .draining ∧ phase t = 3 ∧ (∀ m, m ≠ n → slot t m = slot s m) ∧ t.mem = s.mem ∧
      Frame [.regs, .slots, .step, .traces] s t))) ∧
  (∀ (n : Nat) (s : State), s.step.slot = some n → s.step.voted = true → s.step.barrierDone = true → (slot s n).state = .draining →
    s.tasks.filter (fun t => decide (t.slot = n)) = [] → s.mem.shadowLines = [] → s.mem.shadowPoison = [] → tallyCount s = 0 →
    s.step.commitFail = false → partnerOn s = false →
    Completes .stepCommit s (fun t => (slot t n).state = .done ∧ t.step.slot = none ∧ rd t pgStep 0x180 = rd s pgStep 0x180 + 1)) ∧
  (∀ (n : Nat) (s : State), s.step.slot = some n → s.step.voted = true → s.step.barrierDone = true → (slot s n).state = .draining →
    Completes .stepCommit s (fun t => t.step.slot = none ∧ ((slot t n).state = .done ∨ (slot t n).state = .faulted))) ∧
  (∀ s : State, s.step.slot = none → exec .stepVote s = .next s ∧ exec .stepCommit s = .next s ∧ exec .stepTimeout s = .next s ∧
    (∀ c i, exec (.faultReport c i false) s = .next s) ∧
    (∀ m : Notice, armedFor s m.launch = none → s.step.aborted = none → Completes (.discardNotice m) s (fun t =>
      rd t pgColl 0x188 = rd s pgColl 0x188 + 1 ∧ Frame [.regs] s t ∧ RegFrame [(pgColl, 0x188)] s t)) ∧
    (∀ (m : Notice) (k : Nat), armedFor s m.launch = some k → m.classOf = 0 → Completes (.discardNotice m) s (fun t =>
      (slot t k).effLaunch = word m.relaunch ∧ (slot t k).state = (slot s k).state))) ∧
  (∀ (r : Requester) (v : Word) (s : State), badRequester s r = false → issues s r = true → v.bits 63 32 = 0 →
    (otherAttempt s r = true → exec (.foghornLoss r v) s = .next s) ∧
    (otherAttempt s r = false → (phase s ≠ 2 ∨ s.step.lossWritten = true) → Completes (.foghornLoss r v) s (fun t => (rd t pgFoghorn 0x028).bit 4 = true ∧
      t.step = s.step ∧ Frame [.regs, .out] s t)) ∧
    (otherAttempt s r = false → phase s = 2 → s.step.lossWritten = false → fhOn s = false → Completes (.foghornLoss r v) s (fun t =>
      t.step = { s.step with lossWritten := true } ∧ rd t pgFoghorn 0x138 = word (v.toNat <<< 32) ∧
      Frame [.regs, .slots, .step] s t ∧ RegFrame [(pgFoghorn, 0x138)] s t)) ∧
    (otherAttempt s r = false → phase s = 2 → s.step.lossWritten = false → fhOn s = true → judge s (BitVec.ofNat 32 (v.bits 31 0)) = none →
      Completes (.foghornLoss r v) s (fun t => t.step = { s.step with lossWritten := true } ∧
        fld t pgFoghorn 0x138 1 0 = vdPass ∧ fld t pgFoghorn 0x138 63 32 = v.toNat ∧ Frame [.regs, .slots, .step, .traces] s t))) ∧
  (∀ (r : Requester) (s : State), badRequester s r = false → issues s r = true → exec (.nfReport r 0) s = .next s ∧
    (otherAttempt s r = true → exec (.nfReport r 1) s = .next s) ∧
    (phase s = 2 → fhOn s = true → s.step.nfSeen = true → exec (.nfReport r 1) s = .next s) ∧
    (otherAttempt s r = false → phase s = 2 → fhOn s = true → s.step.nfSeen = false → exec (.nfReport r 1) s =
      .next (foghornFail frReported (fld s pgFoghorn 0x138 63 32) { s with step := { s.step with nfSeen := true } }))) ∧
  (∀ s : State, (stepRunning s = false → ∀ c i, exec (.faultReport c i true) s = .next s) ∧
    (stepRunning s = true → ∀ c i, Completes (.faultReport c i true) s (fun t =>
      t.step = { s.step with deferred := s.step.deferred + 1 } ∧ Frame [.step] s t)) ∧
    (∀ (c : Fin 27) i, c.val ≠ 0 → s.control = [] → stepLive s = true → s.step.faulted.isSome = true →
      Completes (.faultReport c i false) s (fun t => Frame [.regs, .out] s t ∧ RegFrame [] s t)) ∧
    (∀ (c : Fin 27) i, c.val ≠ 0 → s.control = [] → stepLive s = true → s.step.faulted = none → s.step.voted = true →
      s.step.att < 256 → Completes (.faultReport c i false) s (fun t => fld t pgStep 0x188 7 0 = c.val ∧ fld t pgStep 0x188 63 32 = i.toNat ∧
        t.step.faulted.isSome = true ∧ rd t pgStep 0x190 = nowW s ∧ Frame [.regs, .step, .traces, .out] s t)) ∧
    ((stepLive s = false ∨ s.step.barrierDone = true ∨ s.now < s.step.launch + stepLimit s) → exec .stepTimeout s = .next s) ∧
    (s.step.slot.isSome = true → stepLive s = true → s.step.barrierDone = false → s.step.voted = false → s.step.launch + stepLimit s ≤ s.now →
      exec .stepTimeout s = .next (fault 14 0 s)))

/-- The end of a stage copy with no partner due leaves the stage BUSY while a consumer is due and KEPT otherwise, with the copied step in
CKPT. The end of a flash write, of the host's store and of the partner's refresh each take their consumer off, and the last keeps the
stage. RESTORE with one in progress is ignored and sets STATE, with a slot that is not quiet or an image that the source does not hold
it fails with the error's code, and else it starts. A restore ends with its error, or with DONE and the header's step. REDO and WVER
take their values only while every slot is quiet, and are else ignored and set STATE. (R519, R533, R534, R537, R538, R543, R544.) -/
def Obligations.Checkpoints : Prop :=
  (∀ s : State, (stage s ≠ 1 → exec .stageCopyDone s = .next s) ∧
    (stage s = 1 → s.step.duePartner = false → Completes .stageCopyDone s (fun t =>
      stage t = (if s.step.dueFlash || s.step.dueStore then 2 else 3) ∧ fld t pgStep 0x1A0 31 0 = s.step.stageStep % 2 ^ 32 ∧
      t.step = s.step ∧ Frame [.regs, .cores, .mem, .out, .free] s t)) ∧
    (stage s = 2 → s.step.dueFlash = true → Completes (.flashWriteDone true) s (fun t => t.step.dueFlash = false ∧
      t.step.flashSteps = (s.step.stageStep :: s.step.flashSteps).take 2 ∧ fld t pgStep 0x1A0 63 32 = s.step.stageStep % 2 ^ 32 ∧
      stage t = (if s.step.duePartner || s.step.dueStore then 2 else 3) ∧ Frame [.regs, .step] s t ∧
      RegFrame [(pgStep, 0x1A0), (pgStep, 0x178)] s t)) ∧
    (stage s = 2 → s.step.dueStore = true → Completes (.storeDone 1) s (fun t => t.step = { s.step with dueStore := false } ∧
      stage t = (if s.step.duePartner || s.step.dueFlash then 2 else 3) ∧ Frame [.regs, .step] s t ∧ RegFrame [(pgStep, 0x178)] s t)) ∧
    (stage s = 2 → s.step.duePartner = true → Completes (.partnerRefreshDone none true) s (fun t => t.step.duePartner = false ∧
      fld t pgStep 0x1A8 31 0 = s.step.stageStep % 2 ^ 32 ∧ stage t = (if s.step.dueFlash || s.step.dueStore then 2 else 3) ∧
      Frame [.regs, .step] s t ∧ RegFrame [(pgStep, 0x1A8), (pgStep, 0x178)] s t)) ∧
    (s.step.dueFlash = false → exec (.flashWriteDone true) s = .next s) ∧ exec (.storeDone 0) s = .next s ∧
    (s.step.duePartner = false → exec (.partnerRefreshDone none true) s = .next s)) ∧
  (∀ (v : Word) (s : State), v &&& ~~~(word (bm 1 0 + bm 63 32)) = 0 →
    (s.step.restoring.isSome = true → Completes (.restore v) s (fun t => (rd t pgStep 0x028).bit 4 = true ∧ t.step = s.step ∧
      Frame [.regs, .out] s t)) ∧
    (s.step.restoring = none → slotsQuiet s = false → Completes (.restore v) s (fun t => rd t pgStep 0x170 = word (3 + rsNotIdle <<< 8) ∧
      Frame [.regs] s t ∧ RegFrame [(pgStep, 0x170)] s t)) ∧
    (s.step.restoring = none → slotsQuiet s = true → restoreHeld s (v.bits 1 0) (v.bits 63 32) = false →
      Completes (.restore v) s (fun t => rd t pgStep 0x170 = word (3 + rsNotHeld <<< 8) ∧ Frame [.regs] s t ∧
        RegFrame [(pgStep, 0x170)] s t)) ∧
    (s.step.restoring = none → slotsQuiet s = true → restoreHeld s (v.bits 1 0) (v.bits 63 32) = true →
      Completes (.restore v) s (fun t => rd t pgStep 0x170 = 1 ∧ t.step = { s.step with restoring := some (v.bits 1 0, v.bits 63 32) } ∧
        Frame [.regs, .step] s t ∧ RegFrame [(pgStep, 0x170)] s t))) ∧
  (∀ (im : List (Nat × Nat × List Byte)) (h : List Word) (sh : List (Nat × List Byte)) (e : Fin 6) (s : State),
    (s.step.restoring = none → exec (.restoreDone im h sh e) s = .next s) ∧
    (∀ j k, s.step.restoring = some (j, k) → e.val ≠ 0 → Completes (.restoreDone im h sh e) s (fun t =>
      rd t pgStep 0x170 = word (3 + e.val <<< 8) ∧ t.step = { s.step with restoring := none } ∧ Frame [.regs, .step] s t ∧
      RegFrame [(pgStep, 0x170)] s t)) ∧
    (∀ k, s.step.restoring = some (2, k) → e.val = 0 → im = [] → Completes (.restoreDone im h sh e) s (fun t =>
      rd t pgStep 0x170 = 2 ∧ rd t pgStep 0x180 = h.getD 1 0 ∧ t.step = { s.step with restoring := none } ∧ t.mem = s.mem ∧
      Frame [.regs, .step] s t))) ∧
  (∀ (v : Word) (s : State),
    (slotsQuiet s = true → Completes (.wverWrite v) s (fun t => rd t pgStep 0x180 = v ∧ Frame [.regs] s t ∧
      RegFrame [(pgStep, 0x180)] s t)) ∧
    (slotsQuiet s = true → v &&& ~~~(word (bm 0 0 + bm 47 6)) = 0 → Completes (.redoWrite v) s (fun t => rd t pgStep 0x160 = v ∧
      Frame [.regs] s t ∧ RegFrame [(pgStep, 0x160)] s t)) ∧
    (slotsQuiet s = false → v &&& ~~~(word (bm 0 0 + bm 47 6)) = 0 →
      Completes (.wverWrite v) s (fun t => (rd t pgStep 0x028).bit 4 = true ∧ Frame [.regs, .out] s t ∧
        RegFrame [(pgStep, 0x028), (pgStep, 0x038)] s t) ∧
      Completes (.redoWrite v) s (fun t => (rd t pgStep 0x028).bit 4 = true ∧ Frame [.regs, .out] s t ∧
        RegFrame [(pgStep, 0x028), (pgStep, 0x038)] s t)))

/-- On a page without staged registers a commit sets COMMAND, and while COMMIT reads 1 it sets STATE. A set that breaks a rule changes no
value and reads REJECTED, with COMMIT_REJECTED. A set that passes on a page of one module's own makes every staged value active, reads
APPLIED with the tag, and clears STAGED_PENDING. A package-wide set is recorded with its tag while COMMIT reads 1, and its application
on tile 0's GRANGER or STREAM page makes the recorded values active and reads APPLIED. Without a recorded set the application has no
effect. (R600, R601, R602, R604, R606.) -/
def Obligations.Commits : Prop :=
  (∀ (r : Requester) (p : PageRef) (b : Block) (s : State), badRequester s r = false → issues s r = true → hasPage s p = true → pageBlock p = some b →
    (stagedValues s p b = [] → Completes (.blkCommit r p) s (fun t => (rd t p 0x028).bit 7 = true ∧ Frame [.regs, .out] s t ∧
      RegFrame [(p, 0x028), (p, 0x038)] s t)) ∧
    (stagedValues s p b ≠ [] → (rd s p 0x010).bit 2 = true → Completes (.blkCommit r p) s (fun t => (rd t p 0x028).bit 4 = true ∧
      Frame [.regs, .out] s t ∧ RegFrame [(p, 0x028), (p, 0x038)] s t)) ∧
    (stagedValues s p b ≠ [] → (rd s p 0x010).bit 2 = false →
      (∀ off, commitReject s p b = some off → Completes (.blkCommit r p) s (fun t => (rd t p 0x028).bit 3 = true ∧
        fld t p 0x018 6 5 = 2 ∧ (∀ e ∈ stagedValues s p b, rd t p e.1 = e.2 ∧ rdA t p e.1 = rdA s p e.1) ∧ Frame [.regs, .out] s t ∧
        RegFrame [(p, 0x018), (p, 0x028), (p, 0x038)] s t)) ∧
      (commitReject s p b = none → packageWide p b = true → Completes (.blkCommit r p) s (fun t => (rd t p 0x010).bit 2 = true ∧
        mfind t.commits (pageBase p) = some (stagedValues s p b, fld s p 0x020 31 0) ∧ fld t p 0x018 4 4 = 0 ∧
        Frame [.regs, .commits] s t ∧ RegFrame [(p, 0x010), (p, 0x018)] s t)) ∧
      (commitReject s p b = none → packageWide p b = false → b ∉ [Block.beacon, .coll, .peer, .settings, .trace, .net] →
        Completes (.blkCommit r p) s (fun t => (∀ e ∈ stagedValues s p b, rd t p e.1 = e.2 ∧ rdA t p e.1 = e.2) ∧
          fld t p 0x018 6 5 = 1 ∧ fld t p 0x018 63 32 = fld s p 0x020 31 0 ∧ fld t p 0x018 4 4 = 0 ∧ (rd t p 0x010).bit 2 = false ∧
          Frame [.regs] s t)))) ∧
  (∀ (p : PageRef) (s : State), hasPage s p = true → mfind s.commits (pageBase p) = none → exec (.packageCommitApply p) s = .next s) ∧
  (∀ (p : PageRef) (l : List (Nat × Word)) (tag : Nat) (s : State), p = pgGranger 0 ∨ p = pgStream 0 → hasPage s p = true →
    mfind s.commits (pageBase p) = some (l, tag) → (l.map Prod.fst).Nodup → Completes (.packageCommitApply p) s (fun t =>
      (∀ e ∈ l, rdA t p e.1 = e.2) ∧ fld t p 0x018 6 5 = 1 ∧ fld t p 0x018 63 32 = tag % 2 ^ 32 ∧
      fld t p 0x018 4 4 = fld s p 0x018 4 4 ∧ (rd t p 0x010).bit 2 = false ∧ mfind t.commits (pageBase p) = none ∧
      Frame [.regs, .commits] s t))

/-- ENABLE takes its value on a page that can be disabled, and elsewhere a 0 is ignored and sets STATE. A soft reset reads RESETTING until
it is done, aborts a BUSY channel, empties the FIFO of a trace page of a tile, and sets COMMAND on a page without one. A W1C write
clears the bits written as 1. An injection of kind 1 sets its bit and INJECTED, and one of kind 2 or 3 stays armed; a bit above 11, or a
kind that the page lacks, sets COMMAND. (R277, R386, R596, R606, R607, R609, R610, R612.) -/
def Obligations.PageControl : Prop :=
  (∀ (r : Requester) (p : PageRef) (b : Block) (s : State), badRequester s r = false → issues s r = true → hasPage s p = true → pageBlock p = some b →
    ((blkCap b).testBit 2 = true → ∀ e, Completes (.blkEnableWrite r p e) s (fun t => fld t p 0x010 0 0 = b2n e ∧
      Frame [.regs] s t ∧ (∀ o, o ≠ pageBase p + 0x010 → regRd t o = regRd s o))) ∧
    ((blkCap b).testBit 2 = false → exec (.blkEnableWrite r p true) s = .next s ∧
      Completes (.blkEnableWrite r p false) s (fun t => (rd t p 0x028).bit 4 = true ∧ rd t p 0x010 = rd s p 0x010 ∧
        Frame [.regs, .out] s t ∧ RegFrame [(p, 0x028), (p, 0x038)] s t)) ∧
    ((blkCap b).testBit 1 = false → Completes (.blkSoftReset r p) s (fun t => (rd t p 0x028).bit 7 = true ∧ rd t p 0x010 = rd s p 0x010 ∧
      Frame [.regs, .out] s t ∧ RegFrame [(p, 0x028), (p, 0x038)] s t)) ∧
    ((blkCap b).testBit 1 = true → Completes (.blkSoftReset r p) s (fun t => (rd t p 0x010).bit 1 = true)) ∧
    (b = .trace → Completes (.blkSoftReset r p) s (fun t => fld t p 0x010 1 1 = 1 ∧ Frame [.regs] s t ∧
      RegFrame [(p, 0x010)] s t))) ∧
  (∀ (r : Requester) (tile : Fin 8) (s : State), badRequester s r = false → issues s r = true → hasTile s tile.val = true →
    Completes (.blkSoftReset r (pgTtrace tile)) s (fun t => fld t (pgTtrace tile) 0x010 1 1 = 1 ∧ (traceOf t tile.val).records = [] ∧
      (∀ i, i ≠ tile.val → traceOf t i = traceOf s i) ∧ Frame [.regs, .traces] s t)) ∧
  (∀ (r : Requester) (tile : Fin 8) (n : Fin 32) (s : State), badRequester s r = false → issues s r = true → hasTile s tile.val = true →
    dmaState s tile n = dmBusy → (rd s (pgDma tile n) 0x120).bit 19 = false → Completes (.blkSoftReset r (pgDma tile n)) s (fun t =>
      dmaState t tile n = dmAborted ∧ rd t (pgDma tile n) 0x138 = nowW s ∧ Frame [.regs, .dmas] s t ∧
      RegFrame [(pgDma tile n, 0x010), (pgDma tile n, 0x130), (pgDma tile n, 0x138)] s t)) ∧
  (∀ (p : PageRef) (s : State), hasPage s p = true →
    Completes (.softResetDone p) s (fun t => fld t p 0x010 1 1 = 0 ∧ fld t p 0x010 0 0 = fld s p 0x010 0 0 ∧ Frame [.regs] s t ∧
      (∀ o, o ≠ pageBase p + 0x010 → regRd t o = regRd s o)) ∧
    (∀ v : Word, v &&& ~~~(word (bm 11 0)) = 0 → Completes (.errStatClear p v) s (fun t => rd t p 0x028 = rd s p 0x028 &&& ~~~v ∧
      Frame [.regs] s t ∧ (∀ o, o ≠ pageBase p + 0x028 → regRd t o = regRd s o)))) ∧
  (∀ (p : PageRef) (b : Block) (v : Word) (s : State), hasPage s p = true → pageBlock p = some b →
    v &&& ~~~(word (injMask + bm 32 32)) = 0 →
    (v.bits 1 0 = 1 → v.bits 11 8 ≤ 11 → Completes (.errInjWrite p v) s (fun t => (rd t p 0x028).bit (v.bits 11 8) = true ∧
      (rd t p 0x028).bit 10 = true ∧ rd t p 0x040 = v &&& word injMask ∧ Frame [.regs, .out] s t)) ∧
    (v.bits 1 0 = 1 → 11 < v.bits 11 8 → Completes (.errInjWrite p v) s (fun t => (rd t p 0x028).bit 7 = true ∧
      rd t p 0x040 = rd s p 0x040 ∧ Frame [.regs, .out] s t)) ∧
    (2 ≤ v.bits 1 0 → Completes (.errInjWrite p v) s (fun t => Frame [.regs, .out] s t ∧
      ((blkCap b).testBit 3 = true → rd t p 0x040 = (v &&& word injMask) ||| word (2 ^ 32) ∧
        (∀ o, o ≠ pageBase p + 0x040 → regRd t o = regRd s o)) ∧
      ((blkCap b).testBit 3 = false → (rd t p 0x028).bit 7 = true ∧ rd t p 0x040 = rd s p 0x040))))

/-- A write of BLK_GEN or ERR_MASK of any page, by any agent, takes the writable bits. A write of a staged register of a cluster page
changes the staged value, sets STAGED_PENDING and leaves the active value. A write of a read-only register is ignored and sets
READ_ONLY, and one of an absent register sets ACCESS. An access of another size or alignment sets ACCESS on its page, and one to a
reserved region sets ACCESS on HOSTIF and loads BAD_ACCESS. Above the 64 slot pages BAR2 ignores writes, a BAR2 access that the slot
pages do not accept is refused, and CONFIG takes its value only while its slot is IDLE. (R550, R561, R583, R584, R593, R596, R600.) -/
def Obligations.RegisterWrites : Prop :=
  (∀ (p : PageRef) (v : Word) (s : State), hasPage s p = true →
    (∀ r : Requester, badRequester s r = false → issues s r = true → ∀ e ∈ [(0x020, bm 31 0), (0x030, bm 11 0)], v &&& ~~~(word e.2) = 0 →
      Completes (.registerWrite r false (pageBase p + e.1) 8 [v]) s (fun t => rd t p e.1 = v ||| (rd s p e.1 &&& ~~~(word e.2)) ∧
        Frame [.regs] s t ∧ (∀ o, o ≠ pageBase p + e.1 → regRd t o = regRd s o))) ∧
    (∀ (r : Requester) (o size : Nat), badRequester s r = false → issues s r = true → o < 0x1000 → (size ≠ 8 ∨ o % 8 ≠ 0) →
      Completes (.registerWrite r false (pageBase p + o) size [v]) s (fun t => (rd t p 0x028).bit 0 = true ∧ Frame [.regs, .out] s t ∧
        RegFrame [(p, 0x028), (p, 0x038)] s t))) ∧
  (∀ (q : Requester) (c : ClusterRef) (off : Nat) (v : Word) (s : State), badRequester s q = false → issues s q = true → hasTile s c.tile.val = true → off % 8 = 0 → 0x100 ≤ off → off < 0x1000 →
    off ≠ 0x138 → off ≠ 0x200 →
    (∀ r, specAt .cluster off = some r →
      (r.acc = .rws → v &&& ~~~(word (r.wmask ||| r.romask)) = 0 →
        Completes (.registerWrite q false (pageBase (.cluster c) + off) 8 [v]) s (fun t =>
          rd t (.cluster c) off = ((rd s (.cluster c) off &&& ~~~(word r.wmask)) ||| (v &&& word r.wmask)) ∧
          fld t (.cluster c) 0x018 4 4 = 1 ∧ rdA t (.cluster c) off = rdA s (.cluster c) off ∧ Frame [.regs] s t ∧
          RegFrame [(.cluster c, off), (.cluster c, 0x018)] s t)) ∧
      (r.acc = .ro → Completes (.registerWrite q false (pageBase (.cluster c) + off) 8 [v]) s (fun t =>
        (rd t (.cluster c) 0x028).bit 1 = true ∧ Frame [.regs, .out] s t ∧
        RegFrame [(.cluster c, 0x028), (.cluster c, 0x038)] s t))) ∧
    (specAt .cluster off = none → activeSpec .cluster off = none →
      Completes (.registerWrite q false (pageBase (.cluster c) + off) 8 [v]) s (fun t => (rd t (.cluster c) 0x028).bit 0 = true ∧
        Frame [.regs, .out] s t ∧ RegFrame [(.cluster c, 0x028), (.cluster c, 0x038)] s t))) ∧
  (∀ (o size : Nat) (ws : List Word) (s : State),
    (pageOf s.part o = none → Completes (.registerWrite .host false o size ws) s (fun t => (rd t pgHostif 0x028).bit 0 = true ∧
      rd t pgHostif 0x1C8 = word o ∧ Frame [.regs, .out] s t)) ∧
    (64 * 0x10000 ≤ o → exec (.registerWrite .host true o size ws) s = .next s) ∧
    (o < 64 * 0x10000 → bar2Access o size = false → Completes (.registerWrite .host true o size ws) s (fun t =>
      (rd t pgHostif 0x028).bit 0 = true ∧ rd t pgHostif 0x1C8 = word o ∧ Frame [.regs, .out] s t))) ∧
  (∀ (n : Nat) (v : Word) (s : State), n < 64 → v &&& ~~~(word (bm 0 0 + bm 56 8)) = 0 →
    ((slot s n).state = .idle → Completes (.registerWrite .host true (n * 0x10000 + 0x20) 8 [v]) s (fun t =>
      slot t n = { slot s n with config := v } ∧ (∀ m, m ≠ n → slot t m = slot s m) ∧ Frame [.slots] s t)) ∧
    ((slot s n).state ≠ .idle → Completes (.registerWrite .host true (n * 0x10000 + 0x20) 8 [v]) s (fun t =>
      (rd t pgHostif 0x028).bit 4 = true ∧ slot t n = slot s n ∧ Frame [.regs, .out] s t)))

/-- A commit of a tile's NET page whose staged WIN lies outside 2 to 63, or whose staged HQ lies outside 1 to WIN less 1, is rejected: the
staged and the active values of ARB_CFG stay as they are, LAST_COMMIT reads REJECTED and COMMIT_REJECTED is set. So is a commit of a
tile's GRANGER page whose staged LO_WATER is above its HI_WATER, and MIG_CTRL stays as it is. (R333, R443.) -/
def Obligations.CommitRanges : Prop :=
  ∀ (r : Requester) (tile : Fin 8) (s : State), badRequester s r = false → issues s r = true → hasTile s tile.val = true →
    ((rd s (pgNet tile) 0x010).bit 2 = false → (fld s (pgNet tile) 0x128 5 0 < 2 ∨ 63 < fld s (pgNet tile) 0x128 5 0 ∨
        fld s (pgNet tile) 0x128 13 8 < 1 ∨ fld s (pgNet tile) 0x128 5 0 - 1 < fld s (pgNet tile) 0x128 13 8) →
      Completes (.blkCommit r (pgNet tile)) s (fun t => rd t (pgNet tile) 0x128 = rd s (pgNet tile) 0x128 ∧
        rdA t (pgNet tile) 0x128 = rdA s (pgNet tile) 0x128 ∧ fld t (pgNet tile) 0x018 6 5 = 2 ∧ (rd t (pgNet tile) 0x028).bit 3 = true ∧
        Frame [.regs, .out] s t)) ∧
    ((rd s (pgGranger tile) 0x010).bit 2 = false → fld s (pgGranger tile) 0x120 15 8 < fld s (pgGranger tile) 0x120 23 16 →
      Completes (.blkCommit r (pgGranger tile)) s (fun t => rd t (pgGranger tile) 0x120 = rd s (pgGranger tile) 0x120 ∧
        rdA t (pgGranger tile) 0x120 = rdA s (pgGranger tile) 0x120 ∧ fld t (pgGranger tile) 0x018 6 5 = 2 ∧
        (rd t (pgGranger tile) 0x028).bit 3 = true ∧ Frame [.regs, .out] s t))

/-- A write to a register of the GRANGER, STREAM or NET page that acts package-wide from tile 0, made on another tile's page, is ignored and
sets TILE0_ONLY in that page's ERR_STAT. (R599.) -/
def Obligations.TileZeroRegisters : Prop :=
  ∀ (r : Requester) (tile : Fin 8) (off : Nat) (v : Word) (s : State), badRequester s r = false → issues s r = true → hasTile s tile.val = true →
    tile.val ≠ 0 → off % 8 = 0 → ∀ e ∈ [(pgGranger tile, Block.granger), (pgStream tile, .stream), (pgNet tile, .net)],
    tile0Reg e.2 off = true → Completes (.registerWrite r false (pageBase e.1 + off) 8 [v]) s (fun t => (rd t e.1 0x028).bit 5 = true ∧
      rd t e.1 off = rd s e.1 off ∧ Frame [.regs, .out] s t ∧ RegFrame [(e.1, 0x028), (e.1, 0x038)] s t)

/-- At READY, with the servo LOCKED, an arm of an IDLE slot whose written launch time is less than the Beacon value plus LAUNCH_LEAD leaves
the slot IDLE and takes LATE_ARMS on by 1. A write of LAUNCH_LEAD from 2,000 to 1,000,000 takes its value, and one outside that range is
ignored and sets COMMAND in BEACON.ERR_STAT. (R77.) -/
def Obligations.LateArms : Prop :=
  (∀ (n : Fin 64) (v : Word) (s : State), (slot s n.val).state = .idle → isReady s = true → servo s = svLocked →
    v.toNat < s.now + (rd s pgBeacon 0x130).toNat → Completes (.arm n v) s (fun t => (slot t n.val).state = .idle ∧
      (slot t n.val).gen = (slot s n.val).gen ∧ rd t pgBeacon 0x150 = rd s pgBeacon 0x150 + 1 ∧ (∀ m, m ≠ n.val → slot t m = slot s m) ∧
      Frame [.regs, .slots, .step] s t ∧ RegFrame [(pgBeacon, 0x150)] s t)) ∧
  (∀ (r : Requester) (v : Word) (s : State), badRequester s r = false →
    (2000 ≤ v.toNat → v.toNat ≤ 1000000 → Completes (.registerWrite r false (pageBase pgBeacon + 0x130) 8 [v]) s (fun t =>
      rd t pgBeacon 0x130 = v ∧ Frame [.regs] s t ∧ RegFrame [(pgBeacon, 0x130)] s t)) ∧
    ((v.toNat < 2000 ∨ 1000000 < v.toNat) → Completes (.registerWrite r false (pageBase pgBeacon + 0x130) 8 [v]) s (fun t =>
      rd t pgBeacon 0x130 = rd s pgBeacon 0x130 ∧ (rd t pgBeacon 0x028).bit 7 = true ∧ Frame [.regs, .out] s t ∧
      RegFrame [(pgBeacon, 0x028), (pgBeacon, 0x038)] s t)))

/-- A relay that closes leaves only the relay closed, and one that opens sends JOINED. The tail timeout makes the module the tail, and a
link at the out-port ends that. A module whose relay is closed, and a frame of another kind, have no effect. A bad frame is counted in
CHAIN_DROPS. The same request again gives the same response. ENUM gives an unaddressed module the address NEXT and goes on with NEXT
plus 1; an addressed module that finds its own address keeps it. SET_COORD is refused while a slot is not quiet, and else its coordinate
and axis sizes enter the bank, IDENT.POSITION and COLL.TORUS and the address stays. (R620, R621, R623, R624, R626, R628, R630.) -/
def Obligations.ChainRelay : Prop :=
  (∀ s : State,
    Completes (.bypassRelayChange true) s (fun t => t.keeper = { s.keeper with bypass := true } ∧ Frame [.keeper] s t) ∧
    (s.keeper.bypass = true → Completes (.bypassRelayChange false) s (fun t => t.keeper = { s.keeper with bypass := false } ∧
      t.out.chain = s.out.chain ++ [⟨chainAddr s, 0x81, 0, 0, 0, leBytes 1 2⟩] ∧ Frame [.keeper, .out] s t)) ∧
    Completes .chainTailTimeout s (fun t => t.keeper = { s.keeper with tail := true, outLink := false } ∧ Frame [.keeper] s t) ∧
    Completes .chainOutLinkUp s (fun t => t.keeper = { s.keeper with tail := false, outLink := true } ∧ Frame [.keeper] s t)) ∧
  (∀ (f : ChainFrame) (s : State), ∀ e ∈ [(Instr.enum f, 1), (.setCoord f, 2), (.chainRead f, 3), (.chainWrite f, 4), (.stageBegin f, 5),
      (.image f, 6), (.activate f, 7), (.confirm f, 8), (.chainAttest f, 9), (.chainReset f, 10)],
    (s.keeper.bypass = true ∨ f.kind.toNat ≠ e.2 → exec e.1 s = .next s) ∧
    (s.keeper.bypass = false → f.kind.toNat = e.2 → frameBad f = true → Completes e.1 s (fun t => t.keeper = s.keeper ∧
      fld t pgMbox 0x130 63 32 = min (fld s pgMbox 0x130 63 32 + 1) (2 ^ 32 - 1) ∧ t.out.chain = s.out.chain ∧
      Frame [.regs, .out] s t ∧ RegFrame [(pgMbox, 0x130)] s t))) ∧
  (∀ (f : ChainFrame) (s : State), ∀ e ∈ [(Instr.setCoord f, 2), (.chainRead f, 3), (.chainWrite f, 4), (.stageBegin f, 5),
      (.activate f, 7), (.confirm f, 8), (.chainAttest f, 9), (.chainReset f, 10)],
    s.keeper.bypass = false → s.keeper.restarting = false → f.kind.toNat = e.2 → frameBad f = false → chainAddr s ≠ 0xFFF →
    f.dst.toNat = chainAddr s → s.keeper.lastSeq = some f.seq.toNat → Completes e.1 s (fun t =>
      t.out.chain = s.out.chain ++ s.keeper.lastResp ∧ Frame [.out] s t)) ∧
  (∀ (f : ChainFrame) (s : State), s.keeper.bypass = false → f.kind.toNat = 1 → frameBad f = false → f.payload.length = 2 →
    (chainAddr s = 0xFFF → pay f 0 2 ≤ 4094 → Completes (.enum f) s (fun t => chainAddr t = pay f 0 2 ∧
      (mget 0 (activeCopy t) 8).bits 11 0 = pay f 0 2 ∧ t.keeper.chainKnown = true ∧
      t.out.down = s.out.down ++ (if s.keeper.tail then [] else [{ f with payload := leBytes (pay f 0 2 + 1) 2 }]) ∧
      Frame [.regs, .keeper, .out] s t ∧ RegFrame [(pgIdent, 0x140), (pgSettings, 0x700)] s t)) ∧
    (chainAddr s ≠ 0xFFF → chainAddr s = pay f 0 2 → f.flags.toNat % 2 = 0 → Completes (.enum f) s (fun t =>
      t.keeper = { s.keeper with chainKnown := true } ∧ t.out.chain = s.out.chain ∧
      t.out.down = s.out.down ++ (if s.keeper.tail then [] else [{ f with payload := leBytes (pay f 0 2 + 1) 2 }]) ∧
      Frame [.keeper, .out] s t))) ∧
  (∀ (f : ChainFrame) (s : State), Takes 2 f s → coordShape f = true →
    (slotsQuiet s = false → Completes (.setCoord f) s (fun t => Answers f rsRefused [] s t ∧ Frame [.keeper, .out] s t)) ∧
    (slotsQuiet s = true → Completes (.setCoord f) s (fun t =>
      (mget 0 (activeCopy t) 8).bits 11 0 = (mget 0 (activeCopy s) 8).bits 11 0 ∧
      (mget 0 (activeCopy t) 8).bits 43 12 = (word (pay f 0 8) ||| word (2 ^ 24)).bits 43 12 ∧ t.keeper.lastSeq = some f.seq.toNat)) ∧
    (slotsQuiet s = true → s.control = [] → (∀ n, n < 6 → linkOf s n ≠ lkActive ∧ (port s n).retry = [] ∧ (port s n).waiting = []) →
      Completes (.setCoord f) s (fun t => Answers f rsOk [] s t ∧ chainAddr t = chainAddr s ∧
        fld t pgIdent 0x140 23 12 = (word (pay f 0 8)).bits 23 12 ∧ fld t pgIdent 0x140 24 24 = 1 ∧
        fld t pgColl 0x130 11 0 = (word (pay f 0 8)).bits 23 12 ∧ fld t pgColl 0x130 23 12 = (word (pay f 0 8)).bits 43 32 ∧
        Frame [.regs, .ports, .keeper, .out] s t)))

/-- READ answers the words of its space. WRITE is refused while CHAIN_WP is 1, and a word that passes the commit's rules enters the active
copy. STAGE BEGIN clears the slot that is not active and records the image; IMAGE writes its bytes, and the frame of another image is
dropped and counted; STAGE END answers the verification's status. ACTIVATE of a valid staged image at a time within its bounds makes it
pending, without a locked Beacon it answers NOT_LOCKED, and without the image REFUSED. CONFIRM of the active image at READY confirms it.
ATTEST answers the report in four frames and takes a leaf, and is refused when no leaf is left. RESET answers and resets the device.
(R613, R625, R626, R627, R639, R645, R646, R648, R651, R653.) -/
def Obligations.ChainRequests : Prop :=
  (∀ (f : ChainFrame) (s : State), Takes 3 f s →
    (readShape f = true → Completes (.chainRead f) s (fun t => Answers f rsOk ((List.range (pay f 2 2)).flatMap (fun i =>
      leBytes (spaceWord s (pay f 0 1) (pay f 4 4 + 8 * i)).toNat 8)) s t ∧ Frame [.keeper, .out] s t)) ∧
    (readShape f = false → Completes (.chainRead f) s (fun t => Answers f rsBadFrame [] s t ∧ Frame [.keeper, .out] s t))) ∧
  (∀ (f : ChainFrame) (s : State), Takes 4 f s → writeShape f = true →
    ((rdA s pgSettings 0x118).bit 1 = true → Completes (.chainWrite f) s (fun t => Answers f rsWriteProtect [] s t ∧
      Frame [.keeper, .out] s t)) ∧
    ((rdA s pgSettings 0x118).bit 1 = false → pay f 0 4 = 0x118 → pay f 4 2 = 1 → pay f 8 8 < 4 → s.keeper.actState ≠ 1 →
      s.keeper.actState ≠ 2 → (rd s pgSettings 0x010).bit 2 = false → fld s pgSettings 0x110 2 1 = 0 →
      Completes (.chainWrite f) s (fun t => Answers f rsOk [] s t ∧ rdA t pgSettings 0x118 = word (pay f 8 8) ∧
        mget 0 (activeCopy t) 0x18 = word (pay f 8 8) ∧ t.keeper.mirrorDue = true ∧ Frame [.regs, .keeper, .out] s t))) ∧
  (∀ (f : ChainFrame) (s : State), Takes 5 f s →
    (stageShape 0 f = true → actBusy s = false → Completes (.stageBegin f) s (fun t => Answers f rsOk [] s t ∧
      t.keeper.staging = some (pay f 4 4, pay f 8 4) ∧ imageOf t (!activeSlot t) = [] ∧ imageState t (!activeSlot t) = 1 ∧
      imageOf t (activeSlot t) = imageOf s (activeSlot s) ∧ activeSlot t = activeSlot s ∧ Frame [.keeper, .out] s t)) ∧
    (stageShape 0 f = true → actBusy s = true → Completes (.stageBegin f) s (fun t => Answers f rsRefused [] s t ∧
      t.keeper.staging = s.keeper.staging ∧ Frame [.keeper, .out] s t)) ∧
    (∀ v, stageShape 1 f = true → (∃ len, s.keeper.staging = some (pay f 4 4, len)) → Completes (.stageEnd f v) s (fun t =>
      Answers f (verifyStatus s v) [] s t ∧ imageState t (!activeSlot t) = (if verifyStatus s v = rsOk then 2 else 3) ∧
      t.keeper.staging = none ∧ activeSlot t = activeSlot s ∧ Frame [.keeper, .out] s t)) ∧
    (∀ v, stageShape 1 f = true → s.keeper.staging = none → Completes (.stageEnd f v) s (fun t => Answers f rsRefused [] s t ∧
      Frame [.keeper, .out] s t))) ∧
  (∀ (f : ChainFrame) (id len : Nat) (s : State), Takes 6 f s → imageShape f = true → s.keeper.staging = some (id, len) →
    (id = pay f 0 4 → pay f 4 4 + (f.payload.length - 8) ≤ len → Completes (.image f) s (fun t => Answers f rsOk [] s t ∧
      imageOf t (!activeSlot t) = cellsSet (imageOf s (!activeSlot s)) (pay f 4 4) (f.payload.drop 8) ∧
      imageOf t (activeSlot t) = imageOf s (activeSlot s) ∧ t.keeper.staging = s.keeper.staging ∧ Frame [.keeper, .out] s t)) ∧
    (id ≠ pay f 0 4 → Completes (.image f) s (fun t => t.keeper = s.keeper ∧ t.out.chain = s.out.chain ∧
      fld t pgMbox 0x130 63 32 = min (fld s pgMbox 0x130 63 32 + 1) (2 ^ 32 - 1) ∧ Frame [.regs, .out] s t ∧
      RegFrame [(pgMbox, 0x130)] s t))) ∧
  (∀ (f : ChainFrame) (s : State), Takes 7 f s → activateShape f = true → noImage s = false →
    (imageState s (!activeSlot s) = 2 → imageId s (!activeSlot s) = pay f 0 4 →
      (servo s = svLocked → s.now + 10000000000 ≤ pay f 8 8 → pay f 8 8 ≤ s.now + 604800000000000 →
        Completes (.activate f) s (fun t => Answers f rsOk [] s t ∧ t.keeper.pending = true ∧ t.keeper.pendingT = pay f 8 8 ∧
          t.keeper.actState = 1 ∧ t.keeper.activeB = s.keeper.activeB ∧ Frame [.keeper, .out] s t)) ∧
      (servo s ≠ svLocked → Completes (.activate f) s (fun t => Answers f rsNotLocked [] s t ∧
        t.keeper.pending = s.keeper.pending ∧ Frame [.keeper, .out] s t))) ∧
    ((imageState s (!activeSlot s) ≠ 2 ∨ imageId s (!activeSlot s) ≠ pay f 0 4) → Completes (.activate f) s (fun t =>
      Answers f rsRefused [] s t ∧ t.keeper.pending = s.keeper.pending ∧ Frame [.keeper, .out] s t))) ∧
  (∀ (f : ChainFrame) (s : State), Takes 8 f s → confirmShape f = true →
    (bootStage s = 9 → imageId s (activeSlot s) = pay f 0 4 → Completes (.confirm f) s (fun t => Answers f rsOk [] s t ∧
      t.keeper.confirmed = true ∧ t.keeper.minSvn = max s.keeper.minSvn (imageSvn s (activeSlot s)) ∧ t.keeper.actState = 3 ∧
      Frame [.keeper, .out] s t)) ∧
    ((bootStage s ≠ 9 ∨ imageId s (activeSlot s) ≠ pay f 0 4) → Completes (.confirm f) s (fun t => Answers f rsRefused [] s t ∧
      t.keeper.confirmed = s.keeper.confirmed ∧ Frame [.keeper, .out] s t))) ∧
  (∀ (f : ChainFrame) (s : State), Takes 9 f s → attestShape f = true →
    (s.keeper.reservationOk = true → s.keeper.leafQ < 2 ^ 20 → s.keeper.leafQ ≤ s.keeper.leafCeil →
      Completes (.chainAttest f) s (fun t => t.out.chain.length = s.out.chain.length + 4 ∧
        (t.out.chain.drop s.out.chain.length).flatMap (fun o => o.data) =
          reportHead s s.keeper.leafQ f.payload ++ sized 2828 (Config.lmsSign s.keeper.leafQ (reportHead s s.keeper.leafQ f.payload)) ∧
        t.keeper.leafQ = s.keeper.leafQ + 1 ∧ t.keeper.leafQ ≤ t.keeper.leafCeil ∧ Frame [.keeper, .out] s t)) ∧
    ((s.keeper.reservationOk = false ∨ 2 ^ 20 ≤ s.keeper.leafQ) → Completes (.chainAttest f) s (fun t =>
      Answers f rsRefused [] s t ∧ t.keeper.leafQ = s.keeper.leafQ ∧ Frame [.keeper, .out] s t))) ∧
  (∀ (f : ChainFrame) (s : State), Takes 10 f s → f.payload = [] → s.keeper.pending = false → Completes (.chainReset f) s (fun t =>
    Answers f rsOk [] s t ∧ t.slots = State.reset.slots ∧ t.mem = State.reset.mem ∧ t.beacon = State.reset.beacon ∧
    t.tasks = State.reset.tasks ∧ t.keeper.activeB = s.keeper.activeB ∧ t.keeper.chainKnown = false ∧ t.part = s.part ∧
    t.pending = s.pending))

/-- A write of a command's code to CMD starts it, while one is in progress it is ignored and sets STATE, and a code that names none sets
COMMAND. A completion has no effect while its command is not in progress or the Keeper restarts. A completed command clears BUSY and
raises MBOX_VEC. IDENTITY, FUSE_LOG and HEALTH store their result in the buffer and answer OK with its length; a buffer that cannot take
the result gives BAD_FRAME and no result. ATTEST stores the report and takes a leaf, and without a leaf answers REFUSED. CONFIRM_FW
confirms the active image at READY and is refused otherwise. SELF_TEST needs a core that the part has and that is fenced; one that
passes answers 0, and one with a faulty line and no repair asked for stays fenced. (R197, R198, R618, R625, R634, R648, R651, R653,
R654, R655.) -/
def Obligations.Mailbox : Prop :=
  (∀ (v : Word) (s : State), v &&& ~~~(word (bm 7 0)) = 0 →
    (s.keeper.mboxCmd = none → 1 ≤ v.toNat → v.toNat ≤ 6 → Completes (.registerWrite .host false (pageBase pgMbox + 0x100) 8 [v]) s
      (fun t => t.keeper = { s.keeper with mboxCmd := some v.toNat } ∧ Frame [.keeper] s t)) ∧
    (s.keeper.mboxCmd.isSome = true → Completes (.registerWrite .host false (pageBase pgMbox + 0x100) 8 [v]) s (fun t =>
      (rd t pgMbox 0x028).bit 4 = true ∧ Frame [.regs, .out] s t ∧ RegFrame [(pgMbox, 0x028), (pgMbox, 0x038)] s t)) ∧
    (s.keeper.mboxCmd = none → (v.toNat = 0 ∨ 6 < v.toNat) → Completes (.registerWrite .host false (pageBase pgMbox + 0x100) 8 [v]) s
      (fun t => (rd t pgMbox 0x028).bit 7 = true ∧ Frame [.regs, .out] s t ∧ RegFrame [(pgMbox, 0x028), (pgMbox, 0x038)] s t))) ∧
  (∀ s : State, (∀ l r, ∀ e ∈ [(Instr.mboxAttest, 1), (.mboxIdentity, 2), (.confirmFw, 3), (.mboxSelfTest l r, 4), (.mboxFuseLog, 5),
      (.mboxHealth, 6)], s.keeper.mboxCmd ≠ some e.2 ∨ s.keeper.restarting = true → exec e.1 s = .next s) ∧
    (∀ e ∈ [(Instr.mboxIdentity, 2, sized 2740 Config.identity),
        (.mboxFuseLog, 5, (fuseWords s).flatMap (fun w => leBytes w.toNat 8)),
        (.mboxHealth, 6, (healthWords s).flatMap (fun w => leBytes w.toNat 8))],
      s.keeper.mboxCmd = some e.2.1 → s.keeper.restarting = false →
      (mboxOpen s e.2.2.length = false → Completes e.1 s (fun t => rd t pgMbox 0x128 = word rsBadFrame ∧
        t.keeper = { s.keeper with mboxCmd := none } ∧ t.out.irqs = s.out.irqs ++ [fld s pgHostif 0x130 24 16] ∧
        Frame [.regs, .keeper, .out] s t ∧ RegFrame [(pgMbox, 0x128)] s t)) ∧
      (mboxOpen s e.2.2.length = true →
        (∀ i ∈ bushelsOf (mboxBuffer s) e.2.2.length, ∀ b, mfind s.mem.bushels i = some b → b.tier < 2) →
        Completes e.1 s (fun t => rd t pgMbox 0x128 = word (e.2.2.length <<< 32) ∧ t.keeper.mboxCmd = none ∧
          (∀ i, i < e.2.2.length → memRd t (mboxBuffer s + i) = e.2.2.getD i 0) ∧
          (∀ x, addr48 x ∉ addrs (mboxBuffer s) e.2.2.length → memRd t x = memRd s x) ∧
          Frame [.regs, .cores, .mem, .keeper, .out, .free] s t)))) ∧
  (∀ s : State, s.keeper.mboxCmd = some 1 → s.keeper.restarting = false → mboxOpen s 3084 = true →
    ((s.keeper.reservationOk = false ∨ 2 ^ 20 ≤ s.keeper.leafQ) → Completes .mboxAttest s (fun t => rd t pgMbox 0x128 = word rsRefused ∧
      t.keeper = { s.keeper with mboxCmd := none } ∧ Frame [.regs, .keeper, .out] s t ∧ RegFrame [(pgMbox, 0x128)] s t)) ∧
    (s.keeper.reservationOk = true → s.keeper.leafQ < 2 ^ 20 → s.keeper.leafQ ≤ s.keeper.leafCeil →
      (∀ i ∈ bushelsOf (mboxBuffer s) 3084, ∀ b, mfind s.mem.bushels i = some b → b.tier < 2) →
      Completes .mboxAttest s (fun t => rd t pgMbox 0x128 = word (3084 <<< 32) ∧ t.keeper.mboxCmd = none ∧
        t.keeper.leafQ = s.keeper.leafQ + 1 ∧ (∀ i, i < 256 → memRd t (mboxBuffer s + i) = (reportHead s s.keeper.leafQ
          ((List.range 3).flatMap (fun i => leBytes (mboxArg s (i + 1)).toNat 8) ++ readMem s (mboxBuffer s) 8)).getD i 0) ∧
        Frame [.regs, .cores, .mem, .keeper, .out, .free] s t))) ∧
  (∀ s : State, s.keeper.mboxCmd = some 3 → s.keeper.restarting = false →
    (bootStage s = 9 → imageId s (activeSlot s) = (mboxArg s 1).bits 31 0 → Completes .confirmFw s (fun t => rd t pgMbox 0x128 = 0 ∧
      t.keeper.mboxCmd = none ∧ t.keeper.confirmed = true ∧ t.keeper.actState = 3 ∧
      t.keeper.minSvn = max s.keeper.minSvn (imageSvn s (activeSlot s)) ∧ Frame [.regs, .keeper, .out] s t ∧
      RegFrame [(pgMbox, 0x128)] s t)) ∧
    ((bootStage s ≠ 9 ∨ imageId s (activeSlot s) ≠ (mboxArg s 1).bits 31 0) → Completes .confirmFw s (fun t =>
      rd t pgMbox 0x128 = word rsRefused ∧ t.keeper = { s.keeper with mboxCmd := none } ∧ Frame [.regs, .keeper, .out] s t ∧
      RegFrame [(pgMbox, 0x128)] s t))) ∧
  (∀ (l : Option ArrayLine) (ok : Bool) (s : State), s.keeper.mboxCmd = some 4 → s.keeper.restarting = false →
    ((coreNamed s (mboxArg s 1) = none ∨ mboxOpen s 8 = false) → Completes (.mboxSelfTest l ok) s (fun t =>
      rd t pgMbox 0x128 = word rsBadFrame ∧ t.keeper = { s.keeper with mboxCmd := none } ∧ Frame [.regs, .keeper, .out] s t)) ∧
    (∀ k, coreNamed s (mboxArg s 1) = some k → mboxOpen s 8 = true →
      (coreState s k ≠ 3 → Completes (.mboxSelfTest l ok) s (fun t => rd t pgMbox 0x128 = word rsRefused ∧
        t.keeper = { s.keeper with mboxCmd := none } ∧ Frame [.regs, .keeper, .out] s t)) ∧
      (coreState s k = 3 → (∀ i ∈ bushelsOf (mboxBuffer s) 8, ∀ b, mfind s.mem.bushels i = some b → b.tier < 2) →
        Completes (.mboxSelfTest none ok) s (fun t => rd t pgMbox 0x128 = word (8 <<< 32) ∧ (coreOf t k).needArrayTest = false ∧
          (∀ i, i < 8 → memRd t (mboxBuffer s + i) = 0) ∧ Frame [.regs, .cores, .mem, .keeper, .out, .free] s t)) ∧
      (coreState s k = 3 → (mboxArg s 2).bit 0 = false → (∀ i ∈ bushelsOf (mboxBuffer s) 8, ∀ b, mfind s.mem.bushels i = some b → b.tier < 2) →
        ∀ x, Completes (.mboxSelfTest (some x) ok) s (fun t => rd t pgMbox 0x128 = word (8 <<< 32) ∧ coreFenced t k = true ∧
          (coreOf t k).arrayTest = false ∧ memRd t (mboxBuffer s) = 2 ∧ t.keeper = { s.keeper with mboxCmd := none }))))

/-- A control window ends once at each Beacon multiple of 128,000, and takes its sample into PWR_STAT and adds its energy; a frozen loop
keeps the cap, and a window above its upper bound lowers the cap, though not below its floor, and ends floor load. The valve opens fully
at a hot junction, is held when frozen or without a target, and else follows the loop above its least opening. The undervoltage band
sets UNDERVOLT, and the return of the voltage clears it. An inlet outside its range is shown while tiles are powered. A protective
shutdown resets the blocks, records its cause, ends bring-up and sends EVENT FAILED; a cause of 0, or NO_FLOW while the tiles are not
powered, has no effect. A read of PWR_STAT returns it and resets PEAK_W. (R661, R662, R663, R665, R666, R667, R670, R671, R674.) -/
def Obligations.Power : Prop :=
  (∀ (x : PowerSample) (s : State), hasTile s x.tjAt.tile.val = true →
    ((s.power.shutdown = true ∨ s.now % 128000 ≠ 0 ∨ s.power.window = some s.now) → exec (.powerControlWindow x) s = .next s) ∧
    (s.power.shutdown = false → s.now % 128000 = 0 → s.power.window ≠ some s.now → Completes (.powerControlWindow x) s (fun t => t.power.prevMW = x.inputW * 1000 ∧ t.power.window = some s.now ∧
      fld t pgPower 0x120 15 0 = sat 16 x.inputW ∧ fld t pgPower 0x120 31 16 = max (sat 16 x.inputW) (fld s pgPower 0x120 31 16) ∧
      fld t pgPower 0x138 11 0 = sat 12 x.tj16 ∧ fld t pgPower 0x130 27 16 = sat 12 x.outlet16 ∧
      rd t pgPower 0x148 = rd s pgPower 0x148 + word ((s.power.energyRem + x.inputW * 1000) / jouleUnits) ∧
      t.power.energyRem = (s.power.energyRem + x.inputW * 1000) % jouleUnits ∧ Frame [.regs, .power, .free] s t)) ∧
    (s.power.shutdown = false → s.now % 128000 = 0 → s.power.window ≠ some s.now → loopFrozen s = true → Completes (.powerControlWindow x) s (fun t => t.power.cap = s.power.cap)) ∧
    (s.power.shutdown = false → s.now % 128000 = 0 → s.power.window ≠ some s.now → loopFrozen s = false → s.power.outletCut = 0 → x.outlet16 ≤ fldA s pgPower 0x110 15 8 * 16 →
      upperMW s < x.inputW * 1000 → s.power.cap ≤ 1900 → Completes (.powerControlWindow x) s (fun t => 1100 ≤ t.power.cap ∧
        t.power.cap ≤ max 1100 (s.power.cap - 1) ∧ fld t pgPower 0x140 15 0 = t.power.cap ∧ fld t pgPower 0x140 23 16 = 0))) ∧
  (∀ (inlet outlet flow : Nat) (opening : Fin 101) (s : State),
    Completes (.valveLoopTick inlet outlet flow opening) s (fun t => t.power.valve =
        (if fldA s pgPower 0x110 7 0 = 0 ∨ (rdA s pgPower 0x118).bit 1 = true then s.power.valve
         else if junctionHot s then 100 else max (fldA s pgPower 0x110 23 16) opening.val) ∧
      fld t pgPower 0x130 11 0 = sat 12 inlet ∧ fld t pgPower 0x130 27 16 = sat 12 outlet ∧ fld t pgPower 0x130 47 32 = sat 16 flow ∧
      fld t pgPower 0x130 55 48 = sat 8 t.power.valve ∧ Frame [.regs, .power] s t ∧ RegFrame [(pgPower, 0x130)] s t)) ∧
  (∀ s : State, (∀ e ∈ [(Instr.inputUndervoltBand, true), (.inputVoltageRestored, false)], Completes e.1 s (fun t =>
      t.power = { s.power with undervolt := e.2 } ∧ fld t pgPower 0x140 32 32 = b2n e.2 ∧ Frame [.regs, .power] s t ∧
      RegFrame [(pgPower, 0x140)] s t)) ∧
    (∀ n, tilesPowered s = false → exec (.inletRange n) s = .next s) ∧
    (∀ n, tilesPowered s = true → Completes (.inletRange n) s (fun t => fld t pgPower 0x130 11 0 = sat 12 n ∧
      (fld t pgPower 0x140 33 33 = 1 ↔ n < 320 ∨ 720 < n) ∧ Frame [.regs] s t ∧ RegFrame [(pgPower, 0x130), (pgPower, 0x140)] s t)) ∧
    Completes .pwrStatRead s (fun t => t.out.reply = .word (rd s pgPower 0x120) ∧ rd t pgPower 0x120 = setBits (rd s pgPower 0x120) 31 16 0 ∧
      Frame [.regs, .out] s t ∧ RegFrame [(pgPower, 0x120)] s t) ∧
    exec (.protectiveShutdown 0) s = .next s ∧ (tilesPowered s = false → exec (.protectiveShutdown 3) s = .next s) ∧
    (∀ c : Fin 7, c.val ≠ 0 → (c.val = 3 → tilesPowered s = true) → Completes (.protectiveShutdown c) s (fun t => t.power.shutdown = true ∧
      fld t pgPower 0x120 35 32 = c.val ∧ bootStage t = 15 ∧ rd t pgIdent 0x140 = rd s pgIdent 0x140 ∧ t.now = s.now ∧
      t.slots = State.reset.slots ∧ t.tasks = State.reset.tasks ∧ t.mem = State.reset.mem ∧
      t.keeper = { s.keeper with chainKnown := false } ∧ t.part = s.part ∧
      t.out.chain = s.out.chain ++ [⟨chainAddr s, 0x81, 0, 0, 0, leBytes 4 2⟩])))

/-- On a tile's bank and on DCTR0, a reset clears every counter and its wraps, keeps its configuration, takes EPOCH on and records the time;
a write of 0 has no effect. SAMPLE_SEL loads the selected counter with its wraps, the epoch and the time. SNAP captures the bank for the
record's address, sets STATE while a record is on its way or the bank is disabled, and COMMAND where the record has no place, and its
completion stores the record. On DCTR1 to DCTR15 the bank's registers are refused with STATE. (R688, R691, R692, R693.) -/
def Obligations.CounterBanks : Prop :=
  (∀ (p : PageRef) (s : State), (∃ tile, p = pgTctr tile) ∨ p = pgDctr 0 → hasPage s p = true →
    (Completes (.counterBankReset p 1) s (fun t => (∀ n, n < 64 → bankValue t p n = 0 ∧ bankWraps t p n = 0 ∧
        (bankCfg t p n).bits 47 0 = (bankCfg s p n).bits 47 0) ∧
      bankEpoch t p = (bankEpoch s p + 1) % 2 ^ 32 ∧ rd t p 0x118 = nowW s ∧ Frame [.regs] s t)) ∧
    exec (.counterBankReset p 0) s = .next s ∧
    (∀ v : Word, v &&& ~~~(word (bm 5 0)) = 0 → Completes (.sampleSelWrite p v) s (fun t => rd t p 0x120 = v ∧
      rd t p 0x128 = bankValue s p v.toNat ∧ rd t p 0x130 = word (bankEpoch s p + bankWraps s p v.toNat <<< 32) ∧
      rd t p 0x138 = nowW s ∧ (∀ o, (∀ d ∈ [0x120, 0x128, 0x130, 0x138], o ≠ pageBase p + d) → regRd t o = regRd s o) ∧
      Frame [.regs] s t)) ∧
    exec (.snap p 0) s = .next s ∧
    (((rd s p 0x150).bit 0 = true ∨ (rd s p 0x010).bit 0 = false) → Completes (.snap p 1) s (fun t => (rd t p 0x028).bit 4 = true ∧ t.snaps = s.snaps ∧
      Frame [.regs, .out] s t)) ∧
    ((rd s p 0x150).bit 0 = false → (rd s p 0x010).bit 0 = true → rangeOpen s (fld s p 0x140 47 6 * 64) 1088 = true → Completes (.snap p 1) s (fun t =>
      rd t p 0x150 = 1 ∧ mfind t.snaps (pageBase p) = some (fld s p 0x140 47 6 * 64, snapRecord s p) ∧
      (∀ o, o ≠ pageBase p + 0x150 → regRd t o = regRd s o) ∧ Frame [.regs, .snaps] s t)) ∧
    ((rd s p 0x150).bit 0 = false → (rd s p 0x010).bit 0 = true → rangeOpen s (fld s p 0x140 47 6 * 64) 1088 = false → Completes (.snap p 1) s (fun t =>
      rd t p 0x150 = 2 ∧ (rd t p 0x028).bit 7 = true ∧ t.snaps = s.snaps ∧ Frame [.regs, .out] s t)) ∧
    (mfind s.snaps (pageBase p) = none → exec (.snapDone p) s = .next s) ∧
    (∀ a v, mfind s.snaps (pageBase p) = some (a, v) → Completes (.snapDone p) s (fun t =>
        (rd t p 0x150).bit 0 = false ∧ mfind t.snaps (pageBase p) = none ∧
        (a + v.length ≤ 2 ^ 48 → (∀ i ∈ bushelsOf a v.length, ∀ b, mfind s.mem.bushels i = some b → b.tier < 2) →
          ∀ i, i < v.length → memRd t (a + i) = v.getD i 0) ∧
        Frame [.regs, .cores, .mem, .granger, .snaps, .out, .free] s t))) ∧
  (∀ (n : Fin 16) (v : Word) (s : State), n.val ≠ 0 → ∀ c ∈ [Instr.counterBankReset (pgDctr n) v, .sampleSelWrite (pgDctr n) v,
    .snap (pgDctr n) v], Completes c s (fun t => (rd t (pgDctr n) 0x028).bit 4 = true ∧ t.snaps = s.snaps ∧
      (∀ i, bankValue t (pgDctr n) i = bankValue s (pgDctr n) i) ∧ Frame [.regs, .out] s t))

/-- A write of CTRL takes its value; EN without a region is ignored and sets STATE. A marker of an enabled class enters its stream's FIFO
with the value written and its agent, has no effect while its stream is not traced, and sets STATE while the block is disabled. The
oldest record of a FIFO is written at the stream's next place and counted. The full-time tick adds a record to each traced stream once
at each Beacon multiple of 2^30; the sample tick does nothing without a period and between its multiples, and at one it adds a record
for each traced counter. A read of TTRACE.STAT returns it and lets its maximum begin again. (R611, R694, R695, R696, R697, R698, R700,
R702.) -/
def Obligations.Traces : Prop :=
  (∀ (v : Word) (s : State), v &&& ~~~(word (bm 1 0 + bm 28 16 + bm 63 32)) = 0 →
    (v.bit 0 = true → (rd s pgTrace 0x118).bit 0 = false → Completes (.traceCtrlWrite v) s (fun t => (rd t pgTrace 0x028).bit 4 = true ∧
      rd t pgTrace 0x110 = rd s pgTrace 0x110 ∧ Frame [.regs, .out] s t)) ∧
    (v.bit 0 = false → Completes (.traceCtrlWrite v) s (fun t => rd t pgTrace 0x110 = v ∧ Frame [.regs] s t ∧
      RegFrame [(pgTrace, 0x110)] s t)) ∧
    (v.bit 0 = true → (rd s pgTrace 0x118).bit 0 = true → Completes (.traceCtrlWrite v) s (fun t => rd t pgTrace 0x110 = v ∧
      Frame [.regs, .traces] s t))) ∧
  (∀ (r : Requester) (v : Word) (s : State), badRequester s r = false → issues s r = true →
    ((rd s pgTrace 0x010).bit 0 = false → Completes (.traceMark r v) s (fun t => (rd t pgTrace 0x028).bit 4 = true ∧
      t.traces = s.traces ∧ Frame [.regs, .out] s t)) ∧
    ((rd s pgTrace 0x010).bit 0 = true → traceOn s devStream = false → exec (.traceMark r v) s = .next s) ∧
    ((rd s pgTrace 0x010).bit 0 = true → traceOn s devStream = true → (rd s pgTrace 0x110).bit 19 = true →
      (traceOf s devStream).dropped = 0 → (traceOf s devStream).records.length < traceDepth → Completes (.traceMark r v) s (fun t =>
        (traceOf t devStream).records = (traceOf s devStream).records ++ [[traceHead s devStream 3, v, reqWho s r, 0]] ∧
        (∀ i, i ≠ devStream → traceOf t i = traceOf s i) ∧ Frame [.traces] s t))) ∧
  (∀ (r : Requester) (tile : Fin 8) (v : Word) (s : State), hasTile s tile.val = true → badRequester s r = false → issues s r = true →
    ((rd s (pgTtrace tile) 0x010).bit 0 = false → Completes (.ttraceMark r tile v) s (fun t =>
      (rd t (pgTtrace tile) 0x028).bit 4 = true ∧ t.traces = s.traces ∧ Frame [.regs, .out] s t)) ∧
    ((rd s (pgTtrace tile) 0x010).bit 0 = true → traceOn s tile.val = true → (rd s pgTrace 0x110).bit 19 = true → (traceOf s tile.val).dropped = 0 →
      (traceOf s tile.val).records.length < traceDepth → Completes (.ttraceMark r tile v) s (fun t =>
        (traceOf t tile.val).records = (traceOf s tile.val).records ++ [[traceHead s tile.val 3, v, reqWho s r, 0]] ∧
        (∀ i, i ≠ tile.val → traceOf t i = traceOf s i) ∧ Frame [.regs, .traces] s t ∧ RegFrame [(pgTtrace tile, 0x128)] s t)) ∧
    Completes (.ttraceStatRead tile) s (fun t => t.out.reply = .word (rd s (pgTtrace tile) 0x128) ∧
      fld t (pgTtrace tile) 0x128 26 16 = fld s (pgTtrace tile) 0x128 10 0 ∧
      fld t (pgTtrace tile) 0x128 10 0 = fld s (pgTtrace tile) 0x128 10 0 ∧ Frame [.regs, .out] s t ∧
      RegFrame [(pgTtrace tile, 0x128)] s t)) ∧
  (∀ (i : Fin 9) (s : State), (i.val = 8 ∨ i.val < s.part.tiles) →
    ((traceOf s i.val).records = [] → exec (.traceFifoWrite i) s = .next s) ∧
    (∀ r rest n, (traceOf s i.val).records = r :: rest → r.length = 4 → (rd s pgTrace 0x118).bit 0 = true → streamBushels s ≠ 0 →
      n = (rd s pgTrace (0x130 + 8 * streamNo s i.val)).toNat →
      ((rd s pgTrace 0x110).bit 1 = false ∨ n < streamBushels s * 65536) →
      Completes (.traceFifoWrite i) s (fun t => (traceOf t i.val).records = rest ∧
        rd t pgTrace (0x130 + 8 * streamNo s i.val) = rd s pgTrace (0x130 + 8 * streamNo s i.val) + 1 ∧
        ((∀ b ∈ s.mem.bushels, b.2.tier < 2) → (s.part.tiles + 1) * streamBushels s + fldA s pgTrace 0x100 47 21 ≤ 2 ^ 27 →
          ∀ j, j < 32 → memRd t ((fldA s pgTrace 0x100 47 21 + streamNo s i.val * streamBushels s) * 2 ^ 21 +
          n % (streamBushels s * 65536) * 32 + j) = (r.flatMap (fun w => leBytes w.toNat 8)).getD j 0) ∧
        Frame [.regs, .cores, .mem, .granger, .traces, .out, .free] s t))) ∧
  (∀ s : State,
    ((s.now % 2 ^ 30 ≠ 0 ∨ ∀ i, traceOn s i = false) → exec .traceFullTimeTick s = .next s) ∧
    (∀ i : Fin 9, s.now % 2 ^ 30 = 0 → (i.val = 8 ∨ i.val < s.part.tiles) → traceOn s i.val = true → (traceOf s i.val).ticked ≠ some s.now →
      (traceOf s i.val).dropped = 0 → (traceOf s i.val).records.length < traceDepth → Completes .traceFullTimeTick s (fun t =>
        (traceOf t i.val).records.length = (traceOf s i.val).records.length + 1 ∧ (traceOf t i.val).ticked = some s.now ∧
        Frame [.regs, .traces] s t)) ∧
    ((fld s pgTrace 0x110 63 32 = 0 ∨ s.now % (fld s pgTrace 0x110 63 32 * 1000) ≠ 0 ∨ (traceOf s devStream).sampled = some s.now) →
      exec .traceSampleTick s = .next s) ∧
    (sampleDue s = true → (∀ tile n, n < 64 → (bankCfg s (pgTctr tile) n).bit 28 = false) →
      ((∀ n, n < 64 → (bankCfg s (pgDctr 0) n).bit 28 = false) → Completes .traceSampleTick s (fun t =>
        (∀ i, (traceOf t i).records = (traceOf s i).records) ∧ (traceOf t devStream).sampled = some s.now ∧ Frame [.traces] s t)) ∧
      (∀ n, n < 64 → traceOn s devStream = true → (rd s pgTrace 0x110).bit 25 = true →
        (traceOf s devStream).dropped = 0 → (traceOf s devStream).records.length < traceDepth →
        (∀ m, m < 64 → ((bankCfg s (pgDctr 0) m).bit 28 = true ↔ m = n)) →
        Completes .traceSampleTick s (fun t => (traceOf t devStream).records = (traceOf s devStream).records ++
          [[traceHead s devStream 9, bankValue s (pgDctr 0) n,
            word (n + 2 ^ 6 + bankWraps s (pgDctr 0) n <<< 16 + bankEpoch s (pgDctr 0) <<< 32),
            word ((bankCfg s (pgDctr 0) n).bits 31 0)]] ∧ (traceOf t devStream).sampled = some s.now ∧ Frame [.traces] s t))))

/-- When the fetch reads an OP or OP-IMM instruction, its destination takes the sum, difference, shift, comparison, logical or product value
of its operands, a write of x0 is discarded, the pc moves past the instruction, minstret counts it, and nothing else of the core
changes. Where L1 holds the instruction's lines the fetch changes no core. LUI and AUIPC write their immediates. JAL and JALR write the
following address and jump, a branch goes to its target when its condition holds and else past the instruction. FENCE only moves the pc
on. A core that cannot issue does nothing. (R88.) -/
def Obligations.ScalarRegisters : Prop :=
  (∀ (k : CoreRef) (w len : Nat) (s u : State), hasTile s k.tile.val = true → Fetches k w len s u →
    (w % 128 = 0x33 → ∀ e ∈ (fun (a b : Word) => [((0x00, 0), a + b), ((0x20, 0), a - b), ((0x00, 1), a <<< (b.toNat % 64)),
          ((0x00, 2), if a.toInt < b.toInt then 1 else 0), ((0x00, 3), if a.toNat < b.toNat then 1 else 0), ((0x00, 4), a ^^^ b),
          ((0x00, 5), a >>> (b.toNat % 64)), ((0x20, 5), a.sshiftRight (b.toNat % 64)), ((0x00, 6), a ||| b), ((0x00, 7), a &&& b),
          ((0x01, 0), a * b), ((0x01, 5), if b = 0 then BitVec.allOnes 64 else a / b), ((0x01, 7), if b = 0 then a else a % b)])
        (xRd (coreOf u k) (bf w 19 15)) (xRd (coreOf u k) (bf w 24 20)),
      (bf w 31 25, bf w 14 12) = e.1 → Completes (.scalarInstruction k) s (fun t =>
        coreOf t k = retired (xWr (coreOf u k) (bf w 11 7) e.2) ((coreOf s k).pc + word len) ∧ (∀ j, j ≠ k → coreOf t j = coreOf u j) ∧
        Frame [.regs, .cores, .out] u t)) ∧
    (w % 128 = 0x13 → ∀ e ∈ (fun (a : Word) => [(0, a + immI w), (2, if a.toInt < (immI w).toInt then 1 else 0),
          (3, if a.toNat < (immI w).toNat then 1 else 0), (4, a ^^^ immI w), (6, a ||| immI w), (7, a &&& immI w)])
        (xRd (coreOf u k) (bf w 19 15)),
      bf w 14 12 = e.1 → Completes (.scalarInstruction k) s (fun t =>
        coreOf t k = retired (xWr (coreOf u k) (bf w 11 7) e.2) ((coreOf s k).pc + word len) ∧ (∀ j, j ≠ k → coreOf t j = coreOf u j) ∧
        Frame [.regs, .cores, .out] u t)) ∧
    (∀ e ∈ [(0x37, sx 32 (bf w 31 12 * 4096), (coreOf s k).pc + word len),
        (0x17, (coreOf u k).pc + sx 32 (bf w 31 12 * 4096), (coreOf s k).pc + word len),
        (0x6F, (coreOf u k).pc + word len, (coreOf u k).pc + immJ w)],
      w % 128 = e.1 → Completes (.scalarInstruction k) s (fun t => coreOf t k = retired (xWr (coreOf u k) (bf w 11 7) e.2.1) e.2.2 ∧
        (∀ j, j ≠ k → coreOf t j = coreOf u j) ∧ Frame [.regs, .cores, .out] u t)) ∧
    (w % 128 = 0x67 → bf w 14 12 = 0 → Completes (.scalarInstruction k) s (fun t =>
      coreOf t k = retired (xWr (coreOf u k) (bf w 11 7) ((coreOf u k).pc + word len))
        ((xRd (coreOf u k) (bf w 19 15) + immI w) &&& ~~~(1 : Word)) ∧
      Frame [.regs, .cores, .out] u t)) ∧
    (w % 128 = 0x63 → ∀ e ∈ (fun (a b : Word) => [(0, decide (a = b)), (1, decide (a ≠ b)), (4, decide (a.toInt < b.toInt)),
          (5, decide (b.toInt ≤ a.toInt)), (6, decide (a.toNat < b.toNat)), (7, decide (b.toNat ≤ a.toNat))])
        (xRd (coreOf u k) (bf w 19 15)) (xRd (coreOf u k) (bf w 24 20)),
      bf w 14 12 = e.1 → Completes (.scalarInstruction k) s (fun t =>
        coreOf t k = retired (coreOf u k) ((coreOf u k).pc + (if e.2 = true then immB w else word len)) ∧
        Frame [.regs, .cores, .out] u t)) ∧
    (w % 128 = 0x0F → bf w 14 12 = 0 → Completes (.scalarInstruction k) s (fun t =>
      coreOf t k = retired (coreOf u k) ((coreOf s k).pc + word len) ∧ Frame [.regs, .cores, .out] u t)) ∧
    ((linesOf (addr48 (coreOf s k).pc.toNat) len).all (fun l => (l1Find (coreOf s k) l).isSome) = true →
      (∀ j, coreOf u j = coreOf s j) ∧ Frame [.regs, .out] s u)) ∧
  (∀ (k : CoreRef) (s : State), hasTile s k.tile.val = true → canIssue s k = false → exec (.scalarInstruction k) s = .next s)

/-- When the fetch reads LD of an aligned MEMORY address whose line L1 holds without an error, the destination takes the eight bytes of L1
in little-endian order and no byte of L1 changes. An SD of such an address writes the register's bytes into L1 and no other byte of L1.
With a request slot free and nothing waiting at the banks of the core's cluster, LR.D takes the doubleword at the home and its line's
reservation; SC.D without that reservation writes 1 and stores nothing, and with it writes 0 and stores the doubleword; AMOADD.D returns
the old doubleword and stores the sum. (R90, R91, R92, R256.) -/
def Obligations.ScalarMemory : Prop :=
  ∀ (k : CoreRef) (w : Nat) (len : Nat) (s u : State), hasTile s k.tile.val = true → Fetches k w len s u →
    (∀ a, a = addr48 (xRd (coreOf u k) (bf w 19 15) + immI w).toNat → w % 128 = 0x03 → bf w 14 12 = 3 → attrOf u a = .memory → a % 8 = 0 →
      badPages u [(a, 8)] = [] → corePoison u k a 8 = none → (linesOf a 8).all (fun l => (l1Find (coreOf u k) l).isSome) = true → Completes (.scalarInstruction k) s
        (fun t => coreOf t k = retired (xWr (coreOf u k) (bf w 11 7) (word (leNat ((List.range 8).map (fun i => l1Byte (coreOf u k) (a + i))))))
          ((coreOf s k).pc + word len) ∧ Frame [.regs, .cores, .out] u t)) ∧
    (∀ a, a = addr48 (xRd (coreOf u k) (bf w 19 15) + immS w).toNat → w % 128 = 0x23 → bf w 14 12 = 3 → attrOf u a = .memory → a % 8 = 0 →
      badPages u [(a, 8)] = [] → corePoisonStore u k a 8 = none → closedPages u k [(a, 8)] = [] → (linesOf a 8).all (fun l => (l1Find (coreOf u k) l).isSome) = true →
      (coreOf u k).l1.all (fun l => decide (l.bytes.length = 64)) = true → Completes (.scalarInstruction k) s (fun t =>
        (∀ i, i < 8 → l1Byte (coreOf t k) (a + i) = (leBytes (xRd (coreOf u k) (bf w 24 20)).toNat 8).getD i 0) ∧
        (∀ x, addr48 x ∉ addrs a 8 → l1Byte (coreOf t k) x = l1Byte (coreOf u k) x) ∧ (coreOf t k).x = (coreOf u k).x ∧
        (coreOf t k).pc = (coreOf s k).pc + word len ∧ Frame [.regs, .cores, .out] u t)) ∧
    (∀ a src, a = addr48 (xRd (coreOf u k) (bf w 19 15)).toNat → src = xRd (coreOf u k) (bf w 24 20) → w % 128 = 0x2F → bf w 14 12 = 3 →
      a % 8 = 0 → attrOf u a = .memory → heldAt u a = false → poisonedAs u (coreSpec u k) (lineNo a) = false →
      l1Find (coreOf u k) (lineNo a) = none → coreSpec u k = false → slotsFull u k = false → (∀ m : Fin 32, bankLoad u (coreCl k) m = 0) →
      (bf w 31 27 = 2 → bf w 24 20 = 0 → Completes (.scalarInstruction k) s (fun t => (coreOf t k).reservation = some (lineNo a) ∧
        xRd (coreOf t k) (bf w 11 7) = (if bf w 11 7 = 0 then 0 else word (leNat (readMem u a 8))) ∧
        (coreOf t k).pc = (coreOf s k).pc + word len ∧ t.mem.bytes = u.mem.bytes ∧ Frame [.regs, .cores, .clusters, .mem, .granger, .net, .out, .free] u t)) ∧
      (committedOk u k a = true → bf w 31 27 = 3 → (coreOf u k).reservation ≠ some (lineNo a) → Completes (.scalarInstruction k) s (fun t =>
        (coreOf t k).reservation = none ∧ xRd (coreOf t k) (bf w 11 7) = (if bf w 11 7 = 0 then 0 else 1) ∧
        (coreOf t k).pc = (coreOf s k).pc + word len ∧ t.mem.bytes = u.mem.bytes ∧ Frame [.regs, .cores, .clusters, .mem, .granger, .net, .out, .free] u t)) ∧
      (committedOk u k a = true → (∀ b, bushelAt u a = some b → b.tier < 2) →
        (bf w 31 27 = 3 → (coreOf u k).reservation = some (lineNo a) → Completes (.scalarInstruction k) s (fun t =>
          (coreOf t k).reservation = none ∧ xRd (coreOf t k) (bf w 11 7) = 0 ∧ (coreOf t k).pc = (coreOf s k).pc + word len ∧
          (∀ i, i < 8 → memRd t (a + i) = (leBytes src.toNat 8).getD i 0) ∧
          (∀ x, addr48 x ∉ addrs a 8 → memRd t x = memRd u x) ∧ Frame [.regs, .cores, .clusters, .mem, .granger, .net, .out, .free] u t)) ∧
        (bf w 31 27 = 0 → Completes (.scalarInstruction k) s (fun t =>
          xRd (coreOf t k) (bf w 11 7) = (if bf w 11 7 = 0 then 0 else word (leNat (readMem u a 8))) ∧
          (coreOf t k).pc = (coreOf s k).pc + word len ∧
          (∀ i, i < 8 → memRd t (a + i) = (leBytes (word (leNat (readMem u a 8)) + src).toNat 8).getD i 0) ∧
          (∀ x, addr48 x ∉ addrs a 8 → memRd t x = memRd u x) ∧ Frame [.regs, .cores, .clusters, .mem, .granger, .net, .out, .free] u t))))

/-- The trap entry saves the pc in mepc and the cause and value in mcause and mtval, saves the interrupt enable and the mode in mstatus,
enters machine mode and goes to mtvec. ECALL of task code takes cause 8, an instruction that the core lacks, MRET and WFI cause 2, a
misaligned load or load reservation in memory cause 4, a misaligned store or other atomic operation there cause 6, and a load or store
of an address whose page is UNMAPPED causes 5 and 7. Each one enters the core monitor at the instruction's own pc. (R88, R89, R91, R93,
R106, R108.) -/
def Obligations.ScalarTraps : Prop :=
  (∀ (c : Core) (cause : Nat) (v : Word), csrGet (trapEntry c cause v) csrMepc = c.pc ∧ csrGet (trapEntry c cause v) csrMcause = word cause ∧
    csrGet (trapEntry c cause v) csrMtval = v ∧ (trapEntry c cause v).machine = true ∧
    (trapEntry c cause v).pc = csrGet c csrMtvec &&& ~~~(3 : Word) ∧
    (csrGet (trapEntry c cause v) csrMstatus).bit 3 = false ∧
    (csrGet (trapEntry c cause v) csrMstatus).bit 7 = (csrGet c csrMstatus).bit 3 ∧
    (csrGet (trapEntry c cause v) csrMstatus).bits 12 11 = (if c.machine then 3 else 0) ∧ (trapEntry c cause v).x = c.x ∧
    (trapEntry c cause v).v = c.v ∧ (trapEntry c cause v).l1 = c.l1) ∧
  (∀ (k : CoreRef) (w len : Nat) (s u : State), hasTile s k.tile.val = true → Fetches k w len s u → (coreOf u k).machine = false →
    (w = 0x00000073 → exec (.scalarInstruction k) s = .next (takeTrap k 8 0 0 0 u)) ∧
    (w % 128 ∈ [0x07, 0x27, 0x43, 0x53] → exec (.scalarInstruction k) s =
      .next (takeTrap k 2 (Config.freeWord u.free) 0 0 { u with free := u.free + 1 })) ∧
    (w = 0x30200073 ∨ w = 0x10500073 → exec (.scalarInstruction k) s =
      .next (takeTrap k 2 (Config.freeWord u.free) 0 0 { u with free := u.free + 1 })) ∧
    (w % 128 = 0x2F → bf w 14 12 = 3 → (xRd (coreOf u k) (bf w 19 15)).toNat % 8 ≠ 0 →
      attrOf u (addr48 (xRd (coreOf u k) (bf w 19 15)).toNat) = .memory →
      (bf w 31 27 = 2 → bf w 24 20 = 0 → exec (.scalarInstruction k) s =
        .next (takeTrap k 4 (word (addr48 (xRd (coreOf u k) (bf w 19 15)).toNat)) 0 0 u)) ∧
      (bf w 31 27 = 3 ∨ bf w 31 27 = 0 → exec (.scalarInstruction k) s =
        .next (takeTrap k 6 (word (addr48 (xRd (coreOf u k) (bf w 19 15)).toNat)) 0 0 u))) ∧
    (∀ a, a = addr48 (xRd (coreOf u k) (bf w 19 15) + immI w).toNat → w % 128 = 0x03 → bf w 14 12 = 0 → attrOf u a = .unmapped →
      exec (.scalarInstruction k) s = .next (takeTrap k 5 (word a) 0 0 u)) ∧
    (∀ a, a = addr48 (xRd (coreOf u k) (bf w 19 15) + immS w).toNat → w % 128 = 0x23 → bf w 14 12 = 0 → attrOf u a = .unmapped →
      exec (.scalarInstruction k) s = .next (takeTrap k 7 (word a) 0 0 u)) ∧
    (∀ a, a = addr48 (xRd (coreOf u k) (bf w 19 15) + immI w).toNat → w % 128 = 0x03 → bf w 14 12 = 3 → attrOf u a = .memory →
      badPages u [(a, 8)] = [] → a % 8 ≠ 0 → exec (.scalarInstruction k) s = .next (takeTrap k 4 (word a) 0 0 u)) ∧
    (∀ a, a = addr48 (xRd (coreOf u k) (bf w 19 15) + immS w).toNat → w % 128 = 0x23 → bf w 14 12 = 3 → attrOf u a = .memory →
      badPages u [(a, 8)] = [] → a % 8 ≠ 0 → exec (.scalarInstruction k) s = .next (takeTrap k 6 (word a) 0 0 u)))

/-- A step with a command at the front of the queue is that command's effect on the state with the queue's rest. On an empty queue, which is
the model's own tick (log entry 1), a machine without a reference clock stays as it is; in any other, while no core's store is held, the
Beacon counter advances by one modulo 2^64, unless it is held, and nothing but it, the Beacon's own waits and the time-accounting
counters changes. (R52, R596.) -/
def Obligations.QueueStep : Prop :=
  (∀ (c : Instr) (rest : List Instr) (s : State), s.pending = c :: rest → step s = exec c { s with pending := rest }) ∧
  (∀ s : State, s.pending = [] → noRefClock s = true → step s = .next s) ∧
  (∀ s : State, s.pending = [] → noRefClock s = false → (∀ e ∈ s.cores, e.2.heldStore = none) →
    ∃ t, step s = .next t ∧ Frame [.now, .beacon, .regs] s t ∧
    t.beacon = { (spendWaits s).beacon with hold := s.beacon.hold - 1 } ∧
    (s.beacon.hold = 0 → t.now = (s.now + 1) % 2 ^ 64) ∧ (s.beacon.hold ≠ 0 → t.now = s.now))

/-- After reset the invariant holds, no command waits, every slot is IDLE with GEN 0, no bushel is mapped and no byte is listed, no task and
no counter is listed, every page is enabled, and registers read their Reset columns. The Beacon counter's value of 0 is the model's
choice. (R60, R71, R331, R498, R542, R590, R613.) -/
def Obligations.ResetState : Prop :=
  Inv State.reset ∧ State.reset.pending = [] ∧ State.reset.mem.bushels = [] ∧ State.reset.mem.bytes = [] ∧ State.reset.tasks = [] ∧
  State.reset.ctrs = [] ∧ State.reset.now = 0 ∧ (∀ n, (slot State.reset n).state = .idle ∧ (slot State.reset n).gen = 0) ∧
  (∀ p : PageRef, hasPage State.reset p = true → rd State.reset p 0x010 = 1 ∧ rd State.reset p 0x028 = 0) ∧
  rd State.reset pgBeacon 0x128 = 0x0000002001400140 ∧ rdA State.reset pgBeacon 0x128 = 0x0000002001400140 ∧
  rd State.reset pgBeacon 0x130 = 0x4E20 ∧ rd State.reset (pgGranger 0) 0x120 = 0x100000E0F020 ∧ rd State.reset pgStep 0x108 = 0xF4240 ∧
  rd State.reset pgColl 0x130 = 0x419000000 ∧ rd State.reset pgIdent 0x140 = 0xFFF

/-- From every state in which every memory is in canonical form and the Beacon counter is below 2^64, a step that answers a next state gives
such a state, whatever the command. (R52, R350, R357.) -/
def Obligations.StepKeepsInvariant : Prop :=
  ∀ s t : State, Inv s → step s = .next t → Inv t

/-- When a command answers a next state, every component of the state outside the list that `Safety.touches` gives for that command is
unchanged. No command changes the part or the queue of waiting commands. Every command answers a next state or is refused because it
names a unit that the part lacks, and on a module of eight tiles every command answers a next state, but one that acts on a page that no
block has. (R596, R597, R613, R582.) -/
def Obligations.CommandFrames : Prop :=
  (∀ (i : Instr) (s t : State), exec i s = .next t → Frame (touches i) s t ∧ t.part = s.part ∧ t.pending = s.pending) ∧
  (∀ (i : Instr) (s : State), (∃ t, exec i s = .next t) ∨ exec i s = .refused .noSuchUnit) ∧
  (∀ (i : Instr) (s : State), s.part.tiles = 8 → (∀ p, pageNamed i = some p → (pageBlock p).isSome = true) → ∃ t, exec i s = .next t)
end

