-- ==== Sys2Proof/Laws/Map.lean ====
section
/-! SUPPORT. Laws of the sparse maps: what a lookup reads after an update, and that an update keeps the canonical form. -/

namespace Sys2Proof.Laws

open Sys2Proof.Machine

variable {α : Type}

theorem mfind_minsert_self (m : List (Nat × α)) (i : Nat) (v : α) : mfind (minsert i v m) i = some v := by
  induction m with
  | nil => simp [minsert, mfind]
  | cons p t ih =>
    obtain ⟨k, w⟩ := p
    simp only [minsert]
    split
    · simp [mfind]
    · split
      · simp [mfind]
      · rename_i h1 h2
        simp [mfind, h2, ih]

theorem mfind_minsert_ne {i j : Nat} (h : j ≠ i) (m : List (Nat × α)) (v : α) : mfind (minsert i v m) j = mfind m j := by
  induction m with
  | nil => simp [minsert, mfind, h]
  | cons p t ih =>
    obtain ⟨k, w⟩ := p
    simp only [minsert]
    split
    · simp [mfind, h]
    · split
      · rename_i h1 h2
        subst h2
        simp [mfind, h]
      · simp [mfind, ih]

theorem mfind_merase_self (m : List (Nat × α)) (i : Nat) : mfind (merase i m) i = none := by
  induction m with
  | nil => simp [merase, mfind]
  | cons p t ih =>
    obtain ⟨k, w⟩ := p
    simp only [merase, List.filter, ne_eq, decide_not] at ih ⊢
    by_cases h : k = i
    · simp [h, ih]
    · simp [h, mfind, Ne.symm h, ih]

theorem mfind_merase_ne {i j : Nat} (h : j ≠ i) (m : List (Nat × α)) : mfind (merase i m) j = mfind m j := by
  induction m with
  | nil => simp [merase, mfind]
  | cons p t ih =>
    obtain ⟨k, w⟩ := p
    simp only [merase, List.filter, ne_eq, decide_not] at ih ⊢
    by_cases hk : k = i
    · subst hk
      simp [mfind, h, ih]
    · simp [hk, mfind, ih]

@[simp] theorem mget_mset_self [DecidableEq α] (d : α) (m : List (Nat × α)) (i : Nat) (v : α) : mget d (mset d m i v) i = v := by
  unfold mset mget
  split
  · simp [mfind_merase_self, *]
  · simp [mfind_minsert_self]

theorem mfind_mset_ne [DecidableEq α] (d : α) (m : List (Nat × α)) {i j : Nat} (v : α) (h : j ≠ i) :
    mfind (mset d m i v) j = mfind m j := by
  unfold mset
  split
  · exact mfind_merase_ne h m
  · exact mfind_minsert_ne h m v

theorem mget_mset_ne [DecidableEq α] (d : α) (m : List (Nat × α)) {i j : Nat} (v : α) (h : j ≠ i) :
    mget d (mset d m i v) j = mget d m j := by
  unfold mset mget
  split
  · simp [mfind_merase_ne h]
  · simp [mfind_minsert_ne h]

/-- Every key of a map is above a number. -/
def Above (k : Nat) (m : List (Nat × α)) : Prop := ∀ p ∈ m, k < p.1

theorem sorted_cons (k : Nat) (w : α) (t : List (Nat × α)) : Sorted ((k, w) :: t) = true ↔ Above k t ∧ Sorted t = true := by
  induction t generalizing k w with
  | nil => simp [Sorted, Above]
  | cons p t ih =>
    obtain ⟨a, v⟩ := p
    simp only [Sorted, Bool.and_eq_true, decide_eq_true_eq]
    constructor
    · rintro ⟨h1, h2⟩
      refine ⟨?_, h2⟩
      intro q hq
      rcases List.mem_cons.1 hq with rfl | hq
      · exact h1
      · exact Nat.lt_trans h1 ((ih a v).1 h2 |>.1 q hq)
    · rintro ⟨h1, h2⟩
      exact ⟨h1 (a, v) (by simp), h2⟩

theorem above_minsert {k i : Nat} {v : α} {m : List (Nat × α)} (hk : k < i) (h : Above k m) : Above k (minsert i v m) := by
  induction m with
  | nil => simpa [minsert, Above] using hk
  | cons p t ih =>
    obtain ⟨a, w⟩ := p
    have ht : Above k t := fun q hq => h q (List.mem_cons_of_mem _ hq)
    simp only [minsert]
    split
    · intro q hq
      rcases List.mem_cons.1 hq with rfl | hq
      · exact hk
      · exact h q hq
    · split
      · intro q hq
        rcases List.mem_cons.1 hq with rfl | hq
        · exact hk
        · exact ht q hq
      · intro q hq
        rcases List.mem_cons.1 hq with rfl | hq
        · exact h (a, w) (by simp)
        · exact ih ht q hq

theorem sorted_minsert (i : Nat) (v : α) {m : List (Nat × α)} (h : Sorted m = true) : Sorted (minsert i v m) = true := by
  induction m with
  | nil => simp [minsert, Sorted]
  | cons p t ih =>
    obtain ⟨a, w⟩ := p
    obtain ⟨h1, h2⟩ := (sorted_cons a w t).1 h
    simp only [minsert]
    split
    · rename_i hi
      refine (sorted_cons i v _).2 ⟨?_, h⟩
      intro q hq
      rcases List.mem_cons.1 hq with rfl | hq
      · exact hi
      · exact Nat.lt_trans hi (h1 q hq)
    · split
      · rename_i h3 h4
        subst h4
        exact (sorted_cons i v t).2 ⟨h1, h2⟩
      · rename_i h3 h4
        exact (sorted_cons a w _).2 ⟨above_minsert (by omega) h1, ih h2⟩

theorem sorted_filter (f : Nat × α → Bool) {m : List (Nat × α)} (h : Sorted m = true) : Sorted (m.filter f) = true := by
  induction m with
  | nil => simp [Sorted]
  | cons p t ih =>
    obtain ⟨a, w⟩ := p
    obtain ⟨h1, h2⟩ := (sorted_cons a w t).1 h
    simp only [List.filter]
    split
    · exact (sorted_cons a w _).2 ⟨fun q hq => h1 q (List.mem_filter.1 hq).1, ih h2⟩
    · exact ih h2

theorem mem_minsert {i : Nat} {v : α} {m : List (Nat × α)} {q : Nat × α} (h : q ∈ minsert i v m) : q = (i, v) ∨ q ∈ m := by
  induction m with
  | nil => simpa [minsert] using h
  | cons p t ih =>
    obtain ⟨a, w⟩ := p
    simp only [minsert] at h
    split at h
    · simpa using h
    · split at h
      · rcases List.mem_cons.1 h with h | h
        · exact Or.inl h
        · exact Or.inr (List.mem_cons_of_mem _ h)
      · rcases List.mem_cons.1 h with h | h
        · exact Or.inr (h ▸ List.mem_cons_self ..)
        · rcases ih h with h | h
          · exact Or.inl h
          · exact Or.inr (List.mem_cons_of_mem _ h)

/-- An update keeps the canonical form. -/
theorem mapWf_mset [DecidableEq α] (d : α) {m : List (Nat × α)} (i : Nat) (v : α) (h : MapWf d m = true) : MapWf d (mset d m i v) = true := by
  simp only [MapWf, Bool.and_eq_true, List.all_eq_true, decide_eq_true_eq] at h ⊢
  unfold mset
  split
  · exact ⟨sorted_filter _ h.1, fun q hq => h.2 q (List.mem_filter.1 hq).1⟩
  · rename_i hv
    refine ⟨sorted_minsert i v h.1, fun q hq => ?_⟩
    rcases mem_minsert hq with rfl | hq
    · exact hv
    · exact h.2 q hq

/-- Keeping the entries that a test accepts keeps the canonical form. -/
theorem mapWf_filter [DecidableEq α] (d : α) {m : List (Nat × α)} (f : Nat × α → Bool) (h : MapWf d m = true) :
    MapWf d (m.filter f) = true := by
  simp only [MapWf, Bool.and_eq_true, List.all_eq_true, decide_eq_true_eq] at h ⊢
  exact ⟨sorted_filter _ h.1, fun q hq => h.2 q (List.mem_filter.1 hq).1⟩

end Sys2Proof.Laws
end

