-- ==== Sys2Proof/Laws/Word.lean ====
section
/-! SUPPORT. Bit fields of a word: what a field reads after a field is set. -/

namespace Sys2Proof.Laws

open Sys2Proof.Machine

theorem word_toNat (n : Nat) : (word n).toNat = n % 2 ^ 64 := by simp [word]

@[simp] theorem word_toNat_self (w : Word) : word w.toNat = w := by simp [word]

/-- Bits of a run of ones. -/
theorem bm_testBit (hi lo i : Nat) (h : lo ≤ hi + 1) : (bm hi lo).testBit i = (decide (lo ≤ i) && decide (i ≤ hi)) := by
  unfold bm
  rw [Nat.testBit_shiftLeft, Nat.testBit_two_pow_sub_one]
  by_cases h1 : lo ≤ i <;> by_cases h2 : i ≤ hi <;> simp [h1, h2] <;> omega

theorem setBits_testBit (w : Word) (hi lo v i : Nat) (h : lo ≤ hi + 1) (h64 : hi < 64) :
    (setBits w hi lo v).toNat.testBit i =
      if lo ≤ i ∧ i ≤ hi then v.testBit (i - lo) else w.toNat.testBit i := by
  by_cases hi64 : i < 64
  · unfold setBits
    rw [BitVec.testBit_toNat, BitVec.getLsbD_or, BitVec.getLsbD_and, BitVec.getLsbD_not]
    simp only [word, BitVec.getLsbD_ofNat, bm_testBit _ _ _ h, hi64, decide_true, Bool.true_and, BitVec.testBit_toNat]
    rw [Nat.testBit_shiftLeft, Nat.testBit_mod_two_pow]
    by_cases h1 : lo ≤ i <;> by_cases h2 : i ≤ hi <;> simp [h1, h2]
    · intro h3; omega
    · intro h3; omega
  · have e : ∀ (x : Word), x.toNat.testBit i = false := fun x => by
      rw [BitVec.testBit_toNat]; exact BitVec.getLsbD_of_ge x i (Nat.le_of_not_lt hi64)
    rw [e, e, if_neg]
    omega

theorem bits_testBit (w : Word) (hi lo i : Nat) :
    (w.bits hi lo).testBit i = (decide (i < hi + 1 - lo) && w.toNat.testBit (lo + i)) := by
  unfold Word.bits
  rw [Nat.testBit_mod_two_pow, Nat.testBit_shiftRight]

/-- The field that was set. -/
theorem setBits_bits (w : Word) (hi lo v : Nat) (h : lo ≤ hi) (h64 : hi < 64) :
    (setBits w hi lo v).bits hi lo = v % 2 ^ (hi + 1 - lo) := by
  apply Nat.eq_of_testBit_eq
  intro i
  rw [bits_testBit, setBits_testBit _ _ _ _ _ (by omega) h64, Nat.testBit_mod_two_pow]
  by_cases c : i < hi + 1 - lo
  · rw [if_pos (by omega)]; simp [c]
  · simp [c]

/-- A field beside the one that was set. -/
theorem setBits_bits_ne (w : Word) (hi lo v hi' lo' : Nat) (h : lo ≤ hi) (h64 : hi < 64) (hd : hi < lo' ∨ hi' < lo) :
    (setBits w hi lo v).bits hi' lo' = w.bits hi' lo' := by
  apply Nat.eq_of_testBit_eq
  intro i
  rw [bits_testBit, bits_testBit, setBits_testBit _ _ _ _ _ (by omega) h64]
  by_cases c : i < hi' + 1 - lo'
  · rw [if_neg (by omega)]
  · simp [c]

/-- A single bit after a field is set. -/
theorem setBits_bit (w : Word) (hi lo v n : Nat) (h : lo ≤ hi) (h64 : hi < 64) :
    (setBits w hi lo v).bit n = if lo ≤ n ∧ n ≤ hi then v.testBit (n - lo) else w.bit n :=
  setBits_testBit w hi lo v n (by omega) h64

end Sys2Proof.Laws
end

