-- ==== Sys2Proof/Laws/Regs.lean ====
section
/-! SUPPORT. Registers: what a read gives after a write. -/

namespace Sys2Proof.Laws

open Sys2Proof.Machine

theorem regRd_regWr (s : State) (o o' : Nat) (v : Word) : regRd (regWr s o v) o' = if o' = o then v else regRd s o' := by
  by_cases h : o' = o
  · subst h
    simp [regRd, regWr]
  · simp [regRd, regWr, mget, mfind_mset_ne _ _ _ h, h]

theorem rd_wr_page (s : State) (p : PageRef) (o o' : Nat) (v : Word) : rd (wr s p o v) p o' = if o' = o then v else rd s p o' := by
  unfold rd wr
  rw [regRd_regWr]
  simp only [Nat.add_left_cancel_iff]

@[simp] theorem rd_wr_self (s : State) (p : PageRef) (o : Nat) (v : Word) : rd (wr s p o v) p o = v := by simp [rd_wr_page]

theorem rd_wr_ne (s : State) (p q : PageRef) (o o' : Nat) (v : Word) (h : pageBase q + o' ≠ pageBase p + o) :
    rd (wr s p o v) q o' = rd s q o' := by
  unfold rd wr
  rw [regRd_regWr, if_neg h]

theorem rd_setFld_ne (s : State) (p q : PageRef) (o o' hi lo v : Nat) (h : pageBase q + o' ≠ pageBase p + o) :
    rd (setFld s p o hi lo v) q o' = rd s q o' := rd_wr_ne _ _ _ _ _ _ h

theorem rd_setFld_self (s : State) (p : PageRef) (o hi lo v : Nat) :
    rd (setFld s p o hi lo v) p o = setBits (rd s p o) hi lo v := rd_wr_self _ _ _ _

/-- The field that was set. -/
theorem fld_setFld (s : State) (p : PageRef) (o hi lo v : Nat) (h : lo ≤ hi) (h64 : hi < 64) :
    fld (setFld s p o hi lo v) p o hi lo = v % 2 ^ (hi + 1 - lo) := by
  unfold fld
  rw [rd_setFld_self, setBits_bits _ _ _ _ h h64]

/-- A field beside the one that was set. -/
theorem fld_setFld_ne (s : State) (p : PageRef) (o hi lo v hi' lo' : Nat) (h : lo ≤ hi) (h64 : hi < 64) (hd : hi < lo' ∨ hi' < lo) :
    fld (setFld s p o hi lo v) p o hi' lo' = fld s p o hi' lo' := by
  unfold fld
  rw [rd_setFld_self, setBits_bits_ne _ _ _ _ _ _ h h64 hd]

@[simp] theorem rd_addReg_self (s : State) (p : PageRef) (o n : Nat) : rd (addReg s p o n) p o = rd s p o + word n := rd_wr_self _ _ _ _

end Sys2Proof.Laws
end

