-- ==== Sys2Proof/Laws/State.lean ====
section
/-! SUPPORT. One lemma for each field and each reading under each update of one piece of the state, true by unfolding, so that no later
proof unfolds a record update. -/

namespace Sys2Proof.Laws

open Sys2Proof.Machine

variable (s : State)

/-! ### regWr -/

@[simp] theorem regWr_part (o : Nat) (v : Word) : (regWr s o v).part = s.part := (rfl)
@[simp] theorem regWr_now (o : Nat) (v : Word) : (regWr s o v).now = s.now := (rfl)
@[simp] theorem regWr_beacon (o : Nat) (v : Word) : (regWr s o v).beacon = s.beacon := (rfl)
@[simp] theorem regWr_slots (o : Nat) (v : Word) : (regWr s o v).slots = s.slots := (rfl)
@[simp] theorem regWr_tasks (o : Nat) (v : Word) : (regWr s o v).tasks = s.tasks := (rfl)
@[simp] theorem regWr_ctrs (o : Nat) (v : Word) : (regWr s o v).ctrs = s.ctrs := (rfl)
@[simp] theorem regWr_cores (o : Nat) (v : Word) : (regWr s o v).cores = s.cores := (rfl)
@[simp] theorem regWr_clusters (o : Nat) (v : Word) : (regWr s o v).clusters = s.clusters := (rfl)
@[simp] theorem regWr_mem (o : Nat) (v : Word) : (regWr s o v).mem = s.mem := (rfl)
@[simp] theorem regWr_granger (o : Nat) (v : Word) : (regWr s o v).granger = s.granger := (rfl)
@[simp] theorem regWr_streams (o : Nat) (v : Word) : (regWr s o v).streams = s.streams := (rfl)
@[simp] theorem regWr_dmas (o : Nat) (v : Word) : (regWr s o v).dmas = s.dmas := (rfl)
@[simp] theorem regWr_dmaNext (o : Nat) (v : Word) : (regWr s o v).dmaNext = s.dmaNext := (rfl)
@[simp] theorem regWr_net (o : Nat) (v : Word) : (regWr s o v).net = s.net := (rfl)
@[simp] theorem regWr_ports (o : Nat) (v : Word) : (regWr s o v).ports = s.ports := (rfl)
@[simp] theorem regWr_coll (o : Nat) (v : Word) : (regWr s o v).coll = s.coll := (rfl)
@[simp] theorem regWr_control (o : Nat) (v : Word) : (regWr s o v).control = s.control := (rfl)
@[simp] theorem regWr_step (o : Nat) (v : Word) : (regWr s o v).step = s.step := (rfl)
@[simp] theorem regWr_keeper (o : Nat) (v : Word) : (regWr s o v).keeper = s.keeper := (rfl)
@[simp] theorem regWr_power (o : Nat) (v : Word) : (regWr s o v).power = s.power := (rfl)
@[simp] theorem regWr_traces (o : Nat) (v : Word) : (regWr s o v).traces = s.traces := (rfl)
@[simp] theorem regWr_snaps (o : Nat) (v : Word) : (regWr s o v).snaps = s.snaps := (rfl)
@[simp] theorem regWr_commits (o : Nat) (v : Word) : (regWr s o v).commits = s.commits := (rfl)
@[simp] theorem regWr_out (o : Nat) (v : Word) : (regWr s o v).out = s.out := (rfl)
@[simp] theorem regWr_free (o : Nat) (v : Word) : (regWr s o v).free = s.free := (rfl)
@[simp] theorem regWr_pending (o : Nat) (v : Word) : (regWr s o v).pending = s.pending := (rfl)
@[simp] theorem slot_regWr (o : Nat) (v : Word) (q : Nat) : slot (regWr s o v) q = slot s q := (rfl)
@[simp] theorem core_regWr (o : Nat) (v : Word) (q : CoreRef) : coreOf (regWr s o v) q = coreOf s q := (rfl)
@[simp] theorem cluster_regWr (o : Nat) (v : Word) (q : ClusterRef) : cluster (regWr s o v) q = cluster s q := (rfl)
@[simp] theorem ctr_regWr (o : Nat) (v : Word) (q : Nat) : ctr (regWr s o v) q = ctr s q := (rfl)
@[simp] theorem port_regWr (o : Nat) (v : Word) (q : Nat) : port (regWr s o v) q = port s q := (rfl)
@[simp] theorem traceOf_regWr (o : Nat) (v : Word) (q : Nat) : traceOf (regWr s o v) q = traceOf s q := (rfl)
@[simp] theorem hasTile_regWr (o : Nat) (v : Word) (q : Nat) : hasTile (regWr s o v) q = hasTile s q := (rfl)

/-! ### wr -/

@[simp] theorem wr_part (p : PageRef) (o : Nat) (v : Word) : (wr s p o v).part = s.part := (rfl)
@[simp] theorem wr_now (p : PageRef) (o : Nat) (v : Word) : (wr s p o v).now = s.now := (rfl)
@[simp] theorem wr_beacon (p : PageRef) (o : Nat) (v : Word) : (wr s p o v).beacon = s.beacon := (rfl)
@[simp] theorem wr_slots (p : PageRef) (o : Nat) (v : Word) : (wr s p o v).slots = s.slots := (rfl)
@[simp] theorem wr_tasks (p : PageRef) (o : Nat) (v : Word) : (wr s p o v).tasks = s.tasks := (rfl)
@[simp] theorem wr_ctrs (p : PageRef) (o : Nat) (v : Word) : (wr s p o v).ctrs = s.ctrs := (rfl)
@[simp] theorem wr_cores (p : PageRef) (o : Nat) (v : Word) : (wr s p o v).cores = s.cores := (rfl)
@[simp] theorem wr_clusters (p : PageRef) (o : Nat) (v : Word) : (wr s p o v).clusters = s.clusters := (rfl)
@[simp] theorem wr_mem (p : PageRef) (o : Nat) (v : Word) : (wr s p o v).mem = s.mem := (rfl)
@[simp] theorem wr_granger (p : PageRef) (o : Nat) (v : Word) : (wr s p o v).granger = s.granger := (rfl)
@[simp] theorem wr_streams (p : PageRef) (o : Nat) (v : Word) : (wr s p o v).streams = s.streams := (rfl)
@[simp] theorem wr_dmas (p : PageRef) (o : Nat) (v : Word) : (wr s p o v).dmas = s.dmas := (rfl)
@[simp] theorem wr_dmaNext (p : PageRef) (o : Nat) (v : Word) : (wr s p o v).dmaNext = s.dmaNext := (rfl)
@[simp] theorem wr_net (p : PageRef) (o : Nat) (v : Word) : (wr s p o v).net = s.net := (rfl)
@[simp] theorem wr_ports (p : PageRef) (o : Nat) (v : Word) : (wr s p o v).ports = s.ports := (rfl)
@[simp] theorem wr_coll (p : PageRef) (o : Nat) (v : Word) : (wr s p o v).coll = s.coll := (rfl)
@[simp] theorem wr_control (p : PageRef) (o : Nat) (v : Word) : (wr s p o v).control = s.control := (rfl)
@[simp] theorem wr_step (p : PageRef) (o : Nat) (v : Word) : (wr s p o v).step = s.step := (rfl)
@[simp] theorem wr_keeper (p : PageRef) (o : Nat) (v : Word) : (wr s p o v).keeper = s.keeper := (rfl)
@[simp] theorem wr_power (p : PageRef) (o : Nat) (v : Word) : (wr s p o v).power = s.power := (rfl)
@[simp] theorem wr_traces (p : PageRef) (o : Nat) (v : Word) : (wr s p o v).traces = s.traces := (rfl)
@[simp] theorem wr_snaps (p : PageRef) (o : Nat) (v : Word) : (wr s p o v).snaps = s.snaps := (rfl)
@[simp] theorem wr_commits (p : PageRef) (o : Nat) (v : Word) : (wr s p o v).commits = s.commits := (rfl)
@[simp] theorem wr_out (p : PageRef) (o : Nat) (v : Word) : (wr s p o v).out = s.out := (rfl)
@[simp] theorem wr_free (p : PageRef) (o : Nat) (v : Word) : (wr s p o v).free = s.free := (rfl)
@[simp] theorem wr_pending (p : PageRef) (o : Nat) (v : Word) : (wr s p o v).pending = s.pending := (rfl)
@[simp] theorem slot_wr (p : PageRef) (o : Nat) (v : Word) (q : Nat) : slot (wr s p o v) q = slot s q := (rfl)
@[simp] theorem core_wr (p : PageRef) (o : Nat) (v : Word) (q : CoreRef) : coreOf (wr s p o v) q = coreOf s q := (rfl)
@[simp] theorem cluster_wr (p : PageRef) (o : Nat) (v : Word) (q : ClusterRef) : cluster (wr s p o v) q = cluster s q := (rfl)
@[simp] theorem ctr_wr (p : PageRef) (o : Nat) (v : Word) (q : Nat) : ctr (wr s p o v) q = ctr s q := (rfl)
@[simp] theorem port_wr (p : PageRef) (o : Nat) (v : Word) (q : Nat) : port (wr s p o v) q = port s q := (rfl)
@[simp] theorem traceOf_wr (p : PageRef) (o : Nat) (v : Word) (q : Nat) : traceOf (wr s p o v) q = traceOf s q := (rfl)
@[simp] theorem hasTile_wr (p : PageRef) (o : Nat) (v : Word) (q : Nat) : hasTile (wr s p o v) q = hasTile s q := (rfl)

/-! ### setFld -/

@[simp] theorem setFld_part (p : PageRef) (o hi lo v : Nat) : (setFld s p o hi lo v).part = s.part := (rfl)
@[simp] theorem setFld_now (p : PageRef) (o hi lo v : Nat) : (setFld s p o hi lo v).now = s.now := (rfl)
@[simp] theorem setFld_beacon (p : PageRef) (o hi lo v : Nat) : (setFld s p o hi lo v).beacon = s.beacon := (rfl)
@[simp] theorem setFld_slots (p : PageRef) (o hi lo v : Nat) : (setFld s p o hi lo v).slots = s.slots := (rfl)
@[simp] theorem setFld_tasks (p : PageRef) (o hi lo v : Nat) : (setFld s p o hi lo v).tasks = s.tasks := (rfl)
@[simp] theorem setFld_ctrs (p : PageRef) (o hi lo v : Nat) : (setFld s p o hi lo v).ctrs = s.ctrs := (rfl)
@[simp] theorem setFld_cores (p : PageRef) (o hi lo v : Nat) : (setFld s p o hi lo v).cores = s.cores := (rfl)
@[simp] theorem setFld_clusters (p : PageRef) (o hi lo v : Nat) : (setFld s p o hi lo v).clusters = s.clusters := (rfl)
@[simp] theorem setFld_mem (p : PageRef) (o hi lo v : Nat) : (setFld s p o hi lo v).mem = s.mem := (rfl)
@[simp] theorem setFld_granger (p : PageRef) (o hi lo v : Nat) : (setFld s p o hi lo v).granger = s.granger := (rfl)
@[simp] theorem setFld_streams (p : PageRef) (o hi lo v : Nat) : (setFld s p o hi lo v).streams = s.streams := (rfl)
@[simp] theorem setFld_dmas (p : PageRef) (o hi lo v : Nat) : (setFld s p o hi lo v).dmas = s.dmas := (rfl)
@[simp] theorem setFld_dmaNext (p : PageRef) (o hi lo v : Nat) : (setFld s p o hi lo v).dmaNext = s.dmaNext := (rfl)
@[simp] theorem setFld_net (p : PageRef) (o hi lo v : Nat) : (setFld s p o hi lo v).net = s.net := (rfl)
@[simp] theorem setFld_ports (p : PageRef) (o hi lo v : Nat) : (setFld s p o hi lo v).ports = s.ports := (rfl)
@[simp] theorem setFld_coll (p : PageRef) (o hi lo v : Nat) : (setFld s p o hi lo v).coll = s.coll := (rfl)
@[simp] theorem setFld_control (p : PageRef) (o hi lo v : Nat) : (setFld s p o hi lo v).control = s.control := (rfl)
@[simp] theorem setFld_step (p : PageRef) (o hi lo v : Nat) : (setFld s p o hi lo v).step = s.step := (rfl)
@[simp] theorem setFld_keeper (p : PageRef) (o hi lo v : Nat) : (setFld s p o hi lo v).keeper = s.keeper := (rfl)
@[simp] theorem setFld_power (p : PageRef) (o hi lo v : Nat) : (setFld s p o hi lo v).power = s.power := (rfl)
@[simp] theorem setFld_traces (p : PageRef) (o hi lo v : Nat) : (setFld s p o hi lo v).traces = s.traces := (rfl)
@[simp] theorem setFld_snaps (p : PageRef) (o hi lo v : Nat) : (setFld s p o hi lo v).snaps = s.snaps := (rfl)
@[simp] theorem setFld_commits (p : PageRef) (o hi lo v : Nat) : (setFld s p o hi lo v).commits = s.commits := (rfl)
@[simp] theorem setFld_out (p : PageRef) (o hi lo v : Nat) : (setFld s p o hi lo v).out = s.out := (rfl)
@[simp] theorem setFld_free (p : PageRef) (o hi lo v : Nat) : (setFld s p o hi lo v).free = s.free := (rfl)
@[simp] theorem setFld_pending (p : PageRef) (o hi lo v : Nat) : (setFld s p o hi lo v).pending = s.pending := (rfl)
@[simp] theorem slot_setFld (p : PageRef) (o hi lo v : Nat) (q : Nat) : slot (setFld s p o hi lo v) q = slot s q := (rfl)
@[simp] theorem core_setFld (p : PageRef) (o hi lo v : Nat) (q : CoreRef) : coreOf (setFld s p o hi lo v) q = coreOf s q := (rfl)
@[simp] theorem cluster_setFld (p : PageRef) (o hi lo v : Nat) (q : ClusterRef) : cluster (setFld s p o hi lo v) q = cluster s q := (rfl)
@[simp] theorem ctr_setFld (p : PageRef) (o hi lo v : Nat) (q : Nat) : ctr (setFld s p o hi lo v) q = ctr s q := (rfl)
@[simp] theorem port_setFld (p : PageRef) (o hi lo v : Nat) (q : Nat) : port (setFld s p o hi lo v) q = port s q := (rfl)
@[simp] theorem traceOf_setFld (p : PageRef) (o hi lo v : Nat) (q : Nat) : traceOf (setFld s p o hi lo v) q = traceOf s q := (rfl)
@[simp] theorem hasTile_setFld (p : PageRef) (o hi lo v : Nat) (q : Nat) : hasTile (setFld s p o hi lo v) q = hasTile s q := (rfl)

/-! ### addReg -/

@[simp] theorem addReg_part (p : PageRef) (o n : Nat) : (addReg s p o n).part = s.part := (rfl)
@[simp] theorem addReg_now (p : PageRef) (o n : Nat) : (addReg s p o n).now = s.now := (rfl)
@[simp] theorem addReg_beacon (p : PageRef) (o n : Nat) : (addReg s p o n).beacon = s.beacon := (rfl)
@[simp] theorem addReg_slots (p : PageRef) (o n : Nat) : (addReg s p o n).slots = s.slots := (rfl)
@[simp] theorem addReg_tasks (p : PageRef) (o n : Nat) : (addReg s p o n).tasks = s.tasks := (rfl)
@[simp] theorem addReg_ctrs (p : PageRef) (o n : Nat) : (addReg s p o n).ctrs = s.ctrs := (rfl)
@[simp] theorem addReg_cores (p : PageRef) (o n : Nat) : (addReg s p o n).cores = s.cores := (rfl)
@[simp] theorem addReg_clusters (p : PageRef) (o n : Nat) : (addReg s p o n).clusters = s.clusters := (rfl)
@[simp] theorem addReg_mem (p : PageRef) (o n : Nat) : (addReg s p o n).mem = s.mem := (rfl)
@[simp] theorem addReg_granger (p : PageRef) (o n : Nat) : (addReg s p o n).granger = s.granger := (rfl)
@[simp] theorem addReg_streams (p : PageRef) (o n : Nat) : (addReg s p o n).streams = s.streams := (rfl)
@[simp] theorem addReg_dmas (p : PageRef) (o n : Nat) : (addReg s p o n).dmas = s.dmas := (rfl)
@[simp] theorem addReg_dmaNext (p : PageRef) (o n : Nat) : (addReg s p o n).dmaNext = s.dmaNext := (rfl)
@[simp] theorem addReg_net (p : PageRef) (o n : Nat) : (addReg s p o n).net = s.net := (rfl)
@[simp] theorem addReg_ports (p : PageRef) (o n : Nat) : (addReg s p o n).ports = s.ports := (rfl)
@[simp] theorem addReg_coll (p : PageRef) (o n : Nat) : (addReg s p o n).coll = s.coll := (rfl)
@[simp] theorem addReg_control (p : PageRef) (o n : Nat) : (addReg s p o n).control = s.control := (rfl)
@[simp] theorem addReg_step (p : PageRef) (o n : Nat) : (addReg s p o n).step = s.step := (rfl)
@[simp] theorem addReg_keeper (p : PageRef) (o n : Nat) : (addReg s p o n).keeper = s.keeper := (rfl)
@[simp] theorem addReg_power (p : PageRef) (o n : Nat) : (addReg s p o n).power = s.power := (rfl)
@[simp] theorem addReg_traces (p : PageRef) (o n : Nat) : (addReg s p o n).traces = s.traces := (rfl)
@[simp] theorem addReg_snaps (p : PageRef) (o n : Nat) : (addReg s p o n).snaps = s.snaps := (rfl)
@[simp] theorem addReg_commits (p : PageRef) (o n : Nat) : (addReg s p o n).commits = s.commits := (rfl)
@[simp] theorem addReg_out (p : PageRef) (o n : Nat) : (addReg s p o n).out = s.out := (rfl)
@[simp] theorem addReg_free (p : PageRef) (o n : Nat) : (addReg s p o n).free = s.free := (rfl)
@[simp] theorem addReg_pending (p : PageRef) (o n : Nat) : (addReg s p o n).pending = s.pending := (rfl)
@[simp] theorem slot_addReg (p : PageRef) (o n : Nat) (q : Nat) : slot (addReg s p o n) q = slot s q := (rfl)
@[simp] theorem core_addReg (p : PageRef) (o n : Nat) (q : CoreRef) : coreOf (addReg s p o n) q = coreOf s q := (rfl)
@[simp] theorem cluster_addReg (p : PageRef) (o n : Nat) (q : ClusterRef) : cluster (addReg s p o n) q = cluster s q := (rfl)
@[simp] theorem ctr_addReg (p : PageRef) (o n : Nat) (q : Nat) : ctr (addReg s p o n) q = ctr s q := (rfl)
@[simp] theorem port_addReg (p : PageRef) (o n : Nat) (q : Nat) : port (addReg s p o n) q = port s q := (rfl)
@[simp] theorem traceOf_addReg (p : PageRef) (o n : Nat) (q : Nat) : traceOf (addReg s p o n) q = traceOf s q := (rfl)
@[simp] theorem hasTile_addReg (p : PageRef) (o n : Nat) (q : Nat) : hasTile (addReg s p o n) q = hasTile s q := (rfl)

/-! ### addFld -/

@[simp] theorem addFld_part (p : PageRef) (o hi lo n : Nat) : (addFld s p o hi lo n).part = s.part := (rfl)
@[simp] theorem addFld_now (p : PageRef) (o hi lo n : Nat) : (addFld s p o hi lo n).now = s.now := (rfl)
@[simp] theorem addFld_beacon (p : PageRef) (o hi lo n : Nat) : (addFld s p o hi lo n).beacon = s.beacon := (rfl)
@[simp] theorem addFld_slots (p : PageRef) (o hi lo n : Nat) : (addFld s p o hi lo n).slots = s.slots := (rfl)
@[simp] theorem addFld_tasks (p : PageRef) (o hi lo n : Nat) : (addFld s p o hi lo n).tasks = s.tasks := (rfl)
@[simp] theorem addFld_ctrs (p : PageRef) (o hi lo n : Nat) : (addFld s p o hi lo n).ctrs = s.ctrs := (rfl)
@[simp] theorem addFld_cores (p : PageRef) (o hi lo n : Nat) : (addFld s p o hi lo n).cores = s.cores := (rfl)
@[simp] theorem addFld_clusters (p : PageRef) (o hi lo n : Nat) : (addFld s p o hi lo n).clusters = s.clusters := (rfl)
@[simp] theorem addFld_mem (p : PageRef) (o hi lo n : Nat) : (addFld s p o hi lo n).mem = s.mem := (rfl)
@[simp] theorem addFld_granger (p : PageRef) (o hi lo n : Nat) : (addFld s p o hi lo n).granger = s.granger := (rfl)
@[simp] theorem addFld_streams (p : PageRef) (o hi lo n : Nat) : (addFld s p o hi lo n).streams = s.streams := (rfl)
@[simp] theorem addFld_dmas (p : PageRef) (o hi lo n : Nat) : (addFld s p o hi lo n).dmas = s.dmas := (rfl)
@[simp] theorem addFld_dmaNext (p : PageRef) (o hi lo n : Nat) : (addFld s p o hi lo n).dmaNext = s.dmaNext := (rfl)
@[simp] theorem addFld_net (p : PageRef) (o hi lo n : Nat) : (addFld s p o hi lo n).net = s.net := (rfl)
@[simp] theorem addFld_ports (p : PageRef) (o hi lo n : Nat) : (addFld s p o hi lo n).ports = s.ports := (rfl)
@[simp] theorem addFld_coll (p : PageRef) (o hi lo n : Nat) : (addFld s p o hi lo n).coll = s.coll := (rfl)
@[simp] theorem addFld_control (p : PageRef) (o hi lo n : Nat) : (addFld s p o hi lo n).control = s.control := (rfl)
@[simp] theorem addFld_step (p : PageRef) (o hi lo n : Nat) : (addFld s p o hi lo n).step = s.step := (rfl)
@[simp] theorem addFld_keeper (p : PageRef) (o hi lo n : Nat) : (addFld s p o hi lo n).keeper = s.keeper := (rfl)
@[simp] theorem addFld_power (p : PageRef) (o hi lo n : Nat) : (addFld s p o hi lo n).power = s.power := (rfl)
@[simp] theorem addFld_traces (p : PageRef) (o hi lo n : Nat) : (addFld s p o hi lo n).traces = s.traces := (rfl)
@[simp] theorem addFld_snaps (p : PageRef) (o hi lo n : Nat) : (addFld s p o hi lo n).snaps = s.snaps := (rfl)
@[simp] theorem addFld_commits (p : PageRef) (o hi lo n : Nat) : (addFld s p o hi lo n).commits = s.commits := (rfl)
@[simp] theorem addFld_out (p : PageRef) (o hi lo n : Nat) : (addFld s p o hi lo n).out = s.out := (rfl)
@[simp] theorem addFld_free (p : PageRef) (o hi lo n : Nat) : (addFld s p o hi lo n).free = s.free := (rfl)
@[simp] theorem addFld_pending (p : PageRef) (o hi lo n : Nat) : (addFld s p o hi lo n).pending = s.pending := (rfl)
@[simp] theorem slot_addFld (p : PageRef) (o hi lo n : Nat) (q : Nat) : slot (addFld s p o hi lo n) q = slot s q := (rfl)
@[simp] theorem core_addFld (p : PageRef) (o hi lo n : Nat) (q : CoreRef) : coreOf (addFld s p o hi lo n) q = coreOf s q := (rfl)
@[simp] theorem cluster_addFld (p : PageRef) (o hi lo n : Nat) (q : ClusterRef) : cluster (addFld s p o hi lo n) q = cluster s q := (rfl)
@[simp] theorem ctr_addFld (p : PageRef) (o hi lo n : Nat) (q : Nat) : ctr (addFld s p o hi lo n) q = ctr s q := (rfl)
@[simp] theorem port_addFld (p : PageRef) (o hi lo n : Nat) (q : Nat) : port (addFld s p o hi lo n) q = port s q := (rfl)
@[simp] theorem traceOf_addFld (p : PageRef) (o hi lo n : Nat) (q : Nat) : traceOf (addFld s p o hi lo n) q = traceOf s q := (rfl)
@[simp] theorem hasTile_addFld (p : PageRef) (o hi lo n : Nat) (q : Nat) : hasTile (addFld s p o hi lo n) q = hasTile s q := (rfl)

/-! ### setCoreState -/

@[simp] theorem setCoreState_part (k : CoreRef) (v : Nat) : (setCoreState s k v).part = s.part := by simp only [setCoreState, setFld_part]
@[simp] theorem setCoreState_now (k : CoreRef) (v : Nat) : (setCoreState s k v).now = s.now := by simp only [setCoreState, setFld_now]
@[simp] theorem setCoreState_beacon (k : CoreRef) (v : Nat) : (setCoreState s k v).beacon = s.beacon := by simp only [setCoreState, setFld_beacon]
@[simp] theorem setCoreState_slots (k : CoreRef) (v : Nat) : (setCoreState s k v).slots = s.slots := by simp only [setCoreState, setFld_slots]
@[simp] theorem setCoreState_tasks (k : CoreRef) (v : Nat) : (setCoreState s k v).tasks = s.tasks := by simp only [setCoreState, setFld_tasks]
@[simp] theorem setCoreState_ctrs (k : CoreRef) (v : Nat) : (setCoreState s k v).ctrs = s.ctrs := by simp only [setCoreState, setFld_ctrs]
@[simp] theorem setCoreState_cores (k : CoreRef) (v : Nat) : (setCoreState s k v).cores = s.cores := by simp only [setCoreState, setFld_cores]
@[simp] theorem setCoreState_clusters (k : CoreRef) (v : Nat) : (setCoreState s k v).clusters = s.clusters := by simp only [setCoreState, setFld_clusters]
@[simp] theorem setCoreState_mem (k : CoreRef) (v : Nat) : (setCoreState s k v).mem = s.mem := by simp only [setCoreState, setFld_mem]
@[simp] theorem setCoreState_granger (k : CoreRef) (v : Nat) : (setCoreState s k v).granger = s.granger := by simp only [setCoreState, setFld_granger]
@[simp] theorem setCoreState_streams (k : CoreRef) (v : Nat) : (setCoreState s k v).streams = s.streams := by simp only [setCoreState, setFld_streams]
@[simp] theorem setCoreState_dmas (k : CoreRef) (v : Nat) : (setCoreState s k v).dmas = s.dmas := by simp only [setCoreState, setFld_dmas]
@[simp] theorem setCoreState_dmaNext (k : CoreRef) (v : Nat) : (setCoreState s k v).dmaNext = s.dmaNext := by simp only [setCoreState, setFld_dmaNext]
@[simp] theorem setCoreState_net (k : CoreRef) (v : Nat) : (setCoreState s k v).net = s.net := by simp only [setCoreState, setFld_net]
@[simp] theorem setCoreState_ports (k : CoreRef) (v : Nat) : (setCoreState s k v).ports = s.ports := by simp only [setCoreState, setFld_ports]
@[simp] theorem setCoreState_coll (k : CoreRef) (v : Nat) : (setCoreState s k v).coll = s.coll := by simp only [setCoreState, setFld_coll]
@[simp] theorem setCoreState_control (k : CoreRef) (v : Nat) : (setCoreState s k v).control = s.control := by simp only [setCoreState, setFld_control]
@[simp] theorem setCoreState_step (k : CoreRef) (v : Nat) : (setCoreState s k v).step = s.step := by simp only [setCoreState, setFld_step]
@[simp] theorem setCoreState_keeper (k : CoreRef) (v : Nat) : (setCoreState s k v).keeper = s.keeper := by simp only [setCoreState, setFld_keeper]
@[simp] theorem setCoreState_power (k : CoreRef) (v : Nat) : (setCoreState s k v).power = s.power := by simp only [setCoreState, setFld_power]
@[simp] theorem setCoreState_traces (k : CoreRef) (v : Nat) : (setCoreState s k v).traces = s.traces := by simp only [setCoreState, setFld_traces]
@[simp] theorem setCoreState_snaps (k : CoreRef) (v : Nat) : (setCoreState s k v).snaps = s.snaps := by simp only [setCoreState, setFld_snaps]
@[simp] theorem setCoreState_commits (k : CoreRef) (v : Nat) : (setCoreState s k v).commits = s.commits := by simp only [setCoreState, setFld_commits]
@[simp] theorem setCoreState_out (k : CoreRef) (v : Nat) : (setCoreState s k v).out = s.out := by simp only [setCoreState, setFld_out]
@[simp] theorem setCoreState_free (k : CoreRef) (v : Nat) : (setCoreState s k v).free = s.free := by simp only [setCoreState, setFld_free]
@[simp] theorem setCoreState_pending (k : CoreRef) (v : Nat) : (setCoreState s k v).pending = s.pending := by simp only [setCoreState, setFld_pending]
@[simp] theorem slot_setCoreState (k : CoreRef) (v : Nat) (q : Nat) : slot (setCoreState s k v) q = slot s q := by simp only [setCoreState, slot_setFld]
@[simp] theorem core_setCoreState (k : CoreRef) (v : Nat) (q : CoreRef) : coreOf (setCoreState s k v) q = coreOf s q := by simp only [setCoreState, core_setFld]
@[simp] theorem cluster_setCoreState (k : CoreRef) (v : Nat) (q : ClusterRef) : cluster (setCoreState s k v) q = cluster s q := by simp only [setCoreState, cluster_setFld]
@[simp] theorem ctr_setCoreState (k : CoreRef) (v : Nat) (q : Nat) : ctr (setCoreState s k v) q = ctr s q := by simp only [setCoreState, ctr_setFld]
@[simp] theorem port_setCoreState (k : CoreRef) (v : Nat) (q : Nat) : port (setCoreState s k v) q = port s q := by simp only [setCoreState, port_setFld]
@[simp] theorem traceOf_setCoreState (k : CoreRef) (v : Nat) (q : Nat) : traceOf (setCoreState s k v) q = traceOf s q := by simp only [setCoreState, traceOf_setFld]
@[simp] theorem hasTile_setCoreState (k : CoreRef) (v : Nat) (q : Nat) : hasTile (setCoreState s k v) q = hasTile s q := by simp only [setCoreState, hasTile_setFld]

/-! ### setSlot -/

@[simp] theorem setSlot_part (n : Nat) (v : Slot) : (setSlot s n v).part = s.part := (rfl)
@[simp] theorem setSlot_now (n : Nat) (v : Slot) : (setSlot s n v).now = s.now := (rfl)
@[simp] theorem setSlot_beacon (n : Nat) (v : Slot) : (setSlot s n v).beacon = s.beacon := (rfl)
@[simp] theorem setSlot_regs (n : Nat) (v : Slot) : (setSlot s n v).regs = s.regs := (rfl)
@[simp] theorem setSlot_tasks (n : Nat) (v : Slot) : (setSlot s n v).tasks = s.tasks := (rfl)
@[simp] theorem setSlot_ctrs (n : Nat) (v : Slot) : (setSlot s n v).ctrs = s.ctrs := (rfl)
@[simp] theorem setSlot_cores (n : Nat) (v : Slot) : (setSlot s n v).cores = s.cores := (rfl)
@[simp] theorem setSlot_clusters (n : Nat) (v : Slot) : (setSlot s n v).clusters = s.clusters := (rfl)
@[simp] theorem setSlot_mem (n : Nat) (v : Slot) : (setSlot s n v).mem = s.mem := (rfl)
@[simp] theorem setSlot_granger (n : Nat) (v : Slot) : (setSlot s n v).granger = s.granger := (rfl)
@[simp] theorem setSlot_streams (n : Nat) (v : Slot) : (setSlot s n v).streams = s.streams := (rfl)
@[simp] theorem setSlot_dmas (n : Nat) (v : Slot) : (setSlot s n v).dmas = s.dmas := (rfl)
@[simp] theorem setSlot_dmaNext (n : Nat) (v : Slot) : (setSlot s n v).dmaNext = s.dmaNext := (rfl)
@[simp] theorem setSlot_net (n : Nat) (v : Slot) : (setSlot s n v).net = s.net := (rfl)
@[simp] theorem setSlot_ports (n : Nat) (v : Slot) : (setSlot s n v).ports = s.ports := (rfl)
@[simp] theorem setSlot_coll (n : Nat) (v : Slot) : (setSlot s n v).coll = s.coll := (rfl)
@[simp] theorem setSlot_control (n : Nat) (v : Slot) : (setSlot s n v).control = s.control := (rfl)
@[simp] theorem setSlot_step (n : Nat) (v : Slot) : (setSlot s n v).step = s.step := (rfl)
@[simp] theorem setSlot_keeper (n : Nat) (v : Slot) : (setSlot s n v).keeper = s.keeper := (rfl)
@[simp] theorem setSlot_power (n : Nat) (v : Slot) : (setSlot s n v).power = s.power := (rfl)
@[simp] theorem setSlot_traces (n : Nat) (v : Slot) : (setSlot s n v).traces = s.traces := (rfl)
@[simp] theorem setSlot_snaps (n : Nat) (v : Slot) : (setSlot s n v).snaps = s.snaps := (rfl)
@[simp] theorem setSlot_commits (n : Nat) (v : Slot) : (setSlot s n v).commits = s.commits := (rfl)
@[simp] theorem setSlot_out (n : Nat) (v : Slot) : (setSlot s n v).out = s.out := (rfl)
@[simp] theorem setSlot_free (n : Nat) (v : Slot) : (setSlot s n v).free = s.free := (rfl)
@[simp] theorem setSlot_pending (n : Nat) (v : Slot) : (setSlot s n v).pending = s.pending := (rfl)
@[simp] theorem regRd_setSlot (n : Nat) (v : Slot) (q : Nat) : regRd (setSlot s n v) q = regRd s q := (rfl)
@[simp] theorem rd_setSlot (n : Nat) (v : Slot) (q : PageRef) (o1 : Nat) : rd (setSlot s n v) q o1 = rd s q o1 := (rfl)
@[simp] theorem rdA_setSlot (n : Nat) (v : Slot) (q : PageRef) (o1 : Nat) : rdA (setSlot s n v) q o1 = rdA s q o1 := (rfl)
@[simp] theorem fld_setSlot (n : Nat) (v : Slot) (q : PageRef) (o1 h1 l1 : Nat) : fld (setSlot s n v) q o1 h1 l1 = fld s q o1 h1 l1 := (rfl)
@[simp] theorem fldA_setSlot (n : Nat) (v : Slot) (q : PageRef) (o1 h1 l1 : Nat) : fldA (setSlot s n v) q o1 h1 l1 = fldA s q o1 h1 l1 := (rfl)
@[simp] theorem core_setSlot (n : Nat) (v : Slot) (q : CoreRef) : coreOf (setSlot s n v) q = coreOf s q := (rfl)
@[simp] theorem cluster_setSlot (n : Nat) (v : Slot) (q : ClusterRef) : cluster (setSlot s n v) q = cluster s q := (rfl)
@[simp] theorem ctr_setSlot (n : Nat) (v : Slot) (q : Nat) : ctr (setSlot s n v) q = ctr s q := (rfl)
@[simp] theorem port_setSlot (n : Nat) (v : Slot) (q : Nat) : port (setSlot s n v) q = port s q := (rfl)
@[simp] theorem traceOf_setSlot (n : Nat) (v : Slot) (q : Nat) : traceOf (setSlot s n v) q = traceOf s q := (rfl)
@[simp] theorem hasTile_setSlot (n : Nat) (v : Slot) (q : Nat) : hasTile (setSlot s n v) q = hasTile s q := (rfl)

/-! ### setCore -/

@[simp] theorem setCore_part (k : CoreRef) (c : Core) : (setCore s k c).part = s.part := (rfl)
@[simp] theorem setCore_now (k : CoreRef) (c : Core) : (setCore s k c).now = s.now := (rfl)
@[simp] theorem setCore_beacon (k : CoreRef) (c : Core) : (setCore s k c).beacon = s.beacon := (rfl)
@[simp] theorem setCore_regs (k : CoreRef) (c : Core) : (setCore s k c).regs = s.regs := (rfl)
@[simp] theorem setCore_slots (k : CoreRef) (c : Core) : (setCore s k c).slots = s.slots := (rfl)
@[simp] theorem setCore_tasks (k : CoreRef) (c : Core) : (setCore s k c).tasks = s.tasks := (rfl)
@[simp] theorem setCore_ctrs (k : CoreRef) (c : Core) : (setCore s k c).ctrs = s.ctrs := (rfl)
@[simp] theorem setCore_clusters (k : CoreRef) (c : Core) : (setCore s k c).clusters = s.clusters := (rfl)
@[simp] theorem setCore_mem (k : CoreRef) (c : Core) : (setCore s k c).mem = s.mem := (rfl)
@[simp] theorem setCore_granger (k : CoreRef) (c : Core) : (setCore s k c).granger = s.granger := (rfl)
@[simp] theorem setCore_streams (k : CoreRef) (c : Core) : (setCore s k c).streams = s.streams := (rfl)
@[simp] theorem setCore_dmas (k : CoreRef) (c : Core) : (setCore s k c).dmas = s.dmas := (rfl)
@[simp] theorem setCore_dmaNext (k : CoreRef) (c : Core) : (setCore s k c).dmaNext = s.dmaNext := (rfl)
@[simp] theorem setCore_net (k : CoreRef) (c : Core) : (setCore s k c).net = s.net := (rfl)
@[simp] theorem setCore_ports (k : CoreRef) (c : Core) : (setCore s k c).ports = s.ports := (rfl)
@[simp] theorem setCore_coll (k : CoreRef) (c : Core) : (setCore s k c).coll = s.coll := (rfl)
@[simp] theorem setCore_control (k : CoreRef) (c : Core) : (setCore s k c).control = s.control := (rfl)
@[simp] theorem setCore_step (k : CoreRef) (c : Core) : (setCore s k c).step = s.step := (rfl)
@[simp] theorem setCore_keeper (k : CoreRef) (c : Core) : (setCore s k c).keeper = s.keeper := (rfl)
@[simp] theorem setCore_power (k : CoreRef) (c : Core) : (setCore s k c).power = s.power := (rfl)
@[simp] theorem setCore_traces (k : CoreRef) (c : Core) : (setCore s k c).traces = s.traces := (rfl)
@[simp] theorem setCore_snaps (k : CoreRef) (c : Core) : (setCore s k c).snaps = s.snaps := (rfl)
@[simp] theorem setCore_commits (k : CoreRef) (c : Core) : (setCore s k c).commits = s.commits := (rfl)
@[simp] theorem setCore_out (k : CoreRef) (c : Core) : (setCore s k c).out = s.out := (rfl)
@[simp] theorem setCore_free (k : CoreRef) (c : Core) : (setCore s k c).free = s.free := (rfl)
@[simp] theorem setCore_pending (k : CoreRef) (c : Core) : (setCore s k c).pending = s.pending := (rfl)
@[simp] theorem regRd_setCore (k : CoreRef) (c : Core) (q : Nat) : regRd (setCore s k c) q = regRd s q := (rfl)
@[simp] theorem rd_setCore (k : CoreRef) (c : Core) (q : PageRef) (o1 : Nat) : rd (setCore s k c) q o1 = rd s q o1 := (rfl)
@[simp] theorem rdA_setCore (k : CoreRef) (c : Core) (q : PageRef) (o1 : Nat) : rdA (setCore s k c) q o1 = rdA s q o1 := (rfl)
@[simp] theorem fld_setCore (k : CoreRef) (c : Core) (q : PageRef) (o1 h1 l1 : Nat) : fld (setCore s k c) q o1 h1 l1 = fld s q o1 h1 l1 := (rfl)
@[simp] theorem fldA_setCore (k : CoreRef) (c : Core) (q : PageRef) (o1 h1 l1 : Nat) : fldA (setCore s k c) q o1 h1 l1 = fldA s q o1 h1 l1 := (rfl)
@[simp] theorem slot_setCore (k : CoreRef) (c : Core) (q : Nat) : slot (setCore s k c) q = slot s q := (rfl)
@[simp] theorem cluster_setCore (k : CoreRef) (c : Core) (q : ClusterRef) : cluster (setCore s k c) q = cluster s q := (rfl)
@[simp] theorem ctr_setCore (k : CoreRef) (c : Core) (q : Nat) : ctr (setCore s k c) q = ctr s q := (rfl)
@[simp] theorem port_setCore (k : CoreRef) (c : Core) (q : Nat) : port (setCore s k c) q = port s q := (rfl)
@[simp] theorem traceOf_setCore (k : CoreRef) (c : Core) (q : Nat) : traceOf (setCore s k c) q = traceOf s q := (rfl)
@[simp] theorem hasTile_setCore (k : CoreRef) (c : Core) (q : Nat) : hasTile (setCore s k c) q = hasTile s q := (rfl)

/-! ### setCluster -/

@[simp] theorem setCluster_part (k : ClusterRef) (c : Cluster) : (setCluster s k c).part = s.part := (rfl)
@[simp] theorem setCluster_now (k : ClusterRef) (c : Cluster) : (setCluster s k c).now = s.now := (rfl)
@[simp] theorem setCluster_beacon (k : ClusterRef) (c : Cluster) : (setCluster s k c).beacon = s.beacon := (rfl)
@[simp] theorem setCluster_regs (k : ClusterRef) (c : Cluster) : (setCluster s k c).regs = s.regs := (rfl)
@[simp] theorem setCluster_slots (k : ClusterRef) (c : Cluster) : (setCluster s k c).slots = s.slots := (rfl)
@[simp] theorem setCluster_tasks (k : ClusterRef) (c : Cluster) : (setCluster s k c).tasks = s.tasks := (rfl)
@[simp] theorem setCluster_ctrs (k : ClusterRef) (c : Cluster) : (setCluster s k c).ctrs = s.ctrs := (rfl)
@[simp] theorem setCluster_cores (k : ClusterRef) (c : Cluster) : (setCluster s k c).cores = s.cores := (rfl)
@[simp] theorem setCluster_mem (k : ClusterRef) (c : Cluster) : (setCluster s k c).mem = s.mem := (rfl)
@[simp] theorem setCluster_granger (k : ClusterRef) (c : Cluster) : (setCluster s k c).granger = s.granger := (rfl)
@[simp] theorem setCluster_streams (k : ClusterRef) (c : Cluster) : (setCluster s k c).streams = s.streams := (rfl)
@[simp] theorem setCluster_dmas (k : ClusterRef) (c : Cluster) : (setCluster s k c).dmas = s.dmas := (rfl)
@[simp] theorem setCluster_dmaNext (k : ClusterRef) (c : Cluster) : (setCluster s k c).dmaNext = s.dmaNext := (rfl)
@[simp] theorem setCluster_net (k : ClusterRef) (c : Cluster) : (setCluster s k c).net = s.net := (rfl)
@[simp] theorem setCluster_ports (k : ClusterRef) (c : Cluster) : (setCluster s k c).ports = s.ports := (rfl)
@[simp] theorem setCluster_coll (k : ClusterRef) (c : Cluster) : (setCluster s k c).coll = s.coll := (rfl)
@[simp] theorem setCluster_control (k : ClusterRef) (c : Cluster) : (setCluster s k c).control = s.control := (rfl)
@[simp] theorem setCluster_step (k : ClusterRef) (c : Cluster) : (setCluster s k c).step = s.step := (rfl)
@[simp] theorem setCluster_keeper (k : ClusterRef) (c : Cluster) : (setCluster s k c).keeper = s.keeper := (rfl)
@[simp] theorem setCluster_power (k : ClusterRef) (c : Cluster) : (setCluster s k c).power = s.power := (rfl)
@[simp] theorem setCluster_traces (k : ClusterRef) (c : Cluster) : (setCluster s k c).traces = s.traces := (rfl)
@[simp] theorem setCluster_snaps (k : ClusterRef) (c : Cluster) : (setCluster s k c).snaps = s.snaps := (rfl)
@[simp] theorem setCluster_commits (k : ClusterRef) (c : Cluster) : (setCluster s k c).commits = s.commits := (rfl)
@[simp] theorem setCluster_out (k : ClusterRef) (c : Cluster) : (setCluster s k c).out = s.out := (rfl)
@[simp] theorem setCluster_free (k : ClusterRef) (c : Cluster) : (setCluster s k c).free = s.free := (rfl)
@[simp] theorem setCluster_pending (k : ClusterRef) (c : Cluster) : (setCluster s k c).pending = s.pending := (rfl)
@[simp] theorem regRd_setCluster (k : ClusterRef) (c : Cluster) (q : Nat) : regRd (setCluster s k c) q = regRd s q := (rfl)
@[simp] theorem rd_setCluster (k : ClusterRef) (c : Cluster) (q : PageRef) (o1 : Nat) : rd (setCluster s k c) q o1 = rd s q o1 := (rfl)
@[simp] theorem rdA_setCluster (k : ClusterRef) (c : Cluster) (q : PageRef) (o1 : Nat) : rdA (setCluster s k c) q o1 = rdA s q o1 := (rfl)
@[simp] theorem fld_setCluster (k : ClusterRef) (c : Cluster) (q : PageRef) (o1 h1 l1 : Nat) : fld (setCluster s k c) q o1 h1 l1 = fld s q o1 h1 l1 := (rfl)
@[simp] theorem fldA_setCluster (k : ClusterRef) (c : Cluster) (q : PageRef) (o1 h1 l1 : Nat) : fldA (setCluster s k c) q o1 h1 l1 = fldA s q o1 h1 l1 := (rfl)
@[simp] theorem slot_setCluster (k : ClusterRef) (c : Cluster) (q : Nat) : slot (setCluster s k c) q = slot s q := (rfl)
@[simp] theorem core_setCluster (k : ClusterRef) (c : Cluster) (q : CoreRef) : coreOf (setCluster s k c) q = coreOf s q := (rfl)
@[simp] theorem ctr_setCluster (k : ClusterRef) (c : Cluster) (q : Nat) : ctr (setCluster s k c) q = ctr s q := (rfl)
@[simp] theorem port_setCluster (k : ClusterRef) (c : Cluster) (q : Nat) : port (setCluster s k c) q = port s q := (rfl)
@[simp] theorem traceOf_setCluster (k : ClusterRef) (c : Cluster) (q : Nat) : traceOf (setCluster s k c) q = traceOf s q := (rfl)
@[simp] theorem hasTile_setCluster (k : ClusterRef) (c : Cluster) (q : Nat) : hasTile (setCluster s k c) q = hasTile s q := (rfl)

/-! ### setCtr -/

@[simp] theorem setCtr_part (i : Nat) (c : Counter) : (setCtr s i c).part = s.part := (rfl)
@[simp] theorem setCtr_now (i : Nat) (c : Counter) : (setCtr s i c).now = s.now := (rfl)
@[simp] theorem setCtr_beacon (i : Nat) (c : Counter) : (setCtr s i c).beacon = s.beacon := (rfl)
@[simp] theorem setCtr_regs (i : Nat) (c : Counter) : (setCtr s i c).regs = s.regs := (rfl)
@[simp] theorem setCtr_slots (i : Nat) (c : Counter) : (setCtr s i c).slots = s.slots := (rfl)
@[simp] theorem setCtr_tasks (i : Nat) (c : Counter) : (setCtr s i c).tasks = s.tasks := (rfl)
@[simp] theorem setCtr_cores (i : Nat) (c : Counter) : (setCtr s i c).cores = s.cores := (rfl)
@[simp] theorem setCtr_clusters (i : Nat) (c : Counter) : (setCtr s i c).clusters = s.clusters := (rfl)
@[simp] theorem setCtr_mem (i : Nat) (c : Counter) : (setCtr s i c).mem = s.mem := (rfl)
@[simp] theorem setCtr_granger (i : Nat) (c : Counter) : (setCtr s i c).granger = s.granger := (rfl)
@[simp] theorem setCtr_streams (i : Nat) (c : Counter) : (setCtr s i c).streams = s.streams := (rfl)
@[simp] theorem setCtr_dmas (i : Nat) (c : Counter) : (setCtr s i c).dmas = s.dmas := (rfl)
@[simp] theorem setCtr_dmaNext (i : Nat) (c : Counter) : (setCtr s i c).dmaNext = s.dmaNext := (rfl)
@[simp] theorem setCtr_net (i : Nat) (c : Counter) : (setCtr s i c).net = s.net := (rfl)
@[simp] theorem setCtr_ports (i : Nat) (c : Counter) : (setCtr s i c).ports = s.ports := (rfl)
@[simp] theorem setCtr_coll (i : Nat) (c : Counter) : (setCtr s i c).coll = s.coll := (rfl)
@[simp] theorem setCtr_control (i : Nat) (c : Counter) : (setCtr s i c).control = s.control := (rfl)
@[simp] theorem setCtr_step (i : Nat) (c : Counter) : (setCtr s i c).step = s.step := (rfl)
@[simp] theorem setCtr_keeper (i : Nat) (c : Counter) : (setCtr s i c).keeper = s.keeper := (rfl)
@[simp] theorem setCtr_power (i : Nat) (c : Counter) : (setCtr s i c).power = s.power := (rfl)
@[simp] theorem setCtr_traces (i : Nat) (c : Counter) : (setCtr s i c).traces = s.traces := (rfl)
@[simp] theorem setCtr_snaps (i : Nat) (c : Counter) : (setCtr s i c).snaps = s.snaps := (rfl)
@[simp] theorem setCtr_commits (i : Nat) (c : Counter) : (setCtr s i c).commits = s.commits := (rfl)
@[simp] theorem setCtr_out (i : Nat) (c : Counter) : (setCtr s i c).out = s.out := (rfl)
@[simp] theorem setCtr_free (i : Nat) (c : Counter) : (setCtr s i c).free = s.free := (rfl)
@[simp] theorem setCtr_pending (i : Nat) (c : Counter) : (setCtr s i c).pending = s.pending := (rfl)
@[simp] theorem regRd_setCtr (i : Nat) (c : Counter) (q : Nat) : regRd (setCtr s i c) q = regRd s q := (rfl)
@[simp] theorem rd_setCtr (i : Nat) (c : Counter) (q : PageRef) (o1 : Nat) : rd (setCtr s i c) q o1 = rd s q o1 := (rfl)
@[simp] theorem rdA_setCtr (i : Nat) (c : Counter) (q : PageRef) (o1 : Nat) : rdA (setCtr s i c) q o1 = rdA s q o1 := (rfl)
@[simp] theorem fld_setCtr (i : Nat) (c : Counter) (q : PageRef) (o1 h1 l1 : Nat) : fld (setCtr s i c) q o1 h1 l1 = fld s q o1 h1 l1 := (rfl)
@[simp] theorem fldA_setCtr (i : Nat) (c : Counter) (q : PageRef) (o1 h1 l1 : Nat) : fldA (setCtr s i c) q o1 h1 l1 = fldA s q o1 h1 l1 := (rfl)
@[simp] theorem slot_setCtr (i : Nat) (c : Counter) (q : Nat) : slot (setCtr s i c) q = slot s q := (rfl)
@[simp] theorem core_setCtr (i : Nat) (c : Counter) (q : CoreRef) : coreOf (setCtr s i c) q = coreOf s q := (rfl)
@[simp] theorem cluster_setCtr (i : Nat) (c : Counter) (q : ClusterRef) : cluster (setCtr s i c) q = cluster s q := (rfl)
@[simp] theorem port_setCtr (i : Nat) (c : Counter) (q : Nat) : port (setCtr s i c) q = port s q := (rfl)
@[simp] theorem traceOf_setCtr (i : Nat) (c : Counter) (q : Nat) : traceOf (setCtr s i c) q = traceOf s q := (rfl)
@[simp] theorem hasTile_setCtr (i : Nat) (c : Counter) (q : Nat) : hasTile (setCtr s i c) q = hasTile s q := (rfl)

/-! ### setTask -/

@[simp] theorem setTask_part (t : Task) : (setTask s t).part = s.part := (rfl)
@[simp] theorem setTask_now (t : Task) : (setTask s t).now = s.now := (rfl)
@[simp] theorem setTask_beacon (t : Task) : (setTask s t).beacon = s.beacon := (rfl)
@[simp] theorem setTask_regs (t : Task) : (setTask s t).regs = s.regs := (rfl)
@[simp] theorem setTask_slots (t : Task) : (setTask s t).slots = s.slots := (rfl)
@[simp] theorem setTask_ctrs (t : Task) : (setTask s t).ctrs = s.ctrs := (rfl)
@[simp] theorem setTask_cores (t : Task) : (setTask s t).cores = s.cores := (rfl)
@[simp] theorem setTask_clusters (t : Task) : (setTask s t).clusters = s.clusters := (rfl)
@[simp] theorem setTask_mem (t : Task) : (setTask s t).mem = s.mem := (rfl)
@[simp] theorem setTask_granger (t : Task) : (setTask s t).granger = s.granger := (rfl)
@[simp] theorem setTask_streams (t : Task) : (setTask s t).streams = s.streams := (rfl)
@[simp] theorem setTask_dmas (t : Task) : (setTask s t).dmas = s.dmas := (rfl)
@[simp] theorem setTask_dmaNext (t : Task) : (setTask s t).dmaNext = s.dmaNext := (rfl)
@[simp] theorem setTask_net (t : Task) : (setTask s t).net = s.net := (rfl)
@[simp] theorem setTask_ports (t : Task) : (setTask s t).ports = s.ports := (rfl)
@[simp] theorem setTask_coll (t : Task) : (setTask s t).coll = s.coll := (rfl)
@[simp] theorem setTask_control (t : Task) : (setTask s t).control = s.control := (rfl)
@[simp] theorem setTask_step (t : Task) : (setTask s t).step = s.step := (rfl)
@[simp] theorem setTask_keeper (t : Task) : (setTask s t).keeper = s.keeper := (rfl)
@[simp] theorem setTask_power (t : Task) : (setTask s t).power = s.power := (rfl)
@[simp] theorem setTask_traces (t : Task) : (setTask s t).traces = s.traces := (rfl)
@[simp] theorem setTask_snaps (t : Task) : (setTask s t).snaps = s.snaps := (rfl)
@[simp] theorem setTask_commits (t : Task) : (setTask s t).commits = s.commits := (rfl)
@[simp] theorem setTask_out (t : Task) : (setTask s t).out = s.out := (rfl)
@[simp] theorem setTask_free (t : Task) : (setTask s t).free = s.free := (rfl)
@[simp] theorem setTask_pending (t : Task) : (setTask s t).pending = s.pending := (rfl)
@[simp] theorem regRd_setTask (t : Task) (q : Nat) : regRd (setTask s t) q = regRd s q := (rfl)
@[simp] theorem rd_setTask (t : Task) (q : PageRef) (o1 : Nat) : rd (setTask s t) q o1 = rd s q o1 := (rfl)
@[simp] theorem rdA_setTask (t : Task) (q : PageRef) (o1 : Nat) : rdA (setTask s t) q o1 = rdA s q o1 := (rfl)
@[simp] theorem fld_setTask (t : Task) (q : PageRef) (o1 h1 l1 : Nat) : fld (setTask s t) q o1 h1 l1 = fld s q o1 h1 l1 := (rfl)
@[simp] theorem fldA_setTask (t : Task) (q : PageRef) (o1 h1 l1 : Nat) : fldA (setTask s t) q o1 h1 l1 = fldA s q o1 h1 l1 := (rfl)
@[simp] theorem slot_setTask (t : Task) (q : Nat) : slot (setTask s t) q = slot s q := (rfl)
@[simp] theorem core_setTask (t : Task) (q : CoreRef) : coreOf (setTask s t) q = coreOf s q := (rfl)
@[simp] theorem cluster_setTask (t : Task) (q : ClusterRef) : cluster (setTask s t) q = cluster s q := (rfl)
@[simp] theorem ctr_setTask (t : Task) (q : Nat) : ctr (setTask s t) q = ctr s q := (rfl)
@[simp] theorem port_setTask (t : Task) (q : Nat) : port (setTask s t) q = port s q := (rfl)
@[simp] theorem traceOf_setTask (t : Task) (q : Nat) : traceOf (setTask s t) q = traceOf s q := (rfl)
@[simp] theorem hasTile_setTask (t : Task) (q : Nat) : hasTile (setTask s t) q = hasTile s q := (rfl)

/-! ### setTrace -/

@[simp] theorem setTrace_part (i : Nat) (f : TraceFifo) : (setTrace s i f).part = s.part := (rfl)
@[simp] theorem setTrace_now (i : Nat) (f : TraceFifo) : (setTrace s i f).now = s.now := (rfl)
@[simp] theorem setTrace_beacon (i : Nat) (f : TraceFifo) : (setTrace s i f).beacon = s.beacon := (rfl)
@[simp] theorem setTrace_regs (i : Nat) (f : TraceFifo) : (setTrace s i f).regs = s.regs := (rfl)
@[simp] theorem setTrace_slots (i : Nat) (f : TraceFifo) : (setTrace s i f).slots = s.slots := (rfl)
@[simp] theorem setTrace_tasks (i : Nat) (f : TraceFifo) : (setTrace s i f).tasks = s.tasks := (rfl)
@[simp] theorem setTrace_ctrs (i : Nat) (f : TraceFifo) : (setTrace s i f).ctrs = s.ctrs := (rfl)
@[simp] theorem setTrace_cores (i : Nat) (f : TraceFifo) : (setTrace s i f).cores = s.cores := (rfl)
@[simp] theorem setTrace_clusters (i : Nat) (f : TraceFifo) : (setTrace s i f).clusters = s.clusters := (rfl)
@[simp] theorem setTrace_mem (i : Nat) (f : TraceFifo) : (setTrace s i f).mem = s.mem := (rfl)
@[simp] theorem setTrace_granger (i : Nat) (f : TraceFifo) : (setTrace s i f).granger = s.granger := (rfl)
@[simp] theorem setTrace_streams (i : Nat) (f : TraceFifo) : (setTrace s i f).streams = s.streams := (rfl)
@[simp] theorem setTrace_dmas (i : Nat) (f : TraceFifo) : (setTrace s i f).dmas = s.dmas := (rfl)
@[simp] theorem setTrace_dmaNext (i : Nat) (f : TraceFifo) : (setTrace s i f).dmaNext = s.dmaNext := (rfl)
@[simp] theorem setTrace_net (i : Nat) (f : TraceFifo) : (setTrace s i f).net = s.net := (rfl)
@[simp] theorem setTrace_ports (i : Nat) (f : TraceFifo) : (setTrace s i f).ports = s.ports := (rfl)
@[simp] theorem setTrace_coll (i : Nat) (f : TraceFifo) : (setTrace s i f).coll = s.coll := (rfl)
@[simp] theorem setTrace_control (i : Nat) (f : TraceFifo) : (setTrace s i f).control = s.control := (rfl)
@[simp] theorem setTrace_step (i : Nat) (f : TraceFifo) : (setTrace s i f).step = s.step := (rfl)
@[simp] theorem setTrace_keeper (i : Nat) (f : TraceFifo) : (setTrace s i f).keeper = s.keeper := (rfl)
@[simp] theorem setTrace_power (i : Nat) (f : TraceFifo) : (setTrace s i f).power = s.power := (rfl)
@[simp] theorem setTrace_snaps (i : Nat) (f : TraceFifo) : (setTrace s i f).snaps = s.snaps := (rfl)
@[simp] theorem setTrace_commits (i : Nat) (f : TraceFifo) : (setTrace s i f).commits = s.commits := (rfl)
@[simp] theorem setTrace_out (i : Nat) (f : TraceFifo) : (setTrace s i f).out = s.out := (rfl)
@[simp] theorem setTrace_free (i : Nat) (f : TraceFifo) : (setTrace s i f).free = s.free := (rfl)
@[simp] theorem setTrace_pending (i : Nat) (f : TraceFifo) : (setTrace s i f).pending = s.pending := (rfl)
@[simp] theorem regRd_setTrace (i : Nat) (f : TraceFifo) (q : Nat) : regRd (setTrace s i f) q = regRd s q := (rfl)
@[simp] theorem rd_setTrace (i : Nat) (f : TraceFifo) (q : PageRef) (o1 : Nat) : rd (setTrace s i f) q o1 = rd s q o1 := (rfl)
@[simp] theorem rdA_setTrace (i : Nat) (f : TraceFifo) (q : PageRef) (o1 : Nat) : rdA (setTrace s i f) q o1 = rdA s q o1 := (rfl)
@[simp] theorem fld_setTrace (i : Nat) (f : TraceFifo) (q : PageRef) (o1 h1 l1 : Nat) : fld (setTrace s i f) q o1 h1 l1 = fld s q o1 h1 l1 := (rfl)
@[simp] theorem fldA_setTrace (i : Nat) (f : TraceFifo) (q : PageRef) (o1 h1 l1 : Nat) : fldA (setTrace s i f) q o1 h1 l1 = fldA s q o1 h1 l1 := (rfl)
@[simp] theorem slot_setTrace (i : Nat) (f : TraceFifo) (q : Nat) : slot (setTrace s i f) q = slot s q := (rfl)
@[simp] theorem core_setTrace (i : Nat) (f : TraceFifo) (q : CoreRef) : coreOf (setTrace s i f) q = coreOf s q := (rfl)
@[simp] theorem cluster_setTrace (i : Nat) (f : TraceFifo) (q : ClusterRef) : cluster (setTrace s i f) q = cluster s q := (rfl)
@[simp] theorem ctr_setTrace (i : Nat) (f : TraceFifo) (q : Nat) : ctr (setTrace s i f) q = ctr s q := (rfl)
@[simp] theorem port_setTrace (i : Nat) (f : TraceFifo) (q : Nat) : port (setTrace s i f) q = port s q := (rfl)
@[simp] theorem hasTile_setTrace (i : Nat) (f : TraceFifo) (q : Nat) : hasTile (setTrace s i f) q = hasTile s q := (rfl)

/-! ### irq -/

@[simp] theorem irq_part (v : Nat) : (irq s v).part = s.part := (rfl)
@[simp] theorem irq_now (v : Nat) : (irq s v).now = s.now := (rfl)
@[simp] theorem irq_beacon (v : Nat) : (irq s v).beacon = s.beacon := (rfl)
@[simp] theorem irq_regs (v : Nat) : (irq s v).regs = s.regs := (rfl)
@[simp] theorem irq_slots (v : Nat) : (irq s v).slots = s.slots := (rfl)
@[simp] theorem irq_tasks (v : Nat) : (irq s v).tasks = s.tasks := (rfl)
@[simp] theorem irq_ctrs (v : Nat) : (irq s v).ctrs = s.ctrs := (rfl)
@[simp] theorem irq_cores (v : Nat) : (irq s v).cores = s.cores := (rfl)
@[simp] theorem irq_clusters (v : Nat) : (irq s v).clusters = s.clusters := (rfl)
@[simp] theorem irq_mem (v : Nat) : (irq s v).mem = s.mem := (rfl)
@[simp] theorem irq_granger (v : Nat) : (irq s v).granger = s.granger := (rfl)
@[simp] theorem irq_streams (v : Nat) : (irq s v).streams = s.streams := (rfl)
@[simp] theorem irq_dmas (v : Nat) : (irq s v).dmas = s.dmas := (rfl)
@[simp] theorem irq_dmaNext (v : Nat) : (irq s v).dmaNext = s.dmaNext := (rfl)
@[simp] theorem irq_net (v : Nat) : (irq s v).net = s.net := (rfl)
@[simp] theorem irq_ports (v : Nat) : (irq s v).ports = s.ports := (rfl)
@[simp] theorem irq_coll (v : Nat) : (irq s v).coll = s.coll := (rfl)
@[simp] theorem irq_control (v : Nat) : (irq s v).control = s.control := (rfl)
@[simp] theorem irq_step (v : Nat) : (irq s v).step = s.step := (rfl)
@[simp] theorem irq_keeper (v : Nat) : (irq s v).keeper = s.keeper := (rfl)
@[simp] theorem irq_power (v : Nat) : (irq s v).power = s.power := (rfl)
@[simp] theorem irq_traces (v : Nat) : (irq s v).traces = s.traces := (rfl)
@[simp] theorem irq_snaps (v : Nat) : (irq s v).snaps = s.snaps := (rfl)
@[simp] theorem irq_commits (v : Nat) : (irq s v).commits = s.commits := (rfl)
@[simp] theorem irq_free (v : Nat) : (irq s v).free = s.free := (rfl)
@[simp] theorem irq_pending (v : Nat) : (irq s v).pending = s.pending := (rfl)
@[simp] theorem regRd_irq (v : Nat) (q : Nat) : regRd (irq s v) q = regRd s q := (rfl)
@[simp] theorem rd_irq (v : Nat) (q : PageRef) (o1 : Nat) : rd (irq s v) q o1 = rd s q o1 := (rfl)
@[simp] theorem rdA_irq (v : Nat) (q : PageRef) (o1 : Nat) : rdA (irq s v) q o1 = rdA s q o1 := (rfl)
@[simp] theorem fld_irq (v : Nat) (q : PageRef) (o1 h1 l1 : Nat) : fld (irq s v) q o1 h1 l1 = fld s q o1 h1 l1 := (rfl)
@[simp] theorem fldA_irq (v : Nat) (q : PageRef) (o1 h1 l1 : Nat) : fldA (irq s v) q o1 h1 l1 = fldA s q o1 h1 l1 := (rfl)
@[simp] theorem slot_irq (v : Nat) (q : Nat) : slot (irq s v) q = slot s q := (rfl)
@[simp] theorem core_irq (v : Nat) (q : CoreRef) : coreOf (irq s v) q = coreOf s q := (rfl)
@[simp] theorem cluster_irq (v : Nat) (q : ClusterRef) : cluster (irq s v) q = cluster s q := (rfl)
@[simp] theorem ctr_irq (v : Nat) (q : Nat) : ctr (irq s v) q = ctr s q := (rfl)
@[simp] theorem port_irq (v : Nat) (q : Nat) : port (irq s v) q = port s q := (rfl)
@[simp] theorem traceOf_irq (v : Nat) (q : Nat) : traceOf (irq s v) q = traceOf s q := (rfl)
@[simp] theorem hasTile_irq (v : Nat) (q : Nat) : hasTile (irq s v) q = hasTile s q := (rfl)

/-! ### setPort -/

@[simp] theorem setPort_part (n : Nat) (p : Port) : (setPort s n p).part = s.part := (rfl)
@[simp] theorem setPort_now (n : Nat) (p : Port) : (setPort s n p).now = s.now := (rfl)
@[simp] theorem setPort_beacon (n : Nat) (p : Port) : (setPort s n p).beacon = s.beacon := (rfl)
@[simp] theorem setPort_regs (n : Nat) (p : Port) : (setPort s n p).regs = s.regs := (rfl)
@[simp] theorem setPort_slots (n : Nat) (p : Port) : (setPort s n p).slots = s.slots := (rfl)
@[simp] theorem setPort_tasks (n : Nat) (p : Port) : (setPort s n p).tasks = s.tasks := (rfl)
@[simp] theorem setPort_ctrs (n : Nat) (p : Port) : (setPort s n p).ctrs = s.ctrs := (rfl)
@[simp] theorem setPort_cores (n : Nat) (p : Port) : (setPort s n p).cores = s.cores := (rfl)
@[simp] theorem setPort_clusters (n : Nat) (p : Port) : (setPort s n p).clusters = s.clusters := (rfl)
@[simp] theorem setPort_mem (n : Nat) (p : Port) : (setPort s n p).mem = s.mem := (rfl)
@[simp] theorem setPort_granger (n : Nat) (p : Port) : (setPort s n p).granger = s.granger := (rfl)
@[simp] theorem setPort_streams (n : Nat) (p : Port) : (setPort s n p).streams = s.streams := (rfl)
@[simp] theorem setPort_dmas (n : Nat) (p : Port) : (setPort s n p).dmas = s.dmas := (rfl)
@[simp] theorem setPort_dmaNext (n : Nat) (p : Port) : (setPort s n p).dmaNext = s.dmaNext := (rfl)
@[simp] theorem setPort_net (n : Nat) (p : Port) : (setPort s n p).net = s.net := (rfl)
@[simp] theorem setPort_coll (n : Nat) (p : Port) : (setPort s n p).coll = s.coll := (rfl)
@[simp] theorem setPort_control (n : Nat) (p : Port) : (setPort s n p).control = s.control := (rfl)
@[simp] theorem setPort_step (n : Nat) (p : Port) : (setPort s n p).step = s.step := (rfl)
@[simp] theorem setPort_keeper (n : Nat) (p : Port) : (setPort s n p).keeper = s.keeper := (rfl)
@[simp] theorem setPort_power (n : Nat) (p : Port) : (setPort s n p).power = s.power := (rfl)
@[simp] theorem setPort_traces (n : Nat) (p : Port) : (setPort s n p).traces = s.traces := (rfl)
@[simp] theorem setPort_snaps (n : Nat) (p : Port) : (setPort s n p).snaps = s.snaps := (rfl)
@[simp] theorem setPort_commits (n : Nat) (p : Port) : (setPort s n p).commits = s.commits := (rfl)
@[simp] theorem setPort_out (n : Nat) (p : Port) : (setPort s n p).out = s.out := (rfl)
@[simp] theorem setPort_free (n : Nat) (p : Port) : (setPort s n p).free = s.free := (rfl)
@[simp] theorem setPort_pending (n : Nat) (p : Port) : (setPort s n p).pending = s.pending := (rfl)
@[simp] theorem regRd_setPort (n : Nat) (p : Port) (q : Nat) : regRd (setPort s n p) q = regRd s q := (rfl)
@[simp] theorem rd_setPort (n : Nat) (p : Port) (q : PageRef) (o1 : Nat) : rd (setPort s n p) q o1 = rd s q o1 := (rfl)
@[simp] theorem rdA_setPort (n : Nat) (p : Port) (q : PageRef) (o1 : Nat) : rdA (setPort s n p) q o1 = rdA s q o1 := (rfl)
@[simp] theorem fld_setPort (n : Nat) (p : Port) (q : PageRef) (o1 h1 l1 : Nat) : fld (setPort s n p) q o1 h1 l1 = fld s q o1 h1 l1 := (rfl)
@[simp] theorem fldA_setPort (n : Nat) (p : Port) (q : PageRef) (o1 h1 l1 : Nat) : fldA (setPort s n p) q o1 h1 l1 = fldA s q o1 h1 l1 := (rfl)
@[simp] theorem slot_setPort (n : Nat) (p : Port) (q : Nat) : slot (setPort s n p) q = slot s q := (rfl)
@[simp] theorem core_setPort (n : Nat) (p : Port) (q : CoreRef) : coreOf (setPort s n p) q = coreOf s q := (rfl)
@[simp] theorem cluster_setPort (n : Nat) (p : Port) (q : ClusterRef) : cluster (setPort s n p) q = cluster s q := (rfl)
@[simp] theorem ctr_setPort (n : Nat) (p : Port) (q : Nat) : ctr (setPort s n p) q = ctr s q := (rfl)
@[simp] theorem traceOf_setPort (n : Nat) (p : Port) (q : Nat) : traceOf (setPort s n p) q = traceOf s q := (rfl)
@[simp] theorem hasTile_setPort (n : Nat) (p : Port) (q : Nat) : hasTile (setPort s n p) q = hasTile s q := (rfl)

/-! ### reply -/

@[simp] theorem reply_part (w : Word) : (reply w s).part = s.part := (rfl)
@[simp] theorem reply_now (w : Word) : (reply w s).now = s.now := (rfl)
@[simp] theorem reply_beacon (w : Word) : (reply w s).beacon = s.beacon := (rfl)
@[simp] theorem reply_regs (w : Word) : (reply w s).regs = s.regs := (rfl)
@[simp] theorem reply_slots (w : Word) : (reply w s).slots = s.slots := (rfl)
@[simp] theorem reply_tasks (w : Word) : (reply w s).tasks = s.tasks := (rfl)
@[simp] theorem reply_ctrs (w : Word) : (reply w s).ctrs = s.ctrs := (rfl)
@[simp] theorem reply_cores (w : Word) : (reply w s).cores = s.cores := (rfl)
@[simp] theorem reply_clusters (w : Word) : (reply w s).clusters = s.clusters := (rfl)
@[simp] theorem reply_mem (w : Word) : (reply w s).mem = s.mem := (rfl)
@[simp] theorem reply_granger (w : Word) : (reply w s).granger = s.granger := (rfl)
@[simp] theorem reply_streams (w : Word) : (reply w s).streams = s.streams := (rfl)
@[simp] theorem reply_dmas (w : Word) : (reply w s).dmas = s.dmas := (rfl)
@[simp] theorem reply_dmaNext (w : Word) : (reply w s).dmaNext = s.dmaNext := (rfl)
@[simp] theorem reply_net (w : Word) : (reply w s).net = s.net := (rfl)
@[simp] theorem reply_ports (w : Word) : (reply w s).ports = s.ports := (rfl)
@[simp] theorem reply_coll (w : Word) : (reply w s).coll = s.coll := (rfl)
@[simp] theorem reply_control (w : Word) : (reply w s).control = s.control := (rfl)
@[simp] theorem reply_step (w : Word) : (reply w s).step = s.step := (rfl)
@[simp] theorem reply_keeper (w : Word) : (reply w s).keeper = s.keeper := (rfl)
@[simp] theorem reply_power (w : Word) : (reply w s).power = s.power := (rfl)
@[simp] theorem reply_traces (w : Word) : (reply w s).traces = s.traces := (rfl)
@[simp] theorem reply_snaps (w : Word) : (reply w s).snaps = s.snaps := (rfl)
@[simp] theorem reply_commits (w : Word) : (reply w s).commits = s.commits := (rfl)
@[simp] theorem reply_free (w : Word) : (reply w s).free = s.free := (rfl)
@[simp] theorem reply_pending (w : Word) : (reply w s).pending = s.pending := (rfl)
@[simp] theorem regRd_reply (w : Word) (q : Nat) : regRd (reply w s) q = regRd s q := (rfl)
@[simp] theorem rd_reply (w : Word) (q : PageRef) (o1 : Nat) : rd (reply w s) q o1 = rd s q o1 := (rfl)
@[simp] theorem rdA_reply (w : Word) (q : PageRef) (o1 : Nat) : rdA (reply w s) q o1 = rdA s q o1 := (rfl)
@[simp] theorem fld_reply (w : Word) (q : PageRef) (o1 h1 l1 : Nat) : fld (reply w s) q o1 h1 l1 = fld s q o1 h1 l1 := (rfl)
@[simp] theorem fldA_reply (w : Word) (q : PageRef) (o1 h1 l1 : Nat) : fldA (reply w s) q o1 h1 l1 = fldA s q o1 h1 l1 := (rfl)
@[simp] theorem slot_reply (w : Word) (q : Nat) : slot (reply w s) q = slot s q := (rfl)
@[simp] theorem core_reply (w : Word) (q : CoreRef) : coreOf (reply w s) q = coreOf s q := (rfl)
@[simp] theorem cluster_reply (w : Word) (q : ClusterRef) : cluster (reply w s) q = cluster s q := (rfl)
@[simp] theorem ctr_reply (w : Word) (q : Nat) : ctr (reply w s) q = ctr s q := (rfl)
@[simp] theorem port_reply (w : Word) (q : Nat) : port (reply w s) q = port s q := (rfl)
@[simp] theorem traceOf_reply (w : Word) (q : Nat) : traceOf (reply w s) q = traceOf s q := (rfl)
@[simp] theorem hasTile_reply (w : Word) (q : Nat) : hasTile (reply w s) q = hasTile s q := (rfl)

/-! ### now is set -/

@[simp] theorem regRd_with_now {v} (q : Nat) : regRd { s with now := v } q = regRd s q := (rfl)
@[simp] theorem rd_with_now {v} (q : PageRef) (o1 : Nat) : rd { s with now := v } q o1 = rd s q o1 := (rfl)
@[simp] theorem rdA_with_now {v} (q : PageRef) (o1 : Nat) : rdA { s with now := v } q o1 = rdA s q o1 := (rfl)
@[simp] theorem fld_with_now {v} (q : PageRef) (o1 h1 l1 : Nat) : fld { s with now := v } q o1 h1 l1 = fld s q o1 h1 l1 := (rfl)
@[simp] theorem fldA_with_now {v} (q : PageRef) (o1 h1 l1 : Nat) : fldA { s with now := v } q o1 h1 l1 = fldA s q o1 h1 l1 := (rfl)
@[simp] theorem slot_with_now {v} (q : Nat) : slot { s with now := v } q = slot s q := (rfl)
@[simp] theorem core_with_now {v} (q : CoreRef) : coreOf { s with now := v } q = coreOf s q := (rfl)
@[simp] theorem cluster_with_now {v} (q : ClusterRef) : cluster { s with now := v } q = cluster s q := (rfl)
@[simp] theorem ctr_with_now {v} (q : Nat) : ctr { s with now := v } q = ctr s q := (rfl)
@[simp] theorem port_with_now {v} (q : Nat) : port { s with now := v } q = port s q := (rfl)
@[simp] theorem traceOf_with_now {v} (q : Nat) : traceOf { s with now := v } q = traceOf s q := (rfl)
@[simp] theorem hasTile_with_now {v} (q : Nat) : hasTile { s with now := v } q = hasTile s q := (rfl)

/-! ### beacon is set -/

@[simp] theorem regRd_with_beacon {v} (q : Nat) : regRd { s with beacon := v } q = regRd s q := (rfl)
@[simp] theorem rd_with_beacon {v} (q : PageRef) (o1 : Nat) : rd { s with beacon := v } q o1 = rd s q o1 := (rfl)
@[simp] theorem rdA_with_beacon {v} (q : PageRef) (o1 : Nat) : rdA { s with beacon := v } q o1 = rdA s q o1 := (rfl)
@[simp] theorem fld_with_beacon {v} (q : PageRef) (o1 h1 l1 : Nat) : fld { s with beacon := v } q o1 h1 l1 = fld s q o1 h1 l1 := (rfl)
@[simp] theorem fldA_with_beacon {v} (q : PageRef) (o1 h1 l1 : Nat) : fldA { s with beacon := v } q o1 h1 l1 = fldA s q o1 h1 l1 := (rfl)
@[simp] theorem slot_with_beacon {v} (q : Nat) : slot { s with beacon := v } q = slot s q := (rfl)
@[simp] theorem core_with_beacon {v} (q : CoreRef) : coreOf { s with beacon := v } q = coreOf s q := (rfl)
@[simp] theorem cluster_with_beacon {v} (q : ClusterRef) : cluster { s with beacon := v } q = cluster s q := (rfl)
@[simp] theorem ctr_with_beacon {v} (q : Nat) : ctr { s with beacon := v } q = ctr s q := (rfl)
@[simp] theorem port_with_beacon {v} (q : Nat) : port { s with beacon := v } q = port s q := (rfl)
@[simp] theorem traceOf_with_beacon {v} (q : Nat) : traceOf { s with beacon := v } q = traceOf s q := (rfl)
@[simp] theorem hasTile_with_beacon {v} (q : Nat) : hasTile { s with beacon := v } q = hasTile s q := (rfl)

/-! ### regs is set -/

@[simp] theorem slot_with_regs {v} (q : Nat) : slot { s with regs := v } q = slot s q := (rfl)
@[simp] theorem core_with_regs {v} (q : CoreRef) : coreOf { s with regs := v } q = coreOf s q := (rfl)
@[simp] theorem cluster_with_regs {v} (q : ClusterRef) : cluster { s with regs := v } q = cluster s q := (rfl)
@[simp] theorem ctr_with_regs {v} (q : Nat) : ctr { s with regs := v } q = ctr s q := (rfl)
@[simp] theorem port_with_regs {v} (q : Nat) : port { s with regs := v } q = port s q := (rfl)
@[simp] theorem traceOf_with_regs {v} (q : Nat) : traceOf { s with regs := v } q = traceOf s q := (rfl)
@[simp] theorem hasTile_with_regs {v} (q : Nat) : hasTile { s with regs := v } q = hasTile s q := (rfl)

/-! ### slots is set -/

@[simp] theorem regRd_with_slots {v} (q : Nat) : regRd { s with slots := v } q = regRd s q := (rfl)
@[simp] theorem rd_with_slots {v} (q : PageRef) (o1 : Nat) : rd { s with slots := v } q o1 = rd s q o1 := (rfl)
@[simp] theorem rdA_with_slots {v} (q : PageRef) (o1 : Nat) : rdA { s with slots := v } q o1 = rdA s q o1 := (rfl)
@[simp] theorem fld_with_slots {v} (q : PageRef) (o1 h1 l1 : Nat) : fld { s with slots := v } q o1 h1 l1 = fld s q o1 h1 l1 := (rfl)
@[simp] theorem fldA_with_slots {v} (q : PageRef) (o1 h1 l1 : Nat) : fldA { s with slots := v } q o1 h1 l1 = fldA s q o1 h1 l1 := (rfl)
@[simp] theorem core_with_slots {v} (q : CoreRef) : coreOf { s with slots := v } q = coreOf s q := (rfl)
@[simp] theorem cluster_with_slots {v} (q : ClusterRef) : cluster { s with slots := v } q = cluster s q := (rfl)
@[simp] theorem ctr_with_slots {v} (q : Nat) : ctr { s with slots := v } q = ctr s q := (rfl)
@[simp] theorem port_with_slots {v} (q : Nat) : port { s with slots := v } q = port s q := (rfl)
@[simp] theorem traceOf_with_slots {v} (q : Nat) : traceOf { s with slots := v } q = traceOf s q := (rfl)
@[simp] theorem hasTile_with_slots {v} (q : Nat) : hasTile { s with slots := v } q = hasTile s q := (rfl)

/-! ### tasks is set -/

@[simp] theorem regRd_with_tasks {v} (q : Nat) : regRd { s with tasks := v } q = regRd s q := (rfl)
@[simp] theorem rd_with_tasks {v} (q : PageRef) (o1 : Nat) : rd { s with tasks := v } q o1 = rd s q o1 := (rfl)
@[simp] theorem rdA_with_tasks {v} (q : PageRef) (o1 : Nat) : rdA { s with tasks := v } q o1 = rdA s q o1 := (rfl)
@[simp] theorem fld_with_tasks {v} (q : PageRef) (o1 h1 l1 : Nat) : fld { s with tasks := v } q o1 h1 l1 = fld s q o1 h1 l1 := (rfl)
@[simp] theorem fldA_with_tasks {v} (q : PageRef) (o1 h1 l1 : Nat) : fldA { s with tasks := v } q o1 h1 l1 = fldA s q o1 h1 l1 := (rfl)
@[simp] theorem slot_with_tasks {v} (q : Nat) : slot { s with tasks := v } q = slot s q := (rfl)
@[simp] theorem core_with_tasks {v} (q : CoreRef) : coreOf { s with tasks := v } q = coreOf s q := (rfl)
@[simp] theorem cluster_with_tasks {v} (q : ClusterRef) : cluster { s with tasks := v } q = cluster s q := (rfl)
@[simp] theorem ctr_with_tasks {v} (q : Nat) : ctr { s with tasks := v } q = ctr s q := (rfl)
@[simp] theorem port_with_tasks {v} (q : Nat) : port { s with tasks := v } q = port s q := (rfl)
@[simp] theorem traceOf_with_tasks {v} (q : Nat) : traceOf { s with tasks := v } q = traceOf s q := (rfl)
@[simp] theorem hasTile_with_tasks {v} (q : Nat) : hasTile { s with tasks := v } q = hasTile s q := (rfl)

/-! ### ctrs is set -/

@[simp] theorem regRd_with_ctrs {v} (q : Nat) : regRd { s with ctrs := v } q = regRd s q := (rfl)
@[simp] theorem rd_with_ctrs {v} (q : PageRef) (o1 : Nat) : rd { s with ctrs := v } q o1 = rd s q o1 := (rfl)
@[simp] theorem rdA_with_ctrs {v} (q : PageRef) (o1 : Nat) : rdA { s with ctrs := v } q o1 = rdA s q o1 := (rfl)
@[simp] theorem fld_with_ctrs {v} (q : PageRef) (o1 h1 l1 : Nat) : fld { s with ctrs := v } q o1 h1 l1 = fld s q o1 h1 l1 := (rfl)
@[simp] theorem fldA_with_ctrs {v} (q : PageRef) (o1 h1 l1 : Nat) : fldA { s with ctrs := v } q o1 h1 l1 = fldA s q o1 h1 l1 := (rfl)
@[simp] theorem slot_with_ctrs {v} (q : Nat) : slot { s with ctrs := v } q = slot s q := (rfl)
@[simp] theorem core_with_ctrs {v} (q : CoreRef) : coreOf { s with ctrs := v } q = coreOf s q := (rfl)
@[simp] theorem cluster_with_ctrs {v} (q : ClusterRef) : cluster { s with ctrs := v } q = cluster s q := (rfl)
@[simp] theorem port_with_ctrs {v} (q : Nat) : port { s with ctrs := v } q = port s q := (rfl)
@[simp] theorem traceOf_with_ctrs {v} (q : Nat) : traceOf { s with ctrs := v } q = traceOf s q := (rfl)
@[simp] theorem hasTile_with_ctrs {v} (q : Nat) : hasTile { s with ctrs := v } q = hasTile s q := (rfl)

/-! ### cores is set -/

@[simp] theorem regRd_with_cores {v} (q : Nat) : regRd { s with cores := v } q = regRd s q := (rfl)
@[simp] theorem rd_with_cores {v} (q : PageRef) (o1 : Nat) : rd { s with cores := v } q o1 = rd s q o1 := (rfl)
@[simp] theorem rdA_with_cores {v} (q : PageRef) (o1 : Nat) : rdA { s with cores := v } q o1 = rdA s q o1 := (rfl)
@[simp] theorem fld_with_cores {v} (q : PageRef) (o1 h1 l1 : Nat) : fld { s with cores := v } q o1 h1 l1 = fld s q o1 h1 l1 := (rfl)
@[simp] theorem fldA_with_cores {v} (q : PageRef) (o1 h1 l1 : Nat) : fldA { s with cores := v } q o1 h1 l1 = fldA s q o1 h1 l1 := (rfl)
@[simp] theorem slot_with_cores {v} (q : Nat) : slot { s with cores := v } q = slot s q := (rfl)
@[simp] theorem cluster_with_cores {v} (q : ClusterRef) : cluster { s with cores := v } q = cluster s q := (rfl)
@[simp] theorem ctr_with_cores {v} (q : Nat) : ctr { s with cores := v } q = ctr s q := (rfl)
@[simp] theorem port_with_cores {v} (q : Nat) : port { s with cores := v } q = port s q := (rfl)
@[simp] theorem traceOf_with_cores {v} (q : Nat) : traceOf { s with cores := v } q = traceOf s q := (rfl)
@[simp] theorem hasTile_with_cores {v} (q : Nat) : hasTile { s with cores := v } q = hasTile s q := (rfl)

/-! ### clusters is set -/

@[simp] theorem regRd_with_clusters {v} (q : Nat) : regRd { s with clusters := v } q = regRd s q := (rfl)
@[simp] theorem rd_with_clusters {v} (q : PageRef) (o1 : Nat) : rd { s with clusters := v } q o1 = rd s q o1 := (rfl)
@[simp] theorem rdA_with_clusters {v} (q : PageRef) (o1 : Nat) : rdA { s with clusters := v } q o1 = rdA s q o1 := (rfl)
@[simp] theorem fld_with_clusters {v} (q : PageRef) (o1 h1 l1 : Nat) : fld { s with clusters := v } q o1 h1 l1 = fld s q o1 h1 l1 := (rfl)
@[simp] theorem fldA_with_clusters {v} (q : PageRef) (o1 h1 l1 : Nat) : fldA { s with clusters := v } q o1 h1 l1 = fldA s q o1 h1 l1 := (rfl)
@[simp] theorem slot_with_clusters {v} (q : Nat) : slot { s with clusters := v } q = slot s q := (rfl)
@[simp] theorem core_with_clusters {v} (q : CoreRef) : coreOf { s with clusters := v } q = coreOf s q := (rfl)
@[simp] theorem ctr_with_clusters {v} (q : Nat) : ctr { s with clusters := v } q = ctr s q := (rfl)
@[simp] theorem port_with_clusters {v} (q : Nat) : port { s with clusters := v } q = port s q := (rfl)
@[simp] theorem traceOf_with_clusters {v} (q : Nat) : traceOf { s with clusters := v } q = traceOf s q := (rfl)
@[simp] theorem hasTile_with_clusters {v} (q : Nat) : hasTile { s with clusters := v } q = hasTile s q := (rfl)

/-! ### mem is set -/

@[simp] theorem regRd_with_mem {v} (q : Nat) : regRd { s with mem := v } q = regRd s q := (rfl)
@[simp] theorem rd_with_mem {v} (q : PageRef) (o1 : Nat) : rd { s with mem := v } q o1 = rd s q o1 := (rfl)
@[simp] theorem rdA_with_mem {v} (q : PageRef) (o1 : Nat) : rdA { s with mem := v } q o1 = rdA s q o1 := (rfl)
@[simp] theorem fld_with_mem {v} (q : PageRef) (o1 h1 l1 : Nat) : fld { s with mem := v } q o1 h1 l1 = fld s q o1 h1 l1 := (rfl)
@[simp] theorem fldA_with_mem {v} (q : PageRef) (o1 h1 l1 : Nat) : fldA { s with mem := v } q o1 h1 l1 = fldA s q o1 h1 l1 := (rfl)
@[simp] theorem slot_with_mem {v} (q : Nat) : slot { s with mem := v } q = slot s q := (rfl)
@[simp] theorem core_with_mem {v} (q : CoreRef) : coreOf { s with mem := v } q = coreOf s q := (rfl)
@[simp] theorem cluster_with_mem {v} (q : ClusterRef) : cluster { s with mem := v } q = cluster s q := (rfl)
@[simp] theorem ctr_with_mem {v} (q : Nat) : ctr { s with mem := v } q = ctr s q := (rfl)
@[simp] theorem port_with_mem {v} (q : Nat) : port { s with mem := v } q = port s q := (rfl)
@[simp] theorem traceOf_with_mem {v} (q : Nat) : traceOf { s with mem := v } q = traceOf s q := (rfl)
@[simp] theorem hasTile_with_mem {v} (q : Nat) : hasTile { s with mem := v } q = hasTile s q := (rfl)

/-! ### granger is set -/

@[simp] theorem regRd_with_granger {v} (q : Nat) : regRd { s with granger := v } q = regRd s q := (rfl)
@[simp] theorem rd_with_granger {v} (q : PageRef) (o1 : Nat) : rd { s with granger := v } q o1 = rd s q o1 := (rfl)
@[simp] theorem rdA_with_granger {v} (q : PageRef) (o1 : Nat) : rdA { s with granger := v } q o1 = rdA s q o1 := (rfl)
@[simp] theorem fld_with_granger {v} (q : PageRef) (o1 h1 l1 : Nat) : fld { s with granger := v } q o1 h1 l1 = fld s q o1 h1 l1 := (rfl)
@[simp] theorem fldA_with_granger {v} (q : PageRef) (o1 h1 l1 : Nat) : fldA { s with granger := v } q o1 h1 l1 = fldA s q o1 h1 l1 := (rfl)
@[simp] theorem slot_with_granger {v} (q : Nat) : slot { s with granger := v } q = slot s q := (rfl)
@[simp] theorem core_with_granger {v} (q : CoreRef) : coreOf { s with granger := v } q = coreOf s q := (rfl)
@[simp] theorem cluster_with_granger {v} (q : ClusterRef) : cluster { s with granger := v } q = cluster s q := (rfl)
@[simp] theorem ctr_with_granger {v} (q : Nat) : ctr { s with granger := v } q = ctr s q := (rfl)
@[simp] theorem port_with_granger {v} (q : Nat) : port { s with granger := v } q = port s q := (rfl)
@[simp] theorem traceOf_with_granger {v} (q : Nat) : traceOf { s with granger := v } q = traceOf s q := (rfl)
@[simp] theorem hasTile_with_granger {v} (q : Nat) : hasTile { s with granger := v } q = hasTile s q := (rfl)

/-! ### streams is set -/

@[simp] theorem regRd_with_streams {v} (q : Nat) : regRd { s with streams := v } q = regRd s q := (rfl)
@[simp] theorem rd_with_streams {v} (q : PageRef) (o1 : Nat) : rd { s with streams := v } q o1 = rd s q o1 := (rfl)
@[simp] theorem rdA_with_streams {v} (q : PageRef) (o1 : Nat) : rdA { s with streams := v } q o1 = rdA s q o1 := (rfl)
@[simp] theorem fld_with_streams {v} (q : PageRef) (o1 h1 l1 : Nat) : fld { s with streams := v } q o1 h1 l1 = fld s q o1 h1 l1 := (rfl)
@[simp] theorem fldA_with_streams {v} (q : PageRef) (o1 h1 l1 : Nat) : fldA { s with streams := v } q o1 h1 l1 = fldA s q o1 h1 l1 := (rfl)
@[simp] theorem slot_with_streams {v} (q : Nat) : slot { s with streams := v } q = slot s q := (rfl)
@[simp] theorem core_with_streams {v} (q : CoreRef) : coreOf { s with streams := v } q = coreOf s q := (rfl)
@[simp] theorem cluster_with_streams {v} (q : ClusterRef) : cluster { s with streams := v } q = cluster s q := (rfl)
@[simp] theorem ctr_with_streams {v} (q : Nat) : ctr { s with streams := v } q = ctr s q := (rfl)
@[simp] theorem port_with_streams {v} (q : Nat) : port { s with streams := v } q = port s q := (rfl)
@[simp] theorem traceOf_with_streams {v} (q : Nat) : traceOf { s with streams := v } q = traceOf s q := (rfl)
@[simp] theorem hasTile_with_streams {v} (q : Nat) : hasTile { s with streams := v } q = hasTile s q := (rfl)

/-! ### dmas is set -/

@[simp] theorem regRd_with_dmas {v} (q : Nat) : regRd { s with dmas := v } q = regRd s q := (rfl)
@[simp] theorem rd_with_dmas {v} (q : PageRef) (o1 : Nat) : rd { s with dmas := v } q o1 = rd s q o1 := (rfl)
@[simp] theorem rdA_with_dmas {v} (q : PageRef) (o1 : Nat) : rdA { s with dmas := v } q o1 = rdA s q o1 := (rfl)
@[simp] theorem fld_with_dmas {v} (q : PageRef) (o1 h1 l1 : Nat) : fld { s with dmas := v } q o1 h1 l1 = fld s q o1 h1 l1 := (rfl)
@[simp] theorem fldA_with_dmas {v} (q : PageRef) (o1 h1 l1 : Nat) : fldA { s with dmas := v } q o1 h1 l1 = fldA s q o1 h1 l1 := (rfl)
@[simp] theorem slot_with_dmas {v} (q : Nat) : slot { s with dmas := v } q = slot s q := (rfl)
@[simp] theorem core_with_dmas {v} (q : CoreRef) : coreOf { s with dmas := v } q = coreOf s q := (rfl)
@[simp] theorem cluster_with_dmas {v} (q : ClusterRef) : cluster { s with dmas := v } q = cluster s q := (rfl)
@[simp] theorem ctr_with_dmas {v} (q : Nat) : ctr { s with dmas := v } q = ctr s q := (rfl)
@[simp] theorem port_with_dmas {v} (q : Nat) : port { s with dmas := v } q = port s q := (rfl)
@[simp] theorem traceOf_with_dmas {v} (q : Nat) : traceOf { s with dmas := v } q = traceOf s q := (rfl)
@[simp] theorem hasTile_with_dmas {v} (q : Nat) : hasTile { s with dmas := v } q = hasTile s q := (rfl)

/-! ### dmaNext is set -/

@[simp] theorem regRd_with_dmaNext {v} (q : Nat) : regRd { s with dmaNext := v } q = regRd s q := (rfl)
@[simp] theorem rd_with_dmaNext {v} (q : PageRef) (o1 : Nat) : rd { s with dmaNext := v } q o1 = rd s q o1 := (rfl)
@[simp] theorem rdA_with_dmaNext {v} (q : PageRef) (o1 : Nat) : rdA { s with dmaNext := v } q o1 = rdA s q o1 := (rfl)
@[simp] theorem fld_with_dmaNext {v} (q : PageRef) (o1 h1 l1 : Nat) : fld { s with dmaNext := v } q o1 h1 l1 = fld s q o1 h1 l1 := (rfl)
@[simp] theorem fldA_with_dmaNext {v} (q : PageRef) (o1 h1 l1 : Nat) : fldA { s with dmaNext := v } q o1 h1 l1 = fldA s q o1 h1 l1 := (rfl)
@[simp] theorem slot_with_dmaNext {v} (q : Nat) : slot { s with dmaNext := v } q = slot s q := (rfl)
@[simp] theorem core_with_dmaNext {v} (q : CoreRef) : coreOf { s with dmaNext := v } q = coreOf s q := (rfl)
@[simp] theorem cluster_with_dmaNext {v} (q : ClusterRef) : cluster { s with dmaNext := v } q = cluster s q := (rfl)
@[simp] theorem ctr_with_dmaNext {v} (q : Nat) : ctr { s with dmaNext := v } q = ctr s q := (rfl)
@[simp] theorem port_with_dmaNext {v} (q : Nat) : port { s with dmaNext := v } q = port s q := (rfl)
@[simp] theorem traceOf_with_dmaNext {v} (q : Nat) : traceOf { s with dmaNext := v } q = traceOf s q := (rfl)
@[simp] theorem hasTile_with_dmaNext {v} (q : Nat) : hasTile { s with dmaNext := v } q = hasTile s q := (rfl)

/-! ### net is set -/

@[simp] theorem regRd_with_net {v} (q : Nat) : regRd { s with net := v } q = regRd s q := (rfl)
@[simp] theorem rd_with_net {v} (q : PageRef) (o1 : Nat) : rd { s with net := v } q o1 = rd s q o1 := (rfl)
@[simp] theorem rdA_with_net {v} (q : PageRef) (o1 : Nat) : rdA { s with net := v } q o1 = rdA s q o1 := (rfl)
@[simp] theorem fld_with_net {v} (q : PageRef) (o1 h1 l1 : Nat) : fld { s with net := v } q o1 h1 l1 = fld s q o1 h1 l1 := (rfl)
@[simp] theorem fldA_with_net {v} (q : PageRef) (o1 h1 l1 : Nat) : fldA { s with net := v } q o1 h1 l1 = fldA s q o1 h1 l1 := (rfl)
@[simp] theorem slot_with_net {v} (q : Nat) : slot { s with net := v } q = slot s q := (rfl)
@[simp] theorem core_with_net {v} (q : CoreRef) : coreOf { s with net := v } q = coreOf s q := (rfl)
@[simp] theorem cluster_with_net {v} (q : ClusterRef) : cluster { s with net := v } q = cluster s q := (rfl)
@[simp] theorem ctr_with_net {v} (q : Nat) : ctr { s with net := v } q = ctr s q := (rfl)
@[simp] theorem port_with_net {v} (q : Nat) : port { s with net := v } q = port s q := (rfl)
@[simp] theorem traceOf_with_net {v} (q : Nat) : traceOf { s with net := v } q = traceOf s q := (rfl)
@[simp] theorem hasTile_with_net {v} (q : Nat) : hasTile { s with net := v } q = hasTile s q := (rfl)

/-! ### ports is set -/

@[simp] theorem regRd_with_ports {v} (q : Nat) : regRd { s with ports := v } q = regRd s q := (rfl)
@[simp] theorem rd_with_ports {v} (q : PageRef) (o1 : Nat) : rd { s with ports := v } q o1 = rd s q o1 := (rfl)
@[simp] theorem rdA_with_ports {v} (q : PageRef) (o1 : Nat) : rdA { s with ports := v } q o1 = rdA s q o1 := (rfl)
@[simp] theorem fld_with_ports {v} (q : PageRef) (o1 h1 l1 : Nat) : fld { s with ports := v } q o1 h1 l1 = fld s q o1 h1 l1 := (rfl)
@[simp] theorem fldA_with_ports {v} (q : PageRef) (o1 h1 l1 : Nat) : fldA { s with ports := v } q o1 h1 l1 = fldA s q o1 h1 l1 := (rfl)
@[simp] theorem slot_with_ports {v} (q : Nat) : slot { s with ports := v } q = slot s q := (rfl)
@[simp] theorem core_with_ports {v} (q : CoreRef) : coreOf { s with ports := v } q = coreOf s q := (rfl)
@[simp] theorem cluster_with_ports {v} (q : ClusterRef) : cluster { s with ports := v } q = cluster s q := (rfl)
@[simp] theorem ctr_with_ports {v} (q : Nat) : ctr { s with ports := v } q = ctr s q := (rfl)
@[simp] theorem traceOf_with_ports {v} (q : Nat) : traceOf { s with ports := v } q = traceOf s q := (rfl)
@[simp] theorem hasTile_with_ports {v} (q : Nat) : hasTile { s with ports := v } q = hasTile s q := (rfl)

/-! ### coll is set -/

@[simp] theorem regRd_with_coll {v} (q : Nat) : regRd { s with coll := v } q = regRd s q := (rfl)
@[simp] theorem rd_with_coll {v} (q : PageRef) (o1 : Nat) : rd { s with coll := v } q o1 = rd s q o1 := (rfl)
@[simp] theorem rdA_with_coll {v} (q : PageRef) (o1 : Nat) : rdA { s with coll := v } q o1 = rdA s q o1 := (rfl)
@[simp] theorem fld_with_coll {v} (q : PageRef) (o1 h1 l1 : Nat) : fld { s with coll := v } q o1 h1 l1 = fld s q o1 h1 l1 := (rfl)
@[simp] theorem fldA_with_coll {v} (q : PageRef) (o1 h1 l1 : Nat) : fldA { s with coll := v } q o1 h1 l1 = fldA s q o1 h1 l1 := (rfl)
@[simp] theorem slot_with_coll {v} (q : Nat) : slot { s with coll := v } q = slot s q := (rfl)
@[simp] theorem core_with_coll {v} (q : CoreRef) : coreOf { s with coll := v } q = coreOf s q := (rfl)
@[simp] theorem cluster_with_coll {v} (q : ClusterRef) : cluster { s with coll := v } q = cluster s q := (rfl)
@[simp] theorem ctr_with_coll {v} (q : Nat) : ctr { s with coll := v } q = ctr s q := (rfl)
@[simp] theorem port_with_coll {v} (q : Nat) : port { s with coll := v } q = port s q := (rfl)
@[simp] theorem traceOf_with_coll {v} (q : Nat) : traceOf { s with coll := v } q = traceOf s q := (rfl)
@[simp] theorem hasTile_with_coll {v} (q : Nat) : hasTile { s with coll := v } q = hasTile s q := (rfl)

/-! ### control is set -/

@[simp] theorem regRd_with_control {v} (q : Nat) : regRd { s with control := v } q = regRd s q := (rfl)
@[simp] theorem rd_with_control {v} (q : PageRef) (o1 : Nat) : rd { s with control := v } q o1 = rd s q o1 := (rfl)
@[simp] theorem rdA_with_control {v} (q : PageRef) (o1 : Nat) : rdA { s with control := v } q o1 = rdA s q o1 := (rfl)
@[simp] theorem fld_with_control {v} (q : PageRef) (o1 h1 l1 : Nat) : fld { s with control := v } q o1 h1 l1 = fld s q o1 h1 l1 := (rfl)
@[simp] theorem fldA_with_control {v} (q : PageRef) (o1 h1 l1 : Nat) : fldA { s with control := v } q o1 h1 l1 = fldA s q o1 h1 l1 := (rfl)
@[simp] theorem slot_with_control {v} (q : Nat) : slot { s with control := v } q = slot s q := (rfl)
@[simp] theorem core_with_control {v} (q : CoreRef) : coreOf { s with control := v } q = coreOf s q := (rfl)
@[simp] theorem cluster_with_control {v} (q : ClusterRef) : cluster { s with control := v } q = cluster s q := (rfl)
@[simp] theorem ctr_with_control {v} (q : Nat) : ctr { s with control := v } q = ctr s q := (rfl)
@[simp] theorem port_with_control {v} (q : Nat) : port { s with control := v } q = port s q := (rfl)
@[simp] theorem traceOf_with_control {v} (q : Nat) : traceOf { s with control := v } q = traceOf s q := (rfl)
@[simp] theorem hasTile_with_control {v} (q : Nat) : hasTile { s with control := v } q = hasTile s q := (rfl)

/-! ### step is set -/

@[simp] theorem regRd_with_step {v} (q : Nat) : regRd { s with step := v } q = regRd s q := (rfl)
@[simp] theorem rd_with_step {v} (q : PageRef) (o1 : Nat) : rd { s with step := v } q o1 = rd s q o1 := (rfl)
@[simp] theorem rdA_with_step {v} (q : PageRef) (o1 : Nat) : rdA { s with step := v } q o1 = rdA s q o1 := (rfl)
@[simp] theorem fld_with_step {v} (q : PageRef) (o1 h1 l1 : Nat) : fld { s with step := v } q o1 h1 l1 = fld s q o1 h1 l1 := (rfl)
@[simp] theorem fldA_with_step {v} (q : PageRef) (o1 h1 l1 : Nat) : fldA { s with step := v } q o1 h1 l1 = fldA s q o1 h1 l1 := (rfl)
@[simp] theorem slot_with_step {v} (q : Nat) : slot { s with step := v } q = slot s q := (rfl)
@[simp] theorem core_with_step {v} (q : CoreRef) : coreOf { s with step := v } q = coreOf s q := (rfl)
@[simp] theorem cluster_with_step {v} (q : ClusterRef) : cluster { s with step := v } q = cluster s q := (rfl)
@[simp] theorem ctr_with_step {v} (q : Nat) : ctr { s with step := v } q = ctr s q := (rfl)
@[simp] theorem port_with_step {v} (q : Nat) : port { s with step := v } q = port s q := (rfl)
@[simp] theorem traceOf_with_step {v} (q : Nat) : traceOf { s with step := v } q = traceOf s q := (rfl)
@[simp] theorem hasTile_with_step {v} (q : Nat) : hasTile { s with step := v } q = hasTile s q := (rfl)

/-! ### keeper is set -/

@[simp] theorem regRd_with_keeper {v} (q : Nat) : regRd { s with keeper := v } q = regRd s q := (rfl)
@[simp] theorem rd_with_keeper {v} (q : PageRef) (o1 : Nat) : rd { s with keeper := v } q o1 = rd s q o1 := (rfl)
@[simp] theorem rdA_with_keeper {v} (q : PageRef) (o1 : Nat) : rdA { s with keeper := v } q o1 = rdA s q o1 := (rfl)
@[simp] theorem fld_with_keeper {v} (q : PageRef) (o1 h1 l1 : Nat) : fld { s with keeper := v } q o1 h1 l1 = fld s q o1 h1 l1 := (rfl)
@[simp] theorem fldA_with_keeper {v} (q : PageRef) (o1 h1 l1 : Nat) : fldA { s with keeper := v } q o1 h1 l1 = fldA s q o1 h1 l1 := (rfl)
@[simp] theorem slot_with_keeper {v} (q : Nat) : slot { s with keeper := v } q = slot s q := (rfl)
@[simp] theorem core_with_keeper {v} (q : CoreRef) : coreOf { s with keeper := v } q = coreOf s q := (rfl)
@[simp] theorem cluster_with_keeper {v} (q : ClusterRef) : cluster { s with keeper := v } q = cluster s q := (rfl)
@[simp] theorem ctr_with_keeper {v} (q : Nat) : ctr { s with keeper := v } q = ctr s q := (rfl)
@[simp] theorem port_with_keeper {v} (q : Nat) : port { s with keeper := v } q = port s q := (rfl)
@[simp] theorem traceOf_with_keeper {v} (q : Nat) : traceOf { s with keeper := v } q = traceOf s q := (rfl)
@[simp] theorem hasTile_with_keeper {v} (q : Nat) : hasTile { s with keeper := v } q = hasTile s q := (rfl)

/-! ### power is set -/

@[simp] theorem regRd_with_power {v} (q : Nat) : regRd { s with power := v } q = regRd s q := (rfl)
@[simp] theorem rd_with_power {v} (q : PageRef) (o1 : Nat) : rd { s with power := v } q o1 = rd s q o1 := (rfl)
@[simp] theorem rdA_with_power {v} (q : PageRef) (o1 : Nat) : rdA { s with power := v } q o1 = rdA s q o1 := (rfl)
@[simp] theorem fld_with_power {v} (q : PageRef) (o1 h1 l1 : Nat) : fld { s with power := v } q o1 h1 l1 = fld s q o1 h1 l1 := (rfl)
@[simp] theorem fldA_with_power {v} (q : PageRef) (o1 h1 l1 : Nat) : fldA { s with power := v } q o1 h1 l1 = fldA s q o1 h1 l1 := (rfl)
@[simp] theorem slot_with_power {v} (q : Nat) : slot { s with power := v } q = slot s q := (rfl)
@[simp] theorem core_with_power {v} (q : CoreRef) : coreOf { s with power := v } q = coreOf s q := (rfl)
@[simp] theorem cluster_with_power {v} (q : ClusterRef) : cluster { s with power := v } q = cluster s q := (rfl)
@[simp] theorem ctr_with_power {v} (q : Nat) : ctr { s with power := v } q = ctr s q := (rfl)
@[simp] theorem port_with_power {v} (q : Nat) : port { s with power := v } q = port s q := (rfl)
@[simp] theorem traceOf_with_power {v} (q : Nat) : traceOf { s with power := v } q = traceOf s q := (rfl)
@[simp] theorem hasTile_with_power {v} (q : Nat) : hasTile { s with power := v } q = hasTile s q := (rfl)

/-! ### traces is set -/

@[simp] theorem regRd_with_traces {v} (q : Nat) : regRd { s with traces := v } q = regRd s q := (rfl)
@[simp] theorem rd_with_traces {v} (q : PageRef) (o1 : Nat) : rd { s with traces := v } q o1 = rd s q o1 := (rfl)
@[simp] theorem rdA_with_traces {v} (q : PageRef) (o1 : Nat) : rdA { s with traces := v } q o1 = rdA s q o1 := (rfl)
@[simp] theorem fld_with_traces {v} (q : PageRef) (o1 h1 l1 : Nat) : fld { s with traces := v } q o1 h1 l1 = fld s q o1 h1 l1 := (rfl)
@[simp] theorem fldA_with_traces {v} (q : PageRef) (o1 h1 l1 : Nat) : fldA { s with traces := v } q o1 h1 l1 = fldA s q o1 h1 l1 := (rfl)
@[simp] theorem slot_with_traces {v} (q : Nat) : slot { s with traces := v } q = slot s q := (rfl)
@[simp] theorem core_with_traces {v} (q : CoreRef) : coreOf { s with traces := v } q = coreOf s q := (rfl)
@[simp] theorem cluster_with_traces {v} (q : ClusterRef) : cluster { s with traces := v } q = cluster s q := (rfl)
@[simp] theorem ctr_with_traces {v} (q : Nat) : ctr { s with traces := v } q = ctr s q := (rfl)
@[simp] theorem port_with_traces {v} (q : Nat) : port { s with traces := v } q = port s q := (rfl)
@[simp] theorem hasTile_with_traces {v} (q : Nat) : hasTile { s with traces := v } q = hasTile s q := (rfl)

/-! ### snaps is set -/

@[simp] theorem regRd_with_snaps {v} (q : Nat) : regRd { s with snaps := v } q = regRd s q := (rfl)
@[simp] theorem rd_with_snaps {v} (q : PageRef) (o1 : Nat) : rd { s with snaps := v } q o1 = rd s q o1 := (rfl)
@[simp] theorem rdA_with_snaps {v} (q : PageRef) (o1 : Nat) : rdA { s with snaps := v } q o1 = rdA s q o1 := (rfl)
@[simp] theorem fld_with_snaps {v} (q : PageRef) (o1 h1 l1 : Nat) : fld { s with snaps := v } q o1 h1 l1 = fld s q o1 h1 l1 := (rfl)
@[simp] theorem fldA_with_snaps {v} (q : PageRef) (o1 h1 l1 : Nat) : fldA { s with snaps := v } q o1 h1 l1 = fldA s q o1 h1 l1 := (rfl)
@[simp] theorem slot_with_snaps {v} (q : Nat) : slot { s with snaps := v } q = slot s q := (rfl)
@[simp] theorem core_with_snaps {v} (q : CoreRef) : coreOf { s with snaps := v } q = coreOf s q := (rfl)
@[simp] theorem cluster_with_snaps {v} (q : ClusterRef) : cluster { s with snaps := v } q = cluster s q := (rfl)
@[simp] theorem ctr_with_snaps {v} (q : Nat) : ctr { s with snaps := v } q = ctr s q := (rfl)
@[simp] theorem port_with_snaps {v} (q : Nat) : port { s with snaps := v } q = port s q := (rfl)
@[simp] theorem traceOf_with_snaps {v} (q : Nat) : traceOf { s with snaps := v } q = traceOf s q := (rfl)
@[simp] theorem hasTile_with_snaps {v} (q : Nat) : hasTile { s with snaps := v } q = hasTile s q := (rfl)

/-! ### commits is set -/

@[simp] theorem regRd_with_commits {v} (q : Nat) : regRd { s with commits := v } q = regRd s q := (rfl)
@[simp] theorem rd_with_commits {v} (q : PageRef) (o1 : Nat) : rd { s with commits := v } q o1 = rd s q o1 := (rfl)
@[simp] theorem rdA_with_commits {v} (q : PageRef) (o1 : Nat) : rdA { s with commits := v } q o1 = rdA s q o1 := (rfl)
@[simp] theorem fld_with_commits {v} (q : PageRef) (o1 h1 l1 : Nat) : fld { s with commits := v } q o1 h1 l1 = fld s q o1 h1 l1 := (rfl)
@[simp] theorem fldA_with_commits {v} (q : PageRef) (o1 h1 l1 : Nat) : fldA { s with commits := v } q o1 h1 l1 = fldA s q o1 h1 l1 := (rfl)
@[simp] theorem slot_with_commits {v} (q : Nat) : slot { s with commits := v } q = slot s q := (rfl)
@[simp] theorem core_with_commits {v} (q : CoreRef) : coreOf { s with commits := v } q = coreOf s q := (rfl)
@[simp] theorem cluster_with_commits {v} (q : ClusterRef) : cluster { s with commits := v } q = cluster s q := (rfl)
@[simp] theorem ctr_with_commits {v} (q : Nat) : ctr { s with commits := v } q = ctr s q := (rfl)
@[simp] theorem port_with_commits {v} (q : Nat) : port { s with commits := v } q = port s q := (rfl)
@[simp] theorem traceOf_with_commits {v} (q : Nat) : traceOf { s with commits := v } q = traceOf s q := (rfl)
@[simp] theorem hasTile_with_commits {v} (q : Nat) : hasTile { s with commits := v } q = hasTile s q := (rfl)

/-! ### out is set -/

@[simp] theorem regRd_with_out {v} (q : Nat) : regRd { s with out := v } q = regRd s q := (rfl)
@[simp] theorem rd_with_out {v} (q : PageRef) (o1 : Nat) : rd { s with out := v } q o1 = rd s q o1 := (rfl)
@[simp] theorem rdA_with_out {v} (q : PageRef) (o1 : Nat) : rdA { s with out := v } q o1 = rdA s q o1 := (rfl)
@[simp] theorem fld_with_out {v} (q : PageRef) (o1 h1 l1 : Nat) : fld { s with out := v } q o1 h1 l1 = fld s q o1 h1 l1 := (rfl)
@[simp] theorem fldA_with_out {v} (q : PageRef) (o1 h1 l1 : Nat) : fldA { s with out := v } q o1 h1 l1 = fldA s q o1 h1 l1 := (rfl)
@[simp] theorem slot_with_out {v} (q : Nat) : slot { s with out := v } q = slot s q := (rfl)
@[simp] theorem core_with_out {v} (q : CoreRef) : coreOf { s with out := v } q = coreOf s q := (rfl)
@[simp] theorem cluster_with_out {v} (q : ClusterRef) : cluster { s with out := v } q = cluster s q := (rfl)
@[simp] theorem ctr_with_out {v} (q : Nat) : ctr { s with out := v } q = ctr s q := (rfl)
@[simp] theorem port_with_out {v} (q : Nat) : port { s with out := v } q = port s q := (rfl)
@[simp] theorem traceOf_with_out {v} (q : Nat) : traceOf { s with out := v } q = traceOf s q := (rfl)
@[simp] theorem hasTile_with_out {v} (q : Nat) : hasTile { s with out := v } q = hasTile s q := (rfl)

/-! ### free is set -/

@[simp] theorem regRd_with_free {v} (q : Nat) : regRd { s with free := v } q = regRd s q := (rfl)
@[simp] theorem rd_with_free {v} (q : PageRef) (o1 : Nat) : rd { s with free := v } q o1 = rd s q o1 := (rfl)
@[simp] theorem rdA_with_free {v} (q : PageRef) (o1 : Nat) : rdA { s with free := v } q o1 = rdA s q o1 := (rfl)
@[simp] theorem fld_with_free {v} (q : PageRef) (o1 h1 l1 : Nat) : fld { s with free := v } q o1 h1 l1 = fld s q o1 h1 l1 := (rfl)
@[simp] theorem fldA_with_free {v} (q : PageRef) (o1 h1 l1 : Nat) : fldA { s with free := v } q o1 h1 l1 = fldA s q o1 h1 l1 := (rfl)
@[simp] theorem slot_with_free {v} (q : Nat) : slot { s with free := v } q = slot s q := (rfl)
@[simp] theorem core_with_free {v} (q : CoreRef) : coreOf { s with free := v } q = coreOf s q := (rfl)
@[simp] theorem cluster_with_free {v} (q : ClusterRef) : cluster { s with free := v } q = cluster s q := (rfl)
@[simp] theorem ctr_with_free {v} (q : Nat) : ctr { s with free := v } q = ctr s q := (rfl)
@[simp] theorem port_with_free {v} (q : Nat) : port { s with free := v } q = port s q := (rfl)
@[simp] theorem traceOf_with_free {v} (q : Nat) : traceOf { s with free := v } q = traceOf s q := (rfl)
@[simp] theorem hasTile_with_free {v} (q : Nat) : hasTile { s with free := v } q = hasTile s q := (rfl)

/-! ### pending is set -/

@[simp] theorem regRd_with_pending {v} (q : Nat) : regRd { s with pending := v } q = regRd s q := (rfl)
@[simp] theorem rd_with_pending {v} (q : PageRef) (o1 : Nat) : rd { s with pending := v } q o1 = rd s q o1 := (rfl)
@[simp] theorem rdA_with_pending {v} (q : PageRef) (o1 : Nat) : rdA { s with pending := v } q o1 = rdA s q o1 := (rfl)
@[simp] theorem fld_with_pending {v} (q : PageRef) (o1 h1 l1 : Nat) : fld { s with pending := v } q o1 h1 l1 = fld s q o1 h1 l1 := (rfl)
@[simp] theorem fldA_with_pending {v} (q : PageRef) (o1 h1 l1 : Nat) : fldA { s with pending := v } q o1 h1 l1 = fldA s q o1 h1 l1 := (rfl)
@[simp] theorem slot_with_pending {v} (q : Nat) : slot { s with pending := v } q = slot s q := (rfl)
@[simp] theorem core_with_pending {v} (q : CoreRef) : coreOf { s with pending := v } q = coreOf s q := (rfl)
@[simp] theorem cluster_with_pending {v} (q : ClusterRef) : cluster { s with pending := v } q = cluster s q := (rfl)
@[simp] theorem ctr_with_pending {v} (q : Nat) : ctr { s with pending := v } q = ctr s q := (rfl)
@[simp] theorem port_with_pending {v} (q : Nat) : port { s with pending := v } q = port s q := (rfl)
@[simp] theorem traceOf_with_pending {v} (q : Nat) : traceOf { s with pending := v } q = traceOf s q := (rfl)
@[simp] theorem hasTile_with_pending {v} (q : Nat) : hasTile { s with pending := v } q = hasTile s q := (rfl)

/-! ### What a piece reads after it is set -/

@[simp] theorem slot_setSlot_self (n : Nat) (v : Slot) : slot (setSlot s n v) n = v := mget_mset_self _ _ _ _
theorem slot_setSlot_ne {n m : Nat} (v : Slot) (h : m ≠ n) : slot (setSlot s n v) m = slot s m := mget_mset_ne _ _ _ h
@[simp] theorem core_setCore_self (k : CoreRef) (c : Core) : coreOf (setCore s k c) k = c := mget_mset_self _ _ _ _
theorem core_setCore_ne {k j : CoreRef} (c : Core) (h : coreIdx j ≠ coreIdx k) : coreOf (setCore s k c) j = coreOf s j := mget_mset_ne _ _ _ h
@[simp] theorem cluster_setCluster_self (k : ClusterRef) (c : Cluster) : cluster (setCluster s k c) k = c := mget_mset_self _ _ _ _
theorem cluster_setCluster_ne {k j : ClusterRef} (c : Cluster) (h : clIdx j ≠ clIdx k) : cluster (setCluster s k c) j = cluster s j :=
  mget_mset_ne _ _ _ h
@[simp] theorem ctr_setCtr_self (i : Nat) (c : Counter) : ctr (setCtr s i c) i = c := mget_mset_self _ _ _ _
theorem ctr_setCtr_ne {i j : Nat} (c : Counter) (h : j ≠ i) : ctr (setCtr s i c) j = ctr s j := mget_mset_ne _ _ _ h
@[simp] theorem port_setPort_self (n : Nat) (p : Port) : port (setPort s n p) n = p := mget_mset_self _ _ _ _
theorem port_setPort_ne {n m : Nat} (p : Port) (h : m ≠ n) : port (setPort s n p) m = port s m := mget_mset_ne _ _ _ h
@[simp] theorem traceOf_setTrace_self (i : Nat) (f : TraceFifo) : traceOf (setTrace s i f) i = f := mget_mset_self _ _ _ _

/-! ### x0 and the general registers (R88) -/

@[simp] theorem xRd_zero (c : Core) : xRd c 0 = 0 := rfl
@[simp] theorem xWr_zero (c : Core) (v : Word) : xWr c 0 v = c := rfl
theorem xRd_xWr_self (c : Core) {n : Nat} (v : Word) (h : n ≠ 0) : xRd (xWr c n v) n = v := by
  simp [xRd, xWr, h]
theorem xRd_xWr_ne (c : Core) {n m : Nat} (v : Word) (h : m ≠ n) : xRd (xWr c n v) m = xRd c m := by
  unfold xRd xWr
  split
  · rfl
  · split
    · rfl
    · exact mget_mset_ne _ _ _ h

end Sys2Proof.Laws
end

