-- ==== Sys2Proof/Laws/Frame.lean ====
section
/-! SUPPORT. What the shared operations leave unchanged: frames, for the components of the state and for its registers. -/

namespace Sys2Proof.Laws

open Sys2Proof.Machine Sys2Proof.Safety

theorem frame_refl (fs : List Field) (s : State) : Frame fs s s := fun f _ => by cases f <;> rfl

theorem frame_trans {fs : List Field} {s t u : State} (h : Frame fs s t) (k : Frame fs t u) : Frame fs s u := by
  intro f hf
  have a := h f hf
  have b := k f hf
  cases f <;> exact Eq.trans b a

theorem frame_mono {fs gs : List Field} {s t : State} (h : Frame fs s t) (hs : ∀ f ∈ fs, f ∈ gs) : Frame gs s t :=
  fun f hf => h f fun hm => hf (hs f hm)

theorem frame_ite {fs : List Field} {s t u : State} {c : Prop} [Decidable c] (h : Frame fs s t) (k : Frame fs s u) :
    Frame fs s (if c then t else u) := by split <;> assumption

theorem frame_foldl {α : Type} {fs : List Field} {s0 : State} {f : State → α → State} (l : List α) {s : State}
    (hf : ∀ t x, Frame fs s0 t → Frame fs s0 (f t x)) (h : Frame fs s0 s) : Frame fs s0 (l.foldl f s) := by
  induction l generalizing s with
  | nil => exact h
  | cons x l ih => exact ih (hf _ _ h)

theorem regFrame_refl (l : List (PageRef × Nat)) (s : State) : RegFrame l s s := fun _ _ _ => rfl

theorem regFrame_trans {l : List (PageRef × Nat)} {s t u : State} (h : RegFrame l s t) (k : RegFrame l t u) : RegFrame l s u :=
  fun o ho hb => (k o ho hb).trans (h o ho hb)

theorem regFrame_mono {l m : List (PageRef × Nat)} {s t : State} (h : RegFrame l s t) (hs : ∀ e ∈ l, e ∈ m) : RegFrame m s t :=
  fun o ho hb => h o (fun e he => ho e (hs e he)) hb

theorem regFrame_ite {l : List (PageRef × Nat)} {s t u : State} {c : Prop} [Decidable c] (h : RegFrame l s t) (k : RegFrame l s u) :
    RegFrame l s (if c then t else u) := by split <;> assumption

theorem regFrame_foldl {α : Type} {l : List (PageRef × Nat)} {s0 : State} {f : State → α → State} (xs : List α) {s : State}
    (hf : ∀ t x, RegFrame l s0 t → RegFrame l s0 (f t x)) (h : RegFrame l s0 s) : RegFrame l s0 (xs.foldl f s) := by
  induction xs generalizing s with
  | nil => exact h
  | cons x xs ih => exact ih (hf _ _ h)

/-- A register that is listed may be written. -/
theorem regFrame_wr {l : List (PageRef × Nat)} {s0 s : State} {p : PageRef} {o : Nat} {v : Word} (h : RegFrame l s0 s)
    (hm : (p, o) ∈ l) : RegFrame l s0 (wr s p o v) := by
  intro x hx hb
  have e : x ≠ pageBase p + o := hx _ hm
  show regRd (regWr s (pageBase p + o) v) x = _
  rw [regRd_regWr, if_neg e]
  exact h x hx hb

theorem regFrame_setFld {l : List (PageRef × Nat)} {s0 s : State} {p : PageRef} {o hi lo v : Nat} (h : RegFrame l s0 s)
    (hm : (p, o) ∈ l) : RegFrame l s0 (setFld s p o hi lo v) := regFrame_wr h hm

theorem regFrame_addReg {l : List (PageRef × Nat)} {s0 s : State} {p : PageRef} {o n : Nat} (h : RegFrame l s0 s)
    (hm : (p, o) ∈ l) : RegFrame l s0 (addReg s p o n) := regFrame_wr h hm

/-- A register of a bank page may be written. -/
theorem regFrame_wr_bank {l : List (PageRef × Nat)} {s0 s : State} {p : PageRef} {o : Nat} {v : Word} (h : RegFrame l s0 s)
    (hp : (∃ t, p = pgTctr t) ∨ (∃ d, p = pgDctr d)) (ho : o < 0x1000) : RegFrame l s0 (wr s p o v) := by
  intro x hx hb
  have e : x ≠ pageBase p + o := by
    intro e
    subst e
    apply hb
    rcases hp with ⟨t, rfl⟩ | ⟨d, rfl⟩
    · exact Or.inl ⟨t, Nat.le_add_right _ _, Nat.add_lt_add_left ho _⟩
    · exact Or.inr ⟨d, Nat.le_add_right _ _, Nat.add_lt_add_left ho _⟩
  show regRd (regWr s (pageBase p + o) v) x = _
  rw [regRd_regWr, if_neg e]
  exact h x hx hb

/-- A change of another component changes no register. -/
theorem regFrame_of_regs {l : List (PageRef × Nat)} {s0 s t : State} (h : RegFrame l s0 s) (hr : t.regs = s.regs) (hp : t.part = s.part) :
    RegFrame l s0 t := by
  intro o ho hb
  rw [← h o ho hb]
  unfold regRd
  rw [hr, hp]

/-! ### One component is set -/

section

variable {fs : List Field} {s0 s : State} (h : Frame fs s0 s)
include h

theorem frame_part {v} (hm : Field.part ∈ fs) : Frame fs s0 { s with part := v } := by
  intro f hf
  have a := h f hf
  cases f <;> first | exact a | exact absurd hm hf
theorem frame_now {v} (hm : Field.now ∈ fs) : Frame fs s0 { s with now := v } := by
  intro f hf
  have a := h f hf
  cases f <;> first | exact a | exact absurd hm hf
theorem frame_beacon {v} (hm : Field.beacon ∈ fs) : Frame fs s0 { s with beacon := v } := by
  intro f hf
  have a := h f hf
  cases f <;> first | exact a | exact absurd hm hf
theorem frame_regs {v} (hm : Field.regs ∈ fs) : Frame fs s0 { s with regs := v } := by
  intro f hf
  have a := h f hf
  cases f <;> first | exact a | exact absurd hm hf
theorem frame_slots {v} (hm : Field.slots ∈ fs) : Frame fs s0 { s with slots := v } := by
  intro f hf
  have a := h f hf
  cases f <;> first | exact a | exact absurd hm hf
theorem frame_tasks {v} (hm : Field.tasks ∈ fs) : Frame fs s0 { s with tasks := v } := by
  intro f hf
  have a := h f hf
  cases f <;> first | exact a | exact absurd hm hf
theorem frame_ctrs {v} (hm : Field.ctrs ∈ fs) : Frame fs s0 { s with ctrs := v } := by
  intro f hf
  have a := h f hf
  cases f <;> first | exact a | exact absurd hm hf
theorem frame_cores {v} (hm : Field.cores ∈ fs) : Frame fs s0 { s with cores := v } := by
  intro f hf
  have a := h f hf
  cases f <;> first | exact a | exact absurd hm hf
theorem frame_clusters {v} (hm : Field.clusters ∈ fs) : Frame fs s0 { s with clusters := v } := by
  intro f hf
  have a := h f hf
  cases f <;> first | exact a | exact absurd hm hf
theorem frame_mem {v} (hm : Field.mem ∈ fs) : Frame fs s0 { s with mem := v } := by
  intro f hf
  have a := h f hf
  cases f <;> first | exact a | exact absurd hm hf
theorem frame_granger {v} (hm : Field.granger ∈ fs) : Frame fs s0 { s with granger := v } := by
  intro f hf
  have a := h f hf
  cases f <;> first | exact a | exact absurd hm hf
theorem frame_streams {v} (hm : Field.streams ∈ fs) : Frame fs s0 { s with streams := v } := by
  intro f hf
  have a := h f hf
  cases f <;> first | exact a | exact absurd hm hf
theorem frame_dmas {v} (hm : Field.dmas ∈ fs) : Frame fs s0 { s with dmas := v } := by
  intro f hf
  have a := h f hf
  cases f <;> first | exact a | exact absurd hm hf
theorem frame_dmaNext {v} (hm : Field.dmaNext ∈ fs) : Frame fs s0 { s with dmaNext := v } := by
  intro f hf
  have a := h f hf
  cases f <;> first | exact a | exact absurd hm hf
theorem frame_net {v} (hm : Field.net ∈ fs) : Frame fs s0 { s with net := v } := by
  intro f hf
  have a := h f hf
  cases f <;> first | exact a | exact absurd hm hf
theorem frame_ports {v} (hm : Field.ports ∈ fs) : Frame fs s0 { s with ports := v } := by
  intro f hf
  have a := h f hf
  cases f <;> first | exact a | exact absurd hm hf
theorem frame_coll {v} (hm : Field.coll ∈ fs) : Frame fs s0 { s with coll := v } := by
  intro f hf
  have a := h f hf
  cases f <;> first | exact a | exact absurd hm hf
theorem frame_control {v} (hm : Field.control ∈ fs) : Frame fs s0 { s with control := v } := by
  intro f hf
  have a := h f hf
  cases f <;> first | exact a | exact absurd hm hf
theorem frame_step {v} (hm : Field.step ∈ fs) : Frame fs s0 { s with step := v } := by
  intro f hf
  have a := h f hf
  cases f <;> first | exact a | exact absurd hm hf
theorem frame_keeper {v} (hm : Field.keeper ∈ fs) : Frame fs s0 { s with keeper := v } := by
  intro f hf
  have a := h f hf
  cases f <;> first | exact a | exact absurd hm hf
theorem frame_power {v} (hm : Field.power ∈ fs) : Frame fs s0 { s with power := v } := by
  intro f hf
  have a := h f hf
  cases f <;> first | exact a | exact absurd hm hf
theorem frame_traces {v} (hm : Field.traces ∈ fs) : Frame fs s0 { s with traces := v } := by
  intro f hf
  have a := h f hf
  cases f <;> first | exact a | exact absurd hm hf
theorem frame_snaps {v} (hm : Field.snaps ∈ fs) : Frame fs s0 { s with snaps := v } := by
  intro f hf
  have a := h f hf
  cases f <;> first | exact a | exact absurd hm hf
theorem frame_commits {v} (hm : Field.commits ∈ fs) : Frame fs s0 { s with commits := v } := by
  intro f hf
  have a := h f hf
  cases f <;> first | exact a | exact absurd hm hf
theorem frame_out {v} (hm : Field.out ∈ fs) : Frame fs s0 { s with out := v } := by
  intro f hf
  have a := h f hf
  cases f <;> first | exact a | exact absurd hm hf
theorem frame_free {v} (hm : Field.free ∈ fs) : Frame fs s0 { s with free := v } := by
  intro f hf
  have a := h f hf
  cases f <;> first | exact a | exact absurd hm hf
theorem frame_pending {v} (hm : Field.pending ∈ fs) : Frame fs s0 { s with pending := v } := by
  intro f hf
  have a := h f hf
  cases f <;> first | exact a | exact absurd hm hf

end

section

variable {fs : List Field} {s0 s : State} (h : Frame fs s0 s)
include h

theorem frame_regWr {o : Nat} {v : Word} (hm : Field.regs ∈ fs) : Frame fs s0 (regWr s o v) := frame_regs h hm
theorem frame_wr {p : PageRef} {o : Nat} {v : Word} (hm : Field.regs ∈ fs) : Frame fs s0 (wr s p o v) := frame_regWr h hm
theorem frame_setFld {p : PageRef} {o hi lo v : Nat} (hm : Field.regs ∈ fs) : Frame fs s0 (setFld s p o hi lo v) := frame_wr h hm
theorem frame_addReg {p : PageRef} {o n : Nat} (hm : Field.regs ∈ fs) : Frame fs s0 (addReg s p o n) := frame_wr h hm
theorem frame_addFld {p : PageRef} {o hi lo n : Nat} (hm : Field.regs ∈ fs) : Frame fs s0 (addFld s p o hi lo n) := frame_setFld h hm
theorem frame_setCoreState {k : CoreRef} {v : Nat} (hm : Field.regs ∈ fs) : Frame fs s0 (setCoreState s k v) := frame_setFld h hm
theorem frame_setSlot {n : Nat} {v : Slot} (hm : Field.slots ∈ fs) : Frame fs s0 (setSlot s n v) := frame_slots h hm
theorem frame_setCore {k : CoreRef} {c : Core} (hm : Field.cores ∈ fs) : Frame fs s0 (setCore s k c) := frame_cores h hm
theorem frame_setCluster {k : ClusterRef} {c : Cluster} (hm : Field.clusters ∈ fs) : Frame fs s0 (setCluster s k c) := frame_clusters h hm
theorem frame_setCtr {i : Nat} {c : Counter} (hm : Field.ctrs ∈ fs) : Frame fs s0 (setCtr s i c) := frame_ctrs h hm
theorem frame_setTask {t : Task} (hm : Field.tasks ∈ fs) : Frame fs s0 (setTask s t) := frame_tasks h hm
theorem frame_setTrace {i : Nat} {f : TraceFifo} (hm : Field.traces ∈ fs) : Frame fs s0 (setTrace s i f) := frame_traces h hm
theorem frame_irq {v : Nat} (hm : Field.out ∈ fs) : Frame fs s0 (irq s v) := frame_out h hm
theorem frame_setPort {n : Nat} {p : Port} (hm : Field.ports ∈ fs) : Frame fs s0 (setPort s n p) := frame_ports h hm
theorem frame_reply {w : Word} (hm : Field.out ∈ fs) : Frame fs s0 (reply w s) := frame_out h hm

end

/-! ### Errors, events, trace records -/

theorem frame_logErr {fs : List Field} {s0 s : State} {p : PageRef} {b d : Nat} (h : Frame fs s0 s) (hr : Field.regs ∈ fs)
    (ho : Field.out ∈ fs) : Frame fs s0 (logErr p b d s) := by
  unfold logErr
  extract_lets stat s1 s2
  have h1 : Frame fs s0 s1 := frame_ite (frame_wr h hr) h
  clear_value s1
  have h2 : Frame fs s0 s2 := frame_wr h1 hr
  exact frame_ite h2 (frame_irq h2 ho)

theorem regFrame_logErr {l : List (PageRef × Nat)} {s0 s : State} {p : PageRef} {b d : Nat} (h : RegFrame l s0 s)
    (h1 : (p, 0x028) ∈ l) (h2 : (p, 0x038) ∈ l) : RegFrame l s0 (logErr p b d s) := by
  unfold logErr
  extract_lets stat s1 s2
  have k1 : RegFrame l s0 s1 := regFrame_ite (regFrame_wr h h2) h
  clear_value s1
  have k2 : RegFrame l s0 s2 := regFrame_wr k1 h1
  exact regFrame_ite k2 (regFrame_of_regs k2 rfl rfl)

theorem frame_ctrAdd {fs : List Field} {s0 s : State} {p : PageRef} {m n : Nat} (h : Frame fs s0 s) (hr : Field.regs ∈ fs) :
    Frame fs s0 (ctrAdd s p m n) := by
  unfold ctrAdd
  extract_lets v s1
  have h1 : Frame fs s0 s1 := frame_wr h hr
  exact frame_ite (frame_setFld h1 hr) h1

theorem frame_bankCount {fs : List Field} {s0 s : State} {b : Bool} {k p : PageRef} {c line n : Nat} (h : Frame fs s0 s)
    (hr : Field.regs ∈ fs) (ho : Field.out ∈ fs) : Frame fs s0 (bankCount b k c p line n s) :=
  frame_foldl _ (fun _ _ h => frame_ite (frame_ite (frame_ctrAdd h hr) (frame_logErr h hr ho)) h) h

theorem frame_countLine {fs : List Field} {s0 s : State} {p : PageRef} {line n : Nat} (h : Frame fs s0 s)
    (hr : Field.regs ∈ fs) (ho : Field.out ∈ fs) : Frame fs s0 (countLine s p line n) := by
  unfold countLine
  extract_lets s1
  have h1 : Frame fs s0 s1 := by
    show Frame fs s0 (match pageTile? p with | some t => _ | none => s)
    split
    · exact frame_bankCount h hr ho
    · exact h
  exact frame_foldl _ (fun _ _ h => frame_bankCount h hr ho) h1

/-- Counting an event changes registers and raised interrupts only. -/
theorem frame_event {fs : List Field} {s0 s : State} {p : PageRef} {code n : Nat} (h : Frame fs s0 s)
    (hr : Field.regs ∈ fs) (ho : Field.out ∈ fs) : Frame fs s0 (event p code n s) :=
  frame_ite h (frame_foldl _ (fun _ _ h => frame_ite (frame_countLine h hr ho) h) h)

/-- A bank page: the counters of a tile or of the device. -/
def BankPage (p : PageRef) : Prop := (∃ t, p = pgTctr t) ∨ (∃ d, p = pgDctr d)

theorem regFrame_logErr_bank {l : List (PageRef × Nat)} {s0 s : State} {p : PageRef} {b d : Nat} (h : RegFrame l s0 s)
    (hp : BankPage p) : RegFrame l s0 (logErr p b d s) := by
  unfold logErr
  extract_lets stat s1 s2
  have k1 : RegFrame l s0 s1 := regFrame_ite (regFrame_wr_bank h hp (by omega)) h
  clear_value s1
  have k2 : RegFrame l s0 s2 := regFrame_wr_bank k1 hp (by omega)
  exact regFrame_ite k2 (regFrame_of_regs k2 rfl rfl)

theorem regFrame_bankCount {l : List (PageRef × Nat)} {s0 s : State} {b : Bool} {k p : PageRef} {c line n : Nat} (h : RegFrame l s0 s)
    (hp : BankPage k) (hc : c ≤ 64) : RegFrame l s0 (bankCount b k c p line n s) := by
  unfold bankCount
  have key : ∀ xs : List Nat, (∀ m ∈ xs, m < 64) → ∀ {s}, RegFrame l s0 s → RegFrame l s0 (xs.foldl (fun s m =>
      if cfgSelects b (rd s k (0x200 + 8 * m)) p line then
        if (rd s k 0x010).bit 0 then ctrAdd s k m n else logErr k errState (0x200 + 8 * m) s
      else s) s) := by
    intro xs
    induction xs with
    | nil => intro _ s h; exact h
    | cons m xs ih =>
      intro hm s h
      have hm0 : m < 64 := hm m (List.mem_cons_self ..)
      refine ih (fun x hx => hm x (List.mem_cons_of_mem _ hx)) ?_
      refine regFrame_ite (regFrame_ite ?_ (regFrame_logErr_bank h hp)) h
      unfold ctrAdd
      extract_lets v s1
      have k1 : RegFrame l s0 s1 := regFrame_wr_bank h hp (by omega)
      exact regFrame_ite (regFrame_wr_bank k1 hp (by omega)) k1
  exact key _ (fun m hm => Nat.lt_of_lt_of_le (List.mem_range.1 hm) hc) h

theorem regFrame_countLine {l : List (PageRef × Nat)} {s0 s : State} {p : PageRef} {line n : Nat} (h : RegFrame l s0 s) :
    RegFrame l s0 (countLine s p line n) := by
  unfold countLine
  extract_lets s1
  have h1 : RegFrame l s0 s1 := by
    show RegFrame l s0 (match pageTile? p with | some t => _ | none => s)
    split
    · exact regFrame_bankCount h (Or.inl ⟨_, rfl⟩) (by omega)
    · exact h
  exact regFrame_foldl _ (fun _ d h => regFrame_bankCount h (Or.inr ⟨d, rfl⟩) (by omega)) h1

/-- Counting an event changes no register outside the counters' pages. -/
theorem regFrame_event {l : List (PageRef × Nat)} {s0 s : State} {p : PageRef} {code n : Nat} (h : RegFrame l s0 s) :
    RegFrame l s0 (event p code n s) :=
  regFrame_ite h (regFrame_foldl _ (fun _ _ h => regFrame_ite (regFrame_countLine h) h) h)

theorem frame_tracePush {fs : List Field} {s0 s : State} {i : Nat} {r : List Word} (h : Frame fs s0 s)
    (hr : Field.regs ∈ fs) (ht : Field.traces ∈ fs) : Frame fs s0 (tracePush s i r) := by
  have high : ∀ {t}, Frame fs s0 t → Frame fs s0 (traceHigh t i) := by
    intro t k
    unfold traceHigh
    split
    · extract_lets p n s1
      have k1 : Frame fs s0 s1 := frame_setFld k hr
      exact frame_ite (frame_setFld k1 hr) k1
    · exact k
  unfold tracePush
  extract_lets f rs s1
  split
  · exact high (frame_setTrace h ht)
  · have k : Frame fs s0 s1 := frame_setTrace h ht
    clear_value s1
    unfold traceLose
    exact frame_ite (frame_addReg (frame_addReg k hr) hr) (frame_addReg k hr)

/-- A trace record changes the stream's FIFO and the trace registers only. -/
theorem frame_trace {fs : List Field} {s0 s : State} {i ty : Nat} {a b c : Word} (h : Frame fs s0 s)
    (hr : Field.regs ∈ fs) (ht : Field.traces ∈ fs) : Frame fs s0 (trace i ty a b c s) :=
  frame_ite (frame_tracePush h hr ht) h

/-! ### Readings after a change of other components -/

section

variable {fs : List Field} {s t : State} (h : Frame fs s t)
include h

theorem slot_of_frame (hn : Field.slots ∉ fs) (n : Nat) : slot t n = slot s n := by
  have e : t.slots = s.slots := h .slots hn
  unfold slot; rw [e]
theorem core_of_frame (hn : Field.cores ∉ fs) (k : CoreRef) : coreOf t k = coreOf s k := by
  have e : t.cores = s.cores := h .cores hn
  unfold coreOf coreI; rw [e]
theorem cluster_of_frame (hn : Field.clusters ∉ fs) (k : ClusterRef) : cluster t k = cluster s k := by
  have e : t.clusters = s.clusters := h .clusters hn
  unfold cluster; rw [e]
theorem ctr_of_frame (hn : Field.ctrs ∉ fs) (i : Nat) : ctr t i = ctr s i := by
  have e : t.ctrs = s.ctrs := h .ctrs hn
  unfold ctr; rw [e]
theorem port_of_frame (hn : Field.ports ∉ fs) (n : Nat) : port t n = port s n := by
  have e : t.ports = s.ports := h .ports hn
  unfold port; rw [e]
theorem regRd_of_frame (hn : Field.regs ∉ fs) (hp : Field.part ∉ fs) (o : Nat) : regRd t o = regRd s o := by
  have e : t.regs = s.regs := h .regs hn
  have e2 : t.part = s.part := h .part hp
  unfold regRd; rw [e, e2]
theorem rd_of_frame (hn : Field.regs ∉ fs) (hp : Field.part ∉ fs) (p : PageRef) (o : Nat) : rd t p o = rd s p o :=
  regRd_of_frame h hn hp _

end

end Sys2Proof.Laws
end

