-- ==== Sys2Proof/Laws/Keeps.lean ====
section
/-! SUPPORT. What every operation of the machine keeps. `Keeps fs s t` reads: from `s` to `t` no component of the state changes but those in
`fs`, memory keeps its canonical form, and the Beacon counter stays below 2^64. One lemma for each definition that gives a state, so that a
statement about any command is proved without unfolding the operations it calls: the lemma names the components that the definition may
change, and its last argument, that they are all in `fs`, is found where it is left out. -/

namespace Sys2Proof.Laws

set_option Elab.async false
open Sys2Proof.Machine Sys2Proof.Safety
/-- What an operation that changes at most the components `fs` keeps. -/
structure Keeps (fs : List Field) (s t : State) : Prop where
  frame : Frame fs s t
  mem : Memory.wf s.mem = true → Memory.wf t.mem = true
  time : s.now < 2 ^ 64 → t.now < 2 ^ 64
theorem keeps_refl (fs : List Field) (s : State) : Keeps fs s s := ⟨frame_refl _ _, id, id⟩
theorem keeps_trans {fs : List Field} {s t u : State} (h : Keeps fs s t) (k : Keeps fs t u) : Keeps fs s u :=
  ⟨frame_trans h.frame k.frame, fun w => k.mem (h.mem w), fun w => k.time (h.time w)⟩
theorem keeps_mono {fs gs : List Field} {s t : State} (h : Keeps fs s t) (hs : ∀ f ∈ fs, f ∈ gs) : Keeps gs s t :=
  ⟨frame_mono h.frame hs, h.mem, h.time⟩
theorem keeps_now {fs : List Field} {s0 s : State} {v_now} (h : Keeps fs s0 s) (ht : s.now < 2 ^ 64 → v_now < 2 ^ 64) 
    (hm : [.now] ⊆ fs := by first | assumption | (refine List.Subset.trans ?_ (by assumption); simp) | simp) : Keeps fs s0 { s with now := v_now } :=
  ⟨fun f hf => by have k := h.frame f hf; cases f <;> first | exact k | exact absurd (hm (by simp)) hf, h.mem, fun w => ht (h.time w)⟩
theorem keeps_beacon {fs : List Field} {s0 s : State} {v_beacon} (h : Keeps fs s0 s) 
    (hm : [.beacon] ⊆ fs := by first | assumption | (refine List.Subset.trans ?_ (by assumption); simp) | simp) : Keeps fs s0 { s with beacon := v_beacon } :=
  ⟨fun f hf => by have k := h.frame f hf; cases f <;> first | exact k | exact absurd (hm (by simp)) hf, h.mem, h.time⟩
theorem keeps_regs {fs : List Field} {s0 s : State} {v_regs} (h : Keeps fs s0 s) 
    (hm : [.regs] ⊆ fs := by first | assumption | (refine List.Subset.trans ?_ (by assumption); simp) | simp) : Keeps fs s0 { s with regs := v_regs } :=
  ⟨fun f hf => by have k := h.frame f hf; cases f <;> first | exact k | exact absurd (hm (by simp)) hf, h.mem, h.time⟩
theorem keeps_slots {fs : List Field} {s0 s : State} {v_slots} (h : Keeps fs s0 s) 
    (hm : [.slots] ⊆ fs := by first | assumption | (refine List.Subset.trans ?_ (by assumption); simp) | simp) : Keeps fs s0 { s with slots := v_slots } :=
  ⟨fun f hf => by have k := h.frame f hf; cases f <;> first | exact k | exact absurd (hm (by simp)) hf, h.mem, h.time⟩
theorem keeps_tasks {fs : List Field} {s0 s : State} {v_tasks} (h : Keeps fs s0 s) 
    (hm : [.tasks] ⊆ fs := by first | assumption | (refine List.Subset.trans ?_ (by assumption); simp) | simp) : Keeps fs s0 { s with tasks := v_tasks } :=
  ⟨fun f hf => by have k := h.frame f hf; cases f <;> first | exact k | exact absurd (hm (by simp)) hf, h.mem, h.time⟩
theorem keeps_ctrs {fs : List Field} {s0 s : State} {v_ctrs} (h : Keeps fs s0 s) 
    (hm : [.ctrs] ⊆ fs := by first | assumption | (refine List.Subset.trans ?_ (by assumption); simp) | simp) : Keeps fs s0 { s with ctrs := v_ctrs } :=
  ⟨fun f hf => by have k := h.frame f hf; cases f <;> first | exact k | exact absurd (hm (by simp)) hf, h.mem, h.time⟩
theorem keeps_cores {fs : List Field} {s0 s : State} {v_cores} (h : Keeps fs s0 s) 
    (hm : [.cores] ⊆ fs := by first | assumption | (refine List.Subset.trans ?_ (by assumption); simp) | simp) : Keeps fs s0 { s with cores := v_cores } :=
  ⟨fun f hf => by have k := h.frame f hf; cases f <;> first | exact k | exact absurd (hm (by simp)) hf, h.mem, h.time⟩
theorem keeps_clusters {fs : List Field} {s0 s : State} {v_clusters} (h : Keeps fs s0 s) 
    (hm : [.clusters] ⊆ fs := by first | assumption | (refine List.Subset.trans ?_ (by assumption); simp) | simp) : Keeps fs s0 { s with clusters := v_clusters } :=
  ⟨fun f hf => by have k := h.frame f hf; cases f <;> first | exact k | exact absurd (hm (by simp)) hf, h.mem, h.time⟩
theorem keeps_granger {fs : List Field} {s0 s : State} {v_granger} (h : Keeps fs s0 s) 
    (hm : [.granger] ⊆ fs := by first | assumption | (refine List.Subset.trans ?_ (by assumption); simp) | simp) : Keeps fs s0 { s with granger := v_granger } :=
  ⟨fun f hf => by have k := h.frame f hf; cases f <;> first | exact k | exact absurd (hm (by simp)) hf, h.mem, h.time⟩
theorem keeps_streams {fs : List Field} {s0 s : State} {v_streams} (h : Keeps fs s0 s) 
    (hm : [.streams] ⊆ fs := by first | assumption | (refine List.Subset.trans ?_ (by assumption); simp) | simp) : Keeps fs s0 { s with streams := v_streams } :=
  ⟨fun f hf => by have k := h.frame f hf; cases f <;> first | exact k | exact absurd (hm (by simp)) hf, h.mem, h.time⟩
theorem keeps_dmas {fs : List Field} {s0 s : State} {v_dmas} (h : Keeps fs s0 s) 
    (hm : [.dmas] ⊆ fs := by first | assumption | (refine List.Subset.trans ?_ (by assumption); simp) | simp) : Keeps fs s0 { s with dmas := v_dmas } :=
  ⟨fun f hf => by have k := h.frame f hf; cases f <;> first | exact k | exact absurd (hm (by simp)) hf, h.mem, h.time⟩
theorem keeps_dmaNext {fs : List Field} {s0 s : State} {v_dmaNext} (h : Keeps fs s0 s) 
    (hm : [.dmaNext] ⊆ fs := by first | assumption | (refine List.Subset.trans ?_ (by assumption); simp) | simp) : Keeps fs s0 { s with dmaNext := v_dmaNext } :=
  ⟨fun f hf => by have k := h.frame f hf; cases f <;> first | exact k | exact absurd (hm (by simp)) hf, h.mem, h.time⟩
theorem keeps_net {fs : List Field} {s0 s : State} {v_net} (h : Keeps fs s0 s) 
    (hm : [.net] ⊆ fs := by first | assumption | (refine List.Subset.trans ?_ (by assumption); simp) | simp) : Keeps fs s0 { s with net := v_net } :=
  ⟨fun f hf => by have k := h.frame f hf; cases f <;> first | exact k | exact absurd (hm (by simp)) hf, h.mem, h.time⟩
theorem keeps_ports {fs : List Field} {s0 s : State} {v_ports} (h : Keeps fs s0 s) 
    (hm : [.ports] ⊆ fs := by first | assumption | (refine List.Subset.trans ?_ (by assumption); simp) | simp) : Keeps fs s0 { s with ports := v_ports } :=
  ⟨fun f hf => by have k := h.frame f hf; cases f <;> first | exact k | exact absurd (hm (by simp)) hf, h.mem, h.time⟩
theorem keeps_coll {fs : List Field} {s0 s : State} {v_coll} (h : Keeps fs s0 s) 
    (hm : [.coll] ⊆ fs := by first | assumption | (refine List.Subset.trans ?_ (by assumption); simp) | simp) : Keeps fs s0 { s with coll := v_coll } :=
  ⟨fun f hf => by have k := h.frame f hf; cases f <;> first | exact k | exact absurd (hm (by simp)) hf, h.mem, h.time⟩
theorem keeps_control {fs : List Field} {s0 s : State} {v_control} (h : Keeps fs s0 s) 
    (hm : [.control] ⊆ fs := by first | assumption | (refine List.Subset.trans ?_ (by assumption); simp) | simp) : Keeps fs s0 { s with control := v_control } :=
  ⟨fun f hf => by have k := h.frame f hf; cases f <;> first | exact k | exact absurd (hm (by simp)) hf, h.mem, h.time⟩
theorem keeps_step {fs : List Field} {s0 s : State} {v_step} (h : Keeps fs s0 s) 
    (hm : [.step] ⊆ fs := by first | assumption | (refine List.Subset.trans ?_ (by assumption); simp) | simp) : Keeps fs s0 { s with step := v_step } :=
  ⟨fun f hf => by have k := h.frame f hf; cases f <;> first | exact k | exact absurd (hm (by simp)) hf, h.mem, h.time⟩
theorem keeps_keeper {fs : List Field} {s0 s : State} {v_keeper} (h : Keeps fs s0 s) 
    (hm : [.keeper] ⊆ fs := by first | assumption | (refine List.Subset.trans ?_ (by assumption); simp) | simp) : Keeps fs s0 { s with keeper := v_keeper } :=
  ⟨fun f hf => by have k := h.frame f hf; cases f <;> first | exact k | exact absurd (hm (by simp)) hf, h.mem, h.time⟩
theorem keeps_power {fs : List Field} {s0 s : State} {v_power} (h : Keeps fs s0 s) 
    (hm : [.power] ⊆ fs := by first | assumption | (refine List.Subset.trans ?_ (by assumption); simp) | simp) : Keeps fs s0 { s with power := v_power } :=
  ⟨fun f hf => by have k := h.frame f hf; cases f <;> first | exact k | exact absurd (hm (by simp)) hf, h.mem, h.time⟩
theorem keeps_traces {fs : List Field} {s0 s : State} {v_traces} (h : Keeps fs s0 s) 
    (hm : [.traces] ⊆ fs := by first | assumption | (refine List.Subset.trans ?_ (by assumption); simp) | simp) : Keeps fs s0 { s with traces := v_traces } :=
  ⟨fun f hf => by have k := h.frame f hf; cases f <;> first | exact k | exact absurd (hm (by simp)) hf, h.mem, h.time⟩
theorem keeps_snaps {fs : List Field} {s0 s : State} {v_snaps} (h : Keeps fs s0 s) 
    (hm : [.snaps] ⊆ fs := by first | assumption | (refine List.Subset.trans ?_ (by assumption); simp) | simp) : Keeps fs s0 { s with snaps := v_snaps } :=
  ⟨fun f hf => by have k := h.frame f hf; cases f <;> first | exact k | exact absurd (hm (by simp)) hf, h.mem, h.time⟩
theorem keeps_commits {fs : List Field} {s0 s : State} {v_commits} (h : Keeps fs s0 s) 
    (hm : [.commits] ⊆ fs := by first | assumption | (refine List.Subset.trans ?_ (by assumption); simp) | simp) : Keeps fs s0 { s with commits := v_commits } :=
  ⟨fun f hf => by have k := h.frame f hf; cases f <;> first | exact k | exact absurd (hm (by simp)) hf, h.mem, h.time⟩
theorem keeps_out {fs : List Field} {s0 s : State} {v_out} (h : Keeps fs s0 s) 
    (hm : [.out] ⊆ fs := by first | assumption | (refine List.Subset.trans ?_ (by assumption); simp) | simp) : Keeps fs s0 { s with out := v_out } :=
  ⟨fun f hf => by have k := h.frame f hf; cases f <;> first | exact k | exact absurd (hm (by simp)) hf, h.mem, h.time⟩
theorem keeps_free {fs : List Field} {s0 s : State} {v_free} (h : Keeps fs s0 s) 
    (hm : [.free] ⊆ fs := by first | assumption | (refine List.Subset.trans ?_ (by assumption); simp) | simp) : Keeps fs s0 { s with free := v_free } :=
  ⟨fun f hf => by have k := h.frame f hf; cases f <;> first | exact k | exact absurd (hm (by simp)) hf, h.mem, h.time⟩
theorem keeps_regs_keeper {fs : List Field} {s0 s : State} {v_regs v_keeper} (h : Keeps fs s0 s) 
    (hm : [.regs, .keeper] ⊆ fs := by first | assumption | (refine List.Subset.trans ?_ (by assumption); simp) | simp) : Keeps fs s0 { s with regs := v_regs, keeper := v_keeper } :=
  ⟨fun f hf => by have k := h.frame f hf; cases f <;> first | exact k | exact absurd (hm (by simp)) hf, h.mem, h.time⟩
theorem keeps_keeper_out {fs : List Field} {s0 s : State} {v_keeper v_out} (h : Keeps fs s0 s) 
    (hm : [.keeper, .out] ⊆ fs := by first | assumption | (refine List.Subset.trans ?_ (by assumption); simp) | simp) : Keeps fs s0 { s with keeper := v_keeper, out := v_out } :=
  ⟨fun f hf => by have k := h.frame f hf; cases f <;> first | exact k | exact absurd (hm (by simp)) hf, h.mem, h.time⟩
theorem keeps_granger_step {fs : List Field} {s0 s : State} {v_granger v_step} (h : Keeps fs s0 s) 
    (hm : [.granger, .step] ⊆ fs := by first | assumption | (refine List.Subset.trans ?_ (by assumption); simp) | simp) : Keeps fs s0 { s with granger := v_granger, step := v_step } :=
  ⟨fun f hf => by have k := h.frame f hf; cases f <;> first | exact k | exact absurd (hm (by simp)) hf, h.mem, h.time⟩
theorem keeps_granger_power {fs : List Field} {s0 s : State} {v_granger v_power} (h : Keeps fs s0 s) 
    (hm : [.granger, .power] ⊆ fs := by first | assumption | (refine List.Subset.trans ?_ (by assumption); simp) | simp) : Keeps fs s0 { s with granger := v_granger, power := v_power } :=
  ⟨fun f hf => by have k := h.frame f hf; cases f <;> first | exact k | exact absurd (hm (by simp)) hf, h.mem, h.time⟩
theorem keeps_coll_step {fs : List Field} {s0 s : State} {v_coll v_step} (h : Keeps fs s0 s) 
    (hm : [.coll, .step] ⊆ fs := by first | assumption | (refine List.Subset.trans ?_ (by assumption); simp) | simp) : Keeps fs s0 { s with coll := v_coll, step := v_step } :=
  ⟨fun f hf => by have k := h.frame f hf; cases f <;> first | exact k | exact absurd (hm (by simp)) hf, h.mem, h.time⟩
theorem keeps_now_beacon {fs : List Field} {s0 s : State} {v_now v_beacon} (h : Keeps fs s0 s) (ht : s.now < 2 ^ 64 → v_now < 2 ^ 64) 
    (hm : [.now, .beacon] ⊆ fs := by first | assumption | (refine List.Subset.trans ?_ (by assumption); simp) | simp) : Keeps fs s0 { s with now := v_now, beacon := v_beacon } :=
  ⟨fun f hf => by have k := h.frame f hf; cases f <;> first | exact k | exact absurd (hm (by simp)) hf, h.mem, fun w => ht (h.time w)⟩
theorem keeps_tasks_granger {fs : List Field} {s0 s : State} {v_tasks v_granger} (h : Keeps fs s0 s) 
    (hm : [.tasks, .granger] ⊆ fs := by first | assumption | (refine List.Subset.trans ?_ (by assumption); simp) | simp) : Keeps fs s0 { s with tasks := v_tasks, granger := v_granger } :=
  ⟨fun f hf => by have k := h.frame f hf; cases f <;> first | exact k | exact absurd (hm (by simp)) hf, h.mem, h.time⟩
theorem keeps_beacon_out {fs : List Field} {s0 s : State} {v_beacon v_out} (h : Keeps fs s0 s) 
    (hm : [.beacon, .out] ⊆ fs := by first | assumption | (refine List.Subset.trans ?_ (by assumption); simp) | simp) : Keeps fs s0 { s with beacon := v_beacon, out := v_out } :=
  ⟨fun f hf => by have k := h.frame f hf; cases f <;> first | exact k | exact absurd (hm (by simp)) hf, h.mem, h.time⟩
theorem keeps_beacon_free {fs : List Field} {s0 s : State} {v_beacon v_free} (h : Keeps fs s0 s) 
    (hm : [.beacon, .free] ⊆ fs := by first | assumption | (refine List.Subset.trans ?_ (by assumption); simp) | simp) : Keeps fs s0 { s with beacon := v_beacon, free := v_free } :=
  ⟨fun f hf => by have k := h.frame f hf; cases f <;> first | exact k | exact absurd (hm (by simp)) hf, h.mem, h.time⟩
theorem keeps_memrest {fs : List Field} {s0 s : State} {m1 m2 m3 m4 m5 m6 m7 m8 m9 m10 m11 m12} (h : Keeps fs s0 s)
    (hm : [.mem] ⊆ fs := by first | assumption | (refine List.Subset.trans ?_ (by assumption); simp) | simp) :
    Keeps fs s0 { s with mem := ⟨s.mem.bytes, s.mem.shadowBytes, m1, m2, m3, m4, m5, s.mem.windowBytes, m6, m7, m8, m9, m10, m11, m12⟩ } :=
  ⟨fun f hf => by have k := h.frame f hf; cases f <;> first | exact k | exact absurd (hm (by simp)) hf, h.mem, h.time⟩
theorem keeps_memrest_granger {fs : List Field} {s0 s : State} {m1 m2 m3 m4 m5 m6 m7 m8 m9 m10 m11 m12 v_granger} (h : Keeps fs s0 s)
    (hm : [.mem, .granger] ⊆ fs := by first | assumption | (refine List.Subset.trans ?_ (by assumption); simp) | simp) :
    Keeps fs s0 { s with mem := ⟨s.mem.bytes, s.mem.shadowBytes, m1, m2, m3, m4, m5, s.mem.windowBytes, m6, m7, m8, m9, m10, m11, m12⟩, granger := v_granger } :=
  ⟨fun f hf => by have k := h.frame f hf; cases f <;> first | exact k | exact absurd (hm (by simp)) hf, h.mem, h.time⟩
theorem keeps_memrest_out {fs : List Field} {s0 s : State} {m1 m2 m3 m4 m5 m6 m7 m8 m9 m10 m11 m12 v_out} (h : Keeps fs s0 s)
    (hm : [.mem, .out] ⊆ fs := by first | assumption | (refine List.Subset.trans ?_ (by assumption); simp) | simp) :
    Keeps fs s0 { s with mem := ⟨s.mem.bytes, s.mem.shadowBytes, m1, m2, m3, m4, m5, s.mem.windowBytes, m6, m7, m8, m9, m10, m11, m12⟩, out := v_out } :=
  ⟨fun f hf => by have k := h.frame f hf; cases f <;> first | exact k | exact absurd (hm (by simp)) hf, h.mem, h.time⟩
theorem cellsWf_cellsSet {m : List Host.Cell} (v : List Byte) (a : Nat) (h : cellsWf m = true) : cellsWf (cellsSet m a v) = true := by
  induction v generalizing m a with
  | nil => exact h
  | cons x t ih => exact ih _ (mapWf_mset _ _ _ h)
theorem keeps_mem {fs : List Field} {s0 s : State} {m : Mem} (h : Keeps fs s0 s) (hw : Memory.wf s.mem = true → Memory.wf m = true)
    (hm : [.mem] ⊆ fs := by first | assumption | (refine List.Subset.trans ?_ (by assumption); simp) | simp) : Keeps fs s0 { s with mem := m } :=
  ⟨fun f hf => by have k := h.frame f hf; cases f <;> first | exact k | exact absurd (hm (by simp)) hf, fun w => hw (h.mem w), h.time⟩
theorem each_keeps {α : Type} {fs : List Field} {s0 s : State} {f : State → α → State × List Todo} {l : List α}
   (hf : ∀ t x, Keeps fs s0 t → Keeps fs s0 (f t x).1) (h : Keeps fs s0 s) : Keeps fs s0 (each f l s).1 := by
  induction l generalizing s with
  | nil => exact h
  | cons x l ih => exact ih (hf _ _ h)
theorem keeps_ite {fs : List Field} {s0 : State} {c : Prop} [Decidable c] {a b : State} (ha : Keeps fs s0 a) (hb : Keeps fs s0 b) : Keeps fs s0 (if c then a else b) := by
  split <;> assumption
theorem keeps_foldl {α} {fs : List Field} {s0 : State} {f : State → α → State} {l : List α} {s : State} 
   (hf : ∀ t x, Keeps fs s0 t → Keeps fs s0 (f t x)) (h : Keeps fs s0 s) : Keeps fs s0 (l.foldl f s) := by
  induction l generalizing s with
  | nil => exact h
  | cons x l ih => exact ih (hf _ _ h)
theorem keeps_foldl_snd {α β} {fs : List Field} {s0 : State} {f : β × State → α → β × State} {l : List α} {s : β × State}
   (hf : ∀ t x, Keeps fs s0 t.2 → Keeps fs s0 (f t x).2) (h : Keeps fs s0 s.2) : Keeps fs s0 (l.foldl f s).2 := by
  induction l generalizing s with
  | nil => exact h
  | cons x l ih => exact ih (hf _ _ h)
theorem cellsWf_foldl_set (l : List Host.Cell) {m : List Host.Cell} (h : cellsWf m = true) :
    cellsWf (l.foldl (fun m e => cellSet m e.1 e.2) m) = true := by
  induction l generalizing m with
  | nil => exact h
  | cons e l ih => exact ih (mapWf_mset _ _ _ h)
theorem cellsWf_dropCopyBytes {m : List Host.Cell} (n : Nat) (h : cellsWf m = true) : cellsWf (dropCopyBytes m n) = true := mapWf_filter _ _ h
theorem cellsWf_takeCopyBytes {s : State} {n : Nat} (_ : cellsWf s.mem.bytes = true) (h : cellsWf s.mem.windowBytes = true) : cellsWf (takeCopyBytes s n) = true :=
  cellsWf_foldl_set _ (cellsWf_dropCopyBytes n h)
theorem cellsWf_dropCopyBytes_foldl (l : List WindowCopy) {m : List Host.Cell} (h : cellsWf m = true) :
    cellsWf (l.foldl (fun m c => dropCopyBytes m c.bushel) m) = true := by
  induction l generalizing m with
  | nil => exact h
  | cons e l ih => exact ih (cellsWf_dropCopyBytes _ h)
/-- `Keeps` for an outcome: of the state that it carries. -/
def KeepsO (fs : List Field) (s0 : State) (o : Out') : Prop := ∀ t, o = .next t → Keeps fs s0 t
theorem keepsO_next {fs : List Field} {s0 t : State} (h : Keeps fs s0 t) : KeepsO fs s0 (.next t) := fun _ e => by cases e; exact h
theorem keepsO_refused {fs : List Field} {s0 : State} {r} : KeepsO fs s0 (.refused r) := fun _ e => by cases e
theorem keepsO_ite {fs : List Field} {s0 : State} {c : Prop} [Decidable c] {a b : Out'} (ha : KeepsO fs s0 a) (hb : KeepsO fs s0 b) : KeepsO fs s0 (if c then a else b) := by
  split <;> assumption
/-- `Keeps` for the result of an instruction: of the state that it carries. -/
def KeepsI (fs : List Field) (s0 : State) : IRes → Prop
  | .ok t => Keeps fs s0 t
  | .jump t _ => Keeps fs s0 t
  | .trap t _ _ _ _ => Keeps fs s0 t
  | .stall t => Keeps fs s0 t
  | .defer t _ => Keeps fs s0 t
theorem keepsI_ok {fs : List Field} {s0 t} (h : Keeps fs s0 t) : KeepsI fs s0 (.ok t) := h
theorem keepsI_jump {fs : List Field} {s0 t p} (h : Keeps fs s0 t) : KeepsI fs s0 (.jump t p) := h
theorem keepsI_trap {fs : List Field} {s0 t a b c d} (h : Keeps fs s0 t) : KeepsI fs s0 (.trap t a b c d) := h
theorem keepsI_stall {fs : List Field} {s0 t} (h : Keeps fs s0 t) : KeepsI fs s0 (.stall t) := h
theorem keepsI_defer {fs : List Field} {s0 t c} (h : Keeps fs s0 t) : KeepsI fs s0 (.defer t c) := h
theorem keepsI_ite {fs : List Field} {s0 : State} {c : Prop} [Decidable c] {a b : IRes} (ha : KeepsI fs s0 a) (hb : KeepsI fs s0 b) : KeepsI fs s0 (if c then a else b) := by
  split <;> assumption
/-- `Keeps` for the result of a store: of the state that it carries. -/
def KeepsS (fs : List Field) (s0 : State) : StoreRes → Prop
  | .done t => Keeps fs s0 t
  | _ => True
theorem keepsS_done {fs : List Field} {s0 t} (h : Keeps fs s0 t) : KeepsS fs s0 (.done t) := h
theorem keepsS_fault {fs : List Field} {s0} : KeepsS fs s0 .fault := trivial
theorem keepsS_ite {fs : List Field} {s0 : State} {c : Prop} [Decidable c] {a b : StoreRes} (ha : KeepsS fs s0 a) (hb : KeepsS fs s0 b) : KeepsS fs s0 (if c then a else b) := by
  split <;> assumption
/-- `Keeps` for the result of a load: of the state that it carries. -/
def KeepsL (fs : List Field) (s0 : State) : LoadRes → Prop
  | .value _ t => Keeps fs s0 t
  | .blocks t => Keeps fs s0 t
theorem keepsL_value {fs : List Field} {s0 t w} (h : Keeps fs s0 t) : KeepsL fs s0 (.value w t) := h
theorem keepsL_blocks {fs : List Field} {s0 t} (h : Keeps fs s0 t) : KeepsL fs s0 (.blocks t) := h
theorem keepsL_ite {fs : List Field} {s0 : State} {c : Prop} [Decidable c] {a b : LoadRes} (ha : KeepsL fs s0 a) (hb : KeepsL fs s0 b) : KeepsL fs s0 (if c then a else b) := by
  split <;> assumption
/-- `Keeps` for the result of a Row Engine row: of the state that it carries. -/
def KeepsR (fs : List Field) (s0 : State) : RowRes → Prop
  | .ok t => Keeps fs s0 t
  | .ecc _ t => Keeps fs s0 t
theorem keepsR_ok {fs : List Field} {s0 t} (h : Keeps fs s0 t) : KeepsR fs s0 (.ok t) := h
theorem keepsR_ecc {fs : List Field} {s0 t l} (h : Keeps fs s0 t) : KeepsR fs s0 (.ecc l t) := h
theorem keepsR_ite {fs : List Field} {s0 : State} {c : Prop} [Decidable c] {a b : RowRes} (ha : KeepsR fs s0 a) (hb : KeepsR fs s0 b) : KeepsR fs s0 (if c then a else b) := by
  split <;> assumption
/-- `Keeps` for a placement: of the state that it carries. -/
def KeepsP (fs : List Field) (s0 : State) : Placing → Prop
  | .placed t _ _ => Keeps fs s0 t
  | _ => True
theorem keepsP_placed {fs : List Field} {s0 t p b} (h : Keeps fs s0 t) : KeepsP fs s0 (.placed t p b) := h
theorem keepsP_refused {fs : List Field} {s0 e} : KeepsP fs s0 (.refused e) := trivial
theorem keepsP_waits {fs : List Field} {s0} : KeepsP fs s0 .waits := trivial
theorem keepsP_ite {fs : List Field} {s0 : State} {c : Prop} [Decidable c] {a b : Placing} (ha : KeepsP fs s0 a) (hb : KeepsP fs s0 b) : KeepsP fs s0 (if c then a else b) := by
  split <;> assumption
theorem keeps_of_snd {α : Type} {fs : List Field} {s0 s : State} {p : α × State} {a : α} (h : p = (a, s)) (k : Keeps fs s0 p.2) : Keeps fs s0 s := by
  subst h; exact k
theorem keeps_of_fst {α : Type} {fs : List Field} {s0 s : State} {p : State × α} {a : α} (h : p = (s, a)) (k : Keeps fs s0 p.1) : Keeps fs s0 s := by
  subst h; exact k
theorem keeps_of_some {fs : List Field} {s0 s : State} {e : Option State} (h : e = some s) (k : ∀ x, e = some x → Keeps fs s0 x) : Keeps fs s0 s := k _ h
theorem keeps_of_some_snd {α : Type} {fs : List Field} {s0 s : State} {e : Option (α × State)} {a : α} (h : e = some (a, s)) (k : ∀ x, e = some x → Keeps fs s0 x.2) : Keeps fs s0 s := k _ h
theorem keeps_of_some_fst {α : Type} {fs : List Field} {s0 s : State} {e : Option (State × α)} {a : α} (h : e = some (s, a)) (k : ∀ x, e = some x → Keeps fs s0 x.1) : Keeps fs s0 s := k _ h
theorem keeps_of_some_snd2 {α β : Type} {fs : List Field} {s0 s : State} {e : Option (α × β × State)} {a : α} {b : β} (h : e = some (a, b, s)) (k : ∀ x, e = some x → Keeps fs s0 x.2.2) : Keeps fs s0 s := k _ h
theorem keeps_of_okE {ε : Type} {fs : List Field} {s0 s : State} {e : Except ε State} (h : e = .ok s) (k : ∀ x, e = .ok x → Keeps fs s0 x) : Keeps fs s0 s := k _ h
theorem keeps_of_okE_snd {ε α : Type} {fs : List Field} {s0 s : State} {e : Except ε (α × State)} {a : α} (h : e = .ok (a, s)) (k : ∀ x, e = .ok x → Keeps fs s0 x.2) : Keeps fs s0 s := k _ h
theorem keeps_of_okE_fst {ε α : Type} {fs : List Field} {s0 s : State} {e : Except ε (State × α)} {a : α} (h : e = .ok (s, a)) (k : ∀ x, e = .ok x → Keeps fs s0 x.1) : Keeps fs s0 s := k _ h
theorem keeps_of_okR {fs : List Field} {s0 s : State} {e : RowRes} (h : e = .ok s) (k : KeepsR fs s0 e) : Keeps fs s0 s := by subst h; exact k
theorem keeps_of_eccR {fs : List Field} {s0 s : State} {e : RowRes} {l : ReBad} (h : e = .ecc l s) (k : KeepsR fs s0 e) : Keeps fs s0 s := by subst h; exact k
theorem keeps_of_placed {fs : List Field} {s0 s : State} {e : Placing} {p : Plan} {b : Nat} (h : e = .placed s p b) (k : KeepsP fs s0 e) : Keeps fs s0 s := by subst h; exact k
theorem keeps_of_okI {fs : List Field} {s0 s : State} {e : IRes} (h : e = .ok s) (k : KeepsI fs s0 e) : Keeps fs s0 s := by subst h; exact k
theorem keeps_of_doneS {fs : List Field} {s0 s : State} {e : StoreRes} (h : e = .done s) (k : KeepsS fs s0 e) : Keeps fs s0 s := by subst h; exact k
theorem keeps_of_valueL {fs : List Field} {s0 s : State} {e : LoadRes} {w : Word} (h : e = .value w s) (k : KeepsL fs s0 e) : Keeps fs s0 s := by subst h; exact k
theorem keeps_of_blocksL {fs : List Field} {s0 s : State} {e : LoadRes} (h : e = .blocks s) (k : KeepsL fs s0 e) : Keeps fs s0 s := by subst h; exact k
theorem allOk_keeps {α β : Type} {P : β → Prop} {f : α → β → Except Refuse β} {l : List α} {b : β}
    (hf : ∀ a b, P b → ∀ x, f a b = .ok x → P x) (hb : P b) : ∀ x, allOk f l b = .ok x → P x := by
  induction l generalizing b with
  | nil => intro x e; cases e; exact hb
  | cons a l ih =>
    intro x e
    unfold allOk at e
    split at e
    · cases e
    · exact ih (hf _ _ hb _ ‹_›) x e
end Sys2Proof.Laws
end

