-- ==== Sys2Proof/Laws/KeepsOps.lean ====
section
/-! SUPPORT. What the operations keep (see Laws/Keeps.lean): the plumbing: registers, error log, interrupts, counters, memory. -/

namespace Sys2Proof.Laws

set_option Elab.async false

open Sys2Proof.Machine Sys2Proof.Safety

theorem regWr_keeps {fs : List Field} {s0 : State} {a1 : State} {a2 : Nat} {a3 : Word} (h1 : Keeps fs s0 a1) (hm : [.regs] ⊆ fs := by first | assumption | (refine List.Subset.trans ?_ (by assumption); simp) | simp) :
    Keeps fs s0 (regWr a1 a2 a3) := by
  simp only [List.cons_subset, List.nil_subset, and_true] at hm
  simp (maxDischargeDepth := 60) +contextual only [regWr, h1, List.cons_subset, hm, List.nil_subset, and_self, keeps_regs]
theorem wr_keeps {fs : List Field} {s0 : State} {a1 : State} {a2 : PageRef} {a3 : Nat} {a4 : Word} (h1 : Keeps fs s0 a1) (hm : [.regs] ⊆ fs := by first | assumption | (refine List.Subset.trans ?_ (by assumption); simp) | simp) :
    Keeps fs s0 (wr a1 a2 a3 a4) := by
  simp only [List.cons_subset, List.nil_subset, and_true] at hm
  simp (maxDischargeDepth := 60) +contextual only [wr, h1, List.cons_subset, hm, List.nil_subset, and_self, regWr_keeps]
theorem setFld_keeps {fs : List Field} {s0 : State} {a1 : State} {a2 : PageRef} {a3 : Nat} {a4 : Nat} {a5 : Nat} {a6 : Nat} (h1 : Keeps fs s0 a1) (hm : [.regs] ⊆ fs := by first | assumption | (refine List.Subset.trans ?_ (by assumption); simp) | simp) :
    Keeps fs s0 (setFld a1 a2 a3 a4 a5 a6) := by
  simp only [List.cons_subset, List.nil_subset, and_true] at hm
  simp (maxDischargeDepth := 60) +contextual only [setFld, h1, List.cons_subset, hm, List.nil_subset, and_self, wr_keeps]
theorem addFld_keeps {fs : List Field} {s0 : State} {a1 : State} {a2 : PageRef} {a3 : Nat} {a4 : Nat} {a5 : Nat} {a6 : Nat} (h1 : Keeps fs s0 a1) (hm : [.regs] ⊆ fs := by first | assumption | (refine List.Subset.trans ?_ (by assumption); simp) | simp) :
    Keeps fs s0 (addFld a1 a2 a3 a4 a5 a6) := by
  simp only [List.cons_subset, List.nil_subset, and_true] at hm
  simp (maxDischargeDepth := 60) +contextual only [addFld, h1, List.cons_subset, hm, List.nil_subset, and_self, setFld_keeps]
theorem addReg_keeps {fs : List Field} {s0 : State} {a1 : State} {a2 : PageRef} {a3 : Nat} {a4 : Nat} (h1 : Keeps fs s0 a1) (hm : [.regs] ⊆ fs := by first | assumption | (refine List.Subset.trans ?_ (by assumption); simp) | simp) :
    Keeps fs s0 (addReg a1 a2 a3 a4) := by
  simp only [List.cons_subset, List.nil_subset, and_true] at hm
  simp (maxDischargeDepth := 60) +contextual only [addReg, h1, List.cons_subset, hm, List.nil_subset, and_self, wr_keeps]
theorem atPage_keeps {fs : List Field} {s0 : State} {a1 : State} {a2 : PageRef} {a3 : (State → State)} (h1 : Keeps fs s0 a1) (h3 : ∀ y0, Keeps fs s0 y0 → Keeps fs s0 (a3 y0)) :
    KeepsO fs s0 (atPage a1 a2 a3) := by
  simp (maxDischargeDepth := 60) +contextual only [atPage, h1, h3, keepsO_next, keepsO_refused, keepsO_ite]
theorem atTile_keeps {fs : List Field} {s0 : State} {a1 : State} {a2 : Fin 8} {a3 : (State → State)} (h1 : Keeps fs s0 a1) (h3 : ∀ y0, Keeps fs s0 y0 → Keeps fs s0 (a3 y0)) :
    KeepsO fs s0 (atTile a1 a2 a3) := by
  simp (maxDischargeDepth := 60) +contextual only [atTile, h1, h3, keepsO_next, keepsO_refused, keepsO_ite]
theorem issuedBy_keeps {fs : List Field} {s0 : State} {a1 : State} {a2 : Requester} {a3 : (State → State)} (h1 : Keeps fs s0 a1) (h3 : ∀ y0, Keeps fs s0 y0 → Keeps fs s0 (a3 y0)) :
    Keeps fs s0 (issuedBy a1 a2 a3) := by
  simp (maxDischargeDepth := 60) +contextual only [issuedBy, h1, h3, keeps_ite]
theorem byAt_keeps {fs : List Field} {s0 : State} {a1 : State} {a2 : Requester} {a3 : Fin 8} {a4 : (State → State)} (h1 : Keeps fs s0 a1) (h4 : ∀ y0, Keeps fs s0 y0 → Keeps fs s0 (a4 y0)) :
    KeepsO fs s0 (byAt a1 a2 a3 a4) := by
  simp (maxDischargeDepth := 60) +contextual only [byAt, keepsO_refused, h1, h4, implies_true, issuedBy_keeps, atTile_keeps, keepsO_ite]
theorem byPage_keeps {fs : List Field} {s0 : State} {a1 : State} {a2 : Requester} {a3 : PageRef} {a4 : (State → State)} (h1 : Keeps fs s0 a1) (h4 : ∀ y0, Keeps fs s0 y0 → Keeps fs s0 (a4 y0)) :
    KeepsO fs s0 (byPage a1 a2 a3 a4) := by
  simp (maxDischargeDepth := 60) +contextual only [byPage, keepsO_refused, h1, h4, implies_true, issuedBy_keeps, atPage_keeps, keepsO_ite]
theorem byReq_keeps {fs : List Field} {s0 : State} {a1 : State} {a2 : Requester} {a3 : (State → State)} (h1 : Keeps fs s0 a1) (h3 : ∀ y0, Keeps fs s0 y0 → Keeps fs s0 (a3 y0)) :
    KeepsO fs s0 (byReq a1 a2 a3) := by
  simp (maxDischargeDepth := 60) +contextual only [byReq, keepsO_refused, h1, h3, implies_true, issuedBy_keeps, keepsO_next, keepsO_ite]
theorem choose_keeps {fs : List Field} {s0 : State} {a1 : State} {a2 : Nat} (h1 : Keeps fs s0 a1) (hm : [.free] ⊆ fs := by first | assumption | (refine List.Subset.trans ?_ (by assumption); simp) | simp) :
    Keeps fs s0 (choose a1 a2).2 := by
  simp only [List.cons_subset, List.nil_subset, and_true] at hm
  simp (maxDischargeDepth := 60) +contextual only [choose, h1, List.cons_subset, hm, List.nil_subset, and_self, keeps_free]
theorem freshNat_keeps {fs : List Field} {s0 : State} {a1 : State} (h1 : Keeps fs s0 a1) (hm : [.free] ⊆ fs := by first | assumption | (refine List.Subset.trans ?_ (by assumption); simp) | simp) :
    Keeps fs s0 (freshNat a1).2 := by
  simp only [List.cons_subset, List.nil_subset, and_true] at hm
  simp (maxDischargeDepth := 60) +contextual only [freshNat, h1, List.cons_subset, hm, List.nil_subset, and_self, keeps_free]
theorem setCluster_keeps {fs : List Field} {s0 : State} {a1 : State} {a2 : ClusterRef} {a3 : Cluster} (h1 : Keeps fs s0 a1) (hm : [.clusters] ⊆ fs := by first | assumption | (refine List.Subset.trans ?_ (by assumption); simp) | simp) :
    Keeps fs s0 (setCluster a1 a2 a3) := by
  simp only [List.cons_subset, List.nil_subset, and_true] at hm
  simp (maxDischargeDepth := 60) +contextual only [setCluster, h1, List.cons_subset, hm, List.nil_subset, and_self, keeps_clusters]
theorem setCore_keeps {fs : List Field} {s0 : State} {a1 : State} {a2 : CoreRef} {a3 : Core} (h1 : Keeps fs s0 a1) (hm : [.cores] ⊆ fs := by first | assumption | (refine List.Subset.trans ?_ (by assumption); simp) | simp) :
    Keeps fs s0 (setCore a1 a2 a3) := by
  simp only [List.cons_subset, List.nil_subset, and_true] at hm
  simp (maxDischargeDepth := 60) +contextual only [setCore, h1, List.cons_subset, hm, List.nil_subset, and_self, keeps_cores]
theorem setCoreState_keeps {fs : List Field} {s0 : State} {a1 : State} {a2 : CoreRef} {a3 : Nat} (h1 : Keeps fs s0 a1) (hm : [.regs] ⊆ fs := by first | assumption | (refine List.Subset.trans ?_ (by assumption); simp) | simp) :
    Keeps fs s0 (setCoreState a1 a2 a3) := by
  simp only [List.cons_subset, List.nil_subset, and_true] at hm
  simp (maxDischargeDepth := 60) +contextual only [setCoreState, h1, List.cons_subset, hm, List.nil_subset, and_self, setFld_keeps]
theorem setCtr_keeps {fs : List Field} {s0 : State} {a1 : State} {a2 : Nat} {a3 : Counter} (h1 : Keeps fs s0 a1) (hm : [.ctrs] ⊆ fs := by first | assumption | (refine List.Subset.trans ?_ (by assumption); simp) | simp) :
    Keeps fs s0 (setCtr a1 a2 a3) := by
  simp only [List.cons_subset, List.nil_subset, and_true] at hm
  simp (maxDischargeDepth := 60) +contextual only [setCtr, h1, List.cons_subset, hm, List.nil_subset, and_self, keeps_ctrs]
theorem setSlot_keeps {fs : List Field} {s0 : State} {a1 : State} {a2 : Nat} {a3 : Slot} (h1 : Keeps fs s0 a1) (hm : [.slots] ⊆ fs := by first | assumption | (refine List.Subset.trans ?_ (by assumption); simp) | simp) :
    Keeps fs s0 (setSlot a1 a2 a3) := by
  simp only [List.cons_subset, List.nil_subset, and_true] at hm
  simp (maxDischargeDepth := 60) +contextual only [setSlot, h1, List.cons_subset, hm, List.nil_subset, and_self, keeps_slots]
theorem setTask_keeps {fs : List Field} {s0 : State} {a1 : State} {a2 : Task} (h1 : Keeps fs s0 a1) (hm : [.tasks] ⊆ fs := by first | assumption | (refine List.Subset.trans ?_ (by assumption); simp) | simp) :
    Keeps fs s0 (setTask a1 a2) := by
  simp only [List.cons_subset, List.nil_subset, and_true] at hm
  simp (maxDischargeDepth := 60) +contextual only [setTask, h1, List.cons_subset, hm, List.nil_subset, and_self, keeps_tasks]
theorem irq_keeps {fs : List Field} {s0 : State} {a1 : State} {a2 : Nat} (h1 : Keeps fs s0 a1) (hm : [.out] ⊆ fs := by first | assumption | (refine List.Subset.trans ?_ (by assumption); simp) | simp) :
    Keeps fs s0 (irq a1 a2) := by
  simp only [List.cons_subset, List.nil_subset, and_true] at hm
  simp (maxDischargeDepth := 60) +contextual only [irq, h1, List.cons_subset, hm, List.nil_subset, and_self, keeps_out]
theorem logErr_keeps {fs : List Field} {s0 : State} {a1 : PageRef} {a2 : Nat} {a3 : Nat} {a4 : State} (h4 : Keeps fs s0 a4) (hm : [.regs, .out] ⊆ fs := by first | assumption | (refine List.Subset.trans ?_ (by assumption); simp) | simp) :
    Keeps fs s0 (logErr a1 a2 a3 a4) := by
  simp only [List.cons_subset, List.nil_subset, and_true] at hm
  simp (maxDischargeDepth := 60) +contextual only [logErr, h4, List.cons_subset, hm, List.nil_subset, and_self, wr_keeps, keeps_ite, irq_keeps]
theorem ctrAdd_keeps {fs : List Field} {s0 : State} {a1 : State} {a2 : PageRef} {a3 : Nat} {a4 : Nat} (h1 : Keeps fs s0 a1) (hm : [.regs] ⊆ fs := by first | assumption | (refine List.Subset.trans ?_ (by assumption); simp) | simp) :
    Keeps fs s0 (ctrAdd a1 a2 a3 a4) := by
  simp only [List.cons_subset, List.nil_subset, and_true] at hm
  simp (maxDischargeDepth := 60) +contextual only [ctrAdd, h1, List.cons_subset, hm, List.nil_subset, and_self, wr_keeps, setFld_keeps, keeps_ite]
theorem bankCount_keeps {fs : List Field} {s0 : State} {a1 : Bool} {a2 : PageRef} {a3 : Nat} {a4 : PageRef} {a5 : Nat} {a6 : Nat} {a7 : State} (h7 : Keeps fs s0 a7) (hm : [.regs, .out] ⊆ fs := by first | assumption | (refine List.Subset.trans ?_ (by assumption); simp) | simp) :
    Keeps fs s0 (bankCount a1 a2 a3 a4 a5 a6 a7) := by
  simp only [List.cons_subset, List.nil_subset, and_true] at hm
  simp (maxDischargeDepth := 60) +contextual only [bankCount, List.cons_subset, hm, List.nil_subset, and_self, ctrAdd_keeps, logErr_keeps, keeps_ite, implies_true, h7, keeps_foldl]
theorem countLine_keeps {fs : List Field} {s0 : State} {a1 : State} {a2 : PageRef} {a3 : Nat} {a4 : Nat} (h1 : Keeps fs s0 a1) (hm : [.regs, .out] ⊆ fs := by first | assumption | (refine List.Subset.trans ?_ (by assumption); simp) | simp) :
    Keeps fs s0 (countLine a1 a2 a3 a4) := by
  simp only [List.cons_subset, List.nil_subset, and_true] at hm
  simp (maxDischargeDepth := 60) +contextual only [countLine]
  repeat' (split <;> (try simp (maxDischargeDepth := 60) +contextual only [keeps_foldl, List.cons_subset, List.nil_subset, and_self, implies_true, bankCount_keeps, h1, hm]))
  all_goals (first | done | assumption)
theorem event_keeps {fs : List Field} {s0 : State} {a1 : PageRef} {a2 : Nat} {a3 : Nat} {a4 : State} (h4 : Keeps fs s0 a4) (hm : [.regs, .out] ⊆ fs := by first | assumption | (refine List.Subset.trans ?_ (by assumption); simp) | simp) :
    Keeps fs s0 (event a1 a2 a3 a4) := by
  simp only [List.cons_subset, List.nil_subset, and_true] at hm
  simp (maxDischargeDepth := 60) +contextual only [event, h4, List.cons_subset, hm, List.nil_subset, and_self, countLine_keeps, keeps_ite, implies_true, keeps_foldl]
theorem logIf_keeps {fs : List Field} {s0 : State} {a1 : Bool} {a2 : PageRef} {a3 : Nat} {a4 : Nat} {a5 : State} (h5 : Keeps fs s0 a5) (hm : [.regs, .out] ⊆ fs := by first | assumption | (refine List.Subset.trans ?_ (by assumption); simp) | simp) :
    Keeps fs s0 (logIf a1 a2 a3 a4 a5) := by
  simp only [List.cons_subset, List.nil_subset, and_true] at hm
  simp (maxDischargeDepth := 60) +contextual only [logIf, h5, List.cons_subset, hm, List.nil_subset, and_self, logErr_keeps, keeps_ite]
theorem setTrace_keeps {fs : List Field} {s0 : State} {a1 : State} {a2 : Nat} {a3 : TraceFifo} (h1 : Keeps fs s0 a1) (hm : [.traces] ⊆ fs := by first | assumption | (refine List.Subset.trans ?_ (by assumption); simp) | simp) :
    Keeps fs s0 (setTrace a1 a2 a3) := by
  simp only [List.cons_subset, List.nil_subset, and_true] at hm
  simp (maxDischargeDepth := 60) +contextual only [setTrace, h1, List.cons_subset, hm, List.nil_subset, and_self, keeps_traces]
theorem traceLose_keeps {fs : List Field} {s0 : State} {a1 : State} {a2 : Nat} {a3 : Nat} (h1 : Keeps fs s0 a1) (hm : [.regs] ⊆ fs := by first | assumption | (refine List.Subset.trans ?_ (by assumption); simp) | simp) :
    Keeps fs s0 (traceLose a1 a2 a3) := by
  simp only [List.cons_subset, List.nil_subset, and_true] at hm
  simp (maxDischargeDepth := 60) +contextual only [traceLose, h1, List.cons_subset, hm, List.nil_subset, and_self, addReg_keeps, keeps_ite]
theorem traceHigh_keeps {fs : List Field} {s0 : State} {a1 : State} {a2 : Nat} (h1 : Keeps fs s0 a1) (hm : [.regs] ⊆ fs := by first | assumption | (refine List.Subset.trans ?_ (by assumption); simp) | simp) :
    Keeps fs s0 (traceHigh a1 a2) := by
  simp only [List.cons_subset, List.nil_subset, and_true] at hm
  simp (maxDischargeDepth := 60) +contextual only [traceHigh, h1, List.cons_subset, hm, List.nil_subset, and_self, setFld_keeps, keeps_ite]
theorem tracePush_keeps {fs : List Field} {s0 : State} {a1 : State} {a2 : Nat} {a3 : List Word} (h1 : Keeps fs s0 a1) (hm : [.regs, .traces] ⊆ fs := by first | assumption | (refine List.Subset.trans ?_ (by assumption); simp) | simp) :
    Keeps fs s0 (tracePush a1 a2 a3) := by
  simp only [List.cons_subset, List.nil_subset, and_true] at hm
  simp (maxDischargeDepth := 60) +contextual only [tracePush, h1, List.cons_subset, hm, List.nil_subset, and_self, setTrace_keeps, traceHigh_keeps, traceLose_keeps, keeps_ite]
theorem trace_keeps {fs : List Field} {s0 : State} {a1 : Nat} {a2 : Nat} {a3 : Word} {a4 : Word} {a5 : Word} {a6 : State} (h6 : Keeps fs s0 a6) (hm : [.regs, .traces] ⊆ fs := by first | assumption | (refine List.Subset.trans ?_ (by assumption); simp) | simp) :
    Keeps fs s0 (trace a1 a2 a3 a4 a5 a6) := by
  simp only [List.cons_subset, List.nil_subset, and_true] at hm
  simp (maxDischargeDepth := 60) +contextual only [trace, h6, List.cons_subset, hm, List.nil_subset, and_self, tracePush_keeps, keeps_ite]
theorem traceEmpty_keeps {fs : List Field} {s0 : State} {a1 : State} {a2 : Nat} (h1 : Keeps fs s0 a1) (hm : [.regs, .traces] ⊆ fs := by first | assumption | (refine List.Subset.trans ?_ (by assumption); simp) | simp) :
    Keeps fs s0 (traceEmpty a1 a2) := by
  simp only [List.cons_subset, List.nil_subset, and_true] at hm
  simp (maxDischargeDepth := 60) +contextual only [traceEmpty, h1, List.cons_subset, hm, List.nil_subset, and_self, setTrace_keeps, traceHigh_keeps, traceLose_keeps, keeps_ite]
theorem noteChange_keeps {fs : List Field} {s0 : State} {a1 : List CoreRef} {a2 : State} (h2 : Keeps fs s0 a2) (hm : [.granger] ⊆ fs := by first | assumption | (refine List.Subset.trans ?_ (by assumption); simp) | simp) :
    Keeps fs s0 (noteChange a1 a2) := by
  simp only [List.cons_subset, List.nil_subset, and_true] at hm
  simp (maxDischargeDepth := 60) +contextual only [noteChange, h2, List.cons_subset, hm, List.nil_subset, and_self, keeps_granger]
theorem takeStack_keeps {fs : List Field} {s0 : State} {a1 : State} {a2 : Nat} (h1 : Keeps fs s0 a1) (hm : [.granger] ⊆ fs := by first | assumption | (refine List.Subset.trans ?_ (by assumption); simp) | simp) :
    Keeps fs s0 (takeStack a1 a2).2 := by
  simp only [List.cons_subset, List.nil_subset, and_true] at hm
  simp (maxDischargeDepth := 60) +contextual only [takeStack, h1, List.cons_subset, hm, List.nil_subset, and_self, keeps_granger]
theorem placeIn_keeps {fs : List Field} {s0 : State} {a1 : State} {a2 : Home} (h1 : Keeps fs s0 a1) (hm : [.granger] ⊆ fs := by first | assumption | (refine List.Subset.trans ?_ (by assumption); simp) | simp) :
    Keeps fs s0 (placeIn a1 a2).2 := by
  simp only [List.cons_subset, List.nil_subset, and_true] at hm
  simp (maxDischargeDepth := 60) +contextual only [placeIn]
  repeat' (split <;> (try simp (maxDischargeDepth := 60) +contextual only [List.cons_subset, List.nil_subset, and_self, takeStack_keeps, h1, hm]))
  all_goals (first | done | assumption)
theorem storeBushel_keeps {fs : List Field} {s0 : State} {a1 : Nat} {a2 : Bushel} {a3 : State} (h3 : Keeps fs s0 a3) (hm : [.free] ⊆ fs := by first | assumption | (refine List.Subset.trans ?_ (by assumption); simp) | simp) :
    Keeps fs s0 (storeBushel a1 a2 a3).2 := by
  simp only [List.cons_subset, List.nil_subset, and_true] at hm
  simp (maxDischargeDepth := 60) +contextual only [storeBushel, apply_ite Prod.snd, h3, List.cons_subset, hm, List.nil_subset, and_self, keeps_free, keeps_ite]
theorem countFlits_keeps {fs : List Field} {s0 : State} {a1 : Node} {a2 : Nat} {a3 : Nat} {a4 : State} (h4 : Keeps fs s0 a4) (hm : [.regs, .net, .out] ⊆ fs := by first | assumption | (refine List.Subset.trans ?_ (by assumption); simp) | simp) :
    Keeps fs s0 (countFlits a1 a2 a3 a4) := by
  simp only [List.cons_subset, List.nil_subset, and_true] at hm
  simp (maxDischargeDepth := 60) +contextual only [countFlits, h4, List.cons_subset, hm, List.nil_subset, and_self, keeps_net, event_keeps]
theorem countBridge_keeps {fs : List Field} {s0 : State} {a1 : Node} {a2 : Nat} {a3 : Nat} {a4 : State} (h4 : Keeps fs s0 a4) (hm : [.regs, .out] ⊆ fs := by first | assumption | (refine List.Subset.trans ?_ (by assumption); simp) | simp) :
    Keeps fs s0 (countBridge a1 a2 a3 a4) := by
  simp only [List.cons_subset, List.nil_subset, and_true] at hm
  simp (maxDischargeDepth := 60) +contextual only [countBridge]
  repeat' (split <;> (try simp (maxDischargeDepth := 60) +contextual only [List.cons_subset, List.nil_subset, and_self, addReg_keeps, event_keeps, h4, hm]))
  all_goals (first | done | assumption)
theorem carry_keeps {fs : List Field} {s0 : State} {a1 : Node} {a2 : Node} {a3 : State} (h3 : Keeps fs s0 a3) (hm : [.regs, .net, .out] ⊆ fs := by first | assumption | (refine List.Subset.trans ?_ (by assumption); simp) | simp) :
    Keeps fs s0 (carry a1 a2 a3) := by
  simp only [List.cons_subset, List.nil_subset, and_true] at hm
  simp (maxDischargeDepth := 60) +contextual only [carry, List.cons_subset, hm, List.nil_subset, and_self, countFlits_keeps, countBridge_keeps, implies_true, h3, keeps_foldl]
theorem dropReservations_keeps {fs : List Field} {s0 : State} {a1 : State} {a2 : List Nat} (h1 : Keeps fs s0 a1) (hm : [.cores] ⊆ fs := by first | assumption | (refine List.Subset.trans ?_ (by assumption); simp) | simp) :
    Keeps fs s0 (dropReservations a1 a2) := by
  simp only [List.cons_subset, List.nil_subset, and_true] at hm
  simp (maxDischargeDepth := 60) +contextual only [dropReservations, List.cons_subset, hm, List.nil_subset, and_self, keeps_cores, implies_true, h1, keeps_foldl]
theorem setBytes_keeps {fs : List Field} {s0 : State} {a1 : State} {a2 : Nat} {a3 : List Byte} (h1 : Keeps fs s0 a1) (hm : [.mem] ⊆ fs := by first | assumption | (refine List.Subset.trans ?_ (by assumption); simp) | simp) :
    Keeps fs s0 (setBytes a1 a2 a3) := by
  simp only [setBytes]
  refine keeps_mem h1 fun w => ?_
  simp only [Memory.wf, Bool.and_eq_true] at w ⊢
  exact ⟨⟨cellsWf_cellsSet _ _ w.1.1, w.1.2⟩, w.2⟩
theorem writeMem_keeps {fs : List Field} {s0 : State} {a1 : State} {a2 : Nat} {a3 : List Byte} (h1 : Keeps fs s0 a1) (hm : [.cores, .mem] ⊆ fs := by first | assumption | (refine List.Subset.trans ?_ (by assumption); simp) | simp) :
    Keeps fs s0 (writeMem a1 a2 a3) := by
  simp only [List.cons_subset, List.nil_subset, and_true] at hm
  simp (maxDischargeDepth := 60) +contextual only [writeMem, h1, List.cons_subset, hm, List.nil_subset, and_self, setBytes_keeps, keeps_memrest, dropReservations_keeps]
theorem wr64_keeps {fs : List Field} {s0 : State} {a1 : State} {a2 : Nat} {a3 : Word} (h1 : Keeps fs s0 a1) (hm : [.cores, .mem] ⊆ fs := by first | assumption | (refine List.Subset.trans ?_ (by assumption); simp) | simp) :
    Keeps fs s0 (wr64 a1 a2 a3) := by
  simp only [List.cons_subset, List.nil_subset, and_true] at hm
  simp (maxDischargeDepth := 60) +contextual only [wr64, h1, List.cons_subset, hm, List.nil_subset, and_self, writeMem_keeps]
theorem report_keeps {fs : List Field} {s0 : State} {a1 : Fin 8} {a2 : Nat} {a3 : Nat} {a4 : Nat} {a5 : Word} {a6 : Word} {a7 : State} (h7 : Keeps fs s0 a7) (hm : [.regs, .cores, .mem, .out] ⊆ fs := by first | assumption | (refine List.Subset.trans ?_ (by assumption); simp) | simp) :
    Keeps fs s0 (report a1 a2 a3 a4 a5 a6 a7) := by
  simp only [List.cons_subset, List.nil_subset, and_true] at hm
  simp (maxDischargeDepth := 60) +contextual only [report, h7, List.cons_subset, hm, List.nil_subset, and_self, setFld_keeps, wr64_keeps, logErr_keeps, keeps_ite]
theorem setBushel_keeps {fs : List Field} {s0 : State} {a1 : State} {a2 : Nat} {a3 : Bushel} (h1 : Keeps fs s0 a1) (hm : [.mem] ⊆ fs := by first | assumption | (refine List.Subset.trans ?_ (by assumption); simp) | simp) :
    Keeps fs s0 (setBushel a1 a2 a3) := by
  simp only [List.cons_subset, List.nil_subset, and_true] at hm
  simp (maxDischargeDepth := 60) +contextual only [setBushel, h1, List.cons_subset, hm, List.nil_subset, and_self, keeps_memrest]
theorem switchHome_keeps {fs : List Field} {s0 : State} {a1 : Nat} {a2 : Home} {a3 : Nat} {a4 : Nat} {a5 : Nat} {a6 : State} (h6 : Keeps fs s0 a6) (hm : [.regs, .cores, .mem, .out, .free] ⊆ fs := by first | assumption | (refine List.Subset.trans ?_ (by assumption); simp) | simp) :
    Keeps fs s0 (switchHome a1 a2 a3 a4 a5 a6) := by
  simp only [List.cons_subset, List.nil_subset, and_true] at hm
  simp (maxDischargeDepth := 60) +contextual only [switchHome]
  repeat' (split <;> (try simp (maxDischargeDepth := 60) +contextual only [List.cons_subset, List.nil_subset, and_self, report_keeps, addReg_keeps, setBushel_keeps, storeBushel_keeps, h6, hm]))
  all_goals (first | done | assumption)
theorem growInto_keeps {fs : List Field} {s0 : State} {a1 : Nat} {a2 : Home} {a3 : State} (h3 : Keeps fs s0 a3) (hm : [.regs, .cores, .mem, .granger, .out, .free] ⊆ fs := by first | assumption | (refine List.Subset.trans ?_ (by assumption); simp) | simp) :
    Keeps fs s0 (growInto a1 a2 a3) := by
  simp only [List.cons_subset, List.nil_subset, and_true] at hm
  simp (maxDischargeDepth := 60) +contextual only [growInto, h3, List.cons_subset, hm, List.nil_subset, and_self, placeIn_keeps, switchHome_keeps]
theorem growBushel_keeps {fs : List Field} {s0 : State} {a1 : State} {a2 : Nat} (h1 : Keeps fs s0 a1) (hm : [.regs, .cores, .mem, .granger, .out, .free] ⊆ fs := by first | assumption | (refine List.Subset.trans ?_ (by assumption); simp) | simp) :
    Keeps fs s0 (growBushel a1 a2) := by
  simp only [List.cons_subset, List.nil_subset, and_true] at hm
  simp (maxDischargeDepth := 60) +contextual only [growBushel]
  repeat' (split <;> (try simp (maxDischargeDepth := 60) +contextual only [keeps_ite, List.cons_subset, List.nil_subset, and_self, growInto_keeps, setBushel_keeps, h1, hm]))
  all_goals (first | done | assumption)
theorem countUe_keeps {fs : List Field} {s0 : State} {a1 : State} {a2 : Nat} (h1 : Keeps fs s0 a1) (hm : [.regs, .mem, .out] ⊆ fs := by first | assumption | (refine List.Subset.trans ?_ (by assumption); simp) | simp) :
    Keeps fs s0 (countUe a1 a2) := by
  simp only [List.cons_subset, List.nil_subset, and_true] at hm
  simp (maxDischargeDepth := 60) +contextual only [countUe]
  repeat' (split <;> (try simp (maxDischargeDepth := 60) +contextual only [keeps_ite, List.cons_subset, List.nil_subset, and_self, keeps_memrest, setFld_keeps, event_keeps, addReg_keeps, wr_keeps, logErr_keeps, h1, hm]))
  all_goals (first | done | assumption)
theorem poisonLine_keeps {fs : List Field} {s0 : State} {a1 : State} {a2 : Nat} (h1 : Keeps fs s0 a1) (hm : [.mem] ⊆ fs := by first | assumption | (refine List.Subset.trans ?_ (by assumption); simp) | simp) :
    Keeps fs s0 (poisonLine a1 a2) := by
  simp only [List.cons_subset, List.nil_subset, and_true] at hm
  simp (maxDischargeDepth := 60) +contextual only [poisonLine, h1, List.cons_subset, hm, List.nil_subset, and_self, keeps_memrest]
theorem takeInjection_keeps {fs : List Field} {s0 : State} {a1 : PageRef} {a2 : Nat} {a3 : State} (h3 : Keeps fs s0 a3) (hm : [.regs, .out] ⊆ fs := by first | assumption | (refine List.Subset.trans ?_ (by assumption); simp) | simp) :
    Keeps fs s0 (takeInjection a1 a2 a3) := by
  simp only [List.cons_subset, List.nil_subset, and_true] at hm
  simp (maxDischargeDepth := 60) +contextual only [takeInjection, h3, List.cons_subset, hm, List.nil_subset, and_self, setFld_keeps, logErr_keeps]
theorem writeStorage_keeps {fs : List Field} {s0 : State} {a1 : Bool} {a2 : Nat} {a3 : State} (h3 : Keeps fs s0 a3) (hm : [.regs, .mem, .out] ⊆ fs := by first | assumption | (refine List.Subset.trans ?_ (by assumption); simp) | simp) :
    Keeps fs s0 (writeStorage a1 a2 a3) := by
  simp only [List.cons_subset, List.nil_subset, and_true] at hm
  simp (maxDischargeDepth := 60) +contextual only [writeStorage]
  repeat' (split <;> (try simp (maxDischargeDepth := 60) +contextual only [keeps_ite, List.cons_subset, List.nil_subset, and_self, keeps_memrest, countUe_keeps, poisonLine_keeps, takeInjection_keeps, h3, hm]))
  all_goals (first | done | assumption)
theorem countMiss_keeps {fs : List Field} {s0 : State} {a1 : Nat} {a2 : State} {a3 : Nat} (h2 : Keeps fs s0 a2) (hm : [.regs, .out] ⊆ fs := by first | assumption | (refine List.Subset.trans ?_ (by assumption); simp) | simp) :
    Keeps fs s0 (countMiss a1 a2 a3) := by
  simp only [List.cons_subset, List.nil_subset, and_true] at hm
  simp (maxDischargeDepth := 60) +contextual only [countMiss]
  repeat' (split <;> (try simp (maxDischargeDepth := 60) +contextual only [keeps_ite, List.cons_subset, List.nil_subset, and_self, addReg_keeps, event_keeps, h2, hm]))
  all_goals (first | done | assumption)
theorem codeBlock_keeps {fs : List Field} {s0 : State} {a1 : Nat} {a2 : Nat} {a3 : State} (h3 : Keeps fs s0 a3) (hm : [.mem, .free] ⊆ fs := by first | assumption | (refine List.Subset.trans ?_ (by assumption); simp) | simp) :
    Keeps fs s0 (codeBlock a1 a2 a3) := by
  simp only [List.cons_subset, List.nil_subset, and_true] at hm
  simp (maxDischargeDepth := 60) +contextual only [codeBlock]
  repeat' (split <;> (try simp (maxDischargeDepth := 60) +contextual only [List.cons_subset, List.nil_subset, and_self, keeps_free, setBushel_keeps, h3, hm]))
  all_goals (first | done | assumption)
theorem winnow_keeps {fs : List Field} {s0 : State} {a1 : Bool} {a2 : Nat} {a3 : Nat} {a4 : State} (h4 : Keeps fs s0 a4) (hm : [.regs, .out] ⊆ fs := by first | assumption | (refine List.Subset.trans ?_ (by assumption); simp) | simp) :
    Keeps fs s0 (winnow a1 a2 a3 a4) := by
  simp only [List.cons_subset, List.nil_subset, and_true] at hm
  simp (maxDischargeDepth := 60) +contextual only [winnow, h4, List.cons_subset, hm, List.nil_subset, and_self, addReg_keeps, event_keeps, keeps_ite]
theorem correctedError_keeps {fs : List Field} {s0 : State} {a1 : PageRef} {a2 : Nat} {a3 : State} (h3 : Keeps fs s0 a3) (hm : [.regs, .out] ⊆ fs := by first | assumption | (refine List.Subset.trans ?_ (by assumption); simp) | simp) :
    Keeps fs s0 (correctedError a1 a2 a3) := by
  simp only [List.cons_subset, List.nil_subset, and_true] at hm
  simp (maxDischargeDepth := 60) +contextual only [correctedError]
  repeat' (split <;> (try simp (maxDischargeDepth := 60) +contextual only [List.cons_subset, List.nil_subset, and_self, addReg_keeps, event_keeps, logErr_keeps, h3, hm]))
  all_goals (first | done | assumption)
theorem readStorage_keeps {fs : List Field} {s0 : State} {a1 : PageRef} {a2 : Nat} {a3 : State} (h3 : Keeps fs s0 a3) (hm : [.regs, .out] ⊆ fs := by first | assumption | (refine List.Subset.trans ?_ (by assumption); simp) | simp) :
    Keeps fs s0 (readStorage a1 a2 a3) := by
  simp only [List.cons_subset, List.nil_subset, and_true] at hm
  simp (maxDischargeDepth := 60) +contextual only [readStorage, h3, List.cons_subset, hm, List.nil_subset, and_self, takeInjection_keeps, correctedError_keeps, keeps_ite]
theorem mcCount_keeps {fs : List Field} {s0 : State} {a1 : Bool} {a2 : PageRef} {a3 : Nat} {a4 : State} (h4 : Keeps fs s0 a4) (hm : [.regs, .out] ⊆ fs := by first | assumption | (refine List.Subset.trans ?_ (by assumption); simp) | simp) :
    Keeps fs s0 (mcCount a1 a2 a3 a4) := by
  simp only [List.cons_subset, List.nil_subset, and_true] at hm
  simp (maxDischargeDepth := 60) +contextual only [mcCount, h4, List.cons_subset, hm, List.nil_subset, and_self, addReg_keeps, event_keeps]
theorem codecBlock_keeps {fs : List Field} {s0 : State} {a1 : Bool} {a2 : Nat} {a3 : Nat} {a4 : Nat} {a5 : State} {a6 : Nat} (h5 : Keeps fs s0 a5) (hm : [.regs, .mem, .out, .free] ⊆ fs := by first | assumption | (refine List.Subset.trans ?_ (by assumption); simp) | simp) :
    Keeps fs s0 (codecBlock a1 a2 a3 a4 a5 a6) := by
  simp only [List.cons_subset, List.nil_subset, and_true] at hm
  simp (maxDischargeDepth := 60) +contextual only [codecBlock]
  repeat' (split <;> (try simp (maxDischargeDepth := 60) +contextual only [keeps_ite, List.cons_subset, List.nil_subset, and_self, event_keeps, codeBlock_keeps, winnow_keeps, readStorage_keeps, mcCount_keeps, h5, hm]))
  all_goals (first | done | assumption)
theorem heatLine_keeps {fs : List Field} {s0 : State} {a1 : Nat} {a2 : State} {a3 : Nat} (h2 : Keeps fs s0 a2) (hm : [.mem] ⊆ fs := by first | assumption | (refine List.Subset.trans ?_ (by assumption); simp) | simp) :
    Keeps fs s0 (heatLine a1 a2 a3) := by
  simp only [List.cons_subset, List.nil_subset, and_true] at hm
  simp (maxDischargeDepth := 60) +contextual only [heatLine]
  repeat' (split <;> (try simp (maxDischargeDepth := 60) +contextual only [keeps_ite, List.cons_subset, List.nil_subset, and_self, setBushel_keeps, h2, hm]))
  all_goals (first | done | assumption)
theorem rawLine_keeps {fs : List Field} {s0 : State} {a1 : Bool} {a2 : State} {a3 : Nat} (h2 : Keeps fs s0 a2) (hm : [.regs, .out] ⊆ fs := by first | assumption | (refine List.Subset.trans ?_ (by assumption); simp) | simp) :
    Keeps fs s0 (rawLine a1 a2 a3) := by
  simp only [List.cons_subset, List.nil_subset, and_true] at hm
  simp (maxDischargeDepth := 60) +contextual only [rawLine]
  repeat' (split <;> (try simp (maxDischargeDepth := 60) +contextual only [keeps_ite, List.cons_subset, List.nil_subset, and_self, readStorage_keeps, mcCount_keeps, h2, hm]))
  all_goals (first | done | assumption)
theorem homeTraffic_keeps {fs : List Field} {s0 : State} {a1 : Bool} {a2 : Nat} {a3 : Nat} {a4 : Nat} {a5 : State} (h5 : Keeps fs s0 a5) (hm : [.regs, .mem, .out, .free] ⊆ fs := by first | assumption | (refine List.Subset.trans ?_ (by assumption); simp) | simp) :
    Keeps fs s0 (homeTraffic a1 a2 a3 a4 a5) := by
  simp only [List.cons_subset, List.nil_subset, and_true] at hm
  simp (maxDischargeDepth := 60) +contextual only [homeTraffic, List.cons_subset, hm, List.nil_subset, and_self, codecBlock_keeps, keeps_ite, implies_true, heatLine_keeps, rawLine_keeps, h5, keeps_foldl]
theorem homeAccesses_keeps {fs : List Field} {s0 : State} {a1 : Bool} {a2 : Nat} {a3 : Nat} {a4 : Nat} {a5 : State} (h5 : Keeps fs s0 a5) (hm : [.regs, .mem, .out, .free] ⊆ fs := by first | assumption | (refine List.Subset.trans ?_ (by assumption); simp) | simp) :
    Keeps fs s0 (homeAccesses a1 a2 a3 a4 a5) := by
  simp only [List.cons_subset, List.nil_subset, and_true] at hm
  simp (maxDischargeDepth := 60) +contextual only [homeAccesses, h5, List.cons_subset, hm, List.nil_subset, and_self, homeTraffic_keeps, countMiss_keeps, implies_true, keeps_foldl, keeps_ite]
theorem storeHome_keeps {fs : List Field} {s0 : State} {a1 : Nat} {a2 : Nat} {a3 : List Byte} {a4 : State} (h4 : Keeps fs s0 a4) (hm : [.regs, .cores, .mem, .granger, .out, .free] ⊆ fs := by first | assumption | (refine List.Subset.trans ?_ (by assumption); simp) | simp) :
    Keeps fs s0 (storeHome a1 a2 a3 a4) := by
  simp only [List.cons_subset, List.nil_subset, and_true] at hm
  simp (maxDischargeDepth := 60) +contextual only [storeHome]
  repeat' (split <;> (try simp (maxDischargeDepth := 60) +contextual only [keeps_foldl, List.cons_subset, List.nil_subset, and_self, implies_true, growBushel_keeps, writeStorage_keeps, writeMem_keeps, homeAccesses_keeps, h4, hm]))
  all_goals (first | done | assumption)
theorem setBank_keeps {fs : List Field} {s0 : State} {a1 : State} {a2 : ClusterRef} {a3 : Nat} {a4 : Bank} (h1 : Keeps fs s0 a1) (hm : [.clusters] ⊆ fs := by first | assumption | (refine List.Subset.trans ?_ (by assumption); simp) | simp) :
    Keeps fs s0 (setBank a1 a2 a3 a4) := by
  simp only [List.cons_subset, List.nil_subset, and_true] at hm
  simp (maxDischargeDepth := 60) +contextual only [setBank, h1, List.cons_subset, hm, List.nil_subset, and_self, setCluster_keeps]
theorem dropResponses_keeps {fs : List Field} {s0 : State} {a1 : Nat} {a2 : (Nat → Bool)} {a3 : State} (h3 : Keeps fs s0 a3) (hm : [.net] ⊆ fs := by first | assumption | (refine List.Subset.trans ?_ (by assumption); simp) | simp) :
    Keeps fs s0 (dropResponses a1 a2 a3) := by
  simp only [List.cons_subset, List.nil_subset, and_true] at hm
  simp (maxDischargeDepth := 60) +contextual only [dropResponses, h3, List.cons_subset, hm, List.nil_subset, and_self, keeps_net]
theorem sendBack_keeps {fs : List Field} {s0 : State} {a1 : CoreRef} {a2 : Nat} {a3 : State} (h3 : Keeps fs s0 a3) (hm : [.regs, .clusters, .net, .out] ⊆ fs := by first | assumption | (refine List.Subset.trans ?_ (by assumption); simp) | simp) :
    Keeps fs s0 (sendBack a1 a2 a3) := by
  simp only [List.cons_subset, List.nil_subset, and_true] at hm
  simp (maxDischargeDepth := 60) +contextual only [sendBack]
  repeat' (split <;> (try simp (maxDischargeDepth := 60) +contextual only [keeps_ite, List.cons_subset, List.nil_subset, and_self, carry_keeps, setBank_keeps, dropResponses_keeps, h3, hm]))
  all_goals (first | done | assumption)
theorem shadowOpen_keeps {fs : List Field} {s0 : State} {a1 : State} {a2 : Nat} (h1 : Keeps fs s0 a1) (hm : [.mem] ⊆ fs := by first | assumption | (refine List.Subset.trans ?_ (by assumption); simp) | simp) :
    Keeps fs s0 (shadowOpen a1 a2) := by
  simp only [shadowOpen]
  split
  · exact h1
  · refine keeps_mem h1 fun w => ?_
    simp only [Memory.wf, Bool.and_eq_true] at w ⊢
    exact ⟨⟨w.1.1, cellsWf_cellsSet _ _ w.1.2⟩, w.2⟩
theorem shadowWrite_keeps {fs : List Field} {s0 : State} {a1 : State} {a2 : Nat} {a3 : List Byte} (h1 : Keeps fs s0 a1) (hm : [.cores, .mem] ⊆ fs := by first | assumption | (refine List.Subset.trans ?_ (by assumption); simp) | simp) :
    Keeps fs s0 (shadowWrite a1 a2 a3) := by
  simp only [shadowWrite]
  refine dropReservations_keeps (keeps_mem (keeps_foldl (fun _ _ h => shadowOpen_keeps h) h1) fun w => ?_)
  simp only [Memory.wf, Bool.and_eq_true] at w ⊢
  exact ⟨⟨w.1.1, cellsWf_cellsSet _ _ w.1.2⟩, w.2⟩
theorem storeShadow_keeps {fs : List Field} {s0 : State} {a1 : Nat} {a2 : List Byte} {a3 : State} (h3 : Keeps fs s0 a3) (hm : [.regs, .cores, .mem, .out] ⊆ fs := by first | assumption | (refine List.Subset.trans ?_ (by assumption); simp) | simp) :
    Keeps fs s0 (storeShadow a1 a2 a3) := by
  simp only [List.cons_subset, List.nil_subset, and_true] at hm
  simp (maxDischargeDepth := 60) +contextual only [storeShadow, h3, List.cons_subset, hm, List.nil_subset, and_self, shadowWrite_keeps, writeStorage_keeps]
theorem passPoison_keeps {fs : List Field} {s0 : State} {a1 : Bool} {a2 : L1Line} {a3 : State} (h3 : Keeps fs s0 a3) (hm : [.regs, .mem, .out] ⊆ fs := by first | assumption | (refine List.Subset.trans ?_ (by assumption); simp) | simp) :
    Keeps fs s0 (passPoison a1 a2 a3) := by
  simp only [List.cons_subset, List.nil_subset, and_true] at hm
  simp (maxDischargeDepth := 60) +contextual only [passPoison, h3, List.cons_subset, hm, List.nil_subset, and_self, keeps_memrest, countUe_keeps, poisonLine_keeps, keeps_ite]
theorem acceptLine_keeps {fs : List Field} {s0 : State} {a1 : CoreRef} {a2 : L1Line} {a3 : State} (h3 : Keeps fs s0 a3) (hm : [.regs, .cores, .clusters, .mem, .granger, .net, .out, .free] ⊆ fs := by first | assumption | (refine List.Subset.trans ?_ (by assumption); simp) | simp) :
    Keeps fs s0 (acceptLine a1 a2 a3) := by
  simp only [List.cons_subset, List.nil_subset, and_true] at hm
  simp (maxDischargeDepth := 60) +contextual only [acceptLine]
  repeat' (split <;> (try simp (maxDischargeDepth := 60) +contextual only [keeps_ite, List.cons_subset, List.nil_subset, and_self, storeHome_keeps, sendBack_keeps, storeShadow_keeps, passPoison_keeps, h3, hm]))
  all_goals (first | done | assumption)
theorem dropShadows_keeps {fs : List Field} {s0 : State} {a1 : State} (h1 : Keeps fs s0 a1) (hm : [.mem] ⊆ fs := by first | assumption | (refine List.Subset.trans ?_ (by assumption); simp) | simp) :
    Keeps fs s0 (dropShadows a1) := by
  refine keeps_mem h1 fun w => ?_
  simp only [Memory.wf, Bool.and_eq_true] at w ⊢
  exact ⟨⟨w.1.1, rfl⟩, w.2⟩
theorem dropWindow_keeps {fs : List Field} {s0 : State} {a1 : (WindowCopy → Bool)} {a2 : State} (h2 : Keeps fs s0 a2) (hm : [.mem] ⊆ fs := by first | assumption | (refine List.Subset.trans ?_ (by assumption); simp) | simp) :
    Keeps fs s0 (dropWindow a1 a2) := by
  refine keeps_mem h2 fun w => ?_
  simp only [Memory.wf, Bool.and_eq_true] at w ⊢
  exact ⟨w.1, mapWf_filter _ _ w.2⟩
theorem homeAccess_keeps {fs : List Field} {s0 : State} {a1 : Bool} {a2 : Nat} {a3 : Nat} {a4 : State} (h4 : Keeps fs s0 a4) (hm : [.regs, .mem, .out, .free] ⊆ fs := by first | assumption | (refine List.Subset.trans ?_ (by assumption); simp) | simp) :
    Keeps fs s0 (homeAccess a1 a2 a3 a4) := by
  simp only [List.cons_subset, List.nil_subset, and_true] at hm
  simp (maxDischargeDepth := 60) +contextual only [homeAccess, h4, List.cons_subset, hm, List.nil_subset, and_self, homeAccesses_keeps]
theorem l1Acquire_keeps {fs : List Field} {s0 : State} {a1 : State} {a2 : CoreRef} (h1 : Keeps fs s0 a1) (hm : [.cores, .net] ⊆ fs := by first | assumption | (refine List.Subset.trans ?_ (by assumption); simp) | simp) :
    Keeps fs s0 (l1Acquire a1 a2) := by
  simp only [List.cons_subset, List.nil_subset, and_true] at hm
  simp (maxDischargeDepth := 60) +contextual only [l1Acquire, h1, List.cons_subset, hm, List.nil_subset, and_self, setCore_keeps, dropResponses_keeps]
theorem slotUse_keeps {fs : List Field} {s0 : State} {a1 : CoreRef} {a2 : Nat} {a3 : State} (h3 : Keeps fs s0 a3) (hm : [.regs] ⊆ fs := by first | assumption | (refine List.Subset.trans ?_ (by assumption); simp) | simp) :
    Keeps fs s0 (slotUse a1 a2 a3) := by
  simp only [List.cons_subset, List.nil_subset, and_true] at hm
  simp (maxDischargeDepth := 60) +contextual only [slotUse, h3, List.cons_subset, hm, List.nil_subset, and_self, setFld_keeps, keeps_ite]
theorem l1Flush_keeps {fs : List Field} {s0 : State} {a1 : State} {a2 : CoreRef} {a3 : (L1Line → Bool)} {a4 : Bool} (h1 : Keeps fs s0 a1) (hm : [.regs, .cores, .clusters, .mem, .granger, .net, .out, .free] ⊆ fs := by first | assumption | (refine List.Subset.trans ?_ (by assumption); simp) | simp) :
    Keeps fs s0 (l1Flush a1 a2 a3 a4) := by
  simp only [List.cons_subset, List.nil_subset, and_true] at hm
  simp (maxDischargeDepth := 60) +contextual only [l1Flush, List.cons_subset, hm, List.nil_subset, and_self, acceptLine_keeps, implies_true, h1, slotUse_keeps, keeps_ite, keeps_foldl, setCore_keeps]
theorem l1Clear_keeps {fs : List Field} {s0 : State} {a1 : State} {a2 : CoreRef} (h1 : Keeps fs s0 a1) (hm : [.regs, .cores, .clusters, .mem, .granger, .net, .out, .free] ⊆ fs := by first | assumption | (refine List.Subset.trans ?_ (by assumption); simp) | simp) :
    Keeps fs s0 (l1Clear a1 a2) := by
  simp only [List.cons_subset, List.nil_subset, and_true] at hm
  simp (maxDischargeDepth := 60) +contextual only [l1Clear, h1, List.cons_subset, hm, List.nil_subset, and_self, l1Flush_keeps, setCore_keeps, dropResponses_keeps]
theorem unmapBushel_keeps {fs : List Field} {s0 : State} {a1 : State} {a2 : Nat} (h1 : Keeps fs s0 a1) (hm : [.mem] ⊆ fs := by first | assumption | (refine List.Subset.trans ?_ (by assumption); simp) | simp) :
    Keeps fs s0 (unmapBushel a1 a2) := by
  simp only [List.cons_subset, List.nil_subset, and_true] at hm
  simp (maxDischargeDepth := 60) +contextual only [unmapBushel, h1, List.cons_subset, hm, List.nil_subset, and_self, keeps_memrest]

end Sys2Proof.Laws
end

