-- ==== Sys2Proof/Laws/KeepsControl.lean ====
section
/-! SUPPORT. What the operations keep (see Laws/Keeps.lean): tasks, waits, moves of bushels, rates. -/

namespace Sys2Proof.Laws

set_option Elab.async false

open Sys2Proof.Machine Sys2Proof.Safety

theorem setPhase_keeps {fs : List Field} {s0 : State} {a1 : State} {a2 : Nat} (h1 : Keeps fs s0 a1) (hm : [.regs, .traces] ⊆ fs := by first | assumption | (refine List.Subset.trans ?_ (by assumption); simp) | simp) :
    Keeps fs s0 (setPhase a1 a2) := by
  simp only [List.cons_subset, List.nil_subset, and_true] at hm
  simp (maxDischargeDepth := 60) +contextual only [setPhase, h1, List.cons_subset, hm, List.nil_subset, and_self, setFld_keeps, trace_keeps]
theorem armReplay_keeps {fs : List Field} {s0 : State} {a1 : State} {a2 : Nat} {a3 : Nat} (h1 : Keeps fs s0 a1) (hm : [.regs, .slots, .granger, .step, .traces] ⊆ fs := by first | assumption | (refine List.Subset.trans ?_ (by assumption); simp) | simp) :
    Keeps fs s0 (armReplay a1 a2 a3) := by
  simp only [List.cons_subset, List.nil_subset, and_true] at hm
  simp (maxDischargeDepth := 60) +contextual only [armReplay, h1, List.cons_subset, hm, List.nil_subset, and_self, setSlot_keeps, addFld_keeps, keeps_granger_step, setPhase_keeps]
theorem freeCore_keeps {fs : List Field} {s0 : State} {a1 : State} {a2 : CoreRef} (h1 : Keeps fs s0 a1) (hm : [.regs, .cores] ⊆ fs := by first | assumption | (refine List.Subset.trans ?_ (by assumption); simp) | simp) :
    Keeps fs s0 (freeCore a1 a2) := by
  simp only [List.cons_subset, List.nil_subset, and_true] at hm
  simp (maxDischargeDepth := 60) +contextual only [freeCore, h1, List.cons_subset, hm, List.nil_subset, and_self, setCoreState_keeps, keeps_ite, setCore_keeps]
theorem wlFree_keeps {fs : List Field} {s0 : State} {a1 : State} {a2 : Nat} {a3 : Nat} (h1 : Keeps fs s0 a1) (hm : [.regs] ⊆ fs := by first | assumption | (refine List.Subset.trans ?_ (by assumption); simp) | simp) :
    Keeps fs s0 (wlFree a1 a2 a3) := by
  simp only [List.cons_subset, List.nil_subset, and_true] at hm
  simp (maxDischargeDepth := 60) +contextual only [wlFree, h1, List.cons_subset, hm, List.nil_subset, and_self, setFld_keeps]
theorem wrWords_keeps {fs : List Field} {s0 : State} {a1 : State} {a2 : Nat} {a3 : List Word} (h1 : Keeps fs s0 a1) (hm : [.cores, .mem] ⊆ fs := by first | assumption | (refine List.Subset.trans ?_ (by assumption); simp) | simp) :
    Keeps fs s0 (wrWords a1 a2 a3) := by
  induction a3 generalizing a1 a2 with
  | nil => exact h1
  | cons w t ih => exact ih (wr64_keeps h1)
theorem relink_keeps {fs : List Field} {s0 : State} {a1 : Nat} {a2 : List Waiter} {a3 : List Waiter} {a4 : State} (h4 : Keeps fs s0 a4) (hm : [.cores, .mem] ⊆ fs := by first | assumption | (refine List.Subset.trans ?_ (by assumption); simp) | simp) :
    Keeps fs s0 (relink a1 a2 a3 a4) := by
  simp only [List.cons_subset, List.nil_subset, and_true] at hm
  simp (maxDischargeDepth := 60) +contextual only [relink, List.cons_subset, hm, List.nil_subset, and_self, wrWords_keeps, implies_true, h4, keeps_foldl]
theorem dropWaiters_keeps {fs : List Field} {s0 : State} {a1 : State} {a2 : Nat} {a3 : (Waiter → Bool)} (h1 : Keeps fs s0 a1) (hm : [.regs, .ctrs, .cores, .mem] ⊆ fs := by first | assumption | (refine List.Subset.trans ?_ (by assumption); simp) | simp) :
    Keeps fs s0 (dropWaiters a1 a2 a3) := by
  simp only [List.cons_subset, List.nil_subset, and_true] at hm
  simp (maxDischargeDepth := 60) +contextual only [dropWaiters, h1, List.cons_subset, hm, List.nil_subset, and_self, wlFree_keeps, relink_keeps, keeps_ite, setCtr_keeps]
theorem dropAllWaiters_keeps {fs : List Field} {s0 : State} {a1 : State} {a2 : (Waiter → Bool)} (h1 : Keeps fs s0 a1) (hm : [.regs, .ctrs, .cores, .mem] ⊆ fs := by first | assumption | (refine List.Subset.trans ?_ (by assumption); simp) | simp) :
    Keeps fs s0 (dropAllWaiters a1 a2) := by
  simp only [List.cons_subset, List.nil_subset, and_true] at hm
  simp (maxDischargeDepth := 60) +contextual only [dropAllWaiters, List.cons_subset, hm, List.nil_subset, and_self, dropWaiters_keeps, implies_true, h1, keeps_foldl]
theorem closeTask_keeps {fs : List Field} {s0 : State} {a1 : State} {a2 : Task} {a3 : Nat} {a4 : Nat} {a5 : Nat} {a6 : Bool} (h1 : Keeps fs s0 a1) (hm : [.regs, .tasks, .ctrs, .cores, .mem, .step, .traces] ⊆ fs := by first | assumption | (refine List.Subset.trans ?_ (by assumption); simp) | simp) :
    Keeps fs s0 (closeTask a1 a2 a3 a4 a5 a6).1 := by
  simp only [List.cons_subset, List.nil_subset, and_true] at hm
  simp (maxDischargeDepth := 60) +contextual only [closeTask, reduceCtorEq, h1, List.cons_subset, hm, List.nil_subset, and_self, dropAllWaiters_keeps, freeCore_keeps, keeps_ite, setTask_keeps, trace_keeps, keeps_step]
theorem collCount_keeps {fs : List Field} {s0 : State} {a1 : State} (h1 : Keeps fs s0 a1) (hm : [.regs] ⊆ fs := by first | assumption | (refine List.Subset.trans ?_ (by assumption); simp) | simp) :
    Keeps fs s0 (collCount a1) := by
  simp only [List.cons_subset, List.nil_subset, and_true] at hm
  simp (maxDischargeDepth := 60) +contextual only [collCount, h1, List.cons_subset, hm, List.nil_subset, and_self, setFld_keeps]
theorem collComplete_keeps {fs : List Field} {s0 : State} {a1 : State} {a2 : CollCmd} {a3 : Nat} (h1 : Keeps fs s0 a1) (hm : [.regs, .cores, .mem, .coll, .traces, .out] ⊆ fs := by first | assumption | (refine List.Subset.trans ?_ (by assumption); simp) | simp) :
    Keeps fs s0 (collComplete a1 a2 a3).1 := by
  simp only [List.cons_subset, List.nil_subset, and_true] at hm
  simp only [collComplete]
  repeat' (split <;> (try simp (maxDischargeDepth := 60) +contextual only [keeps_ite, List.cons_subset, List.nil_subset, and_self, keeps_coll, wr_keeps, logErr_keeps, trace_keeps, wr64_keeps, setFld_keeps, collCount_keeps, h1, hm]))
  all_goals (first | done | assumption)
theorem countEnded_keeps {fs : List Field} {s0 : State} {a1 : State} {a2 : Nat} {a3 : Bool} (h1 : Keeps fs s0 a1) (hm : [.slots] ⊆ fs := by first | assumption | (refine List.Subset.trans ?_ (by assumption); simp) | simp) :
    Keeps fs s0 (countEnded a1 a2 a3) := by
  simp only [List.cons_subset, List.nil_subset, and_true] at hm
  simp (maxDischargeDepth := 60) +contextual only [countEnded, h1, List.cons_subset, hm, List.nil_subset, and_self, setSlot_keeps]
theorem endSlot_keeps {fs : List Field} {s0 : State} {a1 : State} {a2 : Nat} {a3 : SlotState} {a4 : Nat} {a5 : Nat} (h1 : Keeps fs s0 a1) (hm : [.slots, .power] ⊆ fs := by first | assumption | (refine List.Subset.trans ?_ (by assumption); simp) | simp) :
    Keeps fs s0 (endSlot a1 a2 a3 a4 a5) := by
  simp only [List.cons_subset, List.nil_subset, and_true] at hm
  simp (maxDischargeDepth := 60) +contextual only [endSlot, h1, List.cons_subset, hm, List.nil_subset, and_self, setSlot_keeps, keeps_power]
theorem sheafEnd_keeps {fs : List Field} {s0 : State} {a1 : State} {a2 : Nat} {a3 : Nat} (h1 : Keeps fs s0 a1) (hm : [.cores, .mem] ⊆ fs := by first | assumption | (refine List.Subset.trans ?_ (by assumption); simp) | simp) :
    Keeps fs s0 (sheafEnd a1 a2 a3) := by
  simp only [List.cons_subset, List.nil_subset, and_true] at hm
  simp (maxDischargeDepth := 60) +contextual only [sheafEnd, h1, List.cons_subset, hm, List.nil_subset, and_self, wr64_keeps, keeps_ite]
theorem endFaulted_keeps {fs : List Field} {s0 : State} {a1 : State} {a2 : Nat} {a3 : Nat} {a4 : Nat} (h1 : Keeps fs s0 a1) (hm : [.regs, .slots, .cores, .mem, .step, .power, .traces] ⊆ fs := by first | assumption | (refine List.Subset.trans ?_ (by assumption); simp) | simp) :
    Keeps fs s0 (endFaulted a1 a2 a3 a4) := by
  simp only [List.cons_subset, List.nil_subset, and_true] at hm
  simp (maxDischargeDepth := 60) +contextual only [endFaulted, h1, List.cons_subset, hm, List.nil_subset, and_self, sheafEnd_keeps, endSlot_keeps, keeps_step, setFld_keeps, keeps_ite, setPhase_keeps]
theorem dropGathered_keeps {fs : List Field} {s0 : State} {a1 : State} (h1 : Keeps fs s0 a1) (hm : [.mem] ⊆ fs := by first | assumption | (refine List.Subset.trans ?_ (by assumption); simp) | simp) :
    Keeps fs s0 (dropGathered a1) := by
  simp only [List.cons_subset, List.nil_subset, and_true] at hm
  simp (maxDischargeDepth := 60) +contextual only [dropGathered, h1, List.cons_subset, hm, List.nil_subset, and_self, dropWindow_keeps]
theorem endCursor_keeps {fs : List Field} {s0 : State} {a1 : Nat} {a2 : State} (h2 : Keeps fs s0 a2) (hm : [.granger] ⊆ fs := by first | assumption | (refine List.Subset.trans ?_ (by assumption); simp) | simp) :
    Keeps fs s0 (endCursor a1 a2) := by
  simp only [List.cons_subset, List.nil_subset, and_true] at hm
  simp (maxDischargeDepth := 60) +contextual only [endCursor, h2, List.cons_subset, hm, List.nil_subset, and_self, keeps_granger]
theorem dropAllSpecLines_keeps {fs : List Field} {s0 : State} {a1 : State} (h1 : Keeps fs s0 a1) (hm : [.cores] ⊆ fs := by first | assumption | (refine List.Subset.trans ?_ (by assumption); simp) | simp) :
    Keeps fs s0 (dropAllSpecLines a1) := by
  simp only [List.cons_subset, List.nil_subset, and_true] at hm
  simp (maxDischargeDepth := 60) +contextual only [dropAllSpecLines, List.cons_subset, hm, List.nil_subset, and_self, keeps_cores, implies_true, h1, keeps_foldl]
theorem refreshShadowUse_keeps {fs : List Field} {s0 : State} {a1 : State} (h1 : Keeps fs s0 a1) (hm : [.regs] ⊆ fs := by first | assumption | (refine List.Subset.trans ?_ (by assumption); simp) | simp) :
    Keeps fs s0 (refreshShadowUse a1) := by
  simp only [List.cons_subset, List.nil_subset, and_true] at hm
  simp (maxDischargeDepth := 60) +contextual only [refreshShadowUse, List.cons_subset, hm, List.nil_subset, and_self, setFld_keeps, keeps_ite, implies_true, h1, keeps_foldl]
theorem freeShadows_keeps {fs : List Field} {s0 : State} {a1 : Nat} {a2 : State} (h2 : Keeps fs s0 a2) (hm : [.regs, .mem] ⊆ fs := by first | assumption | (refine List.Subset.trans ?_ (by assumption); simp) | simp) :
    Keeps fs s0 (freeShadows a1 a2) := by
  simp only [List.cons_subset, List.nil_subset, and_true] at hm
  simp (maxDischargeDepth := 60) +contextual only [freeShadows, h2, List.cons_subset, hm, List.nil_subset, and_self, dropShadows_keeps, keeps_ite, keeps_memrest, refreshShadowUse_keeps]
theorem retireTag_keeps {fs : List Field} {s0 : State} {a1 : State} {a2 : Task} (h1 : Keeps fs s0 a1) (hm : [.clusters] ⊆ fs := by first | assumption | (refine List.Subset.trans ?_ (by assumption); simp) | simp) :
    Keeps fs s0 (retireTag a1 a2) := by
  simp only [List.cons_subset, List.nil_subset, and_true] at hm
  simp (maxDischargeDepth := 60) +contextual only [retireTag, h1, List.cons_subset, hm, List.nil_subset, and_self, setCluster_keeps, keeps_ite]
theorem retireTags_keeps {fs : List Field} {s0 : State} {a1 : State} {a2 : Nat} (h1 : Keeps fs s0 a1) (hm : [.clusters] ⊆ fs := by first | assumption | (refine List.Subset.trans ?_ (by assumption); simp) | simp) :
    Keeps fs s0 (retireTags a1 a2) := by
  simp only [List.cons_subset, List.nil_subset, and_true] at hm
  simp (maxDischargeDepth := 60) +contextual only [retireTags, List.cons_subset, hm, List.nil_subset, and_self, retireTag_keeps, implies_true, h1, keeps_foldl]
theorem writeResult_keeps {fs : List Field} {s0 : State} {a1 : State} {a2 : List Task} {a3 : Task} (h1 : Keeps fs s0 a1) (hm : [.cores, .mem] ⊆ fs := by first | assumption | (refine List.Subset.trans ?_ (by assumption); simp) | simp) :
    Keeps fs s0 (writeResult a1 a2 a3) := by
  simp only [List.cons_subset, List.nil_subset, and_true] at hm
  simp (maxDischargeDepth := 60) +contextual only [writeResult, h1, List.cons_subset, hm, List.nil_subset, and_self, wr64_keeps, keeps_ite]
theorem stopTask_keeps {fs : List Field} {s0 : State} {a1 : State} {a2 : Task} (h1 : Keeps fs s0 a1) (hm : [.regs, .slots, .tasks, .ctrs, .cores, .mem, .traces] ⊆ fs := by first | assumption | (refine List.Subset.trans ?_ (by assumption); simp) | simp) :
    Keeps fs s0 (stopTask a1 a2) := by
  simp only [List.cons_subset, List.nil_subset, and_true] at hm
  simp (maxDischargeDepth := 60) +contextual only [stopTask, h1, List.cons_subset, hm, List.nil_subset, and_self, dropAllWaiters_keeps, freeCore_keeps, keeps_ite, setTask_keeps, trace_keeps, countEnded_keeps, writeResult_keeps]
theorem stopTasks_keeps {fs : List Field} {s0 : State} {a1 : State} {a2 : Nat} (h1 : Keeps fs s0 a1) (hm : [.regs, .slots, .tasks, .ctrs, .cores, .mem, .traces] ⊆ fs := by first | assumption | (refine List.Subset.trans ?_ (by assumption); simp) | simp) :
    Keeps fs s0 (stopTasks a1 a2) := by
  simp only [List.cons_subset, List.nil_subset, and_true] at hm
  simp (maxDischargeDepth := 60) +contextual only [stopTasks, List.cons_subset, hm, List.nil_subset, and_self, stopTask_keeps, implies_true, h1, keeps_foldl]
theorem discardActions_keeps {fs : List Field} {s0 : State} {a1 : State} {a2 : Nat} (h1 : Keeps fs s0 a1) (hm : [.regs, .slots, .tasks, .ctrs, .cores, .clusters, .mem, .granger, .coll, .step, .traces, .out] ⊆ fs := by first | assumption | (refine List.Subset.trans ?_ (by assumption); simp) | simp) :
    Keeps fs s0 (discardActions a1 a2).1 := by
  simp only [List.cons_subset, List.nil_subset, and_true] at hm
  simp (maxDischargeDepth := 60) +contextual only [discardActions, h1, List.cons_subset, hm, List.nil_subset, and_self, setPhase_keeps, stopTasks_keeps, retireTags_keeps, dropAllSpecLines_keeps, freeShadows_keeps, keeps_coll, event_keeps, dropGathered_keeps, endCursor_keeps, keeps_step]
theorem discard_keeps {fs : List Field} {s0 : State} {a1 : State} {a2 : Nat} {a3 : Nat} {a4 : Nat} {a5 : Nat} (h1 : Keeps fs s0 a1) (hm : [.regs, .slots, .tasks, .ctrs, .cores, .clusters, .mem, .granger, .coll, .step, .power, .traces, .out] ⊆ fs := by first | assumption | (refine List.Subset.trans ?_ (by assumption); simp) | simp) :
    Keeps fs s0 (discard a1 a2 a3 a4 a5).1 := by
  simp only [List.cons_subset, List.nil_subset, and_true] at hm
  simp (maxDischargeDepth := 60) +contextual only [Machine.discard, h1, List.cons_subset, hm, List.nil_subset, and_self, discardActions_keeps, armReplay_keeps, endFaulted_keeps, keeps_ite]
theorem straggler_keeps {fs : List Field} {s0 : State} {a1 : State} {a2 : Nat} (h1 : Keeps fs s0 a1) (hm : [.regs, .cores, .mem, .out] ⊆ fs := by first | assumption | (refine List.Subset.trans ?_ (by assumption); simp) | simp) :
    Keeps fs s0 (straggler a1 a2) := by
  simp only [List.cons_subset, List.nil_subset, and_true] at hm
  simp (maxDischargeDepth := 60) +contextual only [straggler]
  repeat' (split <;> (try simp (maxDischargeDepth := 60) +contextual only [List.cons_subset, List.nil_subset, and_self, report_keeps, wr_keeps, h1, hm]))
  all_goals (first | done | assumption)
theorem failSlot_keeps {fs : List Field} {s0 : State} {a1 : State} {a2 : Task} {a3 : Nat} (h1 : Keeps fs s0 a1) (hm : [.regs, .slots, .tasks, .ctrs, .cores, .clusters, .mem, .power, .traces] ⊆ fs := by first | assumption | (refine List.Subset.trans ?_ (by assumption); simp) | simp) :
    Keeps fs s0 (failSlot a1 a2 a3) := by
  simp only [List.cons_subset, List.nil_subset, and_true] at hm
  simp (maxDischargeDepth := 60) +contextual only [failSlot, h1, List.cons_subset, hm, List.nil_subset, and_self, setSlot_keeps, stopTasks_keeps, retireTags_keeps, endSlot_keeps, keeps_ite]
theorem takeDeferred_keeps {fs : List Field} {s0 : State} {a1 : State} (h1 : Keeps fs s0 a1) (hm : [.step] ⊆ fs := by first | assumption | (refine List.Subset.trans ?_ (by assumption); simp) | simp) :
    Keeps fs s0 (takeDeferred a1) := by
  simp only [List.cons_subset, List.nil_subset, and_true] at hm
  simp (maxDischargeDepth := 60) +contextual only [takeDeferred, h1, List.cons_subset, hm, List.nil_subset, and_self, keeps_step, keeps_ite]
theorem doEndTask_keeps {fs : List Field} {s0 : State} {a1 : State} {a2 : TaskKey} {a3 : Nat} {a4 : Nat} {a5 : Nat} {a6 : Bool} {a7 : Option (Nat × Nat)} (h1 : Keeps fs s0 a1) (hm : [.regs, .slots, .tasks, .ctrs, .cores, .clusters, .mem, .step, .power, .traces, .out] ⊆ fs := by first | assumption | (refine List.Subset.trans ?_ (by assumption); simp) | simp) :
    Keeps fs s0 (doEndTask a1 a2 a3 a4 a5 a6 a7).1 := by
  unfold doEndTask
  split
  · exact h1
  split
  · exact h1
  · rename_i t _ _
    have hc := closeTask_keeps (a2 := t) (a3 := a3) (a4 := a4) (a5 := a5) (a6 := a6) h1
    generalize closeTask a1 t a3 a4 a5 a6 = c at hc ⊢
    obtain ⟨s, t'⟩ := c
    dsimp -zeta only at hc ⊢
    extract_lets own good s1 orphans faults ps allGood ap s2 s3 s4 s5 q s6
    have k1 : Keeps fs s0 s1 := keeps_ite (takeDeferred_keeps hc) hc
    clear_value s1
    have k3 : Keeps fs s0 s3 := countEnded_keeps (writeResult_keeps k1)
    clear_value s3
    have k4 : Keeps fs s0 s4 := keeps_ite k3 (keeps_foldl (fun _ _ h => retireTag_keeps h) k3)
    clear_value s4
    have k5 : Keeps fs s0 s5 := keeps_ite (failSlot_keeps k4) k4
    clear_value s5
    have k6 : Keeps fs s0 s6 := keeps_ite (keeps_ite (keeps_ite (straggler_keeps k5) k5) (keeps_ite (setSlot_keeps k5) k5)) k5
    clear_value s6
    split
    · exact k6
    · exact k1
theorem doOrphan_keeps {fs : List Field} {s0 : State} {a1 : State} {a2 : Nat} {a3 : Option (Nat × Nat)} (h1 : Keeps fs s0 a1) (hm : [.regs, .ctrs, .cores, .mem] ⊆ fs := by first | assumption | (refine List.Subset.trans ?_ (by assumption); simp) | simp) :
    Keeps fs s0 (doOrphan a1 a2 a3).1 := by
  simp only [List.cons_subset, List.nil_subset, and_true] at hm
  simp (maxDischargeDepth := 60) +contextual only [doOrphan, apply_ite Prod.fst, h1, List.cons_subset, hm, List.nil_subset, and_self, setCtr_keeps, dropWaiters_keeps, keeps_ite]
theorem settleInstant_keeps {fs : List Field} {s0 : State} {a1 : Nat} {a2 : State} (h2 : Keeps fs s0 a2) (hm : [.cores] ⊆ fs := by first | assumption | (refine List.Subset.trans ?_ (by assumption); simp) | simp) :
    Keeps fs s0 (settleInstant a1 a2) := by
  simp only [List.cons_subset, List.nil_subset, and_true] at hm
  simp (maxDischargeDepth := 60) +contextual only [settleInstant, List.cons_subset, hm, List.nil_subset, and_self, keeps_cores, implies_true, h2, keeps_foldl]
theorem wakeSatisfied_keeps {fs : List Field} {s0 : State} {a1 : State} {a2 : Nat} (h1 : Keeps fs s0 a1) (hm : [.regs, .ctrs, .cores, .mem] ⊆ fs := by first | assumption | (refine List.Subset.trans ?_ (by assumption); simp) | simp) :
    Keeps fs s0 (wakeSatisfied a1 a2).1 := by
  simp only [List.cons_subset, List.nil_subset, and_true] at hm
  simp (maxDischargeDepth := 60) +contextual only [wakeSatisfied, h1, List.cons_subset, hm, List.nil_subset, and_self, dropWaiters_keeps]
theorem watchSignal_keeps {fs : List Field} {s0 : State} {a1 : State} {a2 : Nat} {a3 : Nat} {a4 : Word} (h1 : Keeps fs s0 a1) (hm : [.regs, .traces] ⊆ fs := by first | assumption | (refine List.Subset.trans ?_ (by assumption); simp) | simp) :
    Keeps fs s0 (watchSignal a1 a2 a3 a4) := by
  simp only [List.cons_subset, List.nil_subset, and_true] at hm
  simp (maxDischargeDepth := 60) +contextual only [watchSignal, h1, List.cons_subset, hm, List.nil_subset, and_self, trace_keeps, keeps_ite]
theorem doSignal_keeps {fs : List Field} {s0 : State} {a1 : State} {a2 : Nat} {a3 : Nat} {a4 : Word} {a5 : Option Nat} (h1 : Keeps fs s0 a1) (hm : [.regs, .ctrs, .cores, .mem, .traces, .out] ⊆ fs := by first | assumption | (refine List.Subset.trans ?_ (by assumption); simp) | simp) :
    Keeps fs s0 (doSignal a1 a2 a3 a4 a5).1 := by
  simp only [List.cons_subset, List.nil_subset, and_true] at hm
  simp (maxDischargeDepth := 60) +contextual only [doSignal, apply_ite Prod.fst, h1, List.cons_subset, hm, List.nil_subset, and_self, addReg_keeps, event_keeps, watchSignal_keeps, setCtr_keeps, logErr_keeps, keeps_ite, settleInstant_keeps, wakeSatisfied_keeps]
theorem holdWaiter_keeps {fs : List Field} {s0 : State} {a1 : State} {a2 : Nat} {a3 : Waiter} (h1 : Keeps fs s0 a1) (hm : [.regs, .ctrs, .cores, .mem, .out] ⊆ fs := by first | assumption | (refine List.Subset.trans ?_ (by assumption); simp) | simp) :
    ∀ x, (holdWaiter a1 a2 a3) = some x → Keeps fs s0 x := by
  simp only [List.cons_subset, List.nil_subset, and_true] at hm
  simp only [holdWaiter]
  (repeat' split) <;> (try simp (maxDischargeDepth := 60) +contextual [List.cons_subset, List.nil_subset, and_self, implies_true, setFld_keeps, wrWords_keeps, setCtr_keeps, event_keeps, h1, hm])
  all_goals (first | done | assumption)
theorem doTest_keeps {fs : List Field} {s0 : State} {a1 : State} {a2 : TaskKey} (h1 : Keeps fs s0 a1) (hm : [.regs, .tasks, .ctrs, .cores, .mem, .out] ⊆ fs := by first | assumption | (refine List.Subset.trans ?_ (by assumption); simp) | simp) :
    Keeps fs s0 (doTest a1 a2).1 := by
  simp only [doTest]
  repeat' first | with_reducible assumption | (exact List.Subset.trans (by simp) hm) | (intro _ e; cases e; done) | with_reducible apply setFld_keeps | with_reducible apply setTask_keeps | with_reducible apply keepsO_next | with_reducible apply keepsO_refused | with_reducible apply keepsI_ok | with_reducible apply keepsI_jump | with_reducible apply keepsI_trap | with_reducible apply keepsI_stall | with_reducible apply keepsI_defer | with_reducible apply keepsS_done | with_reducible apply keepsS_fault | with_reducible apply keepsL_value | with_reducible apply keepsL_blocks | with_reducible apply keepsR_ok | with_reducible apply keepsR_ecc | with_reducible apply keepsP_placed | with_reducible apply keepsP_refused | with_reducible apply keepsP_waits | with_reducible apply each_keeps | with_reducible apply keeps_foldl | (with_reducible refine (show ∀ x, _ = _ → _ from holdWaiter_keeps ?_)) | (with_reducible refine (show ∀ x, _ = _ → _ from allOk_keeps ?_ ?_)) | (refine keeps_of_snd (by assumption) ?_) | (refine keeps_of_fst (by assumption) ?_) | (refine keeps_of_some (by assumption) ?_) | (refine keeps_of_some_snd (by assumption) ?_) | (refine keeps_of_some_fst (by assumption) ?_) | (refine keeps_of_some_snd2 (by assumption) ?_) | (refine keeps_of_okE (by assumption) ?_) | (refine keeps_of_okE_snd (by assumption) ?_) | (refine keeps_of_okE_fst (by assumption) ?_) | (refine keeps_of_okR (by assumption) ?_) | (refine keeps_of_eccR (by assumption) ?_) | (refine keeps_of_placed (by assumption) ?_) | (refine keeps_of_okI (by assumption) ?_) | (refine keeps_of_doneS (by assumption) ?_) | (refine keeps_of_valueL (by assumption) ?_) | (refine keeps_of_blocksL (by assumption) ?_) | intro _ | split
theorem sendNotice_keeps {fs : List Field} {s0 : State} {a1 : State} {a2 : Notice} (h1 : Keeps fs s0 a1) (hm : [.out] ⊆ fs := by first | assumption | (refine List.Subset.trans ?_ (by assumption); simp) | simp) :
    Keeps fs s0 (sendNotice a1 a2) := by
  simp only [List.cons_subset, List.nil_subset, and_true] at hm
  simp (maxDischargeDepth := 60) +contextual only [sendNotice, h1, List.cons_subset, hm, List.nil_subset, and_self, keeps_out, keeps_ite]
theorem recordFault_keeps {fs : List Field} {s0 : State} {a1 : State} {a2 : Nat} {a3 : Nat} {a4 : Nat} {a5 : Nat} (h1 : Keeps fs s0 a1) (hm : [.regs, .traces] ⊆ fs := by first | assumption | (refine List.Subset.trans ?_ (by assumption); simp) | simp) :
    Keeps fs s0 (recordFault a1 a2 a3 a4 a5) := by
  simp only [List.cons_subset, List.nil_subset, and_true] at hm
  simp (maxDischargeDepth := 60) +contextual only [recordFault, h1, List.cons_subset, hm, List.nil_subset, and_self, wr_keeps, trace_keeps]
theorem takeFault_keeps {fs : List Field} {s0 : State} {a1 : State} {a2 : Nat} {a3 : Nat} (h1 : Keeps fs s0 a1) (hm : [.regs, .slots, .tasks, .ctrs, .cores, .clusters, .mem, .granger, .coll, .step, .power, .traces, .out] ⊆ fs := by first | assumption | (refine List.Subset.trans ?_ (by assumption); simp) | simp) :
    Keeps fs s0 (takeFault a1 a2 a3).1 := by
  simp only [List.cons_subset, List.nil_subset, and_true] at hm
  simp (maxDischargeDepth := 60) +contextual only [takeFault]
  repeat' (split <;> (try simp (maxDischargeDepth := 60) +contextual only [List.cons_subset, List.nil_subset, and_self, keeps_step, discard_keeps, sendNotice_keeps, recordFault_keeps, event_keeps, h1, hm]))
  all_goals (first | done | assumption)
theorem endWait_keeps {fs : List Field} {s0 : State} {a1 : State} {a2 : CoreRef} {a3 : Nat} (h1 : Keeps fs s0 a1) (hm : [.cores] ⊆ fs := by first | assumption | (refine List.Subset.trans ?_ (by assumption); simp) | simp) :
    Keeps fs s0 (endWait a1 a2 a3) := by
  simp only [List.cons_subset, List.nil_subset, and_true] at hm
  simp (maxDischargeDepth := 60) +contextual only [endWait]
  repeat' (split <;> (try simp (maxDischargeDepth := 60) +contextual only [List.cons_subset, List.nil_subset, and_self, setCore_keeps, h1, hm]))
  all_goals (first | done | assumption)
theorem dropStale_keeps {fs : List Field} {s0 : State} {a1 : Fin 8} {a2 : State} (h2 : Keeps fs s0 a2) (hm : [.regs, .out] ⊆ fs := by first | assumption | (refine List.Subset.trans ?_ (by assumption); simp) | simp) :
    Keeps fs s0 (dropStale a1 a2) := by
  simp only [List.cons_subset, List.nil_subset, and_true] at hm
  simp (maxDischargeDepth := 60) +contextual only [dropStale, h2, List.cons_subset, hm, List.nil_subset, and_self, addReg_keeps, event_keeps]
theorem doWake_keeps {fs : List Field} {s0 : State} {a1 : State} {a2 : Waiter} {a3 : Bool} (h1 : Keeps fs s0 a1) (hm : [.regs, .tasks, .cores, .out] ⊆ fs := by first | assumption | (refine List.Subset.trans ?_ (by assumption); simp) | simp) :
    Keeps fs s0 (doWake a1 a2 a3).1 := by
  simp only [List.cons_subset, List.nil_subset, and_true] at hm
  simp (maxDischargeDepth := 60) +contextual only [doWake]
  repeat' (split <;> (try simp (maxDischargeDepth := 60) +contextual only [List.cons_subset, List.nil_subset, and_self, endWait_keeps, setTask_keeps, dropStale_keeps, h1, hm]))
  all_goals (first | done | assumption)
theorem doTodo_keeps {fs : List Field} {s0 : State} {a1 : State} {a2 : Todo} (h1 : Keeps fs s0 a1) (hm : [.regs, .slots, .tasks, .ctrs, .cores, .clusters, .mem, .granger, .coll, .step, .power, .traces, .out] ⊆ fs := by first | assumption | (refine List.Subset.trans ?_ (by assumption); simp) | simp) :
    Keeps fs s0 (doTodo a1 a2).1 := by
  simp only [List.cons_subset, List.nil_subset, and_true] at hm
  simp (maxDischargeDepth := 60) +contextual only [doTodo]
  repeat' (split <;> (try simp (maxDischargeDepth := 60) +contextual only [List.cons_subset, List.nil_subset, and_self, collComplete_keeps, takeFault_keeps, doOrphan_keeps, doEndTask_keeps, doTest_keeps, doWake_keeps, doSignal_keeps, h1, hm]))
  all_goals (first | done | assumption)
theorem send_keeps {fs : List Field} {s0 : State} {a1 : List Todo} {a2 : State} (h2 : Keeps fs s0 a2) (hm : [.control] ⊆ fs := by first | assumption | (refine List.Subset.trans ?_ (by assumption); simp) | simp) :
    Keeps fs s0 (send a1 a2) := by
  simp only [List.cons_subset, List.nil_subset, and_true] at hm
  simp (maxDischargeDepth := 60) +contextual only [send, h2, List.cons_subset, hm, List.nil_subset, and_self, keeps_control]
theorem takeTodo_keeps {fs : List Field} {s0 : State} {a1 : Todo} {a2 : State} (h2 : Keeps fs s0 a2) (hm : [.control] ⊆ fs := by first | assumption | (refine List.Subset.trans ?_ (by assumption); simp) | simp) :
    Keeps fs s0 (takeTodo a1 a2) := by
  simp only [List.cons_subset, List.nil_subset, and_true] at hm
  simp (maxDischargeDepth := 60) +contextual only [takeTodo, h2, List.cons_subset, hm, List.nil_subset, and_self, keeps_control]
theorem runFuel_keeps {fs : List Field} {s0 : State} {a1 : Nat} {a2 : State} (h2 : Keeps fs s0 a2) (hm : [.regs, .slots, .tasks, .ctrs, .cores, .clusters, .mem, .granger, .coll, .control, .step, .power, .traces, .out] ⊆ fs := by first | assumption | (refine List.Subset.trans ?_ (by assumption); simp) | simp) :
    Keeps fs s0 (runFuel a1 a2) := by
  induction a1 generalizing a2 with
  | zero => exact h2
  | succ k ih =>
    unfold runFuel
    split
    · exact h2
    · exact ih (send_keeps (doTodo_keeps (takeTodo_keeps h2)))
theorem run_keeps {fs : List Field} {s0 : State} {a1 : List Todo} {a2 : State} (h2 : Keeps fs s0 a2) (hm : [.regs, .slots, .tasks, .ctrs, .cores, .clusters, .mem, .granger, .coll, .control, .step, .power, .traces, .out] ⊆ fs := by first | assumption | (refine List.Subset.trans ?_ (by assumption); simp) | simp) :
    Keeps fs s0 (run a1 a2) := by
  simp only [List.cons_subset, List.nil_subset, and_true] at hm
  simp (maxDischargeDepth := 60) +contextual only [run, h2, List.cons_subset, hm, List.nil_subset, and_self, send_keeps, runFuel_keeps]
theorem fault_keeps {fs : List Field} {s0 : State} {a1 : Nat} {a2 : Nat} {a3 : State} (h3 : Keeps fs s0 a3) (hm : [.regs, .slots, .tasks, .ctrs, .cores, .clusters, .mem, .granger, .coll, .control, .step, .power, .traces, .out] ⊆ fs := by first | assumption | (refine List.Subset.trans ?_ (by assumption); simp) | simp) :
    Keeps fs s0 (fault a1 a2 a3) := by
  simp only [List.cons_subset, List.nil_subset, and_true] at hm
  simp (maxDischargeDepth := 60) +contextual only [fault, h3, List.cons_subset, hm, List.nil_subset, and_self, run_keeps]
theorem traceFence_keeps {fs : List Field} {s0 : State} {a1 : Nat} {a2 : Nat} {a3 : Nat} {a4 : Nat} {a5 : State} (h5 : Keeps fs s0 a5) (hm : [.regs, .traces] ⊆ fs := by first | assumption | (refine List.Subset.trans ?_ (by assumption); simp) | simp) :
    Keeps fs s0 (traceFence a1 a2 a3 a4 a5) := by
  simp only [List.cons_subset, List.nil_subset, and_true] at hm
  simp (maxDischargeDepth := 60) +contextual only [traceFence, h5, List.cons_subset, hm, List.nil_subset, and_self, trace_keeps]
theorem markFenced_keeps {fs : List Field} {s0 : State} {a1 : State} {a2 : CoreRef} {a3 : Nat} (h1 : Keeps fs s0 a1) (hm : [.regs, .granger] ⊆ fs := by first | assumption | (refine List.Subset.trans ?_ (by assumption); simp) | simp) :
    Keeps fs s0 (markFenced a1 a2 a3) := by
  simp only [List.cons_subset, List.nil_subset, and_true] at hm
  simp (maxDischargeDepth := 60) +contextual only [markFenced, h1, List.cons_subset, hm, List.nil_subset, and_self, noteChange_keeps, setCoreState_keeps, setFld_keeps, wr_keeps, keeps_ite]
theorem fenceCoreAs_keeps {fs : List Field} {s0 : State} {a1 : CoreRef} {a2 : Nat} {a3 : Nat × Nat} {a4 : State} (h4 : Keeps fs s0 a4) (hm : [.regs, .slots, .tasks, .ctrs, .cores, .clusters, .mem, .granger, .coll, .control, .step, .power, .traces, .out] ⊆ fs := by first | assumption | (refine List.Subset.trans ?_ (by assumption); simp) | simp) :
    Keeps fs s0 (fenceCoreAs a1 a2 a3 a4) := by
  simp only [List.cons_subset, List.nil_subset, and_true] at hm
  simp (maxDischargeDepth := 60) +contextual only [fenceCoreAs, h4, List.cons_subset, hm, List.nil_subset, and_self, markFenced_keeps, setCore_keeps, traceFence_keeps, run_keeps, keeps_ite]
theorem fenceCore_keeps {fs : List Field} {s0 : State} {a1 : CoreRef} {a2 : Nat} {a3 : State} (h3 : Keeps fs s0 a3) (hm : [.regs, .slots, .tasks, .ctrs, .cores, .clusters, .mem, .granger, .coll, .control, .step, .power, .traces, .out] ⊆ fs := by first | assumption | (refine List.Subset.trans ?_ (by assumption); simp) | simp) :
    Keeps fs s0 (fenceCore a1 a2 a3) := by
  simp only [List.cons_subset, List.nil_subset, and_true] at hm
  simp (maxDischargeDepth := 60) +contextual only [fenceCore, h3, List.cons_subset, hm, List.nil_subset, and_self, fenceCoreAs_keeps]
theorem signal_keeps {fs : List Field} {s0 : State} {a1 : Nat} {a2 : Nat} {a3 : Word} {a4 : Option Nat} {a5 : State} (h5 : Keeps fs s0 a5) (hm : [.regs, .slots, .tasks, .ctrs, .cores, .clusters, .mem, .granger, .coll, .control, .step, .power, .traces, .out] ⊆ fs := by first | assumption | (refine List.Subset.trans ?_ (by assumption); simp) | simp) :
    Keeps fs s0 (signal a1 a2 a3 a4 a5) := by
  simp only [List.cons_subset, List.nil_subset, and_true] at hm
  simp (maxDischargeDepth := 60) +contextual only [signal, h5, List.cons_subset, hm, List.nil_subset, and_self, run_keeps]
theorem rehomeShadow_keeps {fs : List Field} {s0 : State} {a1 : Nat} {a2 : Nat} {a3 : State} {a4 : Nat × Nat} (h3 : Keeps fs s0 a3) (hm : [.regs, .slots, .tasks, .ctrs, .cores, .clusters, .mem, .granger, .coll, .control, .step, .power, .traces, .out] ⊆ fs := by first | assumption | (refine List.Subset.trans ?_ (by assumption); simp) | simp) :
    Keeps fs s0 (rehomeShadow a1 a2 a3 a4) := by
  simp only [List.cons_subset, List.nil_subset, and_true] at hm
  simp (maxDischargeDepth := 60) +contextual only [rehomeShadow]
  repeat' (split <;> (try simp (maxDischargeDepth := 60) +contextual only [List.cons_subset, List.nil_subset, and_self, keeps_memrest, takeStack_keeps, fault_keeps, h3, hm]))
  all_goals (first | done | assumption)
theorem rehomeCopy_keeps {fs : List Field} {s0 : State} {a1 : Nat} {a2 : State} {a3 : WindowCopy} (h2 : Keeps fs s0 a2) (hm : [.mem, .granger] ⊆ fs := by first | assumption | (refine List.Subset.trans ?_ (by assumption); simp) | simp) :
    Keeps fs s0 (rehomeCopy a1 a2 a3) := by
  simp only [List.cons_subset, List.nil_subset, and_true] at hm
  simp (maxDischargeDepth := 60) +contextual only [rehomeCopy]
  repeat' (split <;> (try simp (maxDischargeDepth := 60) +contextual only [List.cons_subset, List.nil_subset, and_self, keeps_memrest, takeStack_keeps, dropWindow_keeps, h2, hm]))
  all_goals (first | done | assumption)
theorem clearStack_keeps {fs : List Field} {s0 : State} {a1 : Nat} {a2 : Nat} {a3 : State} (h3 : Keeps fs s0 a3) (hm : [.regs, .slots, .tasks, .ctrs, .cores, .clusters, .mem, .granger, .coll, .control, .step, .power, .traces, .out] ⊆ fs := by first | assumption | (refine List.Subset.trans ?_ (by assumption); simp) | simp) :
    Keeps fs s0 (clearStack a1 a2 a3) := by
  simp only [List.cons_subset, List.nil_subset, and_true] at hm
  simp (maxDischargeDepth := 60) +contextual only [clearStack, List.cons_subset, hm, List.nil_subset, and_self, rehomeCopy_keeps, implies_true, rehomeShadow_keeps, h3, keeps_foldl, refreshShadowUse_keeps]
theorem setStreamQ_keeps {fs : List Field} {s0 : State} {a1 : State} {a2 : Fin 8} {a3 : List StreamCmd} (h1 : Keeps fs s0 a1) (hm : [.regs, .streams] ⊆ fs := by first | assumption | (refine List.Subset.trans ?_ (by assumption); simp) | simp) :
    Keeps fs s0 (setStreamQ a1 a2 a3) := by
  simp only [List.cons_subset, List.nil_subset, and_true] at hm
  simp (maxDischargeDepth := 60) +contextual only [setStreamQ, h1, List.cons_subset, hm, List.nil_subset, and_self, keeps_streams, setFld_keeps]
theorem startMove_keeps {fs : List Field} {s0 : State} {a1 : State} {a2 : Nat} {a3 : Home} {a4 : Nat} (h1 : Keeps fs s0 a1) (hm : [.regs, .mem, .granger, .streams] ⊆ fs := by first | assumption | (refine List.Subset.trans ?_ (by assumption); simp) | simp) :
    Keeps fs s0 (startMove a1 a2 a3 a4) := by
  simp only [List.cons_subset, List.nil_subset, and_true] at hm
  simp (maxDischargeDepth := 60) +contextual only [startMove]
  repeat' (split <;> (try simp (maxDischargeDepth := 60) +contextual only [List.cons_subset, List.nil_subset, and_self, keeps_memrest, setStreamQ_keeps, takeStack_keeps, h1, hm]))
  all_goals (first | done | assumption)
theorem evacuateOne_keeps {fs : List Field} {s0 : State} {a1 : State} {a2 : Nat} (h1 : Keeps fs s0 a1) (hm : [.regs, .slots, .tasks, .ctrs, .cores, .clusters, .mem, .granger, .streams, .coll, .control, .step, .power, .traces, .out] ⊆ fs := by first | assumption | (refine List.Subset.trans ?_ (by assumption); simp) | simp) :
    Keeps fs s0 (evacuateOne a1 a2) := by
  simp only [List.cons_subset, List.nil_subset, and_true] at hm
  simp (maxDischargeDepth := 60) +contextual only [evacuateOne]
  repeat' (split <;> (try simp (maxDischargeDepth := 60) +contextual only [List.cons_subset, List.nil_subset, and_self, fault_keeps, startMove_keeps, h1, hm]))
  all_goals (first | done | assumption)
theorem evacuate_keeps {fs : List Field} {s0 : State} {a1 : State} {a2 : (Bushel → Bool)} (h1 : Keeps fs s0 a1) (hm : [.regs, .slots, .tasks, .ctrs, .cores, .clusters, .mem, .granger, .streams, .coll, .control, .step, .power, .traces, .out] ⊆ fs := by first | assumption | (refine List.Subset.trans ?_ (by assumption); simp) | simp) :
    Keeps fs s0 (evacuate a1 a2) := by
  simp only [List.cons_subset, List.nil_subset, and_true] at hm
  simp (maxDischargeDepth := 60) +contextual only [evacuate, List.cons_subset, hm, List.nil_subset, and_self, evacuateOne_keeps, implies_true, h1, keeps_foldl]
theorem declareUnusable_keeps {fs : List Field} {s0 : State} {a1 : Nat} {a2 : Nat} {a3 : State} (h3 : Keeps fs s0 a3) (hm : [.regs, .slots, .tasks, .ctrs, .cores, .clusters, .mem, .granger, .streams, .coll, .control, .step, .power, .traces, .out] ⊆ fs := by first | assumption | (refine List.Subset.trans ?_ (by assumption); simp) | simp) :
    Keeps fs s0 (declareUnusable a1 a2 a3) := by
  simp only [List.cons_subset, List.nil_subset, and_true] at hm
  simp (maxDischargeDepth := 60) +contextual only [declareUnusable, h3, List.cons_subset, hm, List.nil_subset, and_self, setFld_keeps, keeps_memrest, evacuate_keeps, clearStack_keeps, keeps_ite]
theorem countPoison_keeps {fs : List Field} {s0 : State} {a1 : Nat} {a2 : State} (h2 : Keeps fs s0 a2) (hm : [.regs, .slots, .tasks, .ctrs, .cores, .clusters, .mem, .granger, .streams, .coll, .control, .step, .power, .traces, .out] ⊆ fs := by first | assumption | (refine List.Subset.trans ?_ (by assumption); simp) | simp) :
    Keeps fs s0 (countPoison a1 a2) := by
  simp only [List.cons_subset, List.nil_subset, and_true] at hm
  simp (maxDischargeDepth := 60) +contextual only [countPoison, List.cons_subset, hm, List.nil_subset, and_self, declareUnusable_keeps, implies_true, h2, countUe_keeps, keeps_foldl]
theorem dropCopyCmds_keeps {fs : List Field} {s0 : State} {a1 : (Nat → Bool)} {a2 : State} (h2 : Keeps fs s0 a2) (hm : [.regs, .streams] ⊆ fs := by first | assumption | (refine List.Subset.trans ?_ (by assumption); simp) | simp) :
    Keeps fs s0 (dropCopyCmds a1 a2) := by
  simp only [List.cons_subset, List.nil_subset, and_true] at hm
  simp (maxDischargeDepth := 60) +contextual only [dropCopyCmds, List.cons_subset, hm, List.nil_subset, and_self, setStreamQ_keeps, keeps_ite, implies_true, h2, keeps_foldl]
theorem fenceMemory_keeps {fs : List Field} {s0 : State} {a1 : ClusterRef} {a2 : Nat} {a3 : State} (h3 : Keeps fs s0 a3) (hm : [.regs, .slots, .tasks, .ctrs, .cores, .clusters, .mem, .granger, .streams, .coll, .control, .step, .power, .traces, .out] ⊆ fs := by first | assumption | (refine List.Subset.trans ?_ (by assumption); simp) | simp) :
    Keeps fs s0 (fenceMemory a1 a2 a3) := by
  simp only [List.cons_subset, List.nil_subset, and_true] at hm
  simp (maxDischargeDepth := 60) +contextual only [fenceMemory, h3, List.cons_subset, hm, List.nil_subset, and_self, noteChange_keeps, setFld_keeps, traceFence_keeps, fault_keeps, keeps_ite, evacuate_keeps]
theorem fenceNode_keeps {fs : List Field} {s0 : State} {a1 : Fin 8} {a2 : Nat} {a3 : Nat} {a4 : State} (h4 : Keeps fs s0 a4) (hm : [.regs, .slots, .tasks, .ctrs, .cores, .clusters, .mem, .granger, .streams, .net, .coll, .control, .step, .power, .traces, .out] ⊆ fs := by first | assumption | (refine List.Subset.trans ?_ (by assumption); simp) | simp) :
    Keeps fs s0 (fenceNode a1 a2 a3 a4) := by
  simp only [List.cons_subset, List.nil_subset, and_true] at hm
  simp (maxDischargeDepth := 60) +contextual only [fenceNode, reduceCtorEq, h4, List.cons_subset, hm, List.nil_subset, and_self, noteChange_keeps, keeps_ite, wr_keeps, keeps_net, traceFence_keeps, fault_keeps, evacuate_keeps]
theorem poisonFault_keeps {fs : List Field} {s0 : State} {a1 : Nat} {a2 : State} (h2 : Keeps fs s0 a2) (hm : [.regs, .slots, .tasks, .ctrs, .cores, .clusters, .mem, .granger, .coll, .control, .step, .power, .traces, .out] ⊆ fs := by first | assumption | (refine List.Subset.trans ?_ (by assumption); simp) | simp) :
    Keeps fs s0 (poisonFault a1 a2) := by
  simp only [List.cons_subset, List.nil_subset, and_true] at hm
  simp (maxDischargeDepth := 60) +contextual only [poisonFault]
  repeat' (split <;> (try simp (maxDischargeDepth := 60) +contextual only [List.cons_subset, List.nil_subset, and_self, fault_keeps, h2, hm]))
  all_goals (first | done | assumption)
theorem meetPoison_keeps {fs : List Field} {s0 : State} {a1 : Nat} {a2 : Bool} {a3 : State} (h3 : Keeps fs s0 a3) (hm : [.regs, .slots, .tasks, .ctrs, .cores, .clusters, .mem, .granger, .streams, .coll, .control, .step, .power, .traces, .out] ⊆ fs := by first | assumption | (refine List.Subset.trans ?_ (by assumption); simp) | simp) :
    Keeps fs s0 (meetPoison a1 a2 a3) := by
  simp only [List.cons_subset, List.nil_subset, and_true] at hm
  simp (maxDischargeDepth := 60) +contextual only [meetPoison, h3, List.cons_subset, hm, List.nil_subset, and_self, countPoison_keeps, poisonFault_keeps, keeps_ite]
theorem allFencedVolt_keeps {fs : List Field} {s0 : State} {a1 : ClusterRef} {a2 : State} (h2 : Keeps fs s0 a2) (hm : [.regs] ⊆ fs := by first | assumption | (refine List.Subset.trans ?_ (by assumption); simp) | simp) :
    Keeps fs s0 (allFencedVolt a1 a2) := by
  simp only [List.cons_subset, List.nil_subset, and_true] at hm
  simp (maxDischargeDepth := 60) +contextual only [allFencedVolt, h2, List.cons_subset, hm, List.nil_subset, and_self, setFld_keeps, keeps_ite]
theorem refreshRepair_keeps {fs : List Field} {s0 : State} {a1 : State} (h1 : Keeps fs s0 a1) (hm : [.regs] ⊆ fs := by first | assumption | (refine List.Subset.trans ?_ (by assumption); simp) | simp) :
    Keeps fs s0 (refreshRepair a1) := by
  simp only [List.cons_subset, List.nil_subset, and_true] at hm
  simp (maxDischargeDepth := 60) +contextual only [refreshRepair, h1, List.cons_subset, hm, List.nil_subset, and_self, setFld_keeps]
theorem chainSend_keeps {fs : List Field} {s0 : State} {a1 : Nat} {a2 : Nat} {a3 : Nat} {a4 : Nat} {a5 : List Byte} {a6 : State} (h6 : Keeps fs s0 a6) (hm : [.out] ⊆ fs := by first | assumption | (refine List.Subset.trans ?_ (by assumption); simp) | simp) :
    Keeps fs s0 (chainSend a1 a2 a3 a4 a5 a6) := by
  simp only [List.cons_subset, List.nil_subset, and_true] at hm
  simp (maxDischargeDepth := 60) +contextual only [chainSend, h6, List.cons_subset, hm, List.nil_subset, and_self, keeps_out]
theorem keeperEvent_keeps {fs : List Field} {s0 : State} {a1 : Nat} {a2 : List Byte} {a3 : State} (h3 : Keeps fs s0 a3) (hm : [.out] ⊆ fs := by first | assumption | (refine List.Subset.trans ?_ (by assumption); simp) | simp) :
    Keeps fs s0 (keeperEvent a1 a2 a3) := by
  simp only [List.cons_subset, List.nil_subset, and_true] at hm
  simp (maxDischargeDepth := 60) +contextual only [keeperEvent, h3, List.cons_subset, hm, List.nil_subset, and_self, chainSend_keeps]
theorem blowRecord_keeps {fs : List Field} {s0 : State} {a1 : State} {a2 : CoreRef} {a3 : Bool} {a4 : Nat} (h1 : Keeps fs s0 a1) (hm : [.keeper] ⊆ fs := by first | assumption | (refine List.Subset.trans ?_ (by assumption); simp) | simp) :
    Keeps fs s0 (blowRecord a1 a2 a3 a4) := by
  simp only [List.cons_subset, List.nil_subset, and_true] at hm
  simp (maxDischargeDepth := 60) +contextual only [blowRecord, h1, List.cons_subset, hm, List.nil_subset, and_self, keeps_keeper]
theorem fieldRepair_keeps {fs : List Field} {s0 : State} {a1 : CoreRef} {a2 : ArrayLine} {a3 : State} (h3 : Keeps fs s0 a3) (hm : [.regs, .keeper, .out] ⊆ fs := by first | assumption | (refine List.Subset.trans ?_ (by assumption); simp) | simp) :
    Keeps fs s0 (fieldRepair a1 a2 a3) := by
  simp only [List.cons_subset, List.nil_subset, and_true] at hm
  simp (maxDischargeDepth := 60) +contextual only [fieldRepair]
  repeat' (split <;> (try simp (maxDischargeDepth := 60) +contextual only [keeps_ite, List.cons_subset, List.nil_subset, and_self, refreshRepair_keeps, keeperEvent_keeps, blowRecord_keeps, h3, hm]))
  all_goals (first | done | assumption)
theorem failSelfTest_keeps {fs : List Field} {s0 : State} {a1 : CoreRef} {a2 : State} (h2 : Keeps fs s0 a2) (hm : [.regs, .slots, .tasks, .ctrs, .cores, .clusters, .mem, .granger, .coll, .control, .step, .power, .traces, .out] ⊆ fs := by first | assumption | (refine List.Subset.trans ?_ (by assumption); simp) | simp) :
    Keeps fs s0 (failSelfTest a1 a2) := by
  simp only [List.cons_subset, List.nil_subset, and_true] at hm
  simp (maxDischargeDepth := 60) +contextual only [failSelfTest, h2, List.cons_subset, hm, List.nil_subset, and_self, fenceCore_keeps, markFenced_keeps, setCore_keeps]
theorem leaveFence_keeps {fs : List Field} {s0 : State} {a1 : CoreRef} {a2 : State} (h2 : Keeps fs s0 a2) (hm : [.regs, .cores, .granger] ⊆ fs := by first | assumption | (refine List.Subset.trans ?_ (by assumption); simp) | simp) :
    Keeps fs s0 (leaveFence a1 a2) := by
  simp only [List.cons_subset, List.nil_subset, and_true] at hm
  simp (maxDischargeDepth := 60) +contextual only [leaveFence, h2, List.cons_subset, hm, List.nil_subset, and_self, noteChange_keeps, setCoreState_keeps, setFld_keeps, wr_keeps, setCore_keeps]
theorem arraySelfTestDone_keeps {fs : List Field} {s0 : State} {a1 : CoreRef} {a2 : Option ArrayLine} {a3 : State} (h3 : Keeps fs s0 a3) (hm : [.regs, .slots, .tasks, .ctrs, .cores, .clusters, .mem, .granger, .coll, .control, .step, .keeper, .power, .traces, .out] ⊆ fs := by first | assumption | (refine List.Subset.trans ?_ (by assumption); simp) | simp) :
    Keeps fs s0 (arraySelfTestDone a1 a2 a3) := by
  simp only [List.cons_subset, List.nil_subset, and_true] at hm
  simp (maxDischargeDepth := 60) +contextual only [arraySelfTestDone]
  repeat' (split <;> (try simp (maxDischargeDepth := 60) +contextual only [keeps_ite, List.cons_subset, List.nil_subset, and_self, fieldRepair_keeps, failSelfTest_keeps, leaveFence_keeps, setCore_keeps, h3, hm]))
  all_goals (first | done | assumption)
theorem chainEvent_keeps {fs : List Field} {s0 : State} {a1 : Nat} {a2 : State} (h2 : Keeps fs s0 a2) (hm : [.out] ⊆ fs := by first | assumption | (refine List.Subset.trans ?_ (by assumption); simp) | simp) :
    Keeps fs s0 (chainEvent a1 a2) := by
  simp only [List.cons_subset, List.nil_subset, and_true] at hm
  simp (maxDischargeDepth := 60) +contextual only [chainEvent, h2, List.cons_subset, hm, List.nil_subset, and_self, chainSend_keeps]
theorem domainWindow_keeps {fs : List Field} {s0 : State} {a1 : ClusterWindow} {a2 : State} (h2 : Keeps fs s0 a2) (hm : [.regs, .slots, .tasks, .ctrs, .cores, .clusters, .mem, .granger, .streams, .net, .coll, .control, .step, .power, .traces, .out] ⊆ fs := by first | assumption | (refine List.Subset.trans ?_ (by assumption); simp) | simp) :
    Keeps fs s0 (domainWindow a1 a2) := by
  simp only [List.cons_subset, List.nil_subset, and_true] at hm
  simp (maxDischargeDepth := 60) +contextual only [domainWindow, h2, List.cons_subset, hm, List.nil_subset, and_self, wr_keeps, setCluster_keeps, fenceMemory_keeps, keeps_ite, fenceNode_keeps]
theorem countLow_keeps {fs : List Field} {s0 : State} {a1 : State} {a2 : CoreRef} {a3 : Nat} (h1 : Keeps fs s0 a1) (hm : [.cores] ⊆ fs := by first | assumption | (refine List.Subset.trans ?_ (by assumption); simp) | simp) :
    Keeps fs s0 (countLow a1 a2 a3) := by
  simp only [List.cons_subset, List.nil_subset, and_true] at hm
  simp (maxDischargeDepth := 60) +contextual only [countLow, h1, List.cons_subset, hm, List.nil_subset, and_self, setCore_keeps]
theorem floorLoss_keeps {fs : List Field} {s0 : State} {a1 : Bool} {a2 : CoreRef × Nat} {a3 : State} (h3 : Keeps fs s0 a3) (hm : [.regs, .slots, .tasks, .ctrs, .cores, .clusters, .mem, .granger, .coll, .control, .step, .power, .traces, .out] ⊆ fs := by first | assumption | (refine List.Subset.trans ?_ (by assumption); simp) | simp) :
    Keeps fs s0 (floorLoss a1 a2 a3) := by
  simp only [List.cons_subset, List.nil_subset, and_true] at hm
  simp (maxDischargeDepth := 60) +contextual only [floorLoss, h3, List.cons_subset, hm, List.nil_subset, and_self, countLow_keeps, fenceCore_keeps, keeps_ite]
theorem selfTestWindow_keeps {fs : List Field} {s0 : State} {a1 : Bool} {a2 : CoreRef × Nat} {a3 : State} (h3 : Keeps fs s0 a3) (hm : [.cores] ⊆ fs := by first | assumption | (refine List.Subset.trans ?_ (by assumption); simp) | simp) :
    Keeps fs s0 (selfTestWindow a1 a2 a3) := by
  simp only [List.cons_subset, List.nil_subset, and_true] at hm
  simp (maxDischargeDepth := 60) +contextual only [selfTestWindow]
  repeat' (split <;> (try simp (maxDischargeDepth := 60) +contextual only [keeps_ite, List.cons_subset, List.nil_subset, and_self, setCore_keeps, h3, hm]))
  all_goals (first | done | assumption)
theorem voltageLoop_keeps {fs : List Field} {s0 : State} {a1 : ClusterWindow} {a2 : State} (h2 : Keeps fs s0 a2) (hm : [.regs, .out] ⊆ fs := by first | assumption | (refine List.Subset.trans ?_ (by assumption); simp) | simp) :
    Keeps fs s0 (voltageLoop a1 a2) := by
  simp only [List.cons_subset, List.nil_subset, and_true] at hm
  simp (maxDischargeDepth := 60) +contextual only [voltageLoop]
  repeat' (split <;> (try simp (maxDischargeDepth := 60) +contextual only [keeps_ite, List.cons_subset, List.nil_subset, and_self, addReg_keeps, event_keeps, wr_keeps, h2, hm]))
  all_goals (first | done | assumption)
theorem noteRate_keeps {fs : List Field} {s0 : State} {a1 : State} {a2 : CoreRef} {a3 : Nat} (h1 : Keeps fs s0 a1) (hm : [.regs, .cores] ⊆ fs := by first | assumption | (refine List.Subset.trans ?_ (by assumption); simp) | simp) :
    Keeps fs s0 (noteRate a1 a2 a3) := by
  simp only [List.cons_subset, List.nil_subset, and_true] at hm
  simp (maxDischargeDepth := 60) +contextual only [noteRate, h1, List.cons_subset, hm, List.nil_subset, and_self, setCore_keeps, setFld_keeps]
theorem filterSpeed_keeps {fs : List Field} {s0 : State} {a1 : State} {a2 : CoreRef} {a3 : Nat} (h1 : Keeps fs s0 a1) (hm : [.cores] ⊆ fs := by first | assumption | (refine List.Subset.trans ?_ (by assumption); simp) | simp) :
    Keeps fs s0 (filterSpeed a1 a2 a3) := by
  simp only [List.cons_subset, List.nil_subset, and_true] at hm
  simp (maxDischargeDepth := 60) +contextual only [filterSpeed, h1, List.cons_subset, hm, List.nil_subset, and_self, setCore_keeps, keeps_ite]
theorem clusterWindow_keeps {fs : List Field} {s0 : State} {a1 : State} {a2 : ClusterWindow} (h1 : Keeps fs s0 a1) (hm : [.regs, .slots, .tasks, .ctrs, .cores, .clusters, .mem, .granger, .streams, .net, .coll, .control, .step, .power, .traces, .out] ⊆ fs := by first | assumption | (refine List.Subset.trans ?_ (by assumption); simp) | simp) :
    Keeps fs s0 (clusterWindow a1 a2) := by
  simp only [List.cons_subset, List.nil_subset, and_true] at hm
  simp (maxDischargeDepth := 60) +contextual only [clusterWindow, h1, List.cons_subset, hm, List.nil_subset, and_self, floorLoss_keeps, implies_true, fenceCore_keeps, selfTestWindow_keeps, noteRate_keeps, filterSpeed_keeps, keeps_foldl, voltageLoop_keeps, keeps_ite, domainWindow_keeps, allFencedVolt_keeps]
theorem controlWindow_keeps {fs : List Field} {s0 : State} {a1 : State} {a2 : Nat × Nat} (h1 : Keeps fs s0 a1) (hm : [.regs, .slots, .tasks, .ctrs, .cores, .clusters, .mem, .granger, .net, .coll, .control, .step, .power, .traces, .out] ⊆ fs := by first | assumption | (refine List.Subset.trans ?_ (by assumption); simp) | simp) :
    Keeps fs s0 (controlWindow a1 a2) := by
  simp only [List.cons_subset, List.nil_subset, and_true] at hm
  simp (maxDischargeDepth := 60) +contextual only [controlWindow, h1, List.cons_subset, hm, List.nil_subset, and_self, keeps_net, fault_keeps, keeps_ite]
theorem controlWindows_keeps {fs : List Field} {s0 : State} {a1 : List Nat} {a2 : State} (h2 : Keeps fs s0 a2) (hm : [.regs, .slots, .tasks, .ctrs, .cores, .clusters, .mem, .granger, .net, .coll, .control, .step, .power, .traces, .out] ⊆ fs := by first | assumption | (refine List.Subset.trans ?_ (by assumption); simp) | simp) :
    Keeps fs s0 (controlWindows a1 a2) := by
  simp only [List.cons_subset, List.nil_subset, and_true] at hm
  simp (maxDischargeDepth := 60) +contextual only [controlWindows, h2, List.cons_subset, hm, List.nil_subset, and_self, controlWindow_keeps, implies_true, keeps_net, keeps_foldl, keeps_ite]
theorem releaseCore_keeps {fs : List Field} {s0 : State} {a1 : State} {a2 : CoreRef} (h1 : Keeps fs s0 a1) (hm : [.regs, .cores] ⊆ fs := by first | assumption | (refine List.Subset.trans ?_ (by assumption); simp) | simp) :
    Keeps fs s0 (releaseCore a1 a2) := by
  simp only [List.cons_subset, List.nil_subset, and_true] at hm
  simp (maxDischargeDepth := 60) +contextual only [releaseCore, h1, List.cons_subset, hm, List.nil_subset, and_self, setCore_keeps, setFld_keeps, setCoreState_keeps]
theorem unfenceOne_keeps {fs : List Field} {s0 : State} {a1 : ClusterRef} {a2 : Word} {a3 : State} {a4 : Fin 16} (h3 : Keeps fs s0 a3) (hm : [.regs, .cores, .out] ⊆ fs := by first | assumption | (refine List.Subset.trans ?_ (by assumption); simp) | simp) :
    Keeps fs s0 (unfenceOne a1 a2 a3 a4) := by
  simp only [List.cons_subset, List.nil_subset, and_true] at hm
  simp (maxDischargeDepth := 60) +contextual only [unfenceOne, h3, List.cons_subset, hm, List.nil_subset, and_self, logErr_keeps, releaseCore_keeps, keeps_ite]
theorem doUnfence_keeps {fs : List Field} {s0 : State} {a1 : ClusterRef} {a2 : Word} {a3 : State} (h3 : Keeps fs s0 a3) (hm : [.regs, .cores, .out] ⊆ fs := by first | assumption | (refine List.Subset.trans ?_ (by assumption); simp) | simp) :
    Keeps fs s0 (doUnfence a1 a2 a3) := by
  simp only [List.cons_subset, List.nil_subset, and_true] at hm
  simp (maxDischargeDepth := 60) +contextual only [doUnfence, List.cons_subset, hm, List.nil_subset, and_self, unfenceOne_keeps, implies_true, h3, logIf_keeps, keeps_foldl, logErr_keeps, keeps_ite]
theorem execArraySelfTest_keeps {fs : List Field} {s0 : State} {a1 : CoreRef} {a2 : Option ArrayLine} {a3 : State} (h3 : Keeps fs s0 a3) (hm : [.regs, .slots, .tasks, .ctrs, .cores, .clusters, .mem, .granger, .coll, .control, .step, .keeper, .power, .traces, .out] ⊆ fs := by first | assumption | (refine List.Subset.trans ?_ (by assumption); simp) | simp) :
    KeepsO fs s0 (execArraySelfTest a1 a2 a3) := by
  simp only [List.cons_subset, List.nil_subset, and_true] at hm
  simp (maxDischargeDepth := 60) +contextual only [execArraySelfTest, h3, List.cons_subset, hm, List.nil_subset, and_self, arraySelfTestDone_keeps, implies_true, atTile_keeps]
theorem reply_keeps {fs : List Field} {s0 : State} {a1 : Word} {a2 : State} (h2 : Keeps fs s0 a2) (hm : [.out] ⊆ fs := by first | assumption | (refine List.Subset.trans ?_ (by assumption); simp) | simp) :
    Keeps fs s0 (reply a1 a2) := by
  simp only [List.cons_subset, List.nil_subset, and_true] at hm
  simp (maxDischargeDepth := 60) +contextual only [reply, h2, List.cons_subset, hm, List.nil_subset, and_self, keeps_out]
theorem readCmRate_keeps {fs : List Field} {s0 : State} {a1 : ClusterRef} {a2 : State} (h2 : Keeps fs s0 a2) (hm : [.regs, .out] ⊆ fs := by first | assumption | (refine List.Subset.trans ?_ (by assumption); simp) | simp) :
    Keeps fs s0 (readCmRate a1 a2) := by
  simp only [List.cons_subset, List.nil_subset, and_true] at hm
  simp (maxDischargeDepth := 60) +contextual only [readCmRate, h2, List.cons_subset, hm, List.nil_subset, and_self, setFld_keeps, reply_keeps]
theorem execCmRateRead_keeps {fs : List Field} {s0 : State} {a1 : ClusterRef} {a2 : State} (h2 : Keeps fs s0 a2) (hm : [.regs, .out] ⊆ fs := by first | assumption | (refine List.Subset.trans ?_ (by assumption); simp) | simp) :
    KeepsO fs s0 (execCmRateRead a1 a2) := by
  simp only [List.cons_subset, List.nil_subset, and_true] at hm
  simp (maxDischargeDepth := 60) +contextual only [execCmRateRead, h2, List.cons_subset, hm, List.nil_subset, and_self, readCmRate_keeps, implies_true, atTile_keeps]
theorem readCoreRate_keeps {fs : List Field} {s0 : State} {a1 : CoreRef} {a2 : State} (h2 : Keeps fs s0 a2) (hm : [.regs, .out] ⊆ fs := by first | assumption | (refine List.Subset.trans ?_ (by assumption); simp) | simp) :
    Keeps fs s0 (readCoreRate a1 a2) := by
  simp only [List.cons_subset, List.nil_subset, and_true] at hm
  simp (maxDischargeDepth := 60) +contextual only [readCoreRate, h2, List.cons_subset, hm, List.nil_subset, and_self, setFld_keeps, reply_keeps]
theorem execCoreRateRead_keeps {fs : List Field} {s0 : State} {a1 : CoreRef} {a2 : State} (h2 : Keeps fs s0 a2) (hm : [.regs, .out] ⊆ fs := by first | assumption | (refine List.Subset.trans ?_ (by assumption); simp) | simp) :
    KeepsO fs s0 (execCoreRateRead a1 a2) := by
  simp only [List.cons_subset, List.nil_subset, and_true] at hm
  simp (maxDischargeDepth := 60) +contextual only [execCoreRateRead, h2, List.cons_subset, hm, List.nil_subset, and_self, readCoreRate_keeps, implies_true, atTile_keeps]
theorem floorTestEnd_keeps {fs : List Field} {s0 : State} {a1 : CoreRef} {a2 : State} (h2 : Keeps fs s0 a2) (hm : [.regs, .slots, .tasks, .ctrs, .cores, .clusters, .mem, .granger, .coll, .control, .step, .power, .traces, .out] ⊆ fs := by first | assumption | (refine List.Subset.trans ?_ (by assumption); simp) | simp) :
    Keeps fs s0 (floorTestEnd a1 a2) := by
  simp only [List.cons_subset, List.nil_subset, and_true] at hm
  simp (maxDischargeDepth := 60) +contextual only [floorTestEnd, h2, List.cons_subset, hm, List.nil_subset, and_self, failSelfTest_keeps, leaveFence_keeps, keeps_ite]
theorem execFloorSelfTestEnd_keeps {fs : List Field} {s0 : State} {a1 : CoreRef} {a2 : State} (h2 : Keeps fs s0 a2) (hm : [.regs, .slots, .tasks, .ctrs, .cores, .clusters, .mem, .granger, .coll, .control, .step, .power, .traces, .out] ⊆ fs := by first | assumption | (refine List.Subset.trans ?_ (by assumption); simp) | simp) :
    KeepsO fs s0 (execFloorSelfTestEnd a1 a2) := by
  simp only [List.cons_subset, List.nil_subset, and_true] at hm
  simp (maxDischargeDepth := 60) +contextual only [execFloorSelfTestEnd, h2, List.cons_subset, hm, List.nil_subset, and_self, floorTestEnd_keeps, implies_true, atTile_keeps]
theorem rateWindowEnd_keeps {fs : List Field} {s0 : State} {a1 : List ClusterWindow} {a2 : List Nat} {a3 : State} (h3 : Keeps fs s0 a3) (hm : [.regs, .slots, .tasks, .ctrs, .cores, .clusters, .mem, .granger, .streams, .net, .coll, .control, .step, .power, .traces, .out] ⊆ fs := by first | assumption | (refine List.Subset.trans ?_ (by assumption); simp) | simp) :
    Keeps fs s0 (rateWindowEnd a1 a2 a3) := by
  simp only [List.cons_subset, List.nil_subset, and_true] at hm
  simp (maxDischargeDepth := 60) +contextual only [rateWindowEnd, h3, List.cons_subset, hm, List.nil_subset, and_self, clusterWindow_keeps, implies_true, keeps_foldl, controlWindows_keeps, keeps_ite]
theorem execRateWindowEnd_keeps {fs : List Field} {s0 : State} {a1 : List ClusterWindow} {a2 : List Nat} {a3 : State} (h3 : Keeps fs s0 a3) (hm : [.regs, .slots, .tasks, .ctrs, .cores, .clusters, .mem, .granger, .streams, .net, .coll, .control, .step, .power, .traces, .out] ⊆ fs := by first | assumption | (refine List.Subset.trans ?_ (by assumption); simp) | simp) :
    KeepsO fs s0 (execRateWindowEnd a1 a2 a3) := by
  simp only [List.cons_subset, List.nil_subset, and_true] at hm
  simp (maxDischargeDepth := 60) +contextual only [execRateWindowEnd, h3, List.cons_subset, hm, List.nil_subset, and_self, rateWindowEnd_keeps, keepsO_next]
theorem execUnfence_keeps {fs : List Field} {s0 : State} {a1 : Requester} {a2 : ClusterRef} {a3 : Word} {a4 : State} (h4 : Keeps fs s0 a4) (hm : [.regs, .cores, .out] ⊆ fs := by first | assumption | (refine List.Subset.trans ?_ (by assumption); simp) | simp) :
    KeepsO fs s0 (execUnfence a1 a2 a3 a4) := by
  simp only [List.cons_subset, List.nil_subset, and_true] at hm
  simp (maxDischargeDepth := 60) +contextual only [execUnfence, h4, List.cons_subset, hm, List.nil_subset, and_self, doUnfence_keeps, implies_true, byAt_keeps]

end Sys2Proof.Laws
end

