-- ==== Sys2Proof/Laws/KeepsCores.lean ====
section
/-! SUPPORT. What the operations keep (see Laws/Keeps.lean): cores, tiles, vectors, row engines, synchronisation. -/

namespace Sys2Proof.Laws

set_option Elab.async false

open Sys2Proof.Machine Sys2Proof.Safety

theorem afterChecks_keeps {fs : List Field} {s0 : State} {a1 : CheckResult} {a2 : State} {a3 : (State → IRes)} (h2 : Keeps fs s0 a2) (h3 : ∀ y0, Keeps fs s0 y0 → KeepsI fs s0 (a3 y0)) :
    KeepsI fs s0 (afterChecks a1 a2 a3) := by
  simp (maxDischargeDepth := 60) +contextual only [afterChecks]
  repeat' (split <;> (try simp (maxDischargeDepth := 60) +contextual only [h2, h3]))
  all_goals (first | done | assumption)
theorem respond_keeps {fs : List Field} {s0 : State} {a1 : NetPacket} {a2 : List Byte} {a3 : State} (h3 : Keeps fs s0 a3) (hm : [.net] ⊆ fs := by first | assumption | (refine List.Subset.trans ?_ (by assumption); simp) | simp) :
    Keeps fs s0 (respond a1 a2 a3) := by
  simp only [List.cons_subset, List.nil_subset, and_true] at hm
  simp (maxDischargeDepth := 60) +contextual only [respond, h3, List.cons_subset, hm, List.nil_subset, and_self, keeps_net]
theorem l1Room_keeps {fs : List Field} {s0 : State} {a1 : State} {a2 : CoreRef} (h1 : Keeps fs s0 a1) (hm : [.regs, .cores, .clusters, .mem, .granger, .net, .out, .free] ⊆ fs := by first | assumption | (refine List.Subset.trans ?_ (by assumption); simp) | simp) :
    Keeps fs s0 (l1Room a1 a2) := by
  simp only [List.cons_subset, List.nil_subset, and_true] at hm
  simp (maxDischargeDepth := 60) +contextual only [l1Room]
  repeat' (split <;> (try simp (maxDischargeDepth := 60) +contextual only [keeps_ite, List.cons_subset, List.nil_subset, and_self, setCore_keeps, slotUse_keeps, acceptLine_keeps, choose_keeps, h1, hm]))
  all_goals (first | done | assumption)
theorem installLine_keeps {fs : List Field} {s0 : State} {a1 : Nat} {a2 : Nat} {a3 : List Byte} {a4 : State} (h4 : Keeps fs s0 a4) (hm : [.regs, .cores, .clusters, .mem, .granger, .net, .out, .free] ⊆ fs := by first | assumption | (refine List.Subset.trans ?_ (by assumption); simp) | simp) :
    Keeps fs s0 (installLine a1 a2 a3 a4) := by
  simp only [List.cons_subset, List.nil_subset, and_true] at hm
  simp (maxDischargeDepth := 60) +contextual only [installLine, h4, List.cons_subset, hm, List.nil_subset, and_self, setCore_keeps, l1Room_keeps, event_keeps, keeps_ite]
theorem serveLine_keeps {fs : List Field} {s0 : State} {a1 : Bool} {a2 : Nat} {a3 : Nat} {a4 : State} (h4 : Keeps fs s0 a4) (hm : [.regs, .slots, .tasks, .ctrs, .cores, .clusters, .mem, .granger, .streams, .coll, .control, .step, .power, .traces, .out, .free] ⊆ fs := by first | assumption | (refine List.Subset.trans ?_ (by assumption); simp) | simp) :
    Keeps fs s0 (serveLine a1 a2 a3 a4).2 := by
  simp only [List.cons_subset, List.nil_subset, and_true] at hm
  simp (maxDischargeDepth := 60) +contextual only [serveLine, apply_ite Prod.snd, h4, List.cons_subset, hm, List.nil_subset, and_self, homeAccess_keeps, countPoison_keeps, keeps_ite]
theorem noteWait_keeps {fs : List Field} {s0 : State} {a1 : CoreRef} {a2 : Nat} {a3 : State} (h3 : Keeps fs s0 a3) (hm : [.regs] ⊆ fs := by first | assumption | (refine List.Subset.trans ?_ (by assumption); simp) | simp) :
    Keeps fs s0 (noteWait a1 a2 a3) := by
  simp only [List.cons_subset, List.nil_subset, and_true] at hm
  simp (maxDischargeDepth := 60) +contextual only [noteWait, h3, List.cons_subset, hm, List.nil_subset, and_self, wr_keeps, keeps_ite]
theorem bankResponse_keeps {fs : List Field} {s0 : State} {a1 : ClusterRef} {a2 : Nat} {a3 : State} (h3 : Keeps fs s0 a3) (hm : [.regs, .slots, .tasks, .ctrs, .cores, .clusters, .mem, .granger, .streams, .net, .coll, .control, .step, .power, .traces, .out, .free] ⊆ fs := by first | assumption | (refine List.Subset.trans ?_ (by assumption); simp) | simp) :
    Keeps fs s0 (bankResponse a1 a2 a3) := by
  simp only [List.cons_subset, List.nil_subset, and_true] at hm
  simp (maxDischargeDepth := 60) +contextual only [bankResponse]
  repeat' (split <;> (try simp (maxDischargeDepth := 60) +contextual only [List.cons_subset, List.nil_subset, and_self, respond_keeps, installLine_keeps, serveLine_keeps, noteWait_keeps, setBank_keeps, h3, hm]))
  all_goals (first | done | assumption)
theorem bankTurn_keeps {fs : List Field} {s0 : State} {a1 : ClusterRef} {a2 : Nat} {a3 : BankWaiter} {a4 : Nat} {a5 : State} (h5 : Keeps fs s0 a5) (hm : [.regs, .slots, .tasks, .ctrs, .cores, .clusters, .mem, .granger, .streams, .net, .coll, .control, .step, .power, .traces, .out, .free] ⊆ fs := by first | assumption | (refine List.Subset.trans ?_ (by assumption); simp) | simp) :
    Keeps fs s0 (bankTurn a1 a2 a3 a4 a5) := by
  induction a4 generalizing a5 with
  | zero => exact h5
  | succ k ih =>
    unfold bankTurn
    extract_lets
    exact keeps_ite (setBank_keeps h5) (ih (bankResponse_keeps h5))
theorem corePoisoned_keeps {fs : List Field} {s0 : State} {a1 : CoreRef} {a2 : Nat} {a3 : State} (h3 : Keeps fs s0 a3) (hm : [.regs, .slots, .tasks, .ctrs, .cores, .clusters, .mem, .granger, .streams, .coll, .control, .step, .power, .traces, .out] ⊆ fs := by first | assumption | (refine List.Subset.trans ?_ (by assumption); simp) | simp) :
    Keeps fs s0 (corePoisoned a1 a2 a3) := by
  simp only [List.cons_subset, List.nil_subset, and_true] at hm
  simp (maxDischargeDepth := 60) +contextual only [corePoisoned, h3, List.cons_subset, hm, List.nil_subset, and_self, logErr_keeps, poisonFault_keeps, keeps_ite, countPoison_keeps, meetPoison_keeps]
theorem takeSlots_keeps {fs : List Field} {s0 : State} {a1 : CoreRef} {a2 : Nat} {a3 : Nat} {a4 : State} (h4 : Keeps fs s0 a4) (hm : [.regs] ⊆ fs := by first | assumption | (refine List.Subset.trans ?_ (by assumption); simp) | simp) :
    Keeps fs s0 (takeSlots a1 a2 a3 a4) := by
  simp only [List.cons_subset, List.nil_subset, and_true] at hm
  simp (maxDischargeDepth := 60) +contextual only [takeSlots, h4, List.cons_subset, hm, List.nil_subset, and_self, slotUse_keeps, keeps_ite]
theorem reachHome_keeps {fs : List Field} {s0 : State} {a1 : CoreRef} {a2 : Nat} {a3 : State} (h3 : Keeps fs s0 a3) (hm : [.regs, .slots, .tasks, .ctrs, .cores, .clusters, .mem, .granger, .streams, .net, .coll, .control, .step, .power, .traces, .out, .free] ⊆ fs := by first | assumption | (refine List.Subset.trans ?_ (by assumption); simp) | simp) :
    Keeps fs s0 (reachHome a1 a2 a3) := by
  simp only [List.cons_subset, List.nil_subset, and_true] at hm
  simp (maxDischargeDepth := 60) +contextual only [reachHome]
  repeat' (split <;> (try simp (maxDischargeDepth := 60) +contextual only [keeps_ite, List.cons_subset, List.nil_subset, and_self, carry_keeps, bankTurn_keeps, h3, hm]))
  all_goals (first | done | assumption)
theorem l1Fill_keeps {fs : List Field} {s0 : State} {a1 : State} {a2 : CoreRef} {a3 : Bool} {a4 : Nat} (h1 : Keeps fs s0 a1) (hm : [.regs, .slots, .tasks, .ctrs, .cores, .clusters, .mem, .granger, .streams, .net, .coll, .control, .step, .power, .traces, .out, .free] ⊆ fs := by first | assumption | (refine List.Subset.trans ?_ (by assumption); simp) | simp) :
    Keeps fs s0 (l1Fill a1 a2 a3 a4) := by
  simp only [List.cons_subset, List.nil_subset, and_true] at hm
  simp (maxDischargeDepth := 60) +contextual only [l1Fill, h1, List.cons_subset, hm, List.nil_subset, and_self, reachHome_keeps, l1Room_keeps, homeAccess_keeps, event_keeps, setCore_keeps, keeps_ite]
theorem coreReadByte_keeps {fs : List Field} {s0 : State} {a1 : CoreRef} {a2 : Bool} {a3 : List Byte × State} {a4 : Nat} (h3 : Keeps fs s0 a3.2) (hm : [.regs, .slots, .tasks, .ctrs, .cores, .clusters, .mem, .granger, .streams, .net, .coll, .control, .step, .power, .traces, .out, .free] ⊆ fs := by first | assumption | (refine List.Subset.trans ?_ (by assumption); simp) | simp) :
    Keeps fs s0 (coreReadByte a1 a2 a3 a4).2 := by
  simp only [List.cons_subset, List.nil_subset, and_true] at hm
  simp (maxDischargeDepth := 60) +contextual only [coreReadByte, h3, List.cons_subset, hm, List.nil_subset, and_self, l1Fill_keeps]
theorem coreRead_keeps {fs : List Field} {s0 : State} {a1 : State} {a2 : CoreRef} {a3 : Nat} {a4 : Nat} (h1 : Keeps fs s0 a1) (hm : [.regs, .slots, .tasks, .ctrs, .cores, .clusters, .mem, .granger, .streams, .net, .coll, .control, .step, .power, .traces, .out, .free] ⊆ fs := by first | assumption | (refine List.Subset.trans ?_ (by assumption); simp) | simp) :
    Keeps fs s0 (coreRead a1 a2 a3 a4).2 := by
  unfold coreRead
  exact readStorage_keeps (keeps_foldl_snd (fun _ _ h => coreReadByte_keeps h) (takeSlots_keeps h1))
theorem l1Inject_keeps {fs : List Field} {s0 : State} {a1 : CoreRef} {a2 : Nat} {a3 : State} (h3 : Keeps fs s0 a3) (hm : [.regs, .cores, .out] ⊆ fs := by first | assumption | (refine List.Subset.trans ?_ (by assumption); simp) | simp) :
    Keeps fs s0 (l1Inject a1 a2 a3) := by
  simp only [List.cons_subset, List.nil_subset, and_true] at hm
  simp (maxDischargeDepth := 60) +contextual only [l1Inject, h3, List.cons_subset, hm, List.nil_subset, and_self, takeInjection_keeps, setCore_keeps, logErr_keeps, keeps_ite]
theorem l1Alloc_keeps {fs : List Field} {s0 : State} {a1 : State} {a2 : CoreRef} {a3 : Bool} {a4 : Nat} (h1 : Keeps fs s0 a1) (hm : [.regs, .cores, .clusters, .mem, .granger, .net, .out, .free] ⊆ fs := by first | assumption | (refine List.Subset.trans ?_ (by assumption); simp) | simp) :
    Keeps fs s0 (l1Alloc a1 a2 a3 a4) := by
  simp only [List.cons_subset, List.nil_subset, and_true] at hm
  simp (maxDischargeDepth := 60) +contextual only [l1Alloc, h1, List.cons_subset, hm, List.nil_subset, and_self, l1Room_keeps, setCore_keeps, keeps_ite]
theorem coreWriteByte_keeps {fs : List Field} {s0 : State} {a1 : CoreRef} {a2 : Bool} {a3 : List Nat} {a4 : State} {a5 : Nat × Byte} (h4 : Keeps fs s0 a4) (hm : [.regs, .slots, .tasks, .ctrs, .cores, .clusters, .mem, .granger, .streams, .net, .coll, .control, .step, .power, .traces, .out, .free] ⊆ fs := by first | assumption | (refine List.Subset.trans ?_ (by assumption); simp) | simp) :
    Keeps fs s0 (coreWriteByte a1 a2 a3 a4 a5) := by
  simp only [List.cons_subset, List.nil_subset, and_true] at hm
  simp (maxDischargeDepth := 60) +contextual only [coreWriteByte, h4, List.cons_subset, hm, List.nil_subset, and_self, l1Alloc_keeps, l1Fill_keeps, keeps_ite, setCore_keeps]
theorem coreWrite_keeps {fs : List Field} {s0 : State} {a1 : State} {a2 : CoreRef} {a3 : Nat} {a4 : List Byte} (h1 : Keeps fs s0 a1) (hm : [.regs, .slots, .tasks, .ctrs, .cores, .clusters, .mem, .granger, .streams, .net, .coll, .control, .step, .power, .traces, .out, .free] ⊆ fs := by first | assumption | (refine List.Subset.trans ?_ (by assumption); simp) | simp) :
    Keeps fs s0 (coreWrite a1 a2 a3 a4) := by
  simp only [List.cons_subset, List.nil_subset, and_true] at hm
  simp (maxDischargeDepth := 60) +contextual only [coreWrite, List.cons_subset, hm, List.nil_subset, and_self, coreWriteByte_keeps, implies_true, h1, takeSlots_keeps, keeps_foldl, setCore_keeps, l1Inject_keeps]
theorem coreWrites_keeps {fs : List Field} {s0 : State} {a1 : CoreRef} {a2 : List (Nat × List Byte)} {a3 : State} (h3 : Keeps fs s0 a3) (hm : [.regs, .slots, .tasks, .ctrs, .cores, .clusters, .mem, .granger, .streams, .net, .coll, .control, .step, .power, .traces, .out, .free] ⊆ fs := by first | assumption | (refine List.Subset.trans ?_ (by assumption); simp) | simp) :
    Keeps fs s0 (coreWrites a1 a2 a3) := by
  simp only [List.cons_subset, List.nil_subset, and_true] at hm
  simp (maxDischargeDepth := 60) +contextual only [coreWrites, List.cons_subset, hm, List.nil_subset, and_self, coreWrite_keeps, implies_true, h3, keeps_foldl]
theorem deferFault_keeps {fs : List Field} {s0 : State} {a1 : CoreRef} {a2 : Nat} {a3 : State} (h3 : Keeps fs s0 a3) (hm : [.regs, .slots, .tasks, .ctrs, .cores, .clusters, .mem, .granger, .coll, .control, .step, .power, .traces, .out] ⊆ fs := by first | assumption | (refine List.Subset.trans ?_ (by assumption); simp) | simp) :
    Keeps fs s0 (deferFault a1 a2 a3) := by
  simp only [List.cons_subset, List.nil_subset, and_true] at hm
  simp (maxDischargeDepth := 60) +contextual only [deferFault]
  repeat' (split <;> (try simp (maxDischargeDepth := 60) +contextual only [List.cons_subset, List.nil_subset, and_self, run_keeps, h3, hm]))
  all_goals (first | done | assumption)
theorem dropAhead_keeps {fs : List Field} {s0 : State} {a1 : CoreRef} {a2 : Nat} {a3 : State} (h3 : Keeps fs s0 a3) (hm : [.cores] ⊆ fs := by first | assumption | (refine List.Subset.trans ?_ (by assumption); simp) | simp) :
    Keeps fs s0 (dropAhead a1 a2 a3) := by
  simp only [List.cons_subset, List.nil_subset, and_true] at hm
  simp (maxDischargeDepth := 60) +contextual only [dropAhead, h3, List.cons_subset, hm, List.nil_subset, and_self, setCore_keeps]
theorem engineTurn_keeps {fs : List Field} {s0 : State} {a1 : ClusterRef} {a2 : State} {a3 : Nat} (h2 : Keeps fs s0 a2) (hm : [.regs, .slots, .tasks, .ctrs, .cores, .clusters, .mem, .granger, .streams, .net, .coll, .control, .step, .power, .traces, .out, .free] ⊆ fs := by first | assumption | (refine List.Subset.trans ?_ (by assumption); simp) | simp) :
    Keeps fs s0 (engineTurn a1 a2 a3) := by
  simp only [List.cons_subset, List.nil_subset, and_true] at hm
  simp (maxDischargeDepth := 60) +contextual only [engineTurn]
  repeat' (split <;> (try simp (maxDischargeDepth := 60) +contextual only [keeps_ite, List.cons_subset, List.nil_subset, and_self, bankTurn_keeps, h2, hm]))
  all_goals (first | done | assumption)
theorem engineTurns_keeps {fs : List Field} {s0 : State} {a1 : ClusterRef} {a2 : Nat} {a3 : Nat} {a4 : State} (h4 : Keeps fs s0 a4) (hm : [.regs, .slots, .tasks, .ctrs, .cores, .clusters, .mem, .granger, .streams, .net, .coll, .control, .step, .power, .traces, .out, .free] ⊆ fs := by first | assumption | (refine List.Subset.trans ?_ (by assumption); simp) | simp) :
    Keeps fs s0 (engineTurns a1 a2 a3 a4) := by
  simp only [List.cons_subset, List.nil_subset, and_true] at hm
  simp (maxDischargeDepth := 60) +contextual only [engineTurns, List.cons_subset, hm, List.nil_subset, and_self, engineTurn_keeps, implies_true, h4, keeps_foldl]
theorem readBankWait_keeps {fs : List Field} {s0 : State} {a1 : CoreRef} {a2 : State} (h2 : Keeps fs s0 a2) (hm : [.regs, .out] ⊆ fs := by first | assumption | (refine List.Subset.trans ?_ (by assumption); simp) | simp) :
    Keeps fs s0 (readBankWait a1 a2) := by
  simp only [List.cons_subset, List.nil_subset, and_true] at hm
  simp (maxDischargeDepth := 60) +contextual only [readBankWait, h2, List.cons_subset, hm, List.nil_subset, and_self, wr_keeps, reply_keeps]
theorem execBankWaitMaxRead_keeps {fs : List Field} {s0 : State} {a1 : CoreRef} {a2 : State} (h2 : Keeps fs s0 a2) (hm : [.regs, .out] ⊆ fs := by first | assumption | (refine List.Subset.trans ?_ (by assumption); simp) | simp) :
    KeepsO fs s0 (execBankWaitMaxRead a1 a2) := by
  simp only [List.cons_subset, List.nil_subset, and_true] at hm
  simp (maxDischargeDepth := 60) +contextual only [execBankWaitMaxRead, h2, List.cons_subset, hm, List.nil_subset, and_self, readBankWait_keeps, implies_true, atTile_keeps]
theorem homeResponse_keeps {fs : List Field} {s0 : State} {a1 : Nat} {a2 : State} (h2 : Keeps fs s0 a2) (hm : [.regs, .slots, .tasks, .ctrs, .cores, .clusters, .mem, .granger, .streams, .net, .coll, .control, .step, .power, .traces, .out, .free] ⊆ fs := by first | assumption | (refine List.Subset.trans ?_ (by assumption); simp) | simp) :
    Keeps fs s0 (homeResponse a1 a2) := by
  simp only [List.cons_subset, List.nil_subset, and_true] at hm
  simp (maxDischargeDepth := 60) +contextual only [homeResponse]
  repeat' (split <;> (try simp (maxDischargeDepth := 60) +contextual only [List.cons_subset, List.nil_subset, and_self, keeps_net, respond_keeps, serveLine_keeps, h2, hm]))
  all_goals (first | done | assumption)
theorem execMemoryResponse_keeps {fs : List Field} {s0 : State} {a1 : Responder} {a2 : State} (h2 : Keeps fs s0 a2) (hm : [.regs, .slots, .tasks, .ctrs, .cores, .clusters, .mem, .granger, .streams, .net, .coll, .control, .step, .power, .traces, .out, .free] ⊆ fs := by first | assumption | (refine List.Subset.trans ?_ (by assumption); simp) | simp) :
    KeepsO fs s0 (execMemoryResponse a1 a2) := by
  simp only [List.cons_subset, List.nil_subset, and_true] at hm
  simp (maxDischargeDepth := 60) +contextual only [execMemoryResponse]
  repeat' (split <;> (try simp (maxDischargeDepth := 60) +contextual only [List.cons_subset, List.nil_subset, and_self, implies_true, keepsO_next, keepsO_refused, keepsO_ite, and_self, homeResponse_keeps, bankResponse_keeps, atTile_keeps, h2, hm]))
  all_goals (first | done | assumption)
theorem sendAhead_keeps {fs : List Field} {s0 : State} {a1 : CoreRef} {a2 : Nat} {a3 : Bushel} {a4 : State} (h4 : Keeps fs s0 a4) (hm : [.regs, .cores, .net] ⊆ fs := by first | assumption | (refine List.Subset.trans ?_ (by assumption); simp) | simp) :
    Keeps fs s0 (sendAhead a1 a2 a3 a4) := by
  simp only [List.cons_subset, List.nil_subset, and_true] at hm
  simp (maxDischargeDepth := 60) +contextual only [sendAhead, reduceCtorEq, h4, List.cons_subset, hm, List.nil_subset, and_self, slotUse_keeps, setCore_keeps, keeps_net, keeps_ite]
theorem runaheadFetch_keeps {fs : List Field} {s0 : State} {a1 : CoreRef} {a2 : Nat} {a3 : State} (h3 : Keeps fs s0 a3) (hm : [.regs, .cores, .net] ⊆ fs := by first | assumption | (refine List.Subset.trans ?_ (by assumption); simp) | simp) :
    Keeps fs s0 (runaheadFetch a1 a2 a3) := by
  simp only [List.cons_subset, List.nil_subset, and_true] at hm
  simp (maxDischargeDepth := 60) +contextual only [runaheadFetch]
  repeat' (split <;> (try simp (maxDischargeDepth := 60) +contextual only [keeps_ite, List.cons_subset, List.nil_subset, and_self, sendAhead_keeps, setCore_keeps, addReg_keeps, h3, hm]))
  all_goals (first | done | assumption)
theorem execRunaheadFetch_keeps {fs : List Field} {s0 : State} {a1 : CoreRef} {a2 : Fin 8} {a3 : State} (h3 : Keeps fs s0 a3) (hm : [.regs, .cores, .net] ⊆ fs := by first | assumption | (refine List.Subset.trans ?_ (by assumption); simp) | simp) :
    KeepsO fs s0 (execRunaheadFetch a1 a2 a3) := by
  simp only [List.cons_subset, List.nil_subset, and_true] at hm
  simp (maxDischargeDepth := 60) +contextual only [execRunaheadFetch, h3, List.cons_subset, hm, List.nil_subset, and_self, runaheadFetch_keeps, implies_true, atTile_keeps]
theorem readSlotStat_keeps {fs : List Field} {s0 : State} {a1 : CoreRef} {a2 : State} (h2 : Keeps fs s0 a2) (hm : [.regs, .out] ⊆ fs := by first | assumption | (refine List.Subset.trans ?_ (by assumption); simp) | simp) :
    Keeps fs s0 (readSlotStat a1 a2) := by
  simp only [List.cons_subset, List.nil_subset, and_true] at hm
  simp (maxDischargeDepth := 60) +contextual only [readSlotStat, h2, List.cons_subset, hm, List.nil_subset, and_self, setFld_keeps, reply_keeps]
theorem execSlotStatRead_keeps {fs : List Field} {s0 : State} {a1 : CoreRef} {a2 : State} (h2 : Keeps fs s0 a2) (hm : [.regs, .out] ⊆ fs := by first | assumption | (refine List.Subset.trans ?_ (by assumption); simp) | simp) :
    KeepsO fs s0 (execSlotStatRead a1 a2) := by
  simp only [List.cons_subset, List.nil_subset, and_true] at hm
  simp (maxDischargeDepth := 60) +contextual only [execSlotStatRead, h2, List.cons_subset, hm, List.nil_subset, and_self, readSlotStat_keeps, implies_true, atTile_keeps]
theorem recordTexc_keeps {fs : List Field} {s0 : State} {a1 : CoreRef} {a2 : Nat} {a3 : Nat} {a4 : Nat} {a5 : Word} {a6 : State} (h6 : Keeps fs s0 a6) (hm : [.regs] ⊆ fs := by first | assumption | (refine List.Subset.trans ?_ (by assumption); simp) | simp) :
    Keeps fs s0 (recordTexc a1 a2 a3 a4 a5 a6) := by
  simp only [List.cons_subset, List.nil_subset, and_true] at hm
  simp (maxDischargeDepth := 60) +contextual only [recordTexc, h6, List.cons_subset, hm, List.nil_subset, and_self, wr_keeps]
theorem takeTrap_keeps {fs : List Field} {s0 : State} {a1 : CoreRef} {a2 : Nat} {a3 : Word} {a4 : Nat} {a5 : Nat} {a6 : State} (h6 : Keeps fs s0 a6) (hm : [.regs, .slots, .tasks, .ctrs, .cores, .clusters, .mem, .granger, .coll, .control, .step, .power, .traces, .out] ⊆ fs := by first | assumption | (refine List.Subset.trans ?_ (by assumption); simp) | simp) :
    Keeps fs s0 (takeTrap a1 a2 a3 a4 a5 a6) := by
  simp only [List.cons_subset, List.nil_subset, and_true] at hm
  simp (maxDischargeDepth := 60) +contextual only [takeTrap]
  repeat' (split <;> (try simp (maxDischargeDepth := 60) +contextual only [keeps_ite, List.cons_subset, List.nil_subset, and_self, freeCore_keeps, run_keeps, setCore_keeps, recordTexc_keeps, h6, hm]))
  all_goals (first | done | assumption)
theorem retire_keeps {fs : List Field} {s0 : State} {a1 : CoreRef} {a2 : Word} {a3 : State} (h3 : Keeps fs s0 a3) (hm : [.regs, .cores, .out] ⊆ fs := by first | assumption | (refine List.Subset.trans ?_ (by assumption); simp) | simp) :
    Keeps fs s0 (retire a1 a2 a3) := by
  simp only [List.cons_subset, List.nil_subset, and_true] at hm
  simp (maxDischargeDepth := 60) +contextual only [retire, h3, List.cons_subset, hm, List.nil_subset, and_self, setCore_keeps, event_keeps, keeps_ite]
theorem finish_keeps {fs : List Field} {s0 : State} {a1 : CoreRef} {a2 : Nat} {a3 : Word} {a4 : IRes} (h4 : KeepsI fs s0 a4) (hm : [.regs, .slots, .tasks, .ctrs, .cores, .clusters, .mem, .granger, .coll, .control, .step, .power, .traces, .out] ⊆ fs := by first | assumption | (refine List.Subset.trans ?_ (by assumption); simp) | simp) :
    Keeps fs s0 (finish a1 a2 a3 a4) := by
  cases a4 <;> simp only [finish] <;> first | exact retire_keeps h4 | exact h4 | exact takeTrap_keeps h4 | exact deferFault_keeps (retire_keeps h4)
theorem issue_keeps {fs : List Field} {s0 : State} {a1 : CoreRef} {a2 : (State → IRes)} {a3 : State} (h2 : ∀ y0, Keeps fs s0 y0 → KeepsI fs s0 (a2 y0)) (h3 : Keeps fs s0 a3) (hm : [.regs, .slots, .tasks, .ctrs, .cores, .clusters, .mem, .granger, .coll, .control, .step, .power, .traces, .out] ⊆ fs := by first | assumption | (refine List.Subset.trans ?_ (by assumption); simp) | simp) :
    Keeps fs s0 (issue a1 a2 a3) := by
  simp only [List.cons_subset, List.nil_subset, and_true] at hm
  simp (maxDischargeDepth := 60) +contextual only [issue, h3, h2, List.cons_subset, hm, List.nil_subset, and_self, finish_keeps, keeps_ite]
theorem execTrunaheadWrite_keeps {fs : List Field} {s0 : State} {a1 : CoreRef} {a2 : Word} {a3 : State} (h3 : Keeps fs s0 a3) (hm : [.regs, .slots, .tasks, .ctrs, .cores, .clusters, .mem, .granger, .coll, .control, .step, .power, .traces, .out] ⊆ fs := by first | assumption | (refine List.Subset.trans ?_ (by assumption); simp) | simp) :
    KeepsO fs s0 (execTrunaheadWrite a1 a2 a3) := by
  simp only [List.cons_subset, List.nil_subset, and_true] at hm
  simp (maxDischargeDepth := 60) +contextual only [execTrunaheadWrite, h3, List.cons_subset, hm, List.nil_subset, and_self, setCore_keeps, keepsI_ok, implies_true, issue_keeps, atTile_keeps]
theorem memStall_keeps {fs : List Field} {s0 : State} {a1 : CoreRef} {a2 : State} (h2 : Keeps fs s0 a2) (hm : [.cores] ⊆ fs := by first | assumption | (refine List.Subset.trans ?_ (by assumption); simp) | simp) :
    KeepsI fs s0 (memStall a1 a2) := by
  simp only [List.cons_subset, List.nil_subset, and_true] at hm
  simp (maxDischargeDepth := 60) +contextual only [memStall, h2, List.cons_subset, hm, List.nil_subset, and_self, setCore_keeps, keepsI_stall]
theorem poisonTrap_keeps {fs : List Field} {s0 : State} {a1 : CoreRef} {a2 : Nat} {a3 : Nat} {a4 : Nat} {a5 : State} (h5 : Keeps fs s0 a5) (hm : [.regs, .slots, .tasks, .ctrs, .cores, .clusters, .mem, .granger, .streams, .coll, .control, .step, .power, .traces, .out] ⊆ fs := by first | assumption | (refine List.Subset.trans ?_ (by assumption); simp) | simp) :
    KeepsI fs s0 (poisonTrap a1 a2 a3 a4 a5) := by
  simp only [List.cons_subset, List.nil_subset, and_true] at hm
  simp (maxDischargeDepth := 60) +contextual only [poisonTrap, h5, List.cons_subset, hm, List.nil_subset, and_self, corePoisoned_keeps, keepsI_trap]
theorem startAhead_keeps {fs : List Field} {s0 : State} {a1 : CoreRef} {a2 : Nat} {a3 : State} (h3 : Keeps fs s0 a3) (hm : [.cores] ⊆ fs := by first | assumption | (refine List.Subset.trans ?_ (by assumption); simp) | simp) :
    Keeps fs s0 (startAhead a1 a2 a3) := by
  simp only [List.cons_subset, List.nil_subset, and_true] at hm
  simp (maxDischargeDepth := 60) +contextual only [startAhead, h3, List.cons_subset, hm, List.nil_subset, and_self, setCore_keeps]
theorem storeRanges_keeps {fs : List Field} {s0 : State} {a1 : CoreRef} {a2 : List (Nat × List Byte)} {a3 : State} (h3 : Keeps fs s0 a3) (hm : [.regs, .slots, .tasks, .ctrs, .cores, .clusters, .mem, .granger, .streams, .net, .coll, .control, .step, .power, .traces, .out, .free] ⊆ fs := by first | assumption | (refine List.Subset.trans ?_ (by assumption); simp) | simp) :
    KeepsI fs s0 (storeRanges a1 a2 a3) := by
  simp only [List.cons_subset, List.nil_subset, and_true] at hm
  simp (maxDischargeDepth := 60) +contextual only [storeRanges]
  repeat' (split <;> (try simp (maxDischargeDepth := 60) +contextual only [List.cons_subset, List.nil_subset, and_self, keepsI_ok, keepsI_trap, and_self, coreWrites_keeps, poisonTrap_keeps, memStall_keeps, h3, hm]))
  all_goals (first | done | assumption)
theorem floorBeat_keeps {fs : List Field} {s0 : State} {a1 : CoreRef} {a2 : State} (h2 : Keeps fs s0 a2) (hm : [.regs, .out] ⊆ fs := by first | assumption | (refine List.Subset.trans ?_ (by assumption); simp) | simp) :
    Keeps fs s0 (floorBeat a1 a2) := by
  simp only [List.cons_subset, List.nil_subset, and_true] at hm
  simp (maxDischargeDepth := 60) +contextual only [floorBeat, h2, List.cons_subset, hm, List.nil_subset, and_self, event_keeps, keeps_ite]
theorem execFloorBeat_keeps {fs : List Field} {s0 : State} {a1 : CoreRef} {a2 : Bool} {a3 : State} (h3 : Keeps fs s0 a3) (hm : [.regs, .out] ⊆ fs := by first | assumption | (refine List.Subset.trans ?_ (by assumption); simp) | simp) :
    KeepsO fs s0 (execFloorBeat a1 a2 a3) := by
  simp only [List.cons_subset, List.nil_subset, and_true] at hm
  simp (maxDischargeDepth := 60) +contextual only [execFloorBeat, h3, List.cons_subset, hm, List.nil_subset, and_self, floorBeat_keeps, implies_true, atTile_keeps]
theorem illegal_keeps {fs : List Field} {s0 : State} {a1 : State} (h1 : Keeps fs s0 a1) (hm : [.free] ⊆ fs := by first | assumption | (refine List.Subset.trans ?_ (by assumption); simp) | simp) :
    KeepsI fs s0 (illegal a1) := by
  simp only [List.cons_subset, List.nil_subset, and_true] at hm
  simp (maxDischargeDepth := 60) +contextual only [illegal, h1, List.cons_subset, hm, List.nil_subset, and_self, keeps_free, keepsI_trap]
theorem tcvtOp_keeps {fs : List Field} {s0 : State} {a1 : CoreRef} {a2 : Nat} {a3 : Nat} {a4 : Nat} {a5 : State} (h5 : Keeps fs s0 a5) (hm : [.cores, .free] ⊆ fs := by first | assumption | (refine List.Subset.trans ?_ (by assumption); simp) | simp) :
    KeepsI fs s0 (tcvtOp a1 a2 a3 a4 a5) := by
  simp only [List.cons_subset, List.nil_subset, and_true] at hm
  simp (maxDischargeDepth := 60) +contextual only [tcvtOp, h5, List.cons_subset, hm, List.nil_subset, and_self, illegal_keeps, setCore_keeps, keepsI_ok, implies_true, afterChecks_keeps, keepsI_ite]
theorem execTcvt_keeps {fs : List Field} {s0 : State} {a1 : CoreRef} {a2 : Fin 8} {a3 : Fin 8} {a4 : Fin 8} {a5 : State} (h5 : Keeps fs s0 a5) (hm : [.regs, .slots, .tasks, .ctrs, .cores, .clusters, .mem, .granger, .coll, .control, .step, .power, .traces, .out, .free] ⊆ fs := by first | assumption | (refine List.Subset.trans ?_ (by assumption); simp) | simp) :
    KeepsO fs s0 (execTcvt a1 a2 a3 a4 a5) := by
  simp only [List.cons_subset, List.nil_subset, and_true] at hm
  simp (maxDischargeDepth := 60) +contextual only [execTcvt, h5, List.cons_subset, hm, List.nil_subset, and_self, tcvtOp_keeps, implies_true, issue_keeps, atTile_keeps]
theorem tdrOp_keeps {fs : List Field} {s0 : State} {a1 : CoreRef} {a2 : Nat} {a3 : Nat} {a4 : Nat} {a5 : State} (h5 : Keeps fs s0 a5) (hm : [.cores, .free] ⊆ fs := by first | assumption | (refine List.Subset.trans ?_ (by assumption); simp) | simp) :
    KeepsI fs s0 (tdrOp a1 a2 a3 a4 a5) := by
  simp only [List.cons_subset, List.nil_subset, and_true] at hm
  simp (maxDischargeDepth := 60) +contextual only [tdrOp, h5, List.cons_subset, hm, List.nil_subset, and_self, illegal_keeps, setCore_keeps, keepsI_ok, keepsI_ite]
theorem execTdr_keeps {fs : List Field} {s0 : State} {a1 : CoreRef} {a2 : Fin 8} {a3 : Fin 32} {a4 : Fin 8} {a5 : State} (h5 : Keeps fs s0 a5) (hm : [.regs, .slots, .tasks, .ctrs, .cores, .clusters, .mem, .granger, .coll, .control, .step, .power, .traces, .out, .free] ⊆ fs := by first | assumption | (refine List.Subset.trans ?_ (by assumption); simp) | simp) :
    KeepsO fs s0 (execTdr a1 a2 a3 a4 a5) := by
  simp only [List.cons_subset, List.nil_subset, and_true] at hm
  simp (maxDischargeDepth := 60) +contextual only [execTdr, h5, List.cons_subset, hm, List.nil_subset, and_self, tdrOp_keeps, implies_true, issue_keeps, atTile_keeps]
theorem tdwOp_keeps {fs : List Field} {s0 : State} {a1 : CoreRef} {a2 : Nat} {a3 : Nat} {a4 : Nat} {a5 : State} (h5 : Keeps fs s0 a5) (hm : [.cores, .free] ⊆ fs := by first | assumption | (refine List.Subset.trans ?_ (by assumption); simp) | simp) :
    KeepsI fs s0 (tdwOp a1 a2 a3 a4 a5) := by
  simp only [List.cons_subset, List.nil_subset, and_true] at hm
  simp (maxDischargeDepth := 60) +contextual only [tdwOp, h5, List.cons_subset, hm, List.nil_subset, and_self, illegal_keeps, setCore_keeps, keepsI_ok, keepsI_ite]
theorem execTdw_keeps {fs : List Field} {s0 : State} {a1 : CoreRef} {a2 : Fin 8} {a3 : Fin 32} {a4 : Fin 8} {a5 : State} (h5 : Keeps fs s0 a5) (hm : [.regs, .slots, .tasks, .ctrs, .cores, .clusters, .mem, .granger, .coll, .control, .step, .power, .traces, .out, .free] ⊆ fs := by first | assumption | (refine List.Subset.trans ?_ (by assumption); simp) | simp) :
    KeepsO fs s0 (execTdw a1 a2 a3 a4 a5) := by
  simp only [List.cons_subset, List.nil_subset, and_true] at hm
  simp (maxDischargeDepth := 60) +contextual only [execTdw, h5, List.cons_subset, hm, List.nil_subset, and_self, tdwOp_keeps, implies_true, issue_keeps, atTile_keeps]
theorem loadDone_keeps {fs : List Field} {s0 : State} {a1 : CoreRef} {a2 : List Nat} {a3 : Bool} {a4 : State} (h4 : Keeps fs s0 a4) (hm : [.regs, .slots, .tasks, .ctrs, .cores, .clusters, .mem, .granger, .streams, .coll, .control, .step, .power, .traces, .out] ⊆ fs := by first | assumption | (refine List.Subset.trans ?_ (by assumption); simp) | simp) :
    KeepsI fs s0 (loadDone a1 a2 a3 a4) := by
  simp only [List.cons_subset, List.nil_subset, and_true] at hm
  simp (maxDischargeDepth := 60) +contextual only [loadDone, List.cons_subset, hm, List.nil_subset, and_self, corePoisoned_keeps, implies_true, h4, keeps_foldl, keepsI_defer, keepsI_ok, keepsI_ite]
theorem noteMasked_keeps {fs : List Field} {s0 : State} {a1 : CoreRef} {a2 : List LoadRow} {a3 : State} (h3 : Keeps fs s0 a3) (hm : [.regs, .cores, .out] ⊆ fs := by first | assumption | (refine List.Subset.trans ?_ (by assumption); simp) | simp) :
    Keeps fs s0 (noteMasked a1 a2 a3) := by
  simp only [List.cons_subset, List.nil_subset, and_true] at hm
  simp (maxDischargeDepth := 60) +contextual only [noteMasked]
  repeat' (split <;> (try simp (maxDischargeDepth := 60) +contextual only [List.cons_subset, List.nil_subset, and_self, setCore_keeps, addReg_keeps, event_keeps, h3, hm]))
  all_goals (first | done | assumption)
theorem loadOneRow_keeps {fs : List Field} {s0 : State} {a1 : CoreRef} {a2 : Tile} {a3 : Nat} {a4 : List (Nat × Nat)} {a5 : Bool} {a6 : State} (h6 : Keeps fs s0 a6) (hm : [.regs, .slots, .tasks, .ctrs, .cores, .clusters, .mem, .granger, .streams, .net, .coll, .control, .step, .power, .traces, .out, .free] ⊆ fs := by first | assumption | (refine List.Subset.trans ?_ (by assumption); simp) | simp) :
    Keeps fs s0 (loadOneRow a1 a2 a3 a4 a5 a6) := by
  unfold loadOneRow
  split
  · exact setCore_keeps h6
  · dsimp only
    refine setCore_keeps ?_
    refine keeps_foldl_snd (fun _ _ h => ?_) h6
    exact coreRead_keeps h
theorem loadRows_keeps {fs : List Field} {s0 : State} {a1 : CoreRef} {a2 : Nat} {a3 : List LoadRow} {a4 : Word} {a5 : State} (h5 : Keeps fs s0 a5) (hm : [.regs, .slots, .tasks, .ctrs, .cores, .clusters, .mem, .granger, .streams, .net, .coll, .control, .step, .power, .traces, .out, .free] ⊆ fs := by first | assumption | (refine List.Subset.trans ?_ (by assumption); simp) | simp) :
    Keeps fs s0 (loadRows a1 a2 a3 a4 a5) := by
  simp only [List.cons_subset, List.nil_subset, and_true] at hm
  simp (maxDischargeDepth := 60) +contextual only [loadRows, List.cons_subset, hm, List.nil_subset, and_self, loadOneRow_keeps, implies_true, h5, keeps_foldl, setCore_keeps, noteMasked_keeps]
theorem tldOp_keeps {fs : List Field} {s0 : State} {a1 : CoreRef} {a2 : Nat} {a3 : Bool} {a4 : State} (h4 : Keeps fs s0 a4) (hm : [.regs, .slots, .tasks, .ctrs, .cores, .clusters, .mem, .granger, .streams, .net, .coll, .control, .step, .power, .traces, .out, .free] ⊆ fs := by first | assumption | (refine List.Subset.trans ?_ (by assumption); simp) | simp) :
    KeepsI fs s0 (tldOp a1 a2 a3 a4) := by
  simp only [tldOp]
  repeat' first | with_reducible assumption | (exact List.Subset.trans (by simp) hm) | (intro _ e; cases e; done) | with_reducible apply loadDone_keeps | with_reducible apply setCore_keeps | with_reducible apply startAhead_keeps | with_reducible apply loadRows_keeps | with_reducible apply memStall_keeps | with_reducible apply afterChecks_keeps | with_reducible apply keepsO_next | with_reducible apply keepsO_refused | with_reducible apply keepsI_ok | with_reducible apply keepsI_jump | with_reducible apply keepsI_trap | with_reducible apply keepsI_stall | with_reducible apply keepsI_defer | with_reducible apply keepsS_done | with_reducible apply keepsS_fault | with_reducible apply keepsL_value | with_reducible apply keepsL_blocks | with_reducible apply keepsR_ok | with_reducible apply keepsR_ecc | with_reducible apply keepsP_placed | with_reducible apply keepsP_refused | with_reducible apply keepsP_waits | with_reducible apply each_keeps | with_reducible apply keeps_foldl | (with_reducible refine (show ∀ x, _ = _ → _ from allOk_keeps ?_ ?_)) | (refine keeps_of_snd (by assumption) ?_) | (refine keeps_of_fst (by assumption) ?_) | (refine keeps_of_some (by assumption) ?_) | (refine keeps_of_some_snd (by assumption) ?_) | (refine keeps_of_some_fst (by assumption) ?_) | (refine keeps_of_some_snd2 (by assumption) ?_) | (refine keeps_of_okE (by assumption) ?_) | (refine keeps_of_okE_snd (by assumption) ?_) | (refine keeps_of_okE_fst (by assumption) ?_) | (refine keeps_of_okR (by assumption) ?_) | (refine keeps_of_eccR (by assumption) ?_) | (refine keeps_of_placed (by assumption) ?_) | (refine keeps_of_okI (by assumption) ?_) | (refine keeps_of_doneS (by assumption) ?_) | (refine keeps_of_valueL (by assumption) ?_) | (refine keeps_of_blocksL (by assumption) ?_) | intro _ | split
theorem execTld_keeps {fs : List Field} {s0 : State} {a1 : CoreRef} {a2 : Fin 8} {a3 : Bool} {a4 : State} (h4 : Keeps fs s0 a4) (hm : [.regs, .slots, .tasks, .ctrs, .cores, .clusters, .mem, .granger, .streams, .net, .coll, .control, .step, .power, .traces, .out, .free] ⊆ fs := by first | assumption | (refine List.Subset.trans ?_ (by assumption); simp) | simp) :
    KeepsO fs s0 (execTld a1 a2 a3 a4) := by
  simp only [List.cons_subset, List.nil_subset, and_true] at hm
  simp (maxDischargeDepth := 60) +contextual only [execTld, h4, List.cons_subset, hm, List.nil_subset, and_self, tldOp_keeps, implies_true, issue_keeps, atTile_keeps]
theorem tldsOp_keeps {fs : List Field} {s0 : State} {a1 : CoreRef} {a2 : Nat} {a3 : Nat} {a4 : Nat} {a5 : State} (h5 : Keeps fs s0 a5) (hm : [.regs, .slots, .tasks, .ctrs, .cores, .clusters, .mem, .granger, .streams, .net, .coll, .control, .step, .power, .traces, .out, .free] ⊆ fs := by first | assumption | (refine List.Subset.trans ?_ (by assumption); simp) | simp) :
    KeepsI fs s0 (tldsOp a1 a2 a3 a4 a5) := by
  simp only [tldsOp]
  repeat' first | with_reducible assumption | (exact List.Subset.trans (by simp) hm) | (intro _ e; cases e; done) | with_reducible apply loadRows_keeps | with_reducible apply loadDone_keeps | with_reducible apply memStall_keeps | with_reducible apply afterChecks_keeps | with_reducible apply keepsO_next | with_reducible apply keepsO_refused | with_reducible apply keepsI_ok | with_reducible apply keepsI_jump | with_reducible apply keepsI_trap | with_reducible apply keepsI_stall | with_reducible apply keepsI_defer | with_reducible apply keepsS_done | with_reducible apply keepsS_fault | with_reducible apply keepsL_value | with_reducible apply keepsL_blocks | with_reducible apply keepsR_ok | with_reducible apply keepsR_ecc | with_reducible apply keepsP_placed | with_reducible apply keepsP_refused | with_reducible apply keepsP_waits | with_reducible apply each_keeps | with_reducible apply keeps_foldl | (with_reducible refine (show ∀ x, _ = _ → _ from allOk_keeps ?_ ?_)) | (refine keeps_of_snd (by assumption) ?_) | (refine keeps_of_fst (by assumption) ?_) | (refine keeps_of_some (by assumption) ?_) | (refine keeps_of_some_snd (by assumption) ?_) | (refine keeps_of_some_fst (by assumption) ?_) | (refine keeps_of_some_snd2 (by assumption) ?_) | (refine keeps_of_okE (by assumption) ?_) | (refine keeps_of_okE_snd (by assumption) ?_) | (refine keeps_of_okE_fst (by assumption) ?_) | (refine keeps_of_okR (by assumption) ?_) | (refine keeps_of_eccR (by assumption) ?_) | (refine keeps_of_placed (by assumption) ?_) | (refine keeps_of_okI (by assumption) ?_) | (refine keeps_of_doneS (by assumption) ?_) | (refine keeps_of_valueL (by assumption) ?_) | (refine keeps_of_blocksL (by assumption) ?_) | intro _ | split
theorem execTlds_keeps {fs : List Field} {s0 : State} {a1 : CoreRef} {a2 : Fin 8} {a3 : Fin 32} {a4 : Fin 32} {a5 : State} (h5 : Keeps fs s0 a5) (hm : [.regs, .slots, .tasks, .ctrs, .cores, .clusters, .mem, .granger, .streams, .net, .coll, .control, .step, .power, .traces, .out, .free] ⊆ fs := by first | assumption | (refine List.Subset.trans ?_ (by assumption); simp) | simp) :
    KeepsO fs s0 (execTlds a1 a2 a3 a4 a5) := by
  simp only [List.cons_subset, List.nil_subset, and_true] at hm
  simp (maxDischargeDepth := 60) +contextual only [execTlds, h5, List.cons_subset, hm, List.nil_subset, and_self, tldsOp_keeps, implies_true, issue_keeps, atTile_keeps]
theorem twinMismatch_keeps {fs : List Field} {s0 : State} {a1 : CoreRef} {a2 : State} (h2 : Keeps fs s0 a2) (hm : [.regs, .slots, .tasks, .ctrs, .cores, .clusters, .mem, .granger, .coll, .control, .step, .power, .traces, .out] ⊆ fs := by first | assumption | (refine List.Subset.trans ?_ (by assumption); simp) | simp) :
    Keeps fs s0 (twinMismatch a1 a2) := by
  simp only [List.cons_subset, List.nil_subset, and_true] at hm
  simp (maxDischargeDepth := 60) +contextual only [twinMismatch, h2, List.cons_subset, hm, List.nil_subset, and_self, event_keeps, setCore_keeps, fenceCoreAs_keeps]
theorem gatedEvent_keeps {fs : List Field} {s0 : State} {a1 : CoreRef} {a2 : WBlock} {a3 : Tile} {a4 : State} (h4 : Keeps fs s0 a4) (hm : [.regs, .cores, .out, .free] ⊆ fs := by first | assumption | (refine List.Subset.trans ?_ (by assumption); simp) | simp) :
    Keeps fs s0 (gatedEvent a1 a2 a3 a4) := by
  simp only [List.cons_subset, List.nil_subset, and_true] at hm
  simp (maxDischargeDepth := 60) +contextual only [gatedEvent, apply_ite Prod.snd, apply_ite Prod.fst, h4, List.cons_subset, hm, List.nil_subset, and_self, choose_keeps, keeps_ite, setCore_keeps, event_keeps]
theorem tmmaOp_keeps {fs : List Field} {s0 : State} {a1 : Bool} {a2 : CoreRef} {a3 : Nat} {a4 : Nat} {a5 : Bool} {a6 : State} (h6 : Keeps fs s0 a6) (hm : [.regs, .slots, .tasks, .ctrs, .cores, .clusters, .mem, .granger, .coll, .control, .step, .power, .traces, .out, .free] ⊆ fs := by first | assumption | (refine List.Subset.trans ?_ (by assumption); simp) | simp) :
    KeepsI fs s0 (tmmaOp a1 a2 a3 a4 a5 a6) := by
  simp only [tmmaOp]
  repeat' first | with_reducible assumption | (exact List.Subset.trans (by simp) hm) | (intro _ e; cases e; done) | with_reducible apply twinMismatch_keeps | with_reducible apply setCore_keeps | with_reducible apply event_keeps | with_reducible apply gatedEvent_keeps | with_reducible apply afterChecks_keeps | with_reducible apply keepsO_next | with_reducible apply keepsO_refused | with_reducible apply keepsI_ok | with_reducible apply keepsI_jump | with_reducible apply keepsI_trap | with_reducible apply keepsI_stall | with_reducible apply keepsI_defer | with_reducible apply keepsS_done | with_reducible apply keepsS_fault | with_reducible apply keepsL_value | with_reducible apply keepsL_blocks | with_reducible apply keepsR_ok | with_reducible apply keepsR_ecc | with_reducible apply keepsP_placed | with_reducible apply keepsP_refused | with_reducible apply keepsP_waits | with_reducible apply each_keeps | with_reducible apply keeps_foldl | (with_reducible refine (show ∀ x, _ = _ → _ from allOk_keeps ?_ ?_)) | (refine keeps_of_snd (by assumption) ?_) | (refine keeps_of_fst (by assumption) ?_) | (refine keeps_of_some (by assumption) ?_) | (refine keeps_of_some_snd (by assumption) ?_) | (refine keeps_of_some_fst (by assumption) ?_) | (refine keeps_of_some_snd2 (by assumption) ?_) | (refine keeps_of_okE (by assumption) ?_) | (refine keeps_of_okE_snd (by assumption) ?_) | (refine keeps_of_okE_fst (by assumption) ?_) | (refine keeps_of_okR (by assumption) ?_) | (refine keeps_of_eccR (by assumption) ?_) | (refine keeps_of_placed (by assumption) ?_) | (refine keeps_of_okI (by assumption) ?_) | (refine keeps_of_doneS (by assumption) ?_) | (refine keeps_of_valueL (by assumption) ?_) | (refine keeps_of_blocksL (by assumption) ?_) | intro _ | split
theorem execTmma_keeps {fs : List Field} {s0 : State} {a1 : CoreRef} {a2 : Fin 8} {a3 : Fin 8} {a4 : Bool} {a5 : State} (h5 : Keeps fs s0 a5) (hm : [.regs, .slots, .tasks, .ctrs, .cores, .clusters, .mem, .granger, .coll, .control, .step, .power, .traces, .out, .free] ⊆ fs := by first | assumption | (refine List.Subset.trans ?_ (by assumption); simp) | simp) :
    KeepsO fs s0 (execTmma a1 a2 a3 a4 a5) := by
  simp only [List.cons_subset, List.nil_subset, and_true] at hm
  simp (maxDischargeDepth := 60) +contextual only [execTmma, h5, List.cons_subset, hm, List.nil_subset, and_self, tmmaOp_keeps, implies_true, issue_keeps, atTile_keeps]
theorem execTmmaz_keeps {fs : List Field} {s0 : State} {a1 : CoreRef} {a2 : Fin 8} {a3 : Fin 8} {a4 : Bool} {a5 : State} (h5 : Keeps fs s0 a5) (hm : [.regs, .slots, .tasks, .ctrs, .cores, .clusters, .mem, .granger, .coll, .control, .step, .power, .traces, .out, .free] ⊆ fs := by first | assumption | (refine List.Subset.trans ?_ (by assumption); simp) | simp) :
    KeepsO fs s0 (execTmmaz a1 a2 a3 a4 a5) := by
  simp only [List.cons_subset, List.nil_subset, and_true] at hm
  simp (maxDischargeDepth := 60) +contextual only [execTmmaz, h5, List.cons_subset, hm, List.nil_subset, and_self, tmmaOp_keeps, implies_true, issue_keeps, atTile_keeps]
theorem tstOp_keeps {fs : List Field} {s0 : State} {a1 : CoreRef} {a2 : Nat} {a3 : Bool} {a4 : State} (h4 : Keeps fs s0 a4) (hm : [.regs, .slots, .tasks, .ctrs, .cores, .clusters, .mem, .granger, .streams, .net, .coll, .control, .step, .power, .traces, .out, .free] ⊆ fs := by first | assumption | (refine List.Subset.trans ?_ (by assumption); simp) | simp) :
    KeepsI fs s0 (tstOp a1 a2 a3 a4) := by
  simp only [tstOp]
  repeat' first | with_reducible assumption | (exact List.Subset.trans (by simp) hm) | (intro _ e; cases e; done) | with_reducible apply setCore_keeps | with_reducible apply storeRanges_keeps | with_reducible apply afterChecks_keeps | with_reducible apply keepsO_next | with_reducible apply keepsO_refused | with_reducible apply keepsI_ok | with_reducible apply keepsI_jump | with_reducible apply keepsI_trap | with_reducible apply keepsI_stall | with_reducible apply keepsI_defer | with_reducible apply keepsS_done | with_reducible apply keepsS_fault | with_reducible apply keepsL_value | with_reducible apply keepsL_blocks | with_reducible apply keepsR_ok | with_reducible apply keepsR_ecc | with_reducible apply keepsP_placed | with_reducible apply keepsP_refused | with_reducible apply keepsP_waits | with_reducible apply each_keeps | with_reducible apply keeps_foldl | (with_reducible refine (show ∀ x, _ = _ → _ from allOk_keeps ?_ ?_)) | (refine keeps_of_snd (by assumption) ?_) | (refine keeps_of_fst (by assumption) ?_) | (refine keeps_of_some (by assumption) ?_) | (refine keeps_of_some_snd (by assumption) ?_) | (refine keeps_of_some_fst (by assumption) ?_) | (refine keeps_of_some_snd2 (by assumption) ?_) | (refine keeps_of_okE (by assumption) ?_) | (refine keeps_of_okE_snd (by assumption) ?_) | (refine keeps_of_okE_fst (by assumption) ?_) | (refine keeps_of_okR (by assumption) ?_) | (refine keeps_of_eccR (by assumption) ?_) | (refine keeps_of_placed (by assumption) ?_) | (refine keeps_of_okI (by assumption) ?_) | (refine keeps_of_doneS (by assumption) ?_) | (refine keeps_of_valueL (by assumption) ?_) | (refine keeps_of_blocksL (by assumption) ?_) | intro _ | split
theorem execTst_keeps {fs : List Field} {s0 : State} {a1 : CoreRef} {a2 : Fin 8} {a3 : Bool} {a4 : State} (h4 : Keeps fs s0 a4) (hm : [.regs, .slots, .tasks, .ctrs, .cores, .clusters, .mem, .granger, .streams, .net, .coll, .control, .step, .power, .traces, .out, .free] ⊆ fs := by first | assumption | (refine List.Subset.trans ?_ (by assumption); simp) | simp) :
    KeepsO fs s0 (execTst a1 a2 a3 a4) := by
  simp only [List.cons_subset, List.nil_subset, and_true] at hm
  simp (maxDischargeDepth := 60) +contextual only [execTst, h4, List.cons_subset, hm, List.nil_subset, and_self, tstOp_keeps, implies_true, issue_keeps, atTile_keeps]
theorem twlOp_keeps {fs : List Field} {s0 : State} {a1 : CoreRef} {a2 : Nat} {a3 : State} (h3 : Keeps fs s0 a3) (hm : [.regs, .cores] ⊆ fs := by first | assumption | (refine List.Subset.trans ?_ (by assumption); simp) | simp) :
    KeepsI fs s0 (twlOp a1 a2 a3) := by
  simp only [List.cons_subset, List.nil_subset, and_true] at hm
  simp (maxDischargeDepth := 60) +contextual only [twlOp, h3, List.cons_subset, hm, List.nil_subset, and_self, setCore_keeps, setFld_keeps, keepsI_ok, implies_true, afterChecks_keeps]
theorem execTwl_keeps {fs : List Field} {s0 : State} {a1 : CoreRef} {a2 : Fin 8} {a3 : State} (h3 : Keeps fs s0 a3) (hm : [.regs, .slots, .tasks, .ctrs, .cores, .clusters, .mem, .granger, .coll, .control, .step, .power, .traces, .out] ⊆ fs := by first | assumption | (refine List.Subset.trans ?_ (by assumption); simp) | simp) :
    KeepsO fs s0 (execTwl a1 a2 a3) := by
  simp only [List.cons_subset, List.nil_subset, and_true] at hm
  simp (maxDischargeDepth := 60) +contextual only [execTwl, h3, List.cons_subset, hm, List.nil_subset, and_self, twlOp_keeps, implies_true, issue_keeps, atTile_keeps]
theorem tzeroOp_keeps {fs : List Field} {s0 : State} {a1 : CoreRef} {a2 : Nat} {a3 : State} (h3 : Keeps fs s0 a3) (hm : [.cores] ⊆ fs := by first | assumption | (refine List.Subset.trans ?_ (by assumption); simp) | simp) :
    KeepsI fs s0 (tzeroOp a1 a2 a3) := by
  simp only [List.cons_subset, List.nil_subset, and_true] at hm
  simp (maxDischargeDepth := 60) +contextual only [tzeroOp, h3, List.cons_subset, hm, List.nil_subset, and_self, setCore_keeps, keepsI_ok, implies_true, afterChecks_keeps]
theorem execTzero_keeps {fs : List Field} {s0 : State} {a1 : CoreRef} {a2 : Fin 8} {a3 : State} (h3 : Keeps fs s0 a3) (hm : [.regs, .slots, .tasks, .ctrs, .cores, .clusters, .mem, .granger, .coll, .control, .step, .power, .traces, .out] ⊆ fs := by first | assumption | (refine List.Subset.trans ?_ (by assumption); simp) | simp) :
    KeepsO fs s0 (execTzero a1 a2 a3) := by
  simp only [List.cons_subset, List.nil_subset, and_true] at hm
  simp (maxDischargeDepth := 60) +contextual only [execTzero, h3, List.cons_subset, hm, List.nil_subset, and_self, tzeroOp_keeps, implies_true, issue_keeps, atTile_keeps]
theorem weightFillDone_keeps {fs : List Field} {s0 : State} {a1 : CoreRef} {a2 : State} (h2 : Keeps fs s0 a2) (hm : [.cores] ⊆ fs := by first | assumption | (refine List.Subset.trans ?_ (by assumption); simp) | simp) :
    Keeps fs s0 (weightFillDone a1 a2) := by
  simp only [List.cons_subset, List.nil_subset, and_true] at hm
  simp (maxDischargeDepth := 60) +contextual only [weightFillDone, h2, List.cons_subset, hm, List.nil_subset, and_self, setCore_keeps]
theorem execWeightFillDone_keeps {fs : List Field} {s0 : State} {a1 : CoreRef} {a2 : State} (h2 : Keeps fs s0 a2) (hm : [.cores] ⊆ fs := by first | assumption | (refine List.Subset.trans ?_ (by assumption); simp) | simp) :
    KeepsO fs s0 (execWeightFillDone a1 a2) := by
  simp only [List.cons_subset, List.nil_subset, and_true] at hm
  simp (maxDischargeDepth := 60) +contextual only [execWeightFillDone, h2, List.cons_subset, hm, List.nil_subset, and_self, weightFillDone_keeps, implies_true, atTile_keeps]
theorem lanewise_keeps {fs : List Field} {s0 : State} {a1 : (Lane → Lane → Lane)} {a2 : CoreRef} {a3 : Nat} {a4 : Nat} {a5 : Nat} {a6 : State} (h6 : Keeps fs s0 a6) (hm : [.cores] ⊆ fs := by first | assumption | (refine List.Subset.trans ?_ (by assumption); simp) | simp) :
    KeepsI fs s0 (lanewise a1 a2 a3 a4 a5 a6) := by
  simp only [List.cons_subset, List.nil_subset, and_true] at hm
  simp (maxDischargeDepth := 60) +contextual only [lanewise, h6, List.cons_subset, hm, List.nil_subset, and_self, setCore_keeps, keepsI_ok]
theorem execVadd_keeps {fs : List Field} {s0 : State} {a1 : CoreRef} {a2 : Fin 128} {a3 : Fin 128} {a4 : Fin 128} {a5 : State} (h5 : Keeps fs s0 a5) (hm : [.regs, .slots, .tasks, .ctrs, .cores, .clusters, .mem, .granger, .coll, .control, .step, .power, .traces, .out] ⊆ fs := by first | assumption | (refine List.Subset.trans ?_ (by assumption); simp) | simp) :
    KeepsO fs s0 (execVadd a1 a2 a3 a4 a5) := by
  simp only [List.cons_subset, List.nil_subset, and_true] at hm
  simp (maxDischargeDepth := 60) +contextual only [execVadd, h5, List.cons_subset, hm, List.nil_subset, and_self, lanewise_keeps, implies_true, issue_keeps, atTile_keeps]
theorem vcvtOp_keeps {fs : List Field} {s0 : State} {a1 : CoreRef} {a2 : Nat} {a3 : Nat} {a4 : Nat} {a5 : State} (h5 : Keeps fs s0 a5) (hm : [.cores, .free] ⊆ fs := by first | assumption | (refine List.Subset.trans ?_ (by assumption); simp) | simp) :
    KeepsI fs s0 (vcvtOp a1 a2 a3 a4 a5) := by
  simp only [List.cons_subset, List.nil_subset, and_true] at hm
  simp (maxDischargeDepth := 60) +contextual only [vcvtOp]
  repeat' (split <;> (try simp (maxDischargeDepth := 60) +contextual only [List.cons_subset, List.nil_subset, and_self, keepsI_ok, keepsI_ite, and_self, setCore_keeps, illegal_keeps, h5, hm]))
  all_goals (first | done | assumption)
theorem execVcvt_keeps {fs : List Field} {s0 : State} {a1 : CoreRef} {a2 : Fin 128} {a3 : Fin 128} {a4 : Fin 128} {a5 : State} (h5 : Keeps fs s0 a5) (hm : [.regs, .slots, .tasks, .ctrs, .cores, .clusters, .mem, .granger, .coll, .control, .step, .power, .traces, .out, .free] ⊆ fs := by first | assumption | (refine List.Subset.trans ?_ (by assumption); simp) | simp) :
    KeepsO fs s0 (execVcvt a1 a2 a3 a4 a5) := by
  simp only [List.cons_subset, List.nil_subset, and_true] at hm
  simp (maxDischargeDepth := 60) +contextual only [execVcvt, h5, List.cons_subset, hm, List.nil_subset, and_self, vcvtOp_keeps, implies_true, issue_keeps, atTile_keeps]
theorem vextOp_keeps {fs : List Field} {s0 : State} {a1 : CoreRef} {a2 : Nat} {a3 : Nat} {a4 : Nat} {a5 : State} (h5 : Keeps fs s0 a5) (hm : [.cores] ⊆ fs := by first | assumption | (refine List.Subset.trans ?_ (by assumption); simp) | simp) :
    KeepsI fs s0 (vextOp a1 a2 a3 a4 a5) := by
  simp only [List.cons_subset, List.nil_subset, and_true] at hm
  simp (maxDischargeDepth := 60) +contextual only [vextOp, h5, List.cons_subset, hm, List.nil_subset, and_self, setCore_keeps, keepsI_ok]
theorem execVext_keeps {fs : List Field} {s0 : State} {a1 : CoreRef} {a2 : Fin 128} {a3 : Fin 32} {a4 : Fin 32} {a5 : State} (h5 : Keeps fs s0 a5) (hm : [.regs, .slots, .tasks, .ctrs, .cores, .clusters, .mem, .granger, .coll, .control, .step, .power, .traces, .out] ⊆ fs := by first | assumption | (refine List.Subset.trans ?_ (by assumption); simp) | simp) :
    KeepsO fs s0 (execVext a1 a2 a3 a4 a5) := by
  simp only [List.cons_subset, List.nil_subset, and_true] at hm
  simp (maxDischargeDepth := 60) +contextual only [execVext, h5, List.cons_subset, hm, List.nil_subset, and_self, vextOp_keeps, implies_true, issue_keeps, atTile_keeps]
theorem vfmaOp_keeps {fs : List Field} {s0 : State} {a1 : CoreRef} {a2 : Nat} {a3 : Nat} {a4 : Nat} {a5 : State} (h5 : Keeps fs s0 a5) (hm : [.cores] ⊆ fs := by first | assumption | (refine List.Subset.trans ?_ (by assumption); simp) | simp) :
    KeepsI fs s0 (vfmaOp a1 a2 a3 a4 a5) := by
  simp only [List.cons_subset, List.nil_subset, and_true] at hm
  simp (maxDischargeDepth := 60) +contextual only [vfmaOp, h5, List.cons_subset, hm, List.nil_subset, and_self, setCore_keeps, keepsI_ok]
theorem execVfma_keeps {fs : List Field} {s0 : State} {a1 : CoreRef} {a2 : Fin 128} {a3 : Fin 128} {a4 : Fin 128} {a5 : State} (h5 : Keeps fs s0 a5) (hm : [.regs, .slots, .tasks, .ctrs, .cores, .clusters, .mem, .granger, .coll, .control, .step, .power, .traces, .out] ⊆ fs := by first | assumption | (refine List.Subset.trans ?_ (by assumption); simp) | simp) :
    KeepsO fs s0 (execVfma a1 a2 a3 a4 a5) := by
  simp only [List.cons_subset, List.nil_subset, and_true] at hm
  simp (maxDischargeDepth := 60) +contextual only [execVfma, h5, List.cons_subset, hm, List.nil_subset, and_self, vfmaOp_keeps, implies_true, issue_keeps, atTile_keeps]
theorem vfuncOp_keeps {fs : List Field} {s0 : State} {a1 : CoreRef} {a2 : Nat} {a3 : Nat} {a4 : Nat} {a5 : State} (h5 : Keeps fs s0 a5) (hm : [.cores, .free] ⊆ fs := by first | assumption | (refine List.Subset.trans ?_ (by assumption); simp) | simp) :
    KeepsI fs s0 (vfuncOp a1 a2 a3 a4 a5) := by
  simp only [List.cons_subset, List.nil_subset, and_true] at hm
  simp (maxDischargeDepth := 60) +contextual only [vfuncOp, h5, List.cons_subset, hm, List.nil_subset, and_self, illegal_keeps, setCore_keeps, keepsI_ok, keepsI_ite]
theorem execVfunc_keeps {fs : List Field} {s0 : State} {a1 : CoreRef} {a2 : Fin 128} {a3 : Fin 128} {a4 : Fin 128} {a5 : State} (h5 : Keeps fs s0 a5) (hm : [.regs, .slots, .tasks, .ctrs, .cores, .clusters, .mem, .granger, .coll, .control, .step, .power, .traces, .out, .free] ⊆ fs := by first | assumption | (refine List.Subset.trans ?_ (by assumption); simp) | simp) :
    KeepsO fs s0 (execVfunc a1 a2 a3 a4 a5) := by
  simp only [List.cons_subset, List.nil_subset, and_true] at hm
  simp (maxDischargeDepth := 60) +contextual only [execVfunc, h5, List.cons_subset, hm, List.nil_subset, and_self, vfuncOp_keeps, implies_true, issue_keeps, atTile_keeps]
theorem vldOp_keeps {fs : List Field} {s0 : State} {a1 : CoreRef} {a2 : Nat} {a3 : Nat} {a4 : State} (h4 : Keeps fs s0 a4) (hm : [.regs, .slots, .tasks, .ctrs, .cores, .clusters, .mem, .granger, .streams, .net, .coll, .control, .step, .power, .traces, .out, .free] ⊆ fs := by first | assumption | (refine List.Subset.trans ?_ (by assumption); simp) | simp) :
    KeepsI fs s0 (vldOp a1 a2 a3 a4) := by
  simp only [List.cons_subset, List.nil_subset, and_true] at hm
  simp (maxDischargeDepth := 60) +contextual only [vldOp]
  repeat' (split <;> (try simp (maxDischargeDepth := 60) +contextual only [List.cons_subset, List.nil_subset, and_self, keepsI_ok, keepsI_trap, and_self, setCore_keeps, coreRead_keeps, poisonTrap_keeps, memStall_keeps, h4, hm]))
  all_goals (first | done | assumption)
theorem execVld_keeps {fs : List Field} {s0 : State} {a1 : CoreRef} {a2 : Fin 128} {a3 : Fin 32} {a4 : State} (h4 : Keeps fs s0 a4) (hm : [.regs, .slots, .tasks, .ctrs, .cores, .clusters, .mem, .granger, .streams, .net, .coll, .control, .step, .power, .traces, .out, .free] ⊆ fs := by first | assumption | (refine List.Subset.trans ?_ (by assumption); simp) | simp) :
    KeepsO fs s0 (execVld a1 a2 a3 a4) := by
  simp only [List.cons_subset, List.nil_subset, and_true] at hm
  simp (maxDischargeDepth := 60) +contextual only [execVld, h4, List.cons_subset, hm, List.nil_subset, and_self, vldOp_keeps, implies_true, issue_keeps, atTile_keeps]
theorem execVmax_keeps {fs : List Field} {s0 : State} {a1 : CoreRef} {a2 : Fin 128} {a3 : Fin 128} {a4 : Fin 128} {a5 : State} (h5 : Keeps fs s0 a5) (hm : [.regs, .slots, .tasks, .ctrs, .cores, .clusters, .mem, .granger, .coll, .control, .step, .power, .traces, .out] ⊆ fs := by first | assumption | (refine List.Subset.trans ?_ (by assumption); simp) | simp) :
    KeepsO fs s0 (execVmax a1 a2 a3 a4 a5) := by
  simp only [List.cons_subset, List.nil_subset, and_true] at hm
  simp (maxDischargeDepth := 60) +contextual only [execVmax, h5, List.cons_subset, hm, List.nil_subset, and_self, lanewise_keeps, implies_true, issue_keeps, atTile_keeps]
theorem execVmin_keeps {fs : List Field} {s0 : State} {a1 : CoreRef} {a2 : Fin 128} {a3 : Fin 128} {a4 : Fin 128} {a5 : State} (h5 : Keeps fs s0 a5) (hm : [.regs, .slots, .tasks, .ctrs, .cores, .clusters, .mem, .granger, .coll, .control, .step, .power, .traces, .out] ⊆ fs := by first | assumption | (refine List.Subset.trans ?_ (by assumption); simp) | simp) :
    KeepsO fs s0 (execVmin a1 a2 a3 a4 a5) := by
  simp only [List.cons_subset, List.nil_subset, and_true] at hm
  simp (maxDischargeDepth := 60) +contextual only [execVmin, h5, List.cons_subset, hm, List.nil_subset, and_self, lanewise_keeps, implies_true, issue_keeps, atTile_keeps]
theorem execVmul_keeps {fs : List Field} {s0 : State} {a1 : CoreRef} {a2 : Fin 128} {a3 : Fin 128} {a4 : Fin 128} {a5 : State} (h5 : Keeps fs s0 a5) (hm : [.regs, .slots, .tasks, .ctrs, .cores, .clusters, .mem, .granger, .coll, .control, .step, .power, .traces, .out] ⊆ fs := by first | assumption | (refine List.Subset.trans ?_ (by assumption); simp) | simp) :
    KeepsO fs s0 (execVmul a1 a2 a3 a4 a5) := by
  simp only [List.cons_subset, List.nil_subset, and_true] at hm
  simp (maxDischargeDepth := 60) +contextual only [execVmul, h5, List.cons_subset, hm, List.nil_subset, and_self, lanewise_keeps, implies_true, issue_keeps, atTile_keeps]
theorem vmulxOp_keeps {fs : List Field} {s0 : State} {a1 : CoreRef} {a2 : Nat} {a3 : Nat} {a4 : State} (h4 : Keeps fs s0 a4) (hm : [.cores] ⊆ fs := by first | assumption | (refine List.Subset.trans ?_ (by assumption); simp) | simp) :
    KeepsI fs s0 (vmulxOp a1 a2 a3 a4) := by
  simp only [List.cons_subset, List.nil_subset, and_true] at hm
  simp (maxDischargeDepth := 60) +contextual only [vmulxOp, h4, List.cons_subset, hm, List.nil_subset, and_self, setCore_keeps, keepsI_ok]
theorem execVmulx_keeps {fs : List Field} {s0 : State} {a1 : CoreRef} {a2 : Fin 128} {a3 : Fin 32} {a4 : State} (h4 : Keeps fs s0 a4) (hm : [.regs, .slots, .tasks, .ctrs, .cores, .clusters, .mem, .granger, .coll, .control, .step, .power, .traces, .out] ⊆ fs := by first | assumption | (refine List.Subset.trans ?_ (by assumption); simp) | simp) :
    KeepsO fs s0 (execVmulx a1 a2 a3 a4) := by
  simp only [List.cons_subset, List.nil_subset, and_true] at hm
  simp (maxDischargeDepth := 60) +contextual only [execVmulx, h4, List.cons_subset, hm, List.nil_subset, and_self, vmulxOp_keeps, implies_true, issue_keeps, atTile_keeps]
theorem vredOp_keeps {fs : List Field} {s0 : State} {a1 : CoreRef} {a2 : Nat} {a3 : Nat} {a4 : Nat} {a5 : State} (h5 : Keeps fs s0 a5) (hm : [.cores, .free] ⊆ fs := by first | assumption | (refine List.Subset.trans ?_ (by assumption); simp) | simp) :
    KeepsI fs s0 (vredOp a1 a2 a3 a4 a5) := by
  simp only [List.cons_subset, List.nil_subset, and_true] at hm
  simp (maxDischargeDepth := 60) +contextual only [vredOp, h5, List.cons_subset, hm, List.nil_subset, and_self, illegal_keeps, setCore_keeps, keepsI_ok, keepsI_ite]
theorem execVred_keeps {fs : List Field} {s0 : State} {a1 : CoreRef} {a2 : Fin 128} {a3 : Fin 128} {a4 : Fin 128} {a5 : State} (h5 : Keeps fs s0 a5) (hm : [.regs, .slots, .tasks, .ctrs, .cores, .clusters, .mem, .granger, .coll, .control, .step, .power, .traces, .out, .free] ⊆ fs := by first | assumption | (refine List.Subset.trans ?_ (by assumption); simp) | simp) :
    KeepsO fs s0 (execVred a1 a2 a3 a4 a5) := by
  simp only [List.cons_subset, List.nil_subset, and_true] at hm
  simp (maxDischargeDepth := 60) +contextual only [execVred, h5, List.cons_subset, hm, List.nil_subset, and_self, vredOp_keeps, implies_true, issue_keeps, atTile_keeps]
theorem vsplatOp_keeps {fs : List Field} {s0 : State} {a1 : CoreRef} {a2 : Nat} {a3 : Nat} {a4 : State} (h4 : Keeps fs s0 a4) (hm : [.cores] ⊆ fs := by first | assumption | (refine List.Subset.trans ?_ (by assumption); simp) | simp) :
    KeepsI fs s0 (vsplatOp a1 a2 a3 a4) := by
  simp only [List.cons_subset, List.nil_subset, and_true] at hm
  simp (maxDischargeDepth := 60) +contextual only [vsplatOp, h4, List.cons_subset, hm, List.nil_subset, and_self, setCore_keeps, keepsI_ok]
theorem execVsplat_keeps {fs : List Field} {s0 : State} {a1 : CoreRef} {a2 : Fin 128} {a3 : Fin 32} {a4 : State} (h4 : Keeps fs s0 a4) (hm : [.regs, .slots, .tasks, .ctrs, .cores, .clusters, .mem, .granger, .coll, .control, .step, .power, .traces, .out] ⊆ fs := by first | assumption | (refine List.Subset.trans ?_ (by assumption); simp) | simp) :
    KeepsO fs s0 (execVsplat a1 a2 a3 a4) := by
  simp only [List.cons_subset, List.nil_subset, and_true] at hm
  simp (maxDischargeDepth := 60) +contextual only [execVsplat, h4, List.cons_subset, hm, List.nil_subset, and_self, vsplatOp_keeps, implies_true, issue_keeps, atTile_keeps]
theorem vstOp_keeps {fs : List Field} {s0 : State} {a1 : CoreRef} {a2 : Nat} {a3 : Nat} {a4 : State} (h4 : Keeps fs s0 a4) (hm : [.regs, .slots, .tasks, .ctrs, .cores, .clusters, .mem, .granger, .streams, .net, .coll, .control, .step, .power, .traces, .out, .free] ⊆ fs := by first | assumption | (refine List.Subset.trans ?_ (by assumption); simp) | simp) :
    KeepsI fs s0 (vstOp a1 a2 a3 a4) := by
  simp only [List.cons_subset, List.nil_subset, and_true] at hm
  simp (maxDischargeDepth := 60) +contextual only [vstOp]
  repeat' (split <;> (try simp (maxDischargeDepth := 60) +contextual only [List.cons_subset, List.nil_subset, and_self, storeRanges_keeps, h4, hm]))
  all_goals (first | done | assumption)
theorem execVst_keeps {fs : List Field} {s0 : State} {a1 : CoreRef} {a2 : Fin 128} {a3 : Fin 32} {a4 : State} (h4 : Keeps fs s0 a4) (hm : [.regs, .slots, .tasks, .ctrs, .cores, .clusters, .mem, .granger, .streams, .net, .coll, .control, .step, .power, .traces, .out, .free] ⊆ fs := by first | assumption | (refine List.Subset.trans ?_ (by assumption); simp) | simp) :
    KeepsO fs s0 (execVst a1 a2 a3 a4) := by
  simp only [List.cons_subset, List.nil_subset, and_true] at hm
  simp (maxDischargeDepth := 60) +contextual only [execVst, h4, List.cons_subset, hm, List.nil_subset, and_self, vstOp_keeps, implies_true, issue_keeps, atTile_keeps]
theorem execVsub_keeps {fs : List Field} {s0 : State} {a1 : CoreRef} {a2 : Fin 128} {a3 : Fin 128} {a4 : Fin 128} {a5 : State} (h5 : Keeps fs s0 a5) (hm : [.regs, .slots, .tasks, .ctrs, .cores, .clusters, .mem, .granger, .coll, .control, .step, .power, .traces, .out] ⊆ fs := by first | assumption | (refine List.Subset.trans ?_ (by assumption); simp) | simp) :
    KeepsO fs s0 (execVsub a1 a2 a3 a4 a5) := by
  simp only [List.cons_subset, List.nil_subset, and_true] at hm
  simp (maxDischargeDepth := 60) +contextual only [execVsub, h5, List.cons_subset, hm, List.nil_subset, and_self, lanewise_keeps, implies_true, issue_keeps, atTile_keeps]
theorem countSpill_keeps {fs : List Field} {s0 : State} {a1 : ClusterRef} {a2 : State} (h2 : Keeps fs s0 a2) (hm : [.regs, .out] ⊆ fs := by first | assumption | (refine List.Subset.trans ?_ (by assumption); simp) | simp) :
    Keeps fs s0 (countSpill a1 a2) := by
  simp only [List.cons_subset, List.nil_subset, and_true] at hm
  simp (maxDischargeDepth := 60) +contextual only [countSpill, h2, List.cons_subset, hm, List.nil_subset, and_self, addReg_keeps, event_keeps]
theorem readRow_keeps {fs : List Field} {s0 : State} {a1 : ClusterRef} {a2 : ReCmd} {a3 : Nat} {a4 : Nat} {a5 : State} (h5 : Keeps fs s0 a5) (hm : [.regs, .slots, .tasks, .ctrs, .cores, .clusters, .mem, .granger, .streams, .net, .coll, .control, .step, .power, .traces, .out, .free] ⊆ fs := by first | assumption | (refine List.Subset.trans ?_ (by assumption); simp) | simp) :
    ∀ x, (readRow a1 a2 a3 a4 a5) = .ok x → Keeps fs s0 x.2 := by
  simp only [List.cons_subset, List.nil_subset, and_true] at hm
  simp only [readRow]
  (repeat' split) <;> (try simp (maxDischargeDepth := 60) +contextual [List.cons_subset, List.nil_subset, and_self, implies_true, homeAccesses_keeps, engineTurns_keeps, h5, hm])
  all_goals (first | done | assumption)
theorem reStore_keeps {fs : List Field} {s0 : State} {a1 : ClusterRef} {a2 : Nat} {a3 : List Byte} {a4 : State} (h4 : Keeps fs s0 a4) (hm : [.regs, .slots, .tasks, .ctrs, .cores, .clusters, .mem, .granger, .streams, .net, .coll, .control, .step, .power, .traces, .out, .free] ⊆ fs := by first | assumption | (refine List.Subset.trans ?_ (by assumption); simp) | simp) :
    Keeps fs s0 (reStore a1 a2 a3 a4) := by
  simp only [List.cons_subset, List.nil_subset, and_true] at hm
  simp (maxDischargeDepth := 60) +contextual only [reStore, h4, List.cons_subset, hm, List.nil_subset, and_self, engineTurns_keeps, storeHome_keeps]
theorem recWrite_keeps {fs : List Field} {s0 : State} {a1 : ClusterRef} {a2 : Nat} {a3 : Word} {a4 : State} (h4 : Keeps fs s0 a4) (hm : [.regs, .slots, .tasks, .ctrs, .cores, .clusters, .mem, .granger, .streams, .net, .coll, .control, .step, .power, .traces, .out, .free] ⊆ fs := by first | assumption | (refine List.Subset.trans ?_ (by assumption); simp) | simp) :
    Keeps fs s0 (recWrite a1 a2 a3 a4) := by
  simp only [List.cons_subset, List.nil_subset, and_true] at hm
  simp (maxDischargeDepth := 60) +contextual only [recWrite, h4, List.cons_subset, hm, List.nil_subset, and_self, setCluster_keeps, reStore_keeps, countSpill_keeps, keeps_ite]
theorem rowWork_keeps {fs : List Field} {s0 : State} {a1 : ClusterRef} {a2 : ReCmd} {a3 : Nat} {a4 : Word} {a5 : State} (h5 : Keeps fs s0 a5) (hm : [.regs, .slots, .tasks, .ctrs, .cores, .clusters, .mem, .granger, .streams, .net, .coll, .control, .step, .power, .traces, .out, .free] ⊆ fs := by first | assumption | (refine List.Subset.trans ?_ (by assumption); simp) | simp) :
    KeepsR fs s0 (rowWork a1 a2 a3 a4 a5) := by
  simp only [rowWork]
  repeat' first | with_reducible assumption | (exact List.Subset.trans (by simp) hm) | (intro _ e; cases e; done) | with_reducible apply homeAccesses_keeps | with_reducible apply engineTurns_keeps | with_reducible apply reStore_keeps | with_reducible apply recWrite_keeps | with_reducible apply keepsO_next | with_reducible apply keepsO_refused | with_reducible apply keepsI_ok | with_reducible apply keepsI_jump | with_reducible apply keepsI_trap | with_reducible apply keepsI_stall | with_reducible apply keepsI_defer | with_reducible apply keepsS_done | with_reducible apply keepsS_fault | with_reducible apply keepsL_value | with_reducible apply keepsL_blocks | with_reducible apply keepsR_ok | with_reducible apply keepsR_ecc | with_reducible apply keepsP_placed | with_reducible apply keepsP_refused | with_reducible apply keepsP_waits | with_reducible apply each_keeps | with_reducible apply keeps_foldl | (with_reducible refine (show ∀ x, _ = _ → _ from readRow_keeps ?_)) | (with_reducible refine (show ∀ x, _ = _ → _ from allOk_keeps ?_ ?_)) | (refine keeps_of_snd (by assumption) ?_) | (refine keeps_of_fst (by assumption) ?_) | (refine keeps_of_some (by assumption) ?_) | (refine keeps_of_some_snd (by assumption) ?_) | (refine keeps_of_some_fst (by assumption) ?_) | (refine keeps_of_some_snd2 (by assumption) ?_) | (refine keeps_of_okE (by assumption) ?_) | (refine keeps_of_okE_snd (by assumption) ?_) | (refine keeps_of_okE_fst (by assumption) ?_) | (refine keeps_of_okR (by assumption) ?_) | (refine keeps_of_eccR (by assumption) ?_) | (refine keeps_of_placed (by assumption) ?_) | (refine keeps_of_okI (by assumption) ?_) | (refine keeps_of_doneS (by assumption) ?_) | (refine keeps_of_valueL (by assumption) ?_) | (refine keeps_of_blocksL (by assumption) ?_) | intro _ | split
theorem recRead_keeps {fs : List Field} {s0 : State} {a1 : ClusterRef} {a2 : Nat} {a3 : State} (h3 : Keeps fs s0 a3) (hm : [.regs, .slots, .tasks, .ctrs, .cores, .clusters, .mem, .granger, .streams, .net, .coll, .control, .step, .power, .traces, .out, .free] ⊆ fs := by first | assumption | (refine List.Subset.trans ?_ (by assumption); simp) | simp) :
    Keeps fs s0 (recRead a1 a2 a3).2 := by
  simp only [List.cons_subset, List.nil_subset, and_true] at hm
  simp (maxDischargeDepth := 60) +contextual only [recRead, apply_ite Prod.snd, h3, List.cons_subset, hm, List.nil_subset, and_self, engineTurns_keeps, homeAccess_keeps, countSpill_keeps, keeps_ite]
theorem doRow_keeps {fs : List Field} {s0 : State} {a1 : ClusterRef} {a2 : ReCmd} {a3 : State} {a4 : Nat} (h3 : Keeps fs s0 a3) (hm : [.regs, .slots, .tasks, .ctrs, .cores, .clusters, .mem, .granger, .streams, .net, .coll, .control, .step, .power, .traces, .out, .free] ⊆ fs := by first | assumption | (refine List.Subset.trans ?_ (by assumption); simp) | simp) :
    KeepsR fs s0 (doRow a1 a2 a3 a4) := by
  simp only [List.cons_subset, List.nil_subset, and_true] at hm
  simp (maxDischargeDepth := 60) +contextual only [doRow]
  repeat' (split <;> (try simp (maxDischargeDepth := 60) +contextual only [List.cons_subset, List.nil_subset, and_self, rowWork_keeps, recRead_keeps, h3, hm]))
  all_goals (first | done | assumption)
theorem doRows_keeps {fs : List Field} {s0 : State} {a1 : ClusterRef} {a2 : ReCmd} {a3 : List Nat} {a4 : State} (h4 : Keeps fs s0 a4) (hm : [.regs, .slots, .tasks, .ctrs, .cores, .clusters, .mem, .granger, .streams, .net, .coll, .control, .step, .power, .traces, .out, .free] ⊆ fs := by first | assumption | (refine List.Subset.trans ?_ (by assumption); simp) | simp) :
    KeepsR fs s0 (doRows a1 a2 a3 a4) := by
  induction a3 generalizing a4 with
  | nil => exact h4
  | cons r l ih =>
    unfold doRows
    split
    · exact ih (keeps_of_okR (by assumption) (doRow_keeps h4))
    · exact keepsR_ecc (keeps_of_eccR (by assumption) (doRow_keeps h4))
theorem reMeet_keeps {fs : List Field} {s0 : State} {a1 : ClusterRef} {a2 : ReBad} {a3 : Bool} {a4 : State} (h4 : Keeps fs s0 a4) (hm : [.regs, .slots, .tasks, .ctrs, .cores, .clusters, .mem, .granger, .streams, .coll, .control, .step, .power, .traces, .out] ⊆ fs := by first | assumption | (refine List.Subset.trans ?_ (by assumption); simp) | simp) :
    Keeps fs s0 (reMeet a1 a2 a3 a4) := by
  simp only [List.cons_subset, List.nil_subset, and_true] at hm
  simp (maxDischargeDepth := 60) +contextual only [reMeet]
  repeat' (split <;> (try simp (maxDischargeDepth := 60) +contextual only [keeps_ite, List.cons_subset, List.nil_subset, and_self, fault_keeps, logErr_keeps, meetPoison_keeps, h4, hm]))
  all_goals (first | done | assumption)
theorem reCount_keeps {fs : List Field} {s0 : State} {a1 : ClusterRef} {a2 : State} (h2 : Keeps fs s0 a2) (hm : [.regs] ⊆ fs := by first | assumption | (refine List.Subset.trans ?_ (by assumption); simp) | simp) :
    Keeps fs s0 (reCount a1 a2) := by
  simp only [List.cons_subset, List.nil_subset, and_true] at hm
  simp (maxDischargeDepth := 60) +contextual only [reCount, h2, List.cons_subset, hm, List.nil_subset, and_self, setFld_keeps]
theorem reComplete_keeps {fs : List Field} {s0 : State} {a1 : ClusterRef} {a2 : Nat} {a3 : Option Nat} {a4 : ReCmd} {a5 : Nat} {a6 : State} (h6 : Keeps fs s0 a6) (hm : [.regs, .slots, .tasks, .ctrs, .cores, .clusters, .mem, .granger, .streams, .net, .coll, .control, .step, .power, .traces, .out, .free] ⊆ fs := by first | assumption | (refine List.Subset.trans ?_ (by assumption); simp) | simp) :
    Keeps fs s0 (reComplete a1 a2 a3 a4 a5 a6) := by
  simp only [List.cons_subset, List.nil_subset, and_true] at hm
  simp (maxDischargeDepth := 60) +contextual only [reComplete, h6, List.cons_subset, hm, List.nil_subset, and_self, setCluster_keeps, reCount_keeps, setFld_keeps, reStore_keeps, keeps_ite, addReg_keeps, event_keeps, wr_keeps, logErr_keeps, trace_keeps, signal_keeps]
theorem reRun_keeps {fs : List Field} {s0 : State} {a1 : Nat} {a2 : ClusterRef} {a3 : State} (h3 : Keeps fs s0 a3) (hm : [.regs, .slots, .tasks, .ctrs, .cores, .clusters, .mem, .granger, .streams, .net, .coll, .control, .step, .power, .traces, .out, .free] ⊆ fs := by first | assumption | (refine List.Subset.trans ?_ (by assumption); simp) | simp) :
    Keeps fs s0 (reRun a1 a2 a3) := by
  unfold reRun
  split
  · exact h3
  · extract_lets c
    clear_value c
    split
    · exact h3
    split
    · exact meetPoison_keeps (reComplete_keeps h3)
    · have h := homeAccess_keeps (a1 := false) (a2 := a2.tile.val) (a3 := lineNo ‹Nat›) (engineTurns_keeps (a1 := a2) (a2 := ‹Nat›) (a3 := 64) h3)
      split
      · exact reComplete_keeps h
      split
      · exact reComplete_keeps h
      split
      · exact reComplete_keeps (keeps_of_okR (by assumption) (doRows_keeps h))
      · exact reMeet_keeps (reComplete_keeps (keeps_of_eccR (by assumption) (doRows_keeps h)))
theorem execReDot_keeps {fs : List Field} {s0 : State} {a1 : ClusterRef} {a2 : State} (h2 : Keeps fs s0 a2) (hm : [.regs, .slots, .tasks, .ctrs, .cores, .clusters, .mem, .granger, .streams, .net, .coll, .control, .step, .power, .traces, .out, .free] ⊆ fs := by first | assumption | (refine List.Subset.trans ?_ (by assumption); simp) | simp) :
    KeepsO fs s0 (execReDot a1 a2) := by
  simp only [List.cons_subset, List.nil_subset, and_true] at hm
  simp (maxDischargeDepth := 60) +contextual only [execReDot, h2, List.cons_subset, hm, List.nil_subset, and_self, reRun_keeps, implies_true, atTile_keeps]
theorem execReFill_keeps {fs : List Field} {s0 : State} {a1 : ClusterRef} {a2 : State} (h2 : Keeps fs s0 a2) (hm : [.regs, .slots, .tasks, .ctrs, .cores, .clusters, .mem, .granger, .streams, .net, .coll, .control, .step, .power, .traces, .out, .free] ⊆ fs := by first | assumption | (refine List.Subset.trans ?_ (by assumption); simp) | simp) :
    KeepsO fs s0 (execReFill a1 a2) := by
  simp only [List.cons_subset, List.nil_subset, and_true] at hm
  simp (maxDischargeDepth := 60) +contextual only [execReFill, h2, List.cons_subset, hm, List.nil_subset, and_self, reRun_keeps, implies_true, atTile_keeps]
theorem execReLoad_keeps {fs : List Field} {s0 : State} {a1 : ClusterRef} {a2 : State} (h2 : Keeps fs s0 a2) (hm : [.regs, .slots, .tasks, .ctrs, .cores, .clusters, .mem, .granger, .streams, .net, .coll, .control, .step, .power, .traces, .out, .free] ⊆ fs := by first | assumption | (refine List.Subset.trans ?_ (by assumption); simp) | simp) :
    KeepsO fs s0 (execReLoad a1 a2) := by
  simp only [List.cons_subset, List.nil_subset, and_true] at hm
  simp (maxDischargeDepth := 60) +contextual only [execReLoad, h2, List.cons_subset, hm, List.nil_subset, and_self, reRun_keeps, implies_true, atTile_keeps]
theorem execReMomFinal_keeps {fs : List Field} {s0 : State} {a1 : ClusterRef} {a2 : State} (h2 : Keeps fs s0 a2) (hm : [.regs, .slots, .tasks, .ctrs, .cores, .clusters, .mem, .granger, .streams, .net, .coll, .control, .step, .power, .traces, .out, .free] ⊆ fs := by first | assumption | (refine List.Subset.trans ?_ (by assumption); simp) | simp) :
    KeepsO fs s0 (execReMomFinal a1 a2) := by
  simp only [List.cons_subset, List.nil_subset, and_true] at hm
  simp (maxDischargeDepth := 60) +contextual only [execReMomFinal, h2, List.cons_subset, hm, List.nil_subset, and_self, reRun_keeps, implies_true, atTile_keeps]
theorem execReMomStep_keeps {fs : List Field} {s0 : State} {a1 : ClusterRef} {a2 : State} (h2 : Keeps fs s0 a2) (hm : [.regs, .slots, .tasks, .ctrs, .cores, .clusters, .mem, .granger, .streams, .net, .coll, .control, .step, .power, .traces, .out, .free] ⊆ fs := by first | assumption | (refine List.Subset.trans ?_ (by assumption); simp) | simp) :
    KeepsO fs s0 (execReMomStep a1 a2) := by
  simp only [List.cons_subset, List.nil_subset, and_true] at hm
  simp (maxDischargeDepth := 60) +contextual only [execReMomStep, h2, List.cons_subset, hm, List.nil_subset, and_self, reRun_keeps, implies_true, atTile_keeps]
theorem execReSave_keeps {fs : List Field} {s0 : State} {a1 : ClusterRef} {a2 : State} (h2 : Keeps fs s0 a2) (hm : [.regs, .slots, .tasks, .ctrs, .cores, .clusters, .mem, .granger, .streams, .net, .coll, .control, .step, .power, .traces, .out, .free] ⊆ fs := by first | assumption | (refine List.Subset.trans ?_ (by assumption); simp) | simp) :
    KeepsO fs s0 (execReSave a1 a2) := by
  simp only [List.cons_subset, List.nil_subset, and_true] at hm
  simp (maxDischargeDepth := 60) +contextual only [execReSave, h2, List.cons_subset, hm, List.nil_subset, and_self, reRun_keeps, implies_true, atTile_keeps]
theorem execReSmaxBwd_keeps {fs : List Field} {s0 : State} {a1 : ClusterRef} {a2 : State} (h2 : Keeps fs s0 a2) (hm : [.regs, .slots, .tasks, .ctrs, .cores, .clusters, .mem, .granger, .streams, .net, .coll, .control, .step, .power, .traces, .out, .free] ⊆ fs := by first | assumption | (refine List.Subset.trans ?_ (by assumption); simp) | simp) :
    KeepsO fs s0 (execReSmaxBwd a1 a2) := by
  simp only [List.cons_subset, List.nil_subset, and_true] at hm
  simp (maxDischargeDepth := 60) +contextual only [execReSmaxBwd, h2, List.cons_subset, hm, List.nil_subset, and_self, reRun_keeps, implies_true, atTile_keeps]
theorem execReSmaxFinal_keeps {fs : List Field} {s0 : State} {a1 : ClusterRef} {a2 : State} (h2 : Keeps fs s0 a2) (hm : [.regs, .slots, .tasks, .ctrs, .cores, .clusters, .mem, .granger, .streams, .net, .coll, .control, .step, .power, .traces, .out, .free] ⊆ fs := by first | assumption | (refine List.Subset.trans ?_ (by assumption); simp) | simp) :
    KeepsO fs s0 (execReSmaxFinal a1 a2) := by
  simp only [List.cons_subset, List.nil_subset, and_true] at hm
  simp (maxDischargeDepth := 60) +contextual only [execReSmaxFinal, h2, List.cons_subset, hm, List.nil_subset, and_self, reRun_keeps, implies_true, atTile_keeps]
theorem execReSmaxStep_keeps {fs : List Field} {s0 : State} {a1 : ClusterRef} {a2 : State} (h2 : Keeps fs s0 a2) (hm : [.regs, .slots, .tasks, .ctrs, .cores, .clusters, .mem, .granger, .streams, .net, .coll, .control, .step, .power, .traces, .out, .free] ⊆ fs := by first | assumption | (refine List.Subset.trans ?_ (by assumption); simp) | simp) :
    KeepsO fs s0 (execReSmaxStep a1 a2) := by
  simp only [List.cons_subset, List.nil_subset, and_true] at hm
  simp (maxDischargeDepth := 60) +contextual only [execReSmaxStep, h2, List.cons_subset, hm, List.nil_subset, and_self, reRun_keeps, implies_true, atTile_keeps]
theorem reservedWrite_keeps {fs : List Field} {s0 : State} {a1 : PageRef} {a2 : Nat} {a3 : Nat} {a4 : Word} {a5 : State} (h5 : Keeps fs s0 a5) (hm : [.regs, .out] ⊆ fs := by first | assumption | (refine List.Subset.trans ?_ (by assumption); simp) | simp) :
    Keeps fs s0 (reservedWrite a1 a2 a3 a4 a5) := by
  simp only [List.cons_subset, List.nil_subset, and_true] at hm
  simp (maxDischargeDepth := 60) +contextual only [reservedWrite, h5, List.cons_subset, hm, List.nil_subset, and_self, logIf_keeps]
theorem holdStore_keeps {fs : List Field} {s0 : State} {a1 : CoreRef} {a2 : PageRef} {a3 : Nat} {a4 : Word} {a5 : State} (h5 : Keeps fs s0 a5) (hm : [.cores] ⊆ fs := by first | assumption | (refine List.Subset.trans ?_ (by assumption); simp) | simp) :
    Keeps fs s0 (holdStore a1 a2 a3 a4 a5) := by
  simp only [List.cons_subset, List.nil_subset, and_true] at hm
  simp (maxDischargeDepth := 60) +contextual only [holdStore, h5, List.cons_subset, hm, List.nil_subset, and_self, setCore_keeps]
theorem reStoreSubmit_keeps {fs : List Field} {s0 : State} {a1 : CoreRef} {a2 : ClusterRef} {a3 : Word} {a4 : State} (h4 : Keeps fs s0 a4) (hm : [.regs, .cores, .clusters, .out] ⊆ fs := by first | assumption | (refine List.Subset.trans ?_ (by assumption); simp) | simp) :
    KeepsS fs s0 (reStoreSubmit a1 a2 a3 a4) := by
  simp only [List.cons_subset, List.nil_subset, and_true] at hm
  simp (maxDischargeDepth := 60) +contextual only [reStoreSubmit, keepsS_fault, h4, List.cons_subset, hm, List.nil_subset, and_self, holdStore_keeps, keepsS_done, reservedWrite_keeps, setCluster_keeps, reCount_keeps, keepsS_ite]
theorem settle_keeps {fs : List Field} {s0 : State} {a1 : CoreRef} {a2 : Nat} {a3 : State} {a4 : StoreRes} (h3 : Keeps fs s0 a3) (h4 : KeepsS fs s0 a4) (hm : [.regs, .slots, .tasks, .ctrs, .cores, .clusters, .mem, .granger, .coll, .control, .step, .power, .traces, .out] ⊆ fs := by first | assumption | (refine List.Subset.trans ?_ (by assumption); simp) | simp) :
    Keeps fs s0 (settle a1 a2 a3 a4) := by
  simp only [List.cons_subset, List.nil_subset, and_true] at hm
  simp (maxDischargeDepth := 60) +contextual only [settle]
  repeat' (split <;> (try simp (maxDischargeDepth := 60) +contextual only [keeps_ite, List.cons_subset, List.nil_subset, and_self, takeTrap_keeps, h3, hm]))
  all_goals (first | done | assumption)
theorem reSubmit_keeps {fs : List Field} {s0 : State} {a1 : Requester} {a2 : ClusterRef} {a3 : Word} {a4 : State} (h4 : Keeps fs s0 a4) (hm : [.regs, .slots, .tasks, .ctrs, .cores, .clusters, .mem, .granger, .coll, .control, .step, .power, .traces, .out] ⊆ fs := by first | assumption | (refine List.Subset.trans ?_ (by assumption); simp) | simp) :
    Keeps fs s0 (reSubmit a1 a2 a3 a4) := by
  simp only [List.cons_subset, List.nil_subset, and_true] at hm
  simp (maxDischargeDepth := 60) +contextual only [reSubmit]
  repeat' (split <;> (try simp (maxDischargeDepth := 60) +contextual only [keeps_ite, List.cons_subset, List.nil_subset, and_self, logErr_keeps, reStoreSubmit_keeps, settle_keeps, h4, hm]))
  all_goals (first | done | assumption)
theorem execReSubmit_keeps {fs : List Field} {s0 : State} {a1 : Requester} {a2 : ClusterRef} {a3 : Word} {a4 : State} (h4 : Keeps fs s0 a4) (hm : [.regs, .slots, .tasks, .ctrs, .cores, .clusters, .mem, .granger, .coll, .control, .step, .power, .traces, .out] ⊆ fs := by first | assumption | (refine List.Subset.trans ?_ (by assumption); simp) | simp) :
    KeepsO fs s0 (execReSubmit a1 a2 a3 a4) := by
  simp only [List.cons_subset, List.nil_subset, and_true] at hm
  simp (maxDischargeDepth := 60) +contextual only [execReSubmit, h4, List.cons_subset, hm, List.nil_subset, and_self, reSubmit_keeps, implies_true, byAt_keeps]
theorem waitlistFull_keeps {fs : List Field} {s0 : State} {a1 : CoreRef} {a2 : Nat} {a3 : State} (h3 : Keeps fs s0 a3) (hm : [.regs, .slots, .tasks, .ctrs, .cores, .clusters, .mem, .granger, .coll, .control, .step, .power, .traces, .out] ⊆ fs := by first | assumption | (refine List.Subset.trans ?_ (by assumption); simp) | simp) :
    Keeps fs s0 (waitlistFull a1 a2 a3) := by
  simp only [List.cons_subset, List.nil_subset, and_true] at hm
  simp (maxDischargeDepth := 60) +contextual only [waitlistFull, h3, List.cons_subset, hm, List.nil_subset, and_self, setFld_keeps, fault_keeps, keeps_ite]
theorem setWait_keeps {fs : List Field} {s0 : State} {a1 : CoreRef} {a2 : Nat} {a3 : Nat} {a4 : Bool} {a5 : Option Nat} {a6 : State} (h6 : Keeps fs s0 a6) (hm : [.cores] ⊆ fs := by first | assumption | (refine List.Subset.trans ?_ (by assumption); simp) | simp) :
    Keeps fs s0 (setWait a1 a2 a3 a4 a5 a6) := by
  simp only [List.cons_subset, List.nil_subset, and_true] at hm
  simp (maxDischargeDepth := 60) +contextual only [setWait, h6, List.cons_subset, hm, List.nil_subset, and_self, setCore_keeps]
theorem armWait_keeps {fs : List Field} {s0 : State} {a1 : CoreRef} {a2 : Word} {a3 : State} (h3 : Keeps fs s0 a3) (hm : [.regs, .slots, .tasks, .ctrs, .cores, .clusters, .mem, .granger, .coll, .control, .step, .power, .traces, .out] ⊆ fs := by first | assumption | (refine List.Subset.trans ?_ (by assumption); simp) | simp) :
    Keeps fs s0 (armWait a1 a2 a3) := by
  simp only [armWait]
  repeat' first | with_reducible assumption | (exact List.Subset.trans (by simp) hm) | (intro _ e; cases e; done) | with_reducible apply waitlistFull_keeps | with_reducible apply setWait_keeps | with_reducible apply dropAllWaiters_keeps | with_reducible apply keepsO_next | with_reducible apply keepsO_refused | with_reducible apply keepsI_ok | with_reducible apply keepsI_jump | with_reducible apply keepsI_trap | with_reducible apply keepsI_stall | with_reducible apply keepsI_defer | with_reducible apply keepsS_done | with_reducible apply keepsS_fault | with_reducible apply keepsL_value | with_reducible apply keepsL_blocks | with_reducible apply keepsR_ok | with_reducible apply keepsR_ecc | with_reducible apply keepsP_placed | with_reducible apply keepsP_refused | with_reducible apply keepsP_waits | with_reducible apply each_keeps | with_reducible apply keeps_foldl | (with_reducible refine (show ∀ x, _ = _ → _ from holdWaiter_keeps ?_)) | (with_reducible refine (show ∀ x, _ = _ → _ from allOk_keeps ?_ ?_)) | (refine keeps_of_snd (by assumption) ?_) | (refine keeps_of_fst (by assumption) ?_) | (refine keeps_of_some (by assumption) ?_) | (refine keeps_of_some_snd (by assumption) ?_) | (refine keeps_of_some_fst (by assumption) ?_) | (refine keeps_of_some_snd2 (by assumption) ?_) | (refine keeps_of_okE (by assumption) ?_) | (refine keeps_of_okE_snd (by assumption) ?_) | (refine keeps_of_okE_fst (by assumption) ?_) | (refine keeps_of_okR (by assumption) ?_) | (refine keeps_of_eccR (by assumption) ?_) | (refine keeps_of_placed (by assumption) ?_) | (refine keeps_of_okI (by assumption) ?_) | (refine keeps_of_doneS (by assumption) ?_) | (refine keeps_of_valueL (by assumption) ?_) | (refine keeps_of_blocksL (by assumption) ?_) | intro _ | split
theorem ctrCfgStore_keeps {fs : List Field} {s0 : State} {a1 : Fin 8} {a2 : Word} {a3 : State} (h3 : Keeps fs s0 a3) (hm : [.regs, .ctrs, .out] ⊆ fs := by first | assumption | (refine List.Subset.trans ?_ (by assumption); simp) | simp) :
    Keeps fs s0 (ctrCfgStore a1 a2 a3) := by
  simp only [List.cons_subset, List.nil_subset, and_true] at hm
  simp (maxDischargeDepth := 60) +contextual only [ctrCfgStore, h3, List.cons_subset, hm, List.nil_subset, and_self, logErr_keeps, reservedWrite_keeps, setCtr_keeps, keeps_ite]
theorem ctrSetStore_keeps {fs : List Field} {s0 : State} {a1 : Fin 8} {a2 : Word} {a3 : State} (h3 : Keeps fs s0 a3) (hm : [.regs, .slots, .tasks, .ctrs, .cores, .clusters, .mem, .granger, .coll, .control, .step, .power, .traces, .out] ⊆ fs := by first | assumption | (refine List.Subset.trans ?_ (by assumption); simp) | simp) :
    Keeps fs s0 (ctrSetStore a1 a2 a3) := by
  simp only [List.cons_subset, List.nil_subset, and_true] at hm
  simp (maxDischargeDepth := 60) +contextual only [ctrSetStore, h3, List.cons_subset, hm, List.nil_subset, and_self, logErr_keeps, setCtr_keeps, wakeSatisfied_keeps, run_keeps, keeps_ite]
theorem loadRegs_keeps {fs : List Field} {s0 : State} {a1 : PageRef} {a2 : Nat} {a3 : List Word} {a4 : State} (h4 : Keeps fs s0 a4) (hm : [.regs] ⊆ fs := by first | assumption | (refine List.Subset.trans ?_ (by assumption); simp) | simp) :
    Keeps fs s0 (loadRegs a1 a2 a3 a4) := by
  induction a3 generalizing a2 a4 with
  | nil => exact h4
  | cons v l ih => exact ih (wr_keeps h4)
theorem dbgSnapshot_keeps {fs : List Field} {s0 : State} {a1 : Fin 8} {a2 : Word} {a3 : State} (h3 : Keeps fs s0 a3) (hm : [.regs, .out] ⊆ fs := by first | assumption | (refine List.Subset.trans ?_ (by assumption); simp) | simp) :
    Keeps fs s0 (dbgSnapshot a1 a2 a3) := by
  simp only [List.cons_subset, List.nil_subset, and_true] at hm
  simp (maxDischargeDepth := 60) +contextual only [dbgSnapshot, h3, List.cons_subset, hm, List.nil_subset, and_self, reservedWrite_keeps, wr_keeps, loadRegs_keeps]
theorem execCtrCfgWrite_keeps {fs : List Field} {s0 : State} {a1 : Fin 8} {a2 : Word} {a3 : State} (h3 : Keeps fs s0 a3) (hm : [.regs, .ctrs, .out] ⊆ fs := by first | assumption | (refine List.Subset.trans ?_ (by assumption); simp) | simp) :
    KeepsO fs s0 (execCtrCfgWrite a1 a2 a3) := by
  simp only [List.cons_subset, List.nil_subset, and_true] at hm
  simp (maxDischargeDepth := 60) +contextual only [execCtrCfgWrite, h3, List.cons_subset, hm, List.nil_subset, and_self, ctrCfgStore_keeps, implies_true, atTile_keeps]
theorem execCtrSet_keeps {fs : List Field} {s0 : State} {a1 : Fin 8} {a2 : Word} {a3 : State} (h3 : Keeps fs s0 a3) (hm : [.regs, .slots, .tasks, .ctrs, .cores, .clusters, .mem, .granger, .coll, .control, .step, .power, .traces, .out] ⊆ fs := by first | assumption | (refine List.Subset.trans ?_ (by assumption); simp) | simp) :
    KeepsO fs s0 (execCtrSet a1 a2 a3) := by
  simp only [List.cons_subset, List.nil_subset, and_true] at hm
  simp (maxDischargeDepth := 60) +contextual only [execCtrSet, h3, List.cons_subset, hm, List.nil_subset, and_self, ctrSetStore_keeps, implies_true, atTile_keeps]
theorem execDbgSelWrite_keeps {fs : List Field} {s0 : State} {a1 : Fin 8} {a2 : Word} {a3 : State} (h3 : Keeps fs s0 a3) (hm : [.regs, .out] ⊆ fs := by first | assumption | (refine List.Subset.trans ?_ (by assumption); simp) | simp) :
    KeepsO fs s0 (execDbgSelWrite a1 a2 a3) := by
  simp only [List.cons_subset, List.nil_subset, and_true] at hm
  simp (maxDischargeDepth := 60) +contextual only [execDbgSelWrite, h3, List.cons_subset, hm, List.nil_subset, and_self, dbgSnapshot_keeps, implies_true, atTile_keeps]
theorem fenceL1_keeps {fs : List Field} {s0 : State} {a1 : CoreRef} {a2 : FenceScope} {a3 : State} (h3 : Keeps fs s0 a3) (hm : [.regs, .cores, .clusters, .mem, .granger, .net, .out, .free] ⊆ fs := by first | assumption | (refine List.Subset.trans ?_ (by assumption); simp) | simp) :
    Keeps fs s0 (fenceL1 a1 a2 a3) := by
  simp only [List.cons_subset, List.nil_subset, and_true] at hm
  simp (maxDischargeDepth := 60) +contextual only [fenceL1, h3, List.cons_subset, hm, List.nil_subset, and_self, l1Flush_keeps, dropResponses_keeps]
theorem fenceLoad_keeps {fs : List Field} {s0 : State} {a1 : CoreRef} {a2 : FenceScope} {a3 : State} (h3 : Keeps fs s0 a3) (hm : [.regs, .cores, .clusters, .mem, .granger, .net, .out, .free] ⊆ fs := by first | assumption | (refine List.Subset.trans ?_ (by assumption); simp) | simp) :
    KeepsL fs s0 (fenceLoad a1 a2 a3) := by
  simp only [List.cons_subset, List.nil_subset, and_true] at hm
  simp (maxDischargeDepth := 60) +contextual only [fenceLoad, h3, keepsL_blocks, List.cons_subset, hm, List.nil_subset, and_self, setCore_keeps, keepsL_value, fenceL1_keeps, slotUse_keeps, keepsL_ite]
theorem settleLoad_keeps {fs : List Field} {s0 : State} {a1 : LoadRes} (h1 : KeepsL fs s0 a1) (hm : [.out] ⊆ fs := by first | assumption | (refine List.Subset.trans ?_ (by assumption); simp) | simp) :
    Keeps fs s0 (settleLoad a1) := by
  cases a1 <;> first | exact h1 | exact reply_keeps h1
theorem fenceBy_keeps {fs : List Field} {s0 : State} {a1 : Requester} {a2 : FenceScope} {a3 : State} (h3 : Keeps fs s0 a3) (hm : [.regs, .cores, .clusters, .mem, .granger, .net, .out, .free] ⊆ fs := by first | assumption | (refine List.Subset.trans ?_ (by assumption); simp) | simp) :
    Keeps fs s0 (fenceBy a1 a2 a3) := by
  simp only [List.cons_subset, List.nil_subset, and_true] at hm
  simp (maxDischargeDepth := 60) +contextual only [fenceBy]
  repeat' (split <;> (try simp (maxDischargeDepth := 60) +contextual only [List.cons_subset, List.nil_subset, and_self, reply_keeps, fenceLoad_keeps, settleLoad_keeps, h3, hm]))
  all_goals (first | done | assumption)
theorem execFenceCluster_keeps {fs : List Field} {s0 : State} {a1 : Requester} {a2 : State} (h2 : Keeps fs s0 a2) (hm : [.regs, .cores, .clusters, .mem, .granger, .net, .out, .free] ⊆ fs := by first | assumption | (refine List.Subset.trans ?_ (by assumption); simp) | simp) :
    KeepsO fs s0 (execFenceCluster a1 a2) := by
  simp only [List.cons_subset, List.nil_subset, and_true] at hm
  simp (maxDischargeDepth := 60) +contextual only [execFenceCluster, h2, List.cons_subset, hm, List.nil_subset, and_self, fenceBy_keeps, implies_true, byReq_keeps]
theorem fenceComplete_keeps {fs : List Field} {s0 : State} {a1 : CoreRef} {a2 : State} (h2 : Keeps fs s0 a2) (hm : [.cores] ⊆ fs := by first | assumption | (refine List.Subset.trans ?_ (by assumption); simp) | simp) :
    Keeps fs s0 (fenceComplete a1 a2) := by
  simp only [List.cons_subset, List.nil_subset, and_true] at hm
  simp (maxDischargeDepth := 60) +contextual only [fenceComplete]
  repeat' (split <;> (try simp (maxDischargeDepth := 60) +contextual only [keeps_ite, List.cons_subset, List.nil_subset, and_self, setCore_keeps, h2, hm]))
  all_goals (first | done | assumption)
theorem execFenceComplete_keeps {fs : List Field} {s0 : State} {a1 : CoreRef} {a2 : State} (h2 : Keeps fs s0 a2) (hm : [.cores] ⊆ fs := by first | assumption | (refine List.Subset.trans ?_ (by assumption); simp) | simp) :
    KeepsO fs s0 (execFenceComplete a1 a2) := by
  simp only [List.cons_subset, List.nil_subset, and_true] at hm
  simp (maxDischargeDepth := 60) +contextual only [execFenceComplete, h2, List.cons_subset, hm, List.nil_subset, and_self, fenceComplete_keeps, implies_true, atTile_keeps]
theorem execFenceDevice_keeps {fs : List Field} {s0 : State} {a1 : Requester} {a2 : State} (h2 : Keeps fs s0 a2) (hm : [.regs, .cores, .clusters, .mem, .granger, .net, .out, .free] ⊆ fs := by first | assumption | (refine List.Subset.trans ?_ (by assumption); simp) | simp) :
    KeepsO fs s0 (execFenceDevice a1 a2) := by
  simp only [List.cons_subset, List.nil_subset, and_true] at hm
  simp (maxDischargeDepth := 60) +contextual only [execFenceDevice, h2, List.cons_subset, hm, List.nil_subset, and_self, fenceBy_keeps, implies_true, byReq_keeps]
theorem execFenceFabric_keeps {fs : List Field} {s0 : State} {a1 : Requester} {a2 : State} (h2 : Keeps fs s0 a2) (hm : [.regs, .cores, .clusters, .mem, .granger, .net, .out, .free] ⊆ fs := by first | assumption | (refine List.Subset.trans ?_ (by assumption); simp) | simp) :
    KeepsO fs s0 (execFenceFabric a1 a2) := by
  simp only [List.cons_subset, List.nil_subset, and_true] at hm
  simp (maxDischargeDepth := 60) +contextual only [execFenceFabric, h2, List.cons_subset, hm, List.nil_subset, and_self, fenceBy_keeps, implies_true, byReq_keeps]
theorem execFenceTile_keeps {fs : List Field} {s0 : State} {a1 : Requester} {a2 : State} (h2 : Keeps fs s0 a2) (hm : [.regs, .cores, .clusters, .mem, .granger, .net, .out, .free] ⊆ fs := by first | assumption | (refine List.Subset.trans ?_ (by assumption); simp) | simp) :
    KeepsO fs s0 (execFenceTile a1 a2) := by
  simp only [List.cons_subset, List.nil_subset, and_true] at hm
  simp (maxDischargeDepth := 60) +contextual only [execFenceTile, h2, List.cons_subset, hm, List.nil_subset, and_self, fenceBy_keeps, implies_true, byReq_keeps]
theorem signalStore_keeps {fs : List Field} {s0 : State} {a1 : Requester} {a2 : Fin 8} {a3 : Word} {a4 : State} (h4 : Keeps fs s0 a4) (hm : [.regs, .slots, .tasks, .ctrs, .cores, .clusters, .mem, .granger, .coll, .control, .step, .power, .traces, .out] ⊆ fs := by first | assumption | (refine List.Subset.trans ?_ (by assumption); simp) | simp) :
    Keeps fs s0 (signalStore a1 a2 a3 a4) := by
  simp only [List.cons_subset, List.nil_subset, and_true] at hm
  simp (maxDischargeDepth := 60) +contextual only [signalStore, h4, List.cons_subset, hm, List.nil_subset, and_self, reservedWrite_keeps, signal_keeps, logErr_keeps, keeps_ite]
theorem execSignal_keeps {fs : List Field} {s0 : State} {a1 : Requester} {a2 : Fin 8} {a3 : Word} {a4 : State} (h4 : Keeps fs s0 a4) (hm : [.regs, .slots, .tasks, .ctrs, .cores, .clusters, .mem, .granger, .coll, .control, .step, .power, .traces, .out] ⊆ fs := by first | assumption | (refine List.Subset.trans ?_ (by assumption); simp) | simp) :
    KeepsO fs s0 (execSignal a1 a2 a3 a4) := by
  simp only [List.cons_subset, List.nil_subset, and_true] at hm
  simp (maxDischargeDepth := 60) +contextual only [execSignal, h4, List.cons_subset, hm, List.nil_subset, and_self, signalStore_keeps, implies_true, byAt_keeps]
theorem tagExpiry_keeps {fs : List Field} {s0 : State} {a1 : ClusterRef} {a2 : Nat} {a3 : State} (h3 : Keeps fs s0 a3) (hm : [.clusters] ⊆ fs := by first | assumption | (refine List.Subset.trans ?_ (by assumption); simp) | simp) :
    Keeps fs s0 (tagExpiry a1 a2 a3) := by
  simp only [List.cons_subset, List.nil_subset, and_true] at hm
  simp (maxDischargeDepth := 60) +contextual only [tagExpiry]
  repeat' (split <;> (try simp (maxDischargeDepth := 60) +contextual only [keeps_ite, List.cons_subset, List.nil_subset, and_self, setCluster_keeps, h3, hm]))
  all_goals (first | done | assumption)
theorem execTagQuarantineExpiry_keeps {fs : List Field} {s0 : State} {a1 : ClusterRef} {a2 : BitVec 16} {a3 : State} (h3 : Keeps fs s0 a3) (hm : [.clusters] ⊆ fs := by first | assumption | (refine List.Subset.trans ?_ (by assumption); simp) | simp) :
    KeepsO fs s0 (execTagQuarantineExpiry a1 a2 a3) := by
  simp only [List.cons_subset, List.nil_subset, and_true] at hm
  simp (maxDischargeDepth := 60) +contextual only [execTagQuarantineExpiry, h3, List.cons_subset, hm, List.nil_subset, and_self, tagExpiry_keeps, implies_true, atTile_keeps]
theorem taskEnd_keeps {fs : List Field} {s0 : State} {a1 : CoreRef} {a2 : Word} {a3 : State} (h3 : Keeps fs s0 a3) (hm : [.regs, .slots, .tasks, .ctrs, .cores, .clusters, .mem, .granger, .net, .coll, .control, .step, .power, .traces, .out, .free] ⊆ fs := by first | assumption | (refine List.Subset.trans ?_ (by assumption); simp) | simp) :
    Keeps fs s0 (taskEnd a1 a2 a3) := by
  simp only [List.cons_subset, List.nil_subset, and_true] at hm
  simp (maxDischargeDepth := 60) +contextual only [taskEnd]
  repeat' (split <;> (try simp (maxDischargeDepth := 60) +contextual only [keeps_ite, List.cons_subset, List.nil_subset, and_self, run_keeps, fenceL1_keeps, reservedWrite_keeps, holdStore_keeps, h3, hm]))
  all_goals (first | done | assumption)
theorem execTaskEnd_keeps {fs : List Field} {s0 : State} {a1 : CoreRef} {a2 : Word} {a3 : State} (h3 : Keeps fs s0 a3) (hm : [.regs, .slots, .tasks, .ctrs, .cores, .clusters, .mem, .granger, .net, .coll, .control, .step, .power, .traces, .out, .free] ⊆ fs := by first | assumption | (refine List.Subset.trans ?_ (by assumption); simp) | simp) :
    KeepsO fs s0 (execTaskEnd a1 a2 a3) := by
  simp only [List.cons_subset, List.nil_subset, and_true] at hm
  simp (maxDischargeDepth := 60) +contextual only [execTaskEnd, h3, List.cons_subset, hm, List.nil_subset, and_self, taskEnd_keeps, implies_true, byAt_keeps]
theorem startTask_keeps {fs : List Field} {s0 : State} {a1 : CoreRef} {a2 : Task} {a3 : State} (h3 : Keeps fs s0 a3) (hm : [.regs, .tasks, .cores, .clusters, .mem, .granger, .net, .traces, .out, .free] ⊆ fs := by first | assumption | (refine List.Subset.trans ?_ (by assumption); simp) | simp) :
    Keeps fs s0 (startTask a1 a2 a3) := by
  simp only [List.cons_subset, List.nil_subset, and_true] at hm
  simp (maxDischargeDepth := 60) +contextual only [startTask, h3, List.cons_subset, hm, List.nil_subset, and_self, l1Clear_keeps, setCore_keeps, setFld_keeps, setTask_keeps, trace_keeps]
theorem taskStart_keeps {fs : List Field} {s0 : State} {a1 : CoreRef} {a2 : State} (h2 : Keeps fs s0 a2) (hm : [.regs, .tasks, .cores, .clusters, .mem, .granger, .net, .traces, .out, .free] ⊆ fs := by first | assumption | (refine List.Subset.trans ?_ (by assumption); simp) | simp) :
    Keeps fs s0 (taskStart a1 a2) := by
  simp only [List.cons_subset, List.nil_subset, and_true] at hm
  simp (maxDischargeDepth := 60) +contextual only [taskStart]
  repeat' (split <;> (try simp (maxDischargeDepth := 60) +contextual only [List.cons_subset, List.nil_subset, and_self, choose_keeps, startTask_keeps, h2, hm]))
  all_goals (first | done | assumption)
theorem execTaskStart_keeps {fs : List Field} {s0 : State} {a1 : CoreRef} {a2 : State} (h2 : Keeps fs s0 a2) (hm : [.regs, .tasks, .cores, .clusters, .mem, .granger, .net, .traces, .out, .free] ⊆ fs := by first | assumption | (refine List.Subset.trans ?_ (by assumption); simp) | simp) :
    KeepsO fs s0 (execTaskStart a1 a2) := by
  simp only [List.cons_subset, List.nil_subset, and_true] at hm
  simp (maxDischargeDepth := 60) +contextual only [execTaskStart, h2, List.cons_subset, hm, List.nil_subset, and_self, taskStart_keeps, implies_true, atTile_keeps]
theorem waitGoStore_keeps {fs : List Field} {s0 : State} {a1 : Requester} {a2 : Fin 8} {a3 : Word} {a4 : State} (h4 : Keeps fs s0 a4) (hm : [.regs, .slots, .tasks, .ctrs, .cores, .clusters, .mem, .granger, .coll, .control, .step, .power, .traces, .out] ⊆ fs := by first | assumption | (refine List.Subset.trans ?_ (by assumption); simp) | simp) :
    Keeps fs s0 (waitGoStore a1 a2 a3 a4) := by
  simp only [List.cons_subset, List.nil_subset, and_true] at hm
  simp (maxDischargeDepth := 60) +contextual only [waitGoStore]
  repeat' (split <;> (try simp (maxDischargeDepth := 60) +contextual only [List.cons_subset, List.nil_subset, and_self, logErr_keeps, armWait_keeps, h4, hm]))
  all_goals (first | done | assumption)
theorem execWaitGo_keeps {fs : List Field} {s0 : State} {a1 : Requester} {a2 : Fin 8} {a3 : Word} {a4 : State} (h4 : Keeps fs s0 a4) (hm : [.regs, .slots, .tasks, .ctrs, .cores, .clusters, .mem, .granger, .coll, .control, .step, .power, .traces, .out] ⊆ fs := by first | assumption | (refine List.Subset.trans ?_ (by assumption); simp) | simp) :
    KeepsO fs s0 (execWaitGo a1 a2 a3 a4) := by
  simp only [List.cons_subset, List.nil_subset, and_true] at hm
  simp (maxDischargeDepth := 60) +contextual only [execWaitGo, h4, List.cons_subset, hm, List.nil_subset, and_self, waitGoStore_keeps, implies_true, byAt_keeps]
theorem waitRes_keeps {fs : List Field} {s0 : State} {a1 : CoreRef} {a2 : State} (h2 : Keeps fs s0 a2) (hm : [.regs, .cores, .net] ⊆ fs := by first | assumption | (refine List.Subset.trans ?_ (by assumption); simp) | simp) :
    KeepsL fs s0 (waitRes a1 a2) := by
  simp only [List.cons_subset, List.nil_subset, and_true] at hm
  simp (maxDischargeDepth := 60) +contextual only [waitRes]
  repeat' (split <;> (try simp (maxDischargeDepth := 60) +contextual only [keeps_ite, List.cons_subset, List.nil_subset, and_self, keepsL_value, keepsL_blocks, and_self, l1Acquire_keeps, setCore_keeps, slotUse_keeps, h2, hm]))
  all_goals (first | done | assumption)
theorem waitResStore_keeps {fs : List Field} {s0 : State} {a1 : Requester} {a2 : State} (h2 : Keeps fs s0 a2) (hm : [.regs, .cores, .net, .out] ⊆ fs := by first | assumption | (refine List.Subset.trans ?_ (by assumption); simp) | simp) :
    Keeps fs s0 (waitResStore a1 a2) := by
  simp only [List.cons_subset, List.nil_subset, and_true] at hm
  simp (maxDischargeDepth := 60) +contextual only [waitResStore]
  repeat' (split <;> (try simp (maxDischargeDepth := 60) +contextual only [List.cons_subset, List.nil_subset, and_self, reply_keeps, waitRes_keeps, settleLoad_keeps, h2, hm]))
  all_goals (first | done | assumption)
theorem execWaitResLoad_keeps {fs : List Field} {s0 : State} {a1 : Requester} {a2 : State} (h2 : Keeps fs s0 a2) (hm : [.regs, .cores, .net, .out] ⊆ fs := by first | assumption | (refine List.Subset.trans ?_ (by assumption); simp) | simp) :
    KeepsO fs s0 (execWaitResLoad a1 a2) := by
  simp only [List.cons_subset, List.nil_subset, and_true] at hm
  simp (maxDischargeDepth := 60) +contextual only [execWaitResLoad, h2, List.cons_subset, hm, List.nil_subset, and_self, waitResStore_keeps, implies_true, byReq_keeps]
theorem waitTimeout_keeps {fs : List Field} {s0 : State} {a1 : CoreRef} {a2 : State} (h2 : Keeps fs s0 a2) (hm : [.regs, .ctrs, .cores, .mem] ⊆ fs := by first | assumption | (refine List.Subset.trans ?_ (by assumption); simp) | simp) :
    Keeps fs s0 (waitTimeout a1 a2) := by
  simp only [List.cons_subset, List.nil_subset, and_true] at hm
  simp (maxDischargeDepth := 60) +contextual only [waitTimeout]
  repeat' (split <;> (try simp (maxDischargeDepth := 60) +contextual only [keeps_ite, List.cons_subset, List.nil_subset, and_self, dropWaiters_keeps, endWait_keeps, h2, hm]))
  all_goals (first | done | assumption)
theorem execWaitTimeout_keeps {fs : List Field} {s0 : State} {a1 : CoreRef} {a2 : State} (h2 : Keeps fs s0 a2) (hm : [.regs, .ctrs, .cores, .mem] ⊆ fs := by first | assumption | (refine List.Subset.trans ?_ (by assumption); simp) | simp) :
    KeepsO fs s0 (execWaitTimeout a1 a2) := by
  simp only [List.cons_subset, List.nil_subset, and_true] at hm
  simp (maxDischargeDepth := 60) +contextual only [execWaitTimeout, h2, List.cons_subset, hm, List.nil_subset, and_self, waitTimeout_keeps, implies_true, atTile_keeps]
theorem waitValStore_keeps {fs : List Field} {s0 : State} {a1 : Requester} {a2 : Fin 8} {a3 : Word} {a4 : State} (h4 : Keeps fs s0 a4) (hm : [.regs, .cores, .out] ⊆ fs := by first | assumption | (refine List.Subset.trans ?_ (by assumption); simp) | simp) :
    Keeps fs s0 (waitValStore a1 a2 a3 a4) := by
  simp only [List.cons_subset, List.nil_subset, and_true] at hm
  simp (maxDischargeDepth := 60) +contextual only [waitValStore]
  repeat' (split <;> (try simp (maxDischargeDepth := 60) +contextual only [List.cons_subset, List.nil_subset, and_self, logErr_keeps, setCore_keeps, h4, hm]))
  all_goals (first | done | assumption)
theorem execWaitValWrite_keeps {fs : List Field} {s0 : State} {a1 : Requester} {a2 : Fin 8} {a3 : Word} {a4 : State} (h4 : Keeps fs s0 a4) (hm : [.regs, .cores, .out] ⊆ fs := by first | assumption | (refine List.Subset.trans ?_ (by assumption); simp) | simp) :
    KeepsO fs s0 (execWaitValWrite a1 a2 a3 a4) := by
  simp only [List.cons_subset, List.nil_subset, and_true] at hm
  simp (maxDischargeDepth := 60) +contextual only [execWaitValWrite, h4, List.cons_subset, hm, List.nil_subset, and_self, waitValStore_keeps, implies_true, byAt_keeps]

end Sys2Proof.Laws
end

