-- ==== Sys2Proof/Laws/KeepsServo.lean ====
section
/-! SUPPORT. What the operations keep (see Laws/Keeps.lean): the Beacon servo, placement, streams. -/

namespace Sys2Proof.Laws

set_option Elab.async false

open Sys2Proof.Machine Sys2Proof.Safety

theorem noteOffset_keeps {fs : List Field} {s0 : State} {a1 : State} {a2 : Fin 6} {a3 : BeaconSample} (h1 : Keeps fs s0 a1) (hm : [.regs] ⊆ fs := by first | assumption | (refine List.Subset.trans ?_ (by assumption); simp) | simp) :
    Keeps fs s0 (noteOffset a1 a2 a3) := by
  simp only [List.cons_subset, List.nil_subset, and_true] at hm
  simp (maxDischargeDepth := 60) +contextual only [noteOffset, h1, List.cons_subset, hm, List.nil_subset, and_self, wr_keeps, setFld_keeps]
theorem clearGood_keeps {fs : List Field} {s0 : State} {a1 : State} (h1 : Keeps fs s0 a1) (hm : [.beacon] ⊆ fs := by first | assumption | (refine List.Subset.trans ?_ (by assumption); simp) | simp) :
    Keeps fs s0 (clearGood a1) := by
  simp only [List.cons_subset, List.nil_subset, and_true] at hm
  simp (maxDischargeDepth := 60) +contextual only [clearGood, h1, List.cons_subset, hm, List.nil_subset, and_self, keeps_beacon]
theorem setServo_keeps {fs : List Field} {s0 : State} {a1 : State} {a2 : Nat} (h1 : Keeps fs s0 a1) (hm : [.regs] ⊆ fs := by first | assumption | (refine List.Subset.trans ?_ (by assumption); simp) | simp) :
    Keeps fs s0 (setServo a1 a2) := by
  simp only [List.cons_subset, List.nil_subset, and_true] at hm
  simp (maxDischargeDepth := 60) +contextual only [setServo, h1, List.cons_subset, hm, List.nil_subset, and_self, setFld_keeps]
theorem enterLocked_keeps {fs : List Field} {s0 : State} {a1 : State} (h1 : Keeps fs s0 a1) (hm : [.beacon, .regs] ⊆ fs := by first | assumption | (refine List.Subset.trans ?_ (by assumption); simp) | simp) :
    Keeps fs s0 (enterLocked a1) := by
  simp only [List.cons_subset, List.nil_subset, and_true] at hm
  simp (maxDischargeDepth := 60) +contextual only [enterLocked, h1, List.cons_subset, hm, List.nil_subset, and_self, setServo_keeps, setFld_keeps, keeps_beacon]
theorem enterStepRequired_keeps {fs : List Field} {s0 : State} {a1 : State} (h1 : Keeps fs s0 a1) (hm : [.beacon, .regs, .slots, .tasks, .ctrs, .cores, .clusters, .mem, .granger, .coll, .control, .step, .power, .traces, .out] ⊆ fs := by first | assumption | (refine List.Subset.trans ?_ (by assumption); simp) | simp) :
    Keeps fs s0 (enterStepRequired a1) := by
  simp only [List.cons_subset, List.nil_subset, and_true] at hm
  simp (maxDischargeDepth := 60) +contextual only [enterStepRequired, h1, List.cons_subset, hm, List.nil_subset, and_self, setServo_keeps, setFld_keeps, clearGood_keeps, fault_keeps, keeps_ite]
theorem loadFromParent_keeps {fs : List Field} {s0 : State} {a1 : State} {a2 : BeaconSample} (h1 : Keeps fs s0 a1) (hm : [.now] ⊆ fs := by first | assumption | (refine List.Subset.trans ?_ (by assumption); simp) | simp) :
    Keeps fs s0 (loadFromParent a1 a2) := by
  refine keeps_now h1 (fun _ => ?_)
  omega
theorem enterAcquire_keeps {fs : List Field} {s0 : State} {a1 : State} (h1 : Keeps fs s0 a1) (hm : [.beacon, .regs] ⊆ fs := by first | assumption | (refine List.Subset.trans ?_ (by assumption); simp) | simp) :
    Keeps fs s0 (enterAcquire a1) := by
  simp only [List.cons_subset, List.nil_subset, and_true] at hm
  simp (maxDischargeDepth := 60) +contextual only [enterAcquire, h1, List.cons_subset, hm, List.nil_subset, and_self, setServo_keeps, clearGood_keeps]
theorem servoState_keeps {fs : List Field} {s0 : State} {a1 : BeaconSample} {a2 : State} (h2 : Keeps fs s0 a2) (hm : [.now, .beacon, .regs, .slots, .tasks, .ctrs, .cores, .clusters, .mem, .granger, .coll, .control, .step, .power, .traces, .out] ⊆ fs := by first | assumption | (refine List.Subset.trans ?_ (by assumption); simp) | simp) :
    Keeps fs s0 (servoState a1 a2) := by
  simp only [List.cons_subset, List.nil_subset, and_true] at hm
  simp (maxDischargeDepth := 60) +contextual only [servoState, h2, List.cons_subset, hm, List.nil_subset, and_self, loadFromParent_keeps, enterAcquire_keeps, enterStepRequired_keeps, keeps_ite, enterLocked_keeps, keeps_beacon, clearGood_keeps]
theorem slew_keeps {fs : List Field} {s0 : State} {a1 : State} (h1 : Keeps fs s0 a1) (hm : [.beacon, .free] ⊆ fs := by first | assumption | (refine List.Subset.trans ?_ (by assumption); simp) | simp) :
    Keeps fs s0 (slew a1) := by
  simp only [List.cons_subset, List.nil_subset, and_true] at hm
  simp (maxDischargeDepth := 60) +contextual only [slew, h1, List.cons_subset, hm, List.nil_subset, and_self, keeps_beacon_free, keeps_ite]
theorem servoExchange_keeps {fs : List Field} {s0 : State} {a1 : BeaconSample} {a2 : State} (h2 : Keeps fs s0 a2) (hm : [.now, .beacon, .regs, .slots, .tasks, .ctrs, .cores, .clusters, .mem, .granger, .coll, .control, .step, .power, .traces, .out, .free] ⊆ fs := by first | assumption | (refine List.Subset.trans ?_ (by assumption); simp) | simp) :
    Keeps fs s0 (servoExchange a1 a2) := by
  simp only [List.cons_subset, List.nil_subset, and_true] at hm
  simp (maxDischargeDepth := 60) +contextual only [servoExchange, h2, List.cons_subset, hm, List.nil_subset, and_self, servoState_keeps, slew_keeps]
theorem setParent_keeps {fs : List Field} {s0 : State} {a1 : State} {a2 : Option (Fin 6)} (h1 : Keeps fs s0 a1) (hm : [.regs] ⊆ fs := by first | assumption | (refine List.Subset.trans ?_ (by assumption); simp) | simp) :
    Keeps fs s0 (setParent a1 a2) := by
  simp only [List.cons_subset, List.nil_subset, and_true] at hm
  simp (maxDischargeDepth := 60) +contextual only [setParent]
  repeat' (split <;> (try simp (maxDischargeDepth := 60) +contextual only [List.cons_subset, List.nil_subset, and_self, setFld_keeps, h1, hm]))
  all_goals (first | done | assumption)
theorem exchangeSent_keeps {fs : List Field} {s0 : State} {a1 : Fin 6} {a2 : State} (h2 : Keeps fs s0 a2) (hm : [.beacon, .out] ⊆ fs := by first | assumption | (refine List.Subset.trans ?_ (by assumption); simp) | simp) :
    Keeps fs s0 (exchangeSent a1 a2) := by
  simp only [List.cons_subset, List.nil_subset, and_true] at hm
  simp (maxDischargeDepth := 60) +contextual only [exchangeSent, h2, List.cons_subset, hm, List.nil_subset, and_self, keeps_beacon_out]
theorem setPort_keeps {fs : List Field} {s0 : State} {a1 : State} {a2 : Nat} {a3 : Port} (h1 : Keeps fs s0 a1) (hm : [.ports] ⊆ fs := by first | assumption | (refine List.Subset.trans ?_ (by assumption); simp) | simp) :
    Keeps fs s0 (setPort a1 a2 a3) := by
  simp only [List.cons_subset, List.nil_subset, and_true] at hm
  simp (maxDischargeDepth := 60) +contextual only [setPort, h1, List.cons_subset, hm, List.nil_subset, and_self, keeps_ports]
theorem dropHigherLeads_keeps {fs : List Field} {s0 : State} {a1 : State} (h1 : Keeps fs s0 a1) (hm : [.ports] ⊆ fs := by first | assumption | (refine List.Subset.trans ?_ (by assumption); simp) | simp) :
    Keeps fs s0 (dropHigherLeads a1) := by
  simp only [dropHigherLeads]
  repeat' first | with_reducible assumption | (exact List.Subset.trans (by simp) hm) | (intro _ e; cases e; done) | with_reducible apply setPort_keeps | with_reducible apply keepsO_next | with_reducible apply keepsO_refused | with_reducible apply keepsI_ok | with_reducible apply keepsI_jump | with_reducible apply keepsI_trap | with_reducible apply keepsI_stall | with_reducible apply keepsI_defer | with_reducible apply keepsS_done | with_reducible apply keepsS_fault | with_reducible apply keepsL_value | with_reducible apply keepsL_blocks | with_reducible apply keepsR_ok | with_reducible apply keepsR_ecc | with_reducible apply keepsP_placed | with_reducible apply keepsP_refused | with_reducible apply keepsP_waits | with_reducible apply each_keeps | with_reducible apply keeps_foldl | (with_reducible refine (show ∀ x, _ = _ → _ from allOk_keeps ?_ ?_)) | (refine keeps_of_snd (by assumption) ?_) | (refine keeps_of_fst (by assumption) ?_) | (refine keeps_of_some (by assumption) ?_) | (refine keeps_of_some_snd (by assumption) ?_) | (refine keeps_of_some_fst (by assumption) ?_) | (refine keeps_of_some_snd2 (by assumption) ?_) | (refine keeps_of_okE (by assumption) ?_) | (refine keeps_of_okE_snd (by assumption) ?_) | (refine keeps_of_okE_fst (by assumption) ?_) | (refine keeps_of_okR (by assumption) ?_) | (refine keeps_of_eccR (by assumption) ?_) | (refine keeps_of_placed (by assumption) ?_) | (refine keeps_of_okI (by assumption) ?_) | (refine keeps_of_doneS (by assumption) ?_) | (refine keeps_of_valueL (by assumption) ?_) | (refine keeps_of_blocksL (by assumption) ?_) | intro _ | split
theorem takeFollower_keeps {fs : List Field} {s0 : State} {a1 : State} (h1 : Keeps fs s0 a1) (hm : [.beacon, .regs, .ports] ⊆ fs := by first | assumption | (refine List.Subset.trans ?_ (by assumption); simp) | simp) :
    Keeps fs s0 (takeFollower a1) := by
  simp only [List.cons_subset, List.nil_subset, and_true] at hm
  simp (maxDischargeDepth := 60) +contextual only [takeFollower]
  repeat' (split <;> (try simp (maxDischargeDepth := 60) +contextual only [keeps_ite, List.cons_subset, List.nil_subset, and_self, keeps_beacon, setServo_keeps, clearGood_keeps, setParent_keeps, enterAcquire_keeps, setFld_keeps, dropHigherLeads_keeps, h1, hm]))
  all_goals (first | done | assumption)
theorem hearMaster_keeps {fs : List Field} {s0 : State} {a1 : Nat} {a2 : State} (h2 : Keeps fs s0 a2) (hm : [.regs] ⊆ fs := by first | assumption | (refine List.Subset.trans ?_ (by assumption); simp) | simp) :
    Keeps fs s0 (hearMaster a1 a2) := by
  simp only [List.cons_subset, List.nil_subset, and_true] at hm
  simp (maxDischargeDepth := 60) +contextual only [hearMaster, h2, List.cons_subset, hm, List.nil_subset, and_self, setFld_keeps, keeps_ite]
theorem noteLead_keeps {fs : List Field} {s0 : State} {a1 : Fin 6} {a2 : BeaconSample} {a3 : State} (h3 : Keeps fs s0 a3) (hm : [.beacon, .regs, .ports] ⊆ fs := by first | assumption | (refine List.Subset.trans ?_ (by assumption); simp) | simp) :
    Keeps fs s0 (noteLead a1 a2 a3) := by
  simp only [List.cons_subset, List.nil_subset, and_true] at hm
  simp (maxDischargeDepth := 60) +contextual only [noteLead]
  repeat' (split <;> (try simp (maxDischargeDepth := 60) +contextual only [keeps_ite, List.cons_subset, List.nil_subset, and_self, setFld_keeps, takeFollower_keeps, dropHigherLeads_keeps, hearMaster_keeps, setPort_keeps, h3, hm]))
  all_goals (first | done | assumption)
theorem beaconExchangeDone_keeps {fs : List Field} {s0 : State} {a1 : Fin 6} {a2 : BeaconSample} {a3 : State} (h3 : Keeps fs s0 a3) (hm : [.now, .beacon, .regs, .slots, .tasks, .ctrs, .cores, .clusters, .mem, .granger, .ports, .coll, .control, .step, .power, .traces, .out, .free] ⊆ fs := by first | assumption | (refine List.Subset.trans ?_ (by assumption); simp) | simp) :
    Keeps fs s0 (beaconExchangeDone a1 a2 a3) := by
  simp only [List.cons_subset, List.nil_subset, and_true] at hm
  simp (maxDischargeDepth := 60) +contextual only [beaconExchangeDone]
  repeat' (split <;> (try simp (maxDischargeDepth := 60) +contextual only [keeps_ite, List.cons_subset, List.nil_subset, and_self, noteOffset_keeps, servoExchange_keeps, setParent_keeps, exchangeSent_keeps, noteLead_keeps, h3, hm]))
  all_goals (first | done | assumption)
theorem epochSet_keeps {fs : List Field} {s0 : State} {a1 : Word} {a2 : State} (h2 : Keeps fs s0 a2) (hm : [.now, .beacon, .regs, .out] ⊆ fs := by first | assumption | (refine List.Subset.trans ?_ (by assumption); simp) | simp) :
    Keeps fs s0 (epochSet a1 a2) := by
  unfold epochSet
  split
  · exact keeps_ite (keeps_beacon h2) (keeps_now h2 (fun _ => a1.isLt))
  · exact logErr_keeps h2
theorem execBeaconExchange_keeps {fs : List Field} {s0 : State} {a1 : Fin 6} {a2 : BeaconSample} {a3 : State} (h3 : Keeps fs s0 a3) (hm : [.now, .beacon, .regs, .slots, .tasks, .ctrs, .cores, .clusters, .mem, .granger, .ports, .coll, .control, .step, .power, .traces, .out, .free] ⊆ fs := by first | assumption | (refine List.Subset.trans ?_ (by assumption); simp) | simp) :
    KeepsO fs s0 (execBeaconExchange a1 a2 a3) := by
  simp only [List.cons_subset, List.nil_subset, and_true] at hm
  simp (maxDischargeDepth := 60) +contextual only [execBeaconExchange, h3, List.cons_subset, hm, List.nil_subset, and_self, beaconExchangeDone_keeps, keepsO_next]
theorem stepCorrection_keeps {fs : List Field} {s0 : State} {a1 : Word} {a2 : State} (h2 : Keeps fs s0 a2) (hm : [.now, .beacon, .regs] ⊆ fs := by first | assumption | (refine List.Subset.trans ?_ (by assumption); simp) | simp) :
    Keeps fs s0 (stepCorrection a1 a2) := by
  unfold stepCorrection
  split
  · refine enterAcquire_keeps (setFld_keeps ?_)
    split
    · exact keeps_now h2 (fun _ => a1.isLt)
    · exact keeps_beacon h2
  · exact h2
theorem execBeaconStepCorrection_keeps {fs : List Field} {s0 : State} {a1 : Word} {a2 : State} (h2 : Keeps fs s0 a2) (hm : [.now, .beacon, .regs] ⊆ fs := by first | assumption | (refine List.Subset.trans ?_ (by assumption); simp) | simp) :
    KeepsO fs s0 (execBeaconStepCorrection a1 a2) := by
  simp only [List.cons_subset, List.nil_subset, and_true] at hm
  simp (maxDischargeDepth := 60) +contextual only [execBeaconStepCorrection, h2, List.cons_subset, hm, List.nil_subset, and_self, stepCorrection_keeps, keepsO_next]
theorem execEpochSet_keeps {fs : List Field} {s0 : State} {a1 : Requester} {a2 : Word} {a3 : State} (h3 : Keeps fs s0 a3) (hm : [.now, .beacon, .regs, .out] ⊆ fs := by first | assumption | (refine List.Subset.trans ?_ (by assumption); simp) | simp) :
    KeepsO fs s0 (execEpochSet a1 a2 a3) := by
  simp only [List.cons_subset, List.nil_subset, and_true] at hm
  simp (maxDischargeDepth := 60) +contextual only [execEpochSet, h3, List.cons_subset, hm, List.nil_subset, and_self, epochSet_keeps, implies_true, byReq_keeps]
theorem holdoverExpired_keeps {fs : List Field} {s0 : State} {a1 : State} (h1 : Keeps fs s0 a1) (hm : [.regs, .slots, .tasks, .ctrs, .cores, .clusters, .mem, .granger, .coll, .control, .step, .power, .traces, .out] ⊆ fs := by first | assumption | (refine List.Subset.trans ?_ (by assumption); simp) | simp) :
    Keeps fs s0 (holdoverExpired a1) := by
  simp only [List.cons_subset, List.nil_subset, and_true] at hm
  simp (maxDischargeDepth := 60) +contextual only [holdoverExpired, h1, List.cons_subset, hm, List.nil_subset, and_self, setServo_keeps, fault_keeps, keeps_ite]
theorem execHoldoverExpiry_keeps {fs : List Field} {s0 : State} {a1 : State} (h1 : Keeps fs s0 a1) (hm : [.regs, .slots, .tasks, .ctrs, .cores, .clusters, .mem, .granger, .coll, .control, .step, .power, .traces, .out] ⊆ fs := by first | assumption | (refine List.Subset.trans ?_ (by assumption); simp) | simp) :
    KeepsO fs s0 (execHoldoverExpiry a1) := by
  simp only [List.cons_subset, List.nil_subset, and_true] at hm
  simp (maxDischargeDepth := 60) +contextual only [execHoldoverExpiry, h1, List.cons_subset, hm, List.nil_subset, and_self, holdoverExpired_keeps, keepsO_next]
theorem noMaster_keeps {fs : List Field} {s0 : State} {a1 : State} (h1 : Keeps fs s0 a1) (hm : [.beacon, .regs, .out] ⊆ fs := by first | assumption | (refine List.Subset.trans ?_ (by assumption); simp) | simp) :
    Keeps fs s0 (noMaster a1) := by
  simp only [List.cons_subset, List.nil_subset, and_true] at hm
  simp (maxDischargeDepth := 60) +contextual only [noMaster, h1, List.cons_subset, hm, List.nil_subset, and_self, keeps_beacon, setFld_keeps, chainEvent_keeps, keeps_ite]
theorem execNoMasterTimeout_keeps {fs : List Field} {s0 : State} {a1 : State} (h1 : Keeps fs s0 a1) (hm : [.beacon, .regs, .out] ⊆ fs := by first | assumption | (refine List.Subset.trans ?_ (by assumption); simp) | simp) :
    KeepsO fs s0 (execNoMasterTimeout a1) := by
  simp only [List.cons_subset, List.nil_subset, and_true] at hm
  simp (maxDischargeDepth := 60) +contextual only [execNoMasterTimeout, h1, List.cons_subset, hm, List.nil_subset, and_self, noMaster_keeps, keepsO_next]
theorem parentFound_keeps {fs : List Field} {s0 : State} {a1 : Fin 6} {a2 : BeaconSample} {a3 : State} (h3 : Keeps fs s0 a3) (hm : [.now, .beacon, .regs, .slots, .tasks, .ctrs, .cores, .clusters, .mem, .granger, .ports, .coll, .control, .step, .power, .traces, .out, .free] ⊆ fs := by first | assumption | (refine List.Subset.trans ?_ (by assumption); simp) | simp) :
    Keeps fs s0 (parentFound a1 a2 a3) := by
  simp only [List.cons_subset, List.nil_subset, and_true] at hm
  simp (maxDischargeDepth := 60) +contextual only [parentFound, h3, List.cons_subset, hm, List.nil_subset, and_self, beaconExchangeDone_keeps, keeps_ite]
theorem execParentFound_keeps {fs : List Field} {s0 : State} {a1 : Fin 6} {a2 : BeaconSample} {a3 : State} (h3 : Keeps fs s0 a3) (hm : [.now, .beacon, .regs, .slots, .tasks, .ctrs, .cores, .clusters, .mem, .granger, .ports, .coll, .control, .step, .power, .traces, .out, .free] ⊆ fs := by first | assumption | (refine List.Subset.trans ?_ (by assumption); simp) | simp) :
    KeepsO fs s0 (execParentFound a1 a2 a3) := by
  simp only [List.cons_subset, List.nil_subset, and_true] at hm
  simp (maxDischargeDepth := 60) +contextual only [execParentFound, h3, List.cons_subset, hm, List.nil_subset, and_self, parentFound_keeps, keepsO_next]
theorem parentLost_keeps {fs : List Field} {s0 : State} {a1 : State} (h1 : Keeps fs s0 a1) (hm : [.beacon, .regs, .ports] ⊆ fs := by first | assumption | (refine List.Subset.trans ?_ (by assumption); simp) | simp) :
    Keeps fs s0 (parentLost a1) := by
  simp only [List.cons_subset, List.nil_subset, and_true] at hm
  simp (maxDischargeDepth := 60) +contextual only [parentLost]
  repeat' (split <;> (try simp (maxDischargeDepth := 60) +contextual only [keeps_ite, List.cons_subset, List.nil_subset, and_self, keeps_beacon, setServo_keeps, clearGood_keeps, setParent_keeps, setPort_keeps, h1, hm]))
  all_goals (first | done | assumption)
theorem execParentLost_keeps {fs : List Field} {s0 : State} {a1 : State} (h1 : Keeps fs s0 a1) (hm : [.beacon, .regs, .ports] ⊆ fs := by first | assumption | (refine List.Subset.trans ?_ (by assumption); simp) | simp) :
    KeepsO fs s0 (execParentLost a1) := by
  simp only [List.cons_subset, List.nil_subset, and_true] at hm
  simp (maxDischargeDepth := 60) +contextual only [execParentLost, h1, List.cons_subset, hm, List.nil_subset, and_self, parentLost_keeps, keepsO_next]
theorem masterLock_keeps {fs : List Field} {s0 : State} {a1 : State} (h1 : Keeps fs s0 a1) (hm : [.beacon, .regs] ⊆ fs := by first | assumption | (refine List.Subset.trans ?_ (by assumption); simp) | simp) :
    Keeps fs s0 (masterLock a1) := by
  simp only [List.cons_subset, List.nil_subset, and_true] at hm
  simp (maxDischargeDepth := 60) +contextual only [masterLock, h1, List.cons_subset, hm, List.nil_subset, and_self, enterLocked_keeps, keeps_ite]
theorem ppsEdge_keeps {fs : List Field} {s0 : State} {a1 : State} (h1 : Keeps fs s0 a1) (hm : [.now, .beacon, .regs, .free] ⊆ fs := by first | assumption | (refine List.Subset.trans ?_ (by assumption); simp) | simp) :
    Keeps fs s0 (ppsEdge a1) := by
  unfold ppsEdge
  split
  · extract_lets b0 s1 s2
    have h : Keeps fs s0 s1 := by
      show Keeps fs s0 (if firstLock a1 = true then slew a1 else _)
      split
      · exact slew_keeps h1
      split
      · exact keeps_now_beacon h1 (fun _ => BitVec.isLt _)
      · refine keeps_now h1 (fun _ => ?_)
        unfold nearestSecond
        omega
    exact masterLock_keeps (keeps_beacon h)
  · exact h1
theorem execPpsEdge_keeps {fs : List Field} {s0 : State} {a1 : State} (h1 : Keeps fs s0 a1) (hm : [.now, .beacon, .regs, .free] ⊆ fs := by first | assumption | (refine List.Subset.trans ?_ (by assumption); simp) | simp) :
    KeepsO fs s0 (execPpsEdge a1) := by
  simp only [List.cons_subset, List.nil_subset, and_true] at hm
  simp (maxDischargeDepth := 60) +contextual only [execPpsEdge, h1, List.cons_subset, hm, List.nil_subset, and_self, ppsEdge_keeps, keepsO_next]
theorem setValid_keeps {fs : List Field} {s0 : State} {a1 : RefInput} {a2 : Bool} {a3 : State} (h3 : Keeps fs s0 a3) (hm : [.beacon] ⊆ fs := by first | assumption | (refine List.Subset.trans ?_ (by assumption); simp) | simp) :
    Keeps fs s0 (setValid a1 a2 a3) := by
  simp only [List.cons_subset, List.nil_subset, and_true] at hm
  simp (maxDischargeDepth := 60) +contextual only [setValid]
  repeat' (split <;> (try simp (maxDischargeDepth := 60) +contextual only [List.cons_subset, List.nil_subset, and_self, keeps_beacon, h3, hm]))
  all_goals (first | done | assumption)
theorem refLost_keeps {fs : List Field} {s0 : State} {a1 : RefInput} {a2 : State} (h2 : Keeps fs s0 a2) (hm : [.beacon, .regs] ⊆ fs := by first | assumption | (refine List.Subset.trans ?_ (by assumption); simp) | simp) :
    Keeps fs s0 (refLost a1 a2) := by
  simp only [List.cons_subset, List.nil_subset, and_true] at hm
  simp (maxDischargeDepth := 60) +contextual only [refLost, h2, List.cons_subset, hm, List.nil_subset, and_self, setValid_keeps, setFld_keeps, keeps_ite]
theorem execRefInputLost_keeps {fs : List Field} {s0 : State} {a1 : RefInput} {a2 : State} (h2 : Keeps fs s0 a2) (hm : [.beacon, .regs] ⊆ fs := by first | assumption | (refine List.Subset.trans ?_ (by assumption); simp) | simp) :
    KeepsO fs s0 (execRefInputLost a1 a2) := by
  simp only [List.cons_subset, List.nil_subset, and_true] at hm
  simp (maxDischargeDepth := 60) +contextual only [execRefInputLost, h2, List.cons_subset, hm, List.nil_subset, and_self, refLost_keeps, keepsO_next]
theorem refTimeout_keeps {fs : List Field} {s0 : State} {a1 : RefInput} {a2 : State} (h2 : Keeps fs s0 a2) (hm : [.beacon, .regs] ⊆ fs := by first | assumption | (refine List.Subset.trans ?_ (by assumption); simp) | simp) :
    Keeps fs s0 (refTimeout a1 a2) := by
  simp only [List.cons_subset, List.nil_subset, and_true] at hm
  simp (maxDischargeDepth := 60) +contextual only [refTimeout]
  repeat' (split <;> (try simp (maxDischargeDepth := 60) +contextual only [keeps_ite, List.cons_subset, List.nil_subset, and_self, keeps_beacon, masterLock_keeps, refLost_keeps, h2, hm]))
  all_goals (first | done | assumption)
theorem execRefInputTimeout_keeps {fs : List Field} {s0 : State} {a1 : RefInput} {a2 : State} (h2 : Keeps fs s0 a2) (hm : [.beacon, .regs] ⊆ fs := by first | assumption | (refine List.Subset.trans ?_ (by assumption); simp) | simp) :
    KeepsO fs s0 (execRefInputTimeout a1 a2) := by
  simp only [List.cons_subset, List.nil_subset, and_true] at hm
  simp (maxDischargeDepth := 60) +contextual only [execRefInputTimeout, h2, List.cons_subset, hm, List.nil_subset, and_self, refTimeout_keeps, keepsO_next]
theorem refValid_keeps {fs : List Field} {s0 : State} {a1 : RefInput} {a2 : State} (h2 : Keeps fs s0 a2) (hm : [.beacon, .regs, .free] ⊆ fs := by first | assumption | (refine List.Subset.trans ?_ (by assumption); simp) | simp) :
    Keeps fs s0 (refValid a1 a2) := by
  simp only [List.cons_subset, List.nil_subset, and_true] at hm
  simp (maxDischargeDepth := 60) +contextual only [refValid]
  repeat' (split <;> (try simp (maxDischargeDepth := 60) +contextual only [keeps_ite, List.cons_subset, List.nil_subset, and_self, keeps_beacon, slew_keeps, masterLock_keeps, setFld_keeps, setValid_keeps, h2, hm]))
  all_goals (first | done | assumption)
theorem execRefInputValid_keeps {fs : List Field} {s0 : State} {a1 : RefInput} {a2 : State} (h2 : Keeps fs s0 a2) (hm : [.beacon, .regs, .free] ⊆ fs := by first | assumption | (refine List.Subset.trans ?_ (by assumption); simp) | simp) :
    KeepsO fs s0 (execRefInputValid a1 a2) := by
  simp only [List.cons_subset, List.nil_subset, and_true] at hm
  simp (maxDischargeDepth := 60) +contextual only [execRefInputValid, h2, List.cons_subset, hm, List.nil_subset, and_self, refValid_keeps, keepsO_next]
theorem refSelChanged_keeps {fs : List Field} {s0 : State} {a1 : Bool} {a2 : State} (h2 : Keeps fs s0 a2) (hm : [.beacon, .regs] ⊆ fs := by first | assumption | (refine List.Subset.trans ?_ (by assumption); simp) | simp) :
    Keeps fs s0 (refSelChanged a1 a2) := by
  simp only [List.cons_subset, List.nil_subset, and_true] at hm
  simp (maxDischargeDepth := 60) +contextual only [refSelChanged, h2, List.cons_subset, hm, List.nil_subset, and_self, keeps_beacon, masterLock_keeps, keeps_ite]
theorem takeMaster_keeps {fs : List Field} {s0 : State} {a1 : State} (h1 : Keeps fs s0 a1) (hm : [.beacon, .regs] ⊆ fs := by first | assumption | (refine List.Subset.trans ?_ (by assumption); simp) | simp) :
    Keeps fs s0 (takeMaster a1) := by
  simp only [List.cons_subset, List.nil_subset, and_true] at hm
  simp (maxDischargeDepth := 60) +contextual only [takeMaster, h1, List.cons_subset, hm, List.nil_subset, and_self, setParent_keeps, setFld_keeps, wr_keeps, keeps_beacon, enterAcquire_keeps, masterLock_keeps]
theorem allocShadow_keeps {fs : List Field} {s0 : State} {a1 : Nat} {a2 : State} {a3 : Nat × Nat} (h2 : Keeps fs s0 a2) (hm : [.mem, .granger] ⊆ fs := by first | assumption | (refine List.Subset.trans ?_ (by assumption); simp) | simp) :
    Keeps fs s0 (allocShadow a1 a2 a3) := by
  simp only [List.cons_subset, List.nil_subset, and_true] at hm
  simp (maxDischargeDepth := 60) +contextual only [allocShadow, h2, List.cons_subset, hm, List.nil_subset, and_self, takeStack_keeps, keeps_memrest, keeps_ite]
theorem allocShadows_keeps {fs : List Field} {s0 : State} {a1 : State} {a2 : Nat} {a3 : List (Nat × Pins)} {a4 : List Desc} (h1 : Keeps fs s0 a1) (hm : [.regs, .mem, .granger] ⊆ fs := by first | assumption | (refine List.Subset.trans ?_ (by assumption); simp) | simp) :
    Keeps fs s0 (allocShadows a1 a2 a3 a4) := by
  simp only [List.cons_subset, List.nil_subset, and_true] at hm
  simp (maxDischargeDepth := 60) +contextual only [allocShadows, List.cons_subset, hm, List.nil_subset, and_self, allocShadow_keeps, implies_true, h1, keeps_memrest, keeps_foldl, refreshShadowUse_keeps]
theorem arm_keeps {fs : List Field} {s0 : State} {a1 : Nat} {a2 : Word} {a3 : State} (h3 : Keeps fs s0 a3) (hm : [.regs, .slots, .tasks, .granger, .step, .traces] ⊆ fs := by first | assumption | (refine List.Subset.trans ?_ (by assumption); simp) | simp) :
    Keeps fs s0 (arm a1 a2 a3) := by
  simp only [List.cons_subset, List.nil_subset, and_true] at hm
  simp (maxDischargeDepth := 60) +contextual only [arm, h3, List.cons_subset, hm, List.nil_subset, and_self, setSlot_keeps, addReg_keeps, endCursor_keeps, keeps_tasks_granger, setPhase_keeps, keeps_ite, keeps_step]
theorem chooseCore_keeps {fs : List Field} {s0 : State} {a1 : List CoreRef} {a2 : State} (h2 : Keeps fs s0 a2) (hm : [.free] ⊆ fs := by first | assumption | (refine List.Subset.trans ?_ (by assumption); simp) | simp) :
    Keeps fs s0 (chooseCore a1 a2).2 := by
  simp only [List.cons_subset, List.nil_subset, and_true] at hm
  simp (maxDischargeDepth := 60) +contextual only [chooseCore]
  repeat' (split <;> (try simp (maxDischargeDepth := 60) +contextual only [List.cons_subset, List.nil_subset, and_self, choose_keeps, h2, hm]))
  all_goals (first | done | assumption)
theorem closeStep_keeps {fs : List Field} {s0 : State} {a1 : Nat} {a2 : State} (h2 : Keeps fs s0 a2) (hm : [.regs, .cores, .mem, .step, .traces] ⊆ fs := by first | assumption | (refine List.Subset.trans ?_ (by assumption); simp) | simp) :
    Keeps fs s0 (closeStep a1 a2) := by
  simp only [List.cons_subset, List.nil_subset, and_true] at hm
  simp (maxDischargeDepth := 60) +contextual only [closeStep, h2, List.cons_subset, hm, List.nil_subset, and_self, sheafEnd_keeps, keeps_step, setFld_keeps, setPhase_keeps, keeps_ite]
theorem takeTag_keeps {fs : List Field} {s0 : State} {a1 : State} {a2 : CoreRef} (h1 : Keeps fs s0 a1) (hm : [.clusters] ⊆ fs := by first | assumption | (refine List.Subset.trans ?_ (by assumption); simp) | simp) :
    ∀ x, (takeTag a1 a2) = some x → Keeps fs s0 x.2.2 := by
  simp only [List.cons_subset, List.nil_subset, and_true] at hm
  simp only [takeTag]
  (repeat' split) <;> (try simp (maxDischargeDepth := 60) +contextual [List.cons_subset, List.nil_subset, and_self, implies_true, setCluster_keeps, h1, hm])
  all_goals (first | done | assumption)
theorem enterTask_keeps {fs : List Field} {s0 : State} {a1 : Nat} {a2 : Machine.PUnit × CoreRef} {a3 : State} (h3 : Keeps fs s0 a3) (hm : [.tasks, .clusters] ⊆ fs := by first | assumption | (refine List.Subset.trans ?_ (by assumption); simp) | simp) :
    ∀ x, (enterTask a1 a2 a3) = .ok x → Keeps fs s0 x := by
  intro x e
  unfold enterTask at e
  split at e
  · cases e
  · cases e
    refine keeps_tasks (keeps_of_some_snd2 (by assumption) (takeTag_keeps h3))
theorem placeUnit_keeps {fs : List Field} {s0 : State} {a1 : Machine.PUnit × Option Nat × Option CoreRef} {a2 : State × Plan} (h2 : Keeps fs s0 a2.1) (hm : [.free] ⊆ fs := by first | assumption | (refine List.Subset.trans ?_ (by assumption); simp) | simp) :
    ∀ x, (placeUnit a1 a2) = .ok x → Keeps fs s0 x.1 := by
  intro x e
  unfold placeUnit at e
  extract_lets s p u o ok permitted kept at e
  by_cases c : o.isEmpty = true
  · rw [if_pos c] at e; cases e
  rw [if_neg c] at e
  by_cases d : permitted.isEmpty = true
  · rw [if_pos d] at e; cases e
  rw [if_neg d] at e
  clear_value kept permitted
  split at e
  split at e
  · cases e
  · cases e
    exact keeps_of_snd (by assumption) (chooseCore_keeps h2)
theorem placeTasks_keeps {fs : List Field} {s0 : State} {a1 : State} {a2 : Plan} {a3 : List Desc} (h1 : Keeps fs s0 a1) (hm : [.free] ⊆ fs := by first | assumption | (refine List.Subset.trans ?_ (by assumption); simp) | simp) :
    ∀ x, (placeTasks a1 a2 a3) = .ok x → Keeps fs s0 x.1 := by
  intro x e
  unfold placeTasks at e
  split at e
  · cases e
  · have h : Keeps fs s0 _ := keeps_of_okE_fst (by assumption)
      (allOk_keeps (P := fun (r : State × Plan) => Keeps fs s0 r.1) (fun _ _ h => placeUnit_keeps h) h1)
    extract_lets ns at e
    split at e
    · cases e; exact h
    · exact allOk_keeps (P := fun (r : State × Plan) => Keeps fs s0 r.1) (fun _ _ h => placeUnit_keeps h) h _ e
theorem planTasks_keeps {fs : List Field} {s0 : State} {a1 : State} {a2 : Nat} {a3 : Nat} {a4 : Slot} {a5 : List Desc} {a6 : (Task → Bool)} (h1 : Keeps fs s0 a1) (hm : [.free] ⊆ fs := by first | assumption | (refine List.Subset.trans ?_ (by assumption); simp) | simp) :
    ∀ x, (planTasks a1 a2 a3 a4 a5 a6) = .ok x → Keeps fs s0 x.1 := by
  unfold planTasks
  dsimp only
  split
  · exact allOk_keeps (P := fun (r : State × Plan) => Keeps fs s0 r.1) (fun _ _ h => placeUnit_keeps h) h1
  · exact placeTasks_keeps h1
theorem reserveWindow_keeps {fs : List Field} {s0 : State} {a1 : State} (h1 : Keeps fs s0 a1) (hm : [.granger] ⊆ fs := by first | assumption | (refine List.Subset.trans ?_ (by assumption); simp) | simp) :
    ∀ x, (reserveWindow a1) = .ok x → Keeps fs s0 x := by
  simp only [List.cons_subset, List.nil_subset, and_true] at hm
  simp only [reserveWindow]
  (repeat' split) <;> (try simp (maxDischargeDepth := 60) +contextual [List.cons_subset, List.nil_subset, and_self, implies_true, keeps_granger, h1, hm])
  all_goals (first | done | assumption)
theorem noteExpert_keeps {fs : List Field} {s0 : State} {a1 : State} {a2 : Nat × Pins} (h1 : Keeps fs s0 a1) (hm : [.granger] ⊆ fs := by first | assumption | (refine List.Subset.trans ?_ (by assumption); simp) | simp) :
    Keeps fs s0 (noteExpert a1 a2) := by
  simp only [List.cons_subset, List.nil_subset, and_true] at hm
  simp (maxDischargeDepth := 60) +contextual only [noteExpert]
  repeat' (split <;> (try simp (maxDischargeDepth := 60) +contextual only [List.cons_subset, List.nil_subset, and_self, keeps_granger, h1, hm]))
  all_goals (first | done | assumption)
theorem pinMove_keeps {fs : List Field} {s0 : State} {a1 : State} {a2 : Nat} (h1 : Keeps fs s0 a1) (hm : [.regs, .mem, .granger, .streams] ⊆ fs := by first | assumption | (refine List.Subset.trans ?_ (by assumption); simp) | simp) :
    Keeps fs s0 (pinMove a1 a2) := by
  simp only [List.cons_subset, List.nil_subset, and_true] at hm
  simp (maxDischargeDepth := 60) +contextual only [pinMove]
  repeat' (split <;> (try simp (maxDischargeDepth := 60) +contextual only [List.cons_subset, List.nil_subset, and_self, keeps_granger, startMove_keeps, h1, hm]))
  all_goals (first | done | assumption)
theorem placeBushel_keeps {fs : List Field} {s0 : State} {a1 : Nat × Pins} {a2 : State × Nat} (h2 : Keeps fs s0 a2.1) (hm : [.regs, .mem, .granger, .streams, .free] ⊆ fs := by first | assumption | (refine List.Subset.trans ?_ (by assumption); simp) | simp) :
    ∀ x, (placeBushel a1 a2) = .ok x → Keeps fs s0 x.1 := by
  simp only [List.cons_subset, List.nil_subset, and_true] at hm
  simp only [placeBushel]
  (repeat' split) <;> (try simp (maxDischargeDepth := 60) +contextual [List.cons_subset, List.nil_subset, and_self, implies_true, pinMove_keeps, setBushel_keeps, storeBushel_keeps, placeIn_keeps, h2, hm])
  all_goals (first | done | assumption)
theorem decidePlacement_keeps {fs : List Field} {s0 : State} {a1 : State} {a2 : Nat} {a3 : Nat} {a4 : Slot} (h1 : Keeps fs s0 a1) (hm : [.regs, .tasks, .clusters, .mem, .granger, .streams, .free] ⊆ fs := by first | assumption | (refine List.Subset.trans ?_ (by assumption); simp) | simp) :
    KeepsP fs s0 (decidePlacement a1 a2 a3 a4) := by
  unfold decidePlacement
  extract_lets st
  clear_value st
  split
  · trivial
  split
  · trivial
  split
  · trivial
  split
  · trivial
  split
  · trivial
  split
  · trivial
  split
  · trivial
  split
  · trivial
  · have h := keeps_of_okE_fst (by assumption) (allOk_keeps (P := fun (r : State × Nat) => Keeps fs s0 r.1) (fun _ _ h => placeBushel_keeps h) h1)
    extract_lets s2
    have h2 : Keeps fs s0 s2 := keeps_foldl (fun _ _ h => noteExpert_keeps h) h
    clear_value s2
    split
    · trivial
    · rename_i e
      have h3 : Keeps fs s0 _ := keeps_of_okE e (by
        split
        · exact reserveWindow_keeps h2
        · intro x e; cases e; exact h2)
      extract_lets s4
      have h4 : Keeps fs s0 s4 := keeps_ite (allocShadows_keeps h3) h3
      clear_value s4
      split
      · have h5 := keeps_of_okE_fst (by assumption) (planTasks_keeps h4)
        extract_lets s6
        have h6 : Keeps fs s0 s6 := keeps_tasks h5
        clear_value s6
        split
        · trivial
        · exact keeps_of_okE (by assumption) (allOk_keeps (fun _ _ h => enterTask_keeps h) h6)
      · split
        · split <;> trivial
        · trivial
theorem placementEnd_keeps {fs : List Field} {s0 : State} {a1 : State} (h1 : Keeps fs s0 a1) (hm : [.granger] ⊆ fs := by first | assumption | (refine List.Subset.trans ?_ (by assumption); simp) | simp) :
    Keeps fs s0 (placementEnd a1) := by
  simp only [List.cons_subset, List.nil_subset, and_true] at hm
  simp (maxDischargeDepth := 60) +contextual only [placementEnd, h1, List.cons_subset, hm, List.nil_subset, and_self, keeps_granger]
theorem dequeue_keeps {fs : List Field} {s0 : State} {a1 : State} {a2 : Nat} (h1 : Keeps fs s0 a1) (hm : [.granger] ⊆ fs := by first | assumption | (refine List.Subset.trans ?_ (by assumption); simp) | simp) :
    Keeps fs s0 (dequeue a1 a2) := by
  simp only [List.cons_subset, List.nil_subset, and_true] at hm
  simp (maxDischargeDepth := 60) +contextual only [dequeue, h1, List.cons_subset, hm, List.nil_subset, and_self, placementEnd_keeps, keeps_ite, keeps_granger]
theorem dropPlacement_keeps {fs : List Field} {s0 : State} {a1 : Nat} {a2 : State} (h2 : Keeps fs s0 a2) (hm : [.regs, .tasks, .clusters, .mem, .granger] ⊆ fs := by first | assumption | (refine List.Subset.trans ?_ (by assumption); simp) | simp) :
    Keeps fs s0 (dropPlacement a1 a2) := by
  simp only [List.cons_subset, List.nil_subset, and_true] at hm
  simp (maxDischargeDepth := 60) +contextual only [dropPlacement, h2, List.cons_subset, hm, List.nil_subset, and_self, retireTags_keeps, keeps_tasks, dequeue_keeps, freeShadows_keeps, endCursor_keeps]
theorem execArm_keeps {fs : List Field} {s0 : State} {a1 : Fin 64} {a2 : Word} {a3 : State} (h3 : Keeps fs s0 a3) (hm : [.regs, .slots, .tasks, .granger, .step, .traces] ⊆ fs := by first | assumption | (refine List.Subset.trans ?_ (by assumption); simp) | simp) :
    KeepsO fs s0 (execArm a1 a2 a3) := by
  simp only [List.cons_subset, List.nil_subset, and_true] at hm
  simp (maxDischargeDepth := 60) +contextual only [execArm, h3, List.cons_subset, hm, List.nil_subset, and_self, arm_keeps, keepsO_next]
theorem remapReports_keeps {fs : List Field} {s0 : State} {a1 : Nat} {a2 : List (Task × Fin 8)} {a3 : State} (h3 : Keeps fs s0 a3) (hm : [.regs, .cores, .mem, .out] ⊆ fs := by first | assumption | (refine List.Subset.trans ?_ (by assumption); simp) | simp) :
    Keeps fs s0 (remapReports a1 a2 a3) := by
  simp only [List.cons_subset, List.nil_subset, and_true] at hm
  simp (maxDischargeDepth := 60) +contextual only [remapReports, List.cons_subset, hm, List.nil_subset, and_self, report_keeps, implies_true, h3, keeps_foldl]
theorem refuseSlot_keeps {fs : List Field} {s0 : State} {a1 : Nat} {a2 : Refuse} {a3 : State} (h3 : Keeps fs s0 a3) (hm : [.regs, .slots, .tasks, .ctrs, .cores, .clusters, .mem, .granger, .streams, .coll, .control, .step, .power, .traces, .out] ⊆ fs := by first | assumption | (refine List.Subset.trans ?_ (by assumption); simp) | simp) :
    Keeps fs s0 (refuseSlot a1 a2 a3) := by
  simp only [List.cons_subset, List.nil_subset, and_true] at hm
  simp (maxDischargeDepth := 60) +contextual only [refuseSlot]
  repeat' (split <;> (try simp (maxDischargeDepth := 60) +contextual only [List.cons_subset, List.nil_subset, and_self, endSlot_keeps, dropPlacement_keeps, closeStep_keeps, report_keeps, logErr_keeps, addReg_keeps, countPoison_keeps, h3, hm]))
  all_goals (first | done | assumption)
theorem rePlaceTask_keeps {fs : List Field} {s0 : State} {a1 : Nat} {a2 : Task} {a3 : State × List (Task × Fin 8)} (h3 : Keeps fs s0 a3.1) (hm : [.regs, .tasks, .clusters, .free] ⊆ fs := by first | assumption | (refine List.Subset.trans ?_ (by assumption); simp) | simp) :
    ∀ x, (rePlaceTask a1 a2 a3) = .ok x → Keeps fs s0 x.1 := by
  intro x e
  simp only [rePlaceTask] at e
  split at e
  · cases e
  have h := keeps_of_okE_fst (by assumption) (placeUnit_keeps h3)
  split at e
  · cases e
  split at e
  · cases e
  · cases e
    exact setTask_keeps (keeps_of_some_snd2 (by assumption) (takeTag_keeps (retireTag_keeps (keeps_foldl (fun _ _ h => addReg_keeps h) h))))
theorem rePlacement_keeps {fs : List Field} {s0 : State} {a1 : Nat} {a2 : State} (h2 : Keeps fs s0 a2) (hm : [.regs, .slots, .tasks, .ctrs, .cores, .clusters, .mem, .granger, .streams, .coll, .control, .step, .power, .traces, .out, .free] ⊆ fs := by first | assumption | (refine List.Subset.trans ?_ (by assumption); simp) | simp) :
    Keeps fs s0 (rePlacement a1 a2) := by
  simp only [rePlacement]
  repeat' first | with_reducible assumption | (exact List.Subset.trans (by simp) hm) | (intro _ e; cases e; done) | with_reducible apply setSlot_keeps | with_reducible apply placementEnd_keeps | with_reducible apply setFld_keeps | with_reducible apply remapReports_keeps | with_reducible apply refuseSlot_keeps | with_reducible apply keepsO_next | with_reducible apply keepsO_refused | with_reducible apply keepsI_ok | with_reducible apply keepsI_jump | with_reducible apply keepsI_trap | with_reducible apply keepsI_stall | with_reducible apply keepsI_defer | with_reducible apply keepsS_done | with_reducible apply keepsS_fault | with_reducible apply keepsL_value | with_reducible apply keepsL_blocks | with_reducible apply keepsR_ok | with_reducible apply keepsR_ecc | with_reducible apply keepsP_placed | with_reducible apply keepsP_refused | with_reducible apply keepsP_waits | with_reducible apply each_keeps | with_reducible apply keeps_foldl | (with_reducible refine (show ∀ x, _ = _ → _ from rePlaceTask_keeps ?_)) | (with_reducible refine (show ∀ x, _ = _ → _ from allOk_keeps ?_ ?_)) | (refine keeps_of_snd (by assumption) ?_) | (refine keeps_of_fst (by assumption) ?_) | (refine keeps_of_some (by assumption) ?_) | (refine keeps_of_some_snd (by assumption) ?_) | (refine keeps_of_some_fst (by assumption) ?_) | (refine keeps_of_some_snd2 (by assumption) ?_) | (refine keeps_of_okE (by assumption) ?_) | (refine keeps_of_okE_snd (by assumption) ?_) | (refine keeps_of_okE_fst (by assumption) ?_) | (refine keeps_of_okR (by assumption) ?_) | (refine keeps_of_eccR (by assumption) ?_) | (refine keeps_of_placed (by assumption) ?_) | (refine keeps_of_okI (by assumption) ?_) | (refine keeps_of_doneS (by assumption) ?_) | (refine keeps_of_valueL (by assumption) ?_) | (refine keeps_of_blocksL (by assumption) ?_) | intro _ | split
theorem execRePlacement_keeps {fs : List Field} {s0 : State} {a1 : Fin 64} {a2 : State} (h2 : Keeps fs s0 a2) (hm : [.regs, .slots, .tasks, .ctrs, .cores, .clusters, .mem, .granger, .streams, .coll, .control, .step, .power, .traces, .out, .free] ⊆ fs := by first | assumption | (refine List.Subset.trans ?_ (by assumption); simp) | simp) :
    KeepsO fs s0 (execRePlacement a1 a2) := by
  simp only [List.cons_subset, List.nil_subset, and_true] at hm
  simp (maxDischargeDepth := 60) +contextual only [execRePlacement, h2, List.cons_subset, hm, List.nil_subset, and_self, rePlacement_keeps, keepsO_next]
theorem startCursor_keeps {fs : List Field} {s0 : State} {a1 : Nat} {a2 : State} (h2 : Keeps fs s0 a2) (hm : [.granger] ⊆ fs := by first | assumption | (refine List.Subset.trans ?_ (by assumption); simp) | simp) :
    Keeps fs s0 (startCursor a1 a2) := by
  simp only [List.cons_subset, List.nil_subset, and_true] at hm
  simp (maxDischargeDepth := 60) +contextual only [startCursor, h2, List.cons_subset, hm, List.nil_subset, and_self, endCursor_keeps, keeps_granger]
theorem reportTile_keeps {fs : List Field} {s0 : State} {a1 : Nat} {a2 : Nat} {a3 : Nat} {a4 : Nat} {a5 : Plan} {a6 : State} {a7 : Fin 8} (h6 : Keeps fs s0 a6) (hm : [.regs, .cores, .mem, .out] ⊆ fs := by first | assumption | (refine List.Subset.trans ?_ (by assumption); simp) | simp) :
    Keeps fs s0 (reportTile a1 a2 a3 a4 a5 a6 a7) := by
  simp only [List.cons_subset, List.nil_subset, and_true] at hm
  simp (maxDischargeDepth := 60) +contextual only [reportTile, List.cons_subset, hm, List.nil_subset, and_self, addReg_keeps, report_keeps, implies_true, h6, event_keeps, setFld_keeps, keeps_foldl, keeps_ite]
theorem slotPlacement_keeps {fs : List Field} {s0 : State} {a1 : Nat} {a2 : State} (h2 : Keeps fs s0 a2) (hm : [.regs, .slots, .tasks, .ctrs, .cores, .clusters, .mem, .granger, .streams, .coll, .control, .step, .power, .traces, .out, .free] ⊆ fs := by first | assumption | (refine List.Subset.trans ?_ (by assumption); simp) | simp) :
    Keeps fs s0 (slotPlacement a1 a2) := by
  simp only [slotPlacement]
  repeat' first | with_reducible assumption | (exact List.Subset.trans (by simp) hm) | (intro _ e; cases e; done) | with_reducible apply startCursor_keeps | with_reducible apply reportTile_keeps | with_reducible apply setSlot_keeps | with_reducible apply dequeue_keeps | with_reducible apply refuseSlot_keeps | with_reducible apply decidePlacement_keeps | with_reducible apply keepsO_next | with_reducible apply keepsO_refused | with_reducible apply keepsI_ok | with_reducible apply keepsI_jump | with_reducible apply keepsI_trap | with_reducible apply keepsI_stall | with_reducible apply keepsI_defer | with_reducible apply keepsS_done | with_reducible apply keepsS_fault | with_reducible apply keepsL_value | with_reducible apply keepsL_blocks | with_reducible apply keepsR_ok | with_reducible apply keepsR_ecc | with_reducible apply keepsP_placed | with_reducible apply keepsP_refused | with_reducible apply keepsP_waits | with_reducible apply each_keeps | with_reducible apply keeps_foldl | (with_reducible refine (show ∀ x, _ = _ → _ from allOk_keeps ?_ ?_)) | (refine keeps_of_snd (by assumption) ?_) | (refine keeps_of_fst (by assumption) ?_) | (refine keeps_of_some (by assumption) ?_) | (refine keeps_of_some_snd (by assumption) ?_) | (refine keeps_of_some_fst (by assumption) ?_) | (refine keeps_of_some_snd2 (by assumption) ?_) | (refine keeps_of_okE (by assumption) ?_) | (refine keeps_of_okE_snd (by assumption) ?_) | (refine keeps_of_okE_fst (by assumption) ?_) | (refine keeps_of_okR (by assumption) ?_) | (refine keeps_of_eccR (by assumption) ?_) | (refine keeps_of_placed (by assumption) ?_) | (refine keeps_of_okI (by assumption) ?_) | (refine keeps_of_doneS (by assumption) ?_) | (refine keeps_of_valueL (by assumption) ?_) | (refine keeps_of_blocksL (by assumption) ?_) | intro _ | split
theorem execSlotPlacement_keeps {fs : List Field} {s0 : State} {a1 : Fin 64} {a2 : State} (h2 : Keeps fs s0 a2) (hm : [.regs, .slots, .tasks, .ctrs, .cores, .clusters, .mem, .granger, .streams, .coll, .control, .step, .power, .traces, .out, .free] ⊆ fs := by first | assumption | (refine List.Subset.trans ?_ (by assumption); simp) | simp) :
    KeepsO fs s0 (execSlotPlacement a1 a2) := by
  simp only [List.cons_subset, List.nil_subset, and_true] at hm
  simp (maxDischargeDepth := 60) +contextual only [execSlotPlacement, h2, List.cons_subset, hm, List.nil_subset, and_self, slotPlacement_keeps, keepsO_next]
theorem pinMoves_keeps {fs : List Field} {s0 : State} {a1 : State} (h1 : Keeps fs s0 a1) (hm : [.regs, .mem, .granger, .streams] ⊆ fs := by first | assumption | (refine List.Subset.trans ?_ (by assumption); simp) | simp) :
    Keeps fs s0 (pinMoves a1) := by
  simp only [List.cons_subset, List.nil_subset, and_true] at hm
  simp (maxDischargeDepth := 60) +contextual only [pinMoves, List.cons_subset, hm, List.nil_subset, and_self, pinMove_keeps, implies_true, h1, keeps_foldl]
theorem addCopy_keeps {fs : List Field} {s0 : State} {a1 : Fin 8} {a2 : Nat} {a3 : Nat} {a4 : State} (h4 : Keeps fs s0 a4) (hm : [.mem, .granger] ⊆ fs := by first | assumption | (refine List.Subset.trans ?_ (by assumption); simp) | simp) :
    Keeps fs s0 (addCopy a1 a2 a3 a4) := by
  unfold addCopy
  have h := takeStack_keeps (a2 := a1.val) h4
  generalize takeStack a4 a1.val = p at h ⊢
  obtain ⟨k, s⟩ := p
  refine keeps_mem h fun w => ?_
  simp only [Memory.wf, Bool.and_eq_true] at w ⊢
  exact ⟨w.1, cellsWf_takeCopyBytes w.1.1 w.2⟩
theorem setCursor_keeps {fs : List Field} {s0 : State} {a1 : Cursor} {a2 : State} (h2 : Keeps fs s0 a2) (hm : [.granger] ⊆ fs := by first | assumption | (refine List.Subset.trans ?_ (by assumption); simp) | simp) :
    Keeps fs s0 (setCursor a1 a2) := by
  simp only [List.cons_subset, List.nil_subset, and_true] at hm
  simp (maxDischargeDepth := 60) +contextual only [setCursor, h2, List.cons_subset, hm, List.nil_subset, and_self, keeps_granger]
theorem arrivalSignal_keeps {fs : List Field} {s0 : State} {a1 : Nat} {a2 : Nat} {a3 : Nat} {a4 : Nat} {a5 : State} (h5 : Keeps fs s0 a5) (hm : [.regs, .slots, .tasks, .ctrs, .cores, .clusters, .mem, .granger, .coll, .control, .step, .power, .traces, .out] ⊆ fs := by first | assumption | (refine List.Subset.trans ?_ (by assumption); simp) | simp) :
    Keeps fs s0 (arrivalSignal a1 a2 a3 a4 a5) := by
  simp only [List.cons_subset, List.nil_subset, and_true] at hm
  simp (maxDischargeDepth := 60) +contextual only [arrivalSignal]
  repeat' (split <;> (try simp (maxDischargeDepth := 60) +contextual only [List.cons_subset, List.nil_subset, and_self, setCursor_keeps, signal_keeps, h5, hm]))
  all_goals (first | done | assumption)
theorem dropCopies_keeps {fs : List Field} {s0 : State} {a1 : Nat} {a2 : List Nat} {a3 : State} (h3 : Keeps fs s0 a3) (hm : [.mem] ⊆ fs := by first | assumption | (refine List.Subset.trans ?_ (by assumption); simp) | simp) :
    Keeps fs s0 (dropCopies a1 a2 a3) := by
  simp only [List.cons_subset, List.nil_subset, and_true] at hm
  simp (maxDischargeDepth := 60) +contextual only [dropCopies, h3, List.cons_subset, hm, List.nil_subset, and_self, dropWindow_keeps]
theorem freeOverlap_keeps {fs : List Field} {s0 : State} {a1 : Nat} {a2 : Nat} {a3 : Nat} {a4 : List Byte} {a5 : State} (h5 : Keeps fs s0 a5) (hm : [.free] ⊆ fs := by first | assumption | (refine List.Subset.trans ?_ (by assumption); simp) | simp) :
    Keeps fs s0 (freeOverlap a1 a2 a3 a4 a5).2 := by
  simp only [List.cons_subset, List.nil_subset, and_true] at hm
  simp (maxDischargeDepth := 60) +contextual only [freeOverlap, apply_ite Prod.snd, h5, List.cons_subset, hm, List.nil_subset, and_self, keeps_free, keeps_ite]
theorem moveBytes_keeps {fs : List Field} {s0 : State} {a1 : Nat} {a2 : Nat} {a3 : Nat} {a4 : Nat} {a5 : State} (h5 : Keeps fs s0 a5) (hm : [.regs, .cores, .mem, .granger, .out, .free] ⊆ fs := by first | assumption | (refine List.Subset.trans ?_ (by assumption); simp) | simp) :
    Keeps fs s0 (moveBytes a1 a2 a3 a4 a5) := by
  simp only [List.cons_subset, List.nil_subset, and_true] at hm
  simp (maxDischargeDepth := 60) +contextual only [moveBytes, h5, List.cons_subset, hm, List.nil_subset, and_self, homeAccesses_keeps, freeOverlap_keeps, storeHome_keeps]
theorem streamFinish_keeps {fs : List Field} {s0 : State} {a1 : Bool} {a2 : Fin 8} {a3 : StreamCmd} {a4 : List Word} {a5 : Nat} {a6 : State} (h6 : Keeps fs s0 a6) (hm : [.regs, .slots, .tasks, .ctrs, .cores, .clusters, .mem, .granger, .streams, .coll, .control, .step, .power, .traces, .out, .free] ⊆ fs := by first | assumption | (refine List.Subset.trans ?_ (by assumption); simp) | simp) :
    Keeps fs s0 (streamFinish a1 a2 a3 a4 a5 a6) := by
  simp only [List.cons_subset, List.nil_subset, and_true] at hm
  simp (maxDischargeDepth := 60) +contextual only [streamFinish]
  repeat' (split <;> (try simp (maxDischargeDepth := 60) +contextual only [keeps_ite, List.cons_subset, List.nil_subset, and_self, signal_keeps, trace_keeps, wr_keeps, logErr_keeps, storeHome_keeps, setFld_keeps, setStreamQ_keeps, h6, hm]))
  all_goals (first | done | assumption)
theorem streamComplete_keeps {fs : List Field} {s0 : State} {a1 : Fin 8} {a2 : StreamCmd} {a3 : List Word} {a4 : Nat} {a5 : State} (h5 : Keeps fs s0 a5) (hm : [.regs, .slots, .tasks, .ctrs, .cores, .clusters, .mem, .granger, .streams, .coll, .control, .step, .power, .traces, .out, .free] ⊆ fs := by first | assumption | (refine List.Subset.trans ?_ (by assumption); simp) | simp) :
    Keeps fs s0 (streamComplete a1 a2 a3 a4 a5) := by
  simp only [List.cons_subset, List.nil_subset, and_true] at hm
  simp (maxDischargeDepth := 60) +contextual only [streamComplete, h5, List.cons_subset, hm, List.nil_subset, and_self, streamFinish_keeps]
theorem streamCopy_keeps {fs : List Field} {s0 : State} {a1 : Fin 8} {a2 : State} (h2 : Keeps fs s0 a2) (hm : [.regs, .slots, .tasks, .ctrs, .cores, .clusters, .mem, .granger, .streams, .coll, .control, .step, .power, .traces, .out, .free] ⊆ fs := by first | assumption | (refine List.Subset.trans ?_ (by assumption); simp) | simp) :
    Keeps fs s0 (streamCopy a1 a2) := by
  simp only [List.cons_subset, List.nil_subset, and_true] at hm
  simp (maxDischargeDepth := 60) +contextual only [streamCopy]
  repeat' (split <;> (try simp (maxDischargeDepth := 60) +contextual only [keeps_ite, List.cons_subset, List.nil_subset, and_self, moveBytes_keeps, meetPoison_keeps, streamComplete_keeps, h2, hm]))
  all_goals (first | done | assumption)
theorem execStreamCopy_keeps {fs : List Field} {s0 : State} {a1 : Fin 8} {a2 : State} (h2 : Keeps fs s0 a2) (hm : [.regs, .slots, .tasks, .ctrs, .cores, .clusters, .mem, .granger, .streams, .coll, .control, .step, .power, .traces, .out, .free] ⊆ fs := by first | assumption | (refine List.Subset.trans ?_ (by assumption); simp) | simp) :
    KeepsO fs s0 (execStreamCopy a1 a2) := by
  simp only [List.cons_subset, List.nil_subset, and_true] at hm
  simp (maxDischargeDepth := 60) +contextual only [execStreamCopy, h2, List.cons_subset, hm, List.nil_subset, and_self, streamCopy_keeps, implies_true, atTile_keeps]
theorem streamDrop_keeps {fs : List Field} {s0 : State} {a1 : Fin 8} {a2 : State} (h2 : Keeps fs s0 a2) (hm : [.regs, .slots, .tasks, .ctrs, .cores, .clusters, .mem, .granger, .streams, .coll, .control, .step, .power, .traces, .out, .free] ⊆ fs := by first | assumption | (refine List.Subset.trans ?_ (by assumption); simp) | simp) :
    Keeps fs s0 (streamDrop a1 a2) := by
  simp only [List.cons_subset, List.nil_subset, and_true] at hm
  simp (maxDischargeDepth := 60) +contextual only [streamDrop]
  repeat' (split <;> (try simp (maxDischargeDepth := 60) +contextual only [keeps_ite, List.cons_subset, List.nil_subset, and_self, dropCopies_keeps, streamComplete_keeps, h2, hm]))
  all_goals (first | done | assumption)
theorem execStreamDrop_keeps {fs : List Field} {s0 : State} {a1 : Fin 8} {a2 : State} (h2 : Keeps fs s0 a2) (hm : [.regs, .slots, .tasks, .ctrs, .cores, .clusters, .mem, .granger, .streams, .coll, .control, .step, .power, .traces, .out, .free] ⊆ fs := by first | assumption | (refine List.Subset.trans ?_ (by assumption); simp) | simp) :
    KeepsO fs s0 (execStreamDrop a1 a2) := by
  simp only [List.cons_subset, List.nil_subset, and_true] at hm
  simp (maxDischargeDepth := 60) +contextual only [execStreamDrop, h2, List.cons_subset, hm, List.nil_subset, and_self, streamDrop_keeps, implies_true, atTile_keeps]
theorem fetchBushel_keeps {fs : List Field} {s0 : State} {a1 : Fin 8} {a2 : Nat} {a3 : Nat} {a4 : State} (h4 : Keeps fs s0 a4) (hm : [.regs, .mem, .granger, .out, .free] ⊆ fs := by first | assumption | (refine List.Subset.trans ?_ (by assumption); simp) | simp) :
    Keeps fs s0 (fetchBushel a1 a2 a3 a4) := by
  simp only [List.cons_subset, List.nil_subset, and_true] at hm
  simp (maxDischargeDepth := 60) +contextual only [fetchBushel, h4, List.cons_subset, hm, List.nil_subset, and_self, homeTraffic_keeps, addCopy_keeps]
theorem fetchBushels_keeps {fs : List Field} {s0 : State} {a1 : Fin 8} {a2 : Nat} {a3 : List Nat} {a4 : State} (h4 : Keeps fs s0 a4) (hm : [.regs, .mem, .granger, .out, .free] ⊆ fs := by first | assumption | (refine List.Subset.trans ?_ (by assumption); simp) | simp) :
    Keeps fs s0 (fetchBushels a1 a2 a3 a4).2 := by
  simp only [List.cons_subset, List.nil_subset, and_true] at hm
  simp (maxDischargeDepth := 60) +contextual only [fetchBushels, List.cons_subset, hm, List.nil_subset, and_self, fetchBushel_keeps, implies_true, h4, keeps_foldl]
theorem streamFetch_keeps {fs : List Field} {s0 : State} {a1 : Fin 8} {a2 : State} (h2 : Keeps fs s0 a2) (hm : [.regs, .slots, .tasks, .ctrs, .cores, .clusters, .mem, .granger, .streams, .coll, .control, .step, .power, .traces, .out, .free] ⊆ fs := by first | assumption | (refine List.Subset.trans ?_ (by assumption); simp) | simp) :
    Keeps fs s0 (streamFetch a1 a2) := by
  unfold streamFetch
  split
  · exact h2
  · extract_lets ws
    split
    · exact h2
    split
    · exact streamComplete_keeps h2
    split
    · exact streamComplete_keeps h2
    split
    · exact streamComplete_keeps h2
    split
    · exact h2
    · split
      · exact streamComplete_keeps (keeps_of_snd (by assumption) (fetchBushels_keeps h2))
      · exact meetPoison_keeps (streamComplete_keeps (keeps_of_snd (by assumption) (fetchBushels_keeps h2)))
theorem execStreamFetch_keeps {fs : List Field} {s0 : State} {a1 : Fin 8} {a2 : State} (h2 : Keeps fs s0 a2) (hm : [.regs, .slots, .tasks, .ctrs, .cores, .clusters, .mem, .granger, .streams, .coll, .control, .step, .power, .traces, .out, .free] ⊆ fs := by first | assumption | (refine List.Subset.trans ?_ (by assumption); simp) | simp) :
    KeepsO fs s0 (execStreamFetch a1 a2) := by
  simp only [List.cons_subset, List.nil_subset, and_true] at hm
  simp (maxDischargeDepth := 60) +contextual only [execStreamFetch, h2, List.cons_subset, hm, List.nil_subset, and_self, streamFetch_keeps, implies_true, atTile_keeps]
theorem readStreamStat_keeps {fs : List Field} {s0 : State} {a1 : Fin 8} {a2 : State} (h2 : Keeps fs s0 a2) (hm : [.regs, .out] ⊆ fs := by first | assumption | (refine List.Subset.trans ?_ (by assumption); simp) | simp) :
    Keeps fs s0 (readStreamStat a1 a2) := by
  simp only [List.cons_subset, List.nil_subset, and_true] at hm
  simp (maxDischargeDepth := 60) +contextual only [readStreamStat, h2, List.cons_subset, hm, List.nil_subset, and_self, setFld_keeps, reply_keeps]
theorem execStreamStatRead_keeps {fs : List Field} {s0 : State} {a1 : Fin 8} {a2 : State} (h2 : Keeps fs s0 a2) (hm : [.regs, .out] ⊆ fs := by first | assumption | (refine List.Subset.trans ?_ (by assumption); simp) | simp) :
    KeepsO fs s0 (execStreamStatRead a1 a2) := by
  simp only [List.cons_subset, List.nil_subset, and_true] at hm
  simp (maxDischargeDepth := 60) +contextual only [execStreamStatRead, h2, List.cons_subset, hm, List.nil_subset, and_self, readStreamStat_keeps, implies_true, atTile_keeps]
theorem streamEnter_keeps {fs : List Field} {s0 : State} {a1 : Requester} {a2 : Fin 8} {a3 : Word} {a4 : State} (h4 : Keeps fs s0 a4) (hm : [.regs, .streams, .out] ⊆ fs := by first | assumption | (refine List.Subset.trans ?_ (by assumption); simp) | simp) :
    Keeps fs s0 (streamEnter a1 a2 a3 a4) := by
  simp only [List.cons_subset, List.nil_subset, and_true] at hm
  simp (maxDischargeDepth := 60) +contextual only [streamEnter, h4, List.cons_subset, hm, List.nil_subset, and_self, reservedWrite_keeps, setStreamQ_keeps]
theorem streamStore_keeps {fs : List Field} {s0 : State} {a1 : CoreRef} {a2 : Fin 8} {a3 : Word} {a4 : State} (h4 : Keeps fs s0 a4) (hm : [.regs, .cores, .streams, .out] ⊆ fs := by first | assumption | (refine List.Subset.trans ?_ (by assumption); simp) | simp) :
    KeepsS fs s0 (streamStore a1 a2 a3 a4) := by
  simp only [List.cons_subset, List.nil_subset, and_true] at hm
  simp (maxDischargeDepth := 60) +contextual only [streamStore, h4, List.cons_subset, hm, List.nil_subset, and_self, holdStore_keeps, keepsS_done, streamEnter_keeps, keepsS_ite]
theorem streamSubmit_keeps {fs : List Field} {s0 : State} {a1 : Requester} {a2 : Fin 8} {a3 : Word} {a4 : State} (h4 : Keeps fs s0 a4) (hm : [.regs, .slots, .tasks, .ctrs, .cores, .clusters, .mem, .granger, .streams, .coll, .control, .step, .power, .traces, .out] ⊆ fs := by first | assumption | (refine List.Subset.trans ?_ (by assumption); simp) | simp) :
    Keeps fs s0 (streamSubmit a1 a2 a3 a4) := by
  simp only [List.cons_subset, List.nil_subset, and_true] at hm
  simp (maxDischargeDepth := 60) +contextual only [streamSubmit]
  repeat' (split <;> (try simp (maxDischargeDepth := 60) +contextual only [keeps_ite, List.cons_subset, List.nil_subset, and_self, streamEnter_keeps, setFld_keeps, logErr_keeps, streamStore_keeps, settle_keeps, h4, hm]))
  all_goals (first | done | assumption)
theorem execStreamSubmit_keeps {fs : List Field} {s0 : State} {a1 : Requester} {a2 : Fin 8} {a3 : Word} {a4 : State} (h4 : Keeps fs s0 a4) (hm : [.regs, .slots, .tasks, .ctrs, .cores, .clusters, .mem, .granger, .streams, .coll, .control, .step, .power, .traces, .out] ⊆ fs := by first | assumption | (refine List.Subset.trans ?_ (by assumption); simp) | simp) :
    KeepsO fs s0 (execStreamSubmit a1 a2 a3 a4) := by
  simp only [List.cons_subset, List.nil_subset, and_true] at hm
  simp (maxDischargeDepth := 60) +contextual only [execStreamSubmit, h4, List.cons_subset, hm, List.nil_subset, and_self, streamSubmit_keeps, implies_true, byAt_keeps]
theorem grangerCmd_keeps {fs : List Field} {s0 : State} {a1 : Nat} {a2 : Nat} {a3 : Nat} {a4 : Nat} {a5 : State} (h5 : Keeps fs s0 a5) (hm : [.regs, .streams] ⊆ fs := by first | assumption | (refine List.Subset.trans ?_ (by assumption); simp) | simp) :
    Keeps fs s0 (grangerCmd a1 a2 a3 a4 a5) := by
  simp only [List.cons_subset, List.nil_subset, and_true] at hm
  simp (maxDischargeDepth := 60) +contextual only [grangerCmd, List.cons_subset, hm, List.nil_subset, and_self, setStreamQ_keeps, keeps_ite, implies_true, h5, keeps_foldl]
theorem noteVisit_keeps {fs : List Field} {s0 : State} {a1 : Cursor} {a2 : Nat} {a3 : Bool} {a4 : State} (h4 : Keeps fs s0 a4) (hm : [.regs, .slots, .granger] ⊆ fs := by first | assumption | (refine List.Subset.trans ?_ (by assumption); simp) | simp) :
    Keeps fs s0 (noteVisit a1 a2 a3 a4) := by
  simp only [List.cons_subset, List.nil_subset, and_true] at hm
  simp (maxDischargeDepth := 60) +contextual only [noteVisit, h4, List.cons_subset, hm, List.nil_subset, and_self, setCursor_keeps, keeps_granger, setFld_keeps, keeps_ite, setSlot_keeps]
theorem releaseLayer_keeps {fs : List Field} {s0 : State} {a1 : Nat} {a2 : State} {a3 : Nat} (h2 : Keeps fs s0 a2) (hm : [.regs, .streams] ⊆ fs := by first | assumption | (refine List.Subset.trans ?_ (by assumption); simp) | simp) :
    Keeps fs s0 (releaseLayer a1 a2 a3) := by
  simp only [List.cons_subset, List.nil_subset, and_true] at hm
  simp (maxDischargeDepth := 60) +contextual only [releaseLayer, List.cons_subset, hm, List.nil_subset, and_self, grangerCmd_keeps, implies_true, h2, keeps_foldl]

end Sys2Proof.Laws
end

