-- ==== Sys2Proof/Laws/KeepsNet.lean ====
section
/-! SUPPORT. What the operations keep (see Laws/Keeps.lean): Granger, DMA, links, packets, peers. -/

namespace Sys2Proof.Laws

set_option Elab.async false

open Sys2Proof.Machine Sys2Proof.Safety

theorem clearOrigin_keeps {fs : List Field} {s0 : State} {a1 : (Bushel → Bool)} {a2 : State} (h2 : Keeps fs s0 a2) (hm : [.mem] ⊆ fs := by first | assumption | (refine List.Subset.trans ?_ (by assumption); simp) | simp) :
    Keeps fs s0 (clearOrigin a1 a2) := by
  simp only [List.cons_subset, List.nil_subset, and_true] at hm
  simp (maxDischargeDepth := 60) +contextual only [clearOrigin, h2, List.cons_subset, hm, List.nil_subset, and_self, keeps_memrest]
theorem closeHeat_keeps {fs : List Field} {s0 : State} {a1 : (Bushel → Bool)} {a2 : State} (h2 : Keeps fs s0 a2) (hm : [.mem] ⊆ fs := by first | assumption | (refine List.Subset.trans ?_ (by assumption); simp) | simp) :
    Keeps fs s0 (closeHeat a1 a2) := by
  simp only [List.cons_subset, List.nil_subset, and_true] at hm
  simp (maxDischargeDepth := 60) +contextual only [closeHeat, h2, List.cons_subset, hm, List.nil_subset, and_self, keeps_memrest]
theorem demoteList_keeps {fs : List Field} {s0 : State} {a1 : Nat} {a2 : Nat} {a3 : List (Nat × Bushel)} {a4 : Nat} {a5 : State} (h5 : Keeps fs s0 a5) (hm : [.regs, .mem, .granger, .streams] ⊆ fs := by first | assumption | (refine List.Subset.trans ?_ (by assumption); simp) | simp) :
    Keeps fs s0 (demoteList a1 a2 a3 a4 a5) := by
  induction a3 generalizing a4 a5 with
  | nil => exact h5
  | cons e l ih =>
    unfold demoteList
    split
    · exact h5
    · extract_lets room s'
      split
      · exact h5
      · exact ih (startMove_keeps h5)
theorem demote_keeps {fs : List Field} {s0 : State} {a1 : Nat} {a2 : Nat} {a3 : State} (h3 : Keeps fs s0 a3) (hm : [.regs, .mem, .granger, .streams] ⊆ fs := by first | assumption | (refine List.Subset.trans ?_ (by assumption); simp) | simp) :
    Keeps fs s0 (demote a1 a2 a3) := by
  simp only [List.cons_subset, List.nil_subset, and_true] at hm
  simp (maxDischargeDepth := 60) +contextual only [demote, h3, List.cons_subset, hm, List.nil_subset, and_self, demoteList_keeps]
theorem heatMove_keeps {fs : List Field} {s0 : State} {a1 : Nat} {a2 : State} (h2 : Keeps fs s0 a2) (hm : [.regs, .mem, .granger, .streams] ⊆ fs := by first | assumption | (refine List.Subset.trans ?_ (by assumption); simp) | simp) :
    Keeps fs s0 (heatMove a1 a2) := by
  simp only [List.cons_subset, List.nil_subset, and_true] at hm
  simp (maxDischargeDepth := 60) +contextual only [heatMove]
  repeat' (split <;> (try simp (maxDischargeDepth := 60) +contextual only [keeps_ite, List.cons_subset, List.nil_subset, and_self, startMove_keeps, h2, hm]))
  all_goals (first | done | assumption)
theorem evacuateLost_keeps {fs : List Field} {s0 : State} {a1 : Nat} {a2 : State} (h2 : Keeps fs s0 a2) (hm : [.regs, .mem, .granger, .streams] ⊆ fs := by first | assumption | (refine List.Subset.trans ?_ (by assumption); simp) | simp) :
    Keeps fs s0 (evacuateLost a1 a2) := by
  simp only [evacuateLost]
  repeat' first | with_reducible assumption | (exact List.Subset.trans (by simp) hm) | (intro _ e; cases e; done) | with_reducible apply startMove_keeps | with_reducible apply keepsO_next | with_reducible apply keepsO_refused | with_reducible apply keepsI_ok | with_reducible apply keepsI_jump | with_reducible apply keepsI_trap | with_reducible apply keepsI_stall | with_reducible apply keepsI_defer | with_reducible apply keepsS_done | with_reducible apply keepsS_fault | with_reducible apply keepsL_value | with_reducible apply keepsL_blocks | with_reducible apply keepsR_ok | with_reducible apply keepsR_ecc | with_reducible apply keepsP_placed | with_reducible apply keepsP_refused | with_reducible apply keepsP_waits | with_reducible apply each_keeps | with_reducible apply keeps_foldl | (with_reducible refine (show ∀ x, _ = _ → _ from allOk_keeps ?_ ?_)) | (refine keeps_of_snd (by assumption) ?_) | (refine keeps_of_fst (by assumption) ?_) | (refine keeps_of_some (by assumption) ?_) | (refine keeps_of_some_snd (by assumption) ?_) | (refine keeps_of_some_fst (by assumption) ?_) | (refine keeps_of_some_snd2 (by assumption) ?_) | (refine keeps_of_okE (by assumption) ?_) | (refine keeps_of_okE_snd (by assumption) ?_) | (refine keeps_of_okE_fst (by assumption) ?_) | (refine keeps_of_okR (by assumption) ?_) | (refine keeps_of_eccR (by assumption) ?_) | (refine keeps_of_placed (by assumption) ?_) | (refine keeps_of_okI (by assumption) ?_) | (refine keeps_of_doneS (by assumption) ?_) | (refine keeps_of_valueL (by assumption) ?_) | (refine keeps_of_blocksL (by assumption) ?_) | intro _ | split
theorem closeWindow_keeps {fs : List Field} {s0 : State} {a1 : Fin 8} {a2 : State} (h2 : Keeps fs s0 a2) (hm : [.regs, .mem, .granger, .streams] ⊆ fs := by first | assumption | (refine List.Subset.trans ?_ (by assumption); simp) | simp) :
    Keeps fs s0 (closeWindow a1 a2) := by
  simp only [List.cons_subset, List.nil_subset, and_true] at hm
  simp (maxDischargeDepth := 60) +contextual only [closeWindow, h2, List.cons_subset, hm, List.nil_subset, and_self, evacuateLost_keeps, heatMove_keeps, implies_true, closeHeat_keeps, keeps_foldl, demote_keeps, clearOrigin_keeps, keeps_ite]
theorem setSnoop_keeps {fs : List Field} {s0 : State} {a1 : State} {a2 : List Nat} (h1 : Keeps fs s0 a1) (hm : [.regs, .mem] ⊆ fs := by first | assumption | (refine List.Subset.trans ?_ (by assumption); simp) | simp) :
    Keeps fs s0 (setSnoop a1 a2) := by
  simp only [List.cons_subset, List.nil_subset, and_true] at hm
  simp (maxDischargeDepth := 60) +contextual only [setSnoop, h1, List.cons_subset, hm, List.nil_subset, and_self, keeps_memrest, setFld_keeps]
theorem snoopEnter_keeps {fs : List Field} {s0 : State} {a1 : Nat} {a2 : State} (h2 : Keeps fs s0 a2) (hm : [.regs, .mem, .out] ⊆ fs := by first | assumption | (refine List.Subset.trans ?_ (by assumption); simp) | simp) :
    Keeps fs s0 (snoopEnter a1 a2) := by
  simp only [List.cons_subset, List.nil_subset, and_true] at hm
  simp (maxDischargeDepth := 60) +contextual only [snoopEnter, h2, List.cons_subset, hm, List.nil_subset, and_self, setSnoop_keeps, event_keeps, keeps_ite]
theorem hostRefused_keeps {fs : List Field} {s0 : State} {a1 : Nat} {a2 : Nat} {a3 : State} (h3 : Keeps fs s0 a3) (hm : [.regs, .out] ⊆ fs := by first | assumption | (refine List.Subset.trans ?_ (by assumption); simp) | simp) :
    Keeps fs s0 (hostRefused a1 a2 a3) := by
  simp only [List.cons_subset, List.nil_subset, and_true] at hm
  simp (maxDischargeDepth := 60) +contextual only [hostRefused, h3, List.cons_subset, hm, List.nil_subset, and_self, wr_keeps, logErr_keeps]
theorem replyData_keeps {fs : List Field} {s0 : State} {a1 : List Byte} {a2 : Bool} {a3 : State} (h3 : Keeps fs s0 a3) (hm : [.out] ⊆ fs := by first | assumption | (refine List.Subset.trans ?_ (by assumption); simp) | simp) :
    Keeps fs s0 (replyData a1 a2 a3) := by
  simp only [List.cons_subset, List.nil_subset, and_true] at hm
  simp (maxDischargeDepth := 60) +contextual only [replyData, h3, List.cons_subset, hm, List.nil_subset, and_self, keeps_out]
theorem serveRead_keeps {fs : List Field} {s0 : State} {a1 : Nat} {a2 : Nat} {a3 : Bool} {a4 : State} (h4 : Keeps fs s0 a4) (hm : [.regs, .slots, .tasks, .ctrs, .cores, .clusters, .mem, .granger, .streams, .coll, .control, .step, .power, .traces, .out, .free] ⊆ fs := by first | assumption | (refine List.Subset.trans ?_ (by assumption); simp) | simp) :
    Keeps fs s0 (serveRead a1 a2 a3 a4) := by
  simp only [List.cons_subset, List.nil_subset, and_true] at hm
  simp (maxDischargeDepth := 60) +contextual only [serveRead, h4, List.cons_subset, hm, List.nil_subset, and_self, hostRefused_keeps, addReg_keeps, replyData_keeps, snoopEnter_keeps, implies_true, countPoison_keeps, homeAccesses_keeps, keeps_foldl, keeps_ite]
theorem holdAccess_keeps {fs : List Field} {s0 : State} {a1 : HeldAccess} {a2 : State} (h2 : Keeps fs s0 a2) (hm : [.mem] ⊆ fs := by first | assumption | (refine List.Subset.trans ?_ (by assumption); simp) | simp) :
    Keeps fs s0 (holdAccess a1 a2) := by
  simp only [List.cons_subset, List.nil_subset, and_true] at hm
  simp (maxDischargeDepth := 60) +contextual only [holdAccess, h2, List.cons_subset, hm, List.nil_subset, and_self, keeps_memrest]
theorem cxlRead_keeps {fs : List Field} {s0 : State} {a1 : Nat} {a2 : Nat} {a3 : Bool} {a4 : State} (h4 : Keeps fs s0 a4) (hm : [.regs, .slots, .tasks, .ctrs, .cores, .clusters, .mem, .granger, .streams, .coll, .control, .step, .power, .traces, .out, .free] ⊆ fs := by first | assumption | (refine List.Subset.trans ?_ (by assumption); simp) | simp) :
    Keeps fs s0 (cxlRead a1 a2 a3 a4) := by
  simp only [List.cons_subset, List.nil_subset, and_true] at hm
  simp (maxDischargeDepth := 60) +contextual only [cxlRead, h4, List.cons_subset, hm, List.nil_subset, and_self, holdAccess_keeps, serveRead_keeps, keeps_ite]
theorem serveWrite_keeps {fs : List Field} {s0 : State} {a1 : Nat} {a2 : List Byte} {a3 : State} (h3 : Keeps fs s0 a3) (hm : [.regs, .cores, .mem, .granger, .out, .free] ⊆ fs := by first | assumption | (refine List.Subset.trans ?_ (by assumption); simp) | simp) :
    Keeps fs s0 (serveWrite a1 a2 a3) := by
  simp only [List.cons_subset, List.nil_subset, and_true] at hm
  simp (maxDischargeDepth := 60) +contextual only [serveWrite, h3, List.cons_subset, hm, List.nil_subset, and_self, hostRefused_keeps, addReg_keeps, storeHome_keeps, keeps_ite]
theorem cxlWrite_keeps {fs : List Field} {s0 : State} {a1 : Nat} {a2 : List Byte} {a3 : State} (h3 : Keeps fs s0 a3) (hm : [.regs, .cores, .mem, .granger, .out, .free] ⊆ fs := by first | assumption | (refine List.Subset.trans ?_ (by assumption); simp) | simp) :
    Keeps fs s0 (cxlWrite a1 a2 a3) := by
  simp only [List.cons_subset, List.nil_subset, and_true] at hm
  simp (maxDischargeDepth := 60) +contextual only [cxlWrite, h3, List.cons_subset, hm, List.nil_subset, and_self, holdAccess_keeps, serveWrite_keeps, keeps_ite]
theorem execCxlmemRead_keeps {fs : List Field} {s0 : State} {a1 : BitVec 48} {a2 : Fin 65} {a3 : Bool} {a4 : State} (h4 : Keeps fs s0 a4) (hm : [.regs, .slots, .tasks, .ctrs, .cores, .clusters, .mem, .granger, .streams, .coll, .control, .step, .power, .traces, .out, .free] ⊆ fs := by first | assumption | (refine List.Subset.trans ?_ (by assumption); simp) | simp) :
    KeepsO fs s0 (execCxlmemRead a1 a2 a3 a4) := by
  simp only [List.cons_subset, List.nil_subset, and_true] at hm
  simp (maxDischargeDepth := 60) +contextual only [execCxlmemRead, h4, List.cons_subset, hm, List.nil_subset, and_self, cxlRead_keeps, keepsO_next]
theorem execCxlmemWrite_keeps {fs : List Field} {s0 : State} {a1 : BitVec 48} {a2 : List Byte} {a3 : State} (h3 : Keeps fs s0 a3) (hm : [.regs, .cores, .mem, .granger, .out, .free] ⊆ fs := by first | assumption | (refine List.Subset.trans ?_ (by assumption); simp) | simp) :
    KeepsO fs s0 (execCxlmemWrite a1 a2 a3) := by
  simp only [List.cons_subset, List.nil_subset, and_true] at hm
  simp (maxDischargeDepth := 60) +contextual only [execCxlmemWrite, h3, List.cons_subset, hm, List.nil_subset, and_self, cxlWrite_keeps, keepsO_next]
theorem heatWindowEnd_keeps {fs : List Field} {s0 : State} {a1 : Fin 8} {a2 : State} (h2 : Keeps fs s0 a2) (hm : [.regs, .mem, .granger, .streams] ⊆ fs := by first | assumption | (refine List.Subset.trans ?_ (by assumption); simp) | simp) :
    Keeps fs s0 (heatWindowEnd a1 a2) := by
  simp only [List.cons_subset, List.nil_subset, and_true] at hm
  simp (maxDischargeDepth := 60) +contextual only [heatWindowEnd, h2, List.cons_subset, hm, List.nil_subset, and_self, keeps_granger, closeWindow_keeps, keeps_ite]
theorem execHeatWindowEnd_keeps {fs : List Field} {s0 : State} {a1 : Fin 8} {a2 : State} (h2 : Keeps fs s0 a2) (hm : [.regs, .mem, .granger, .streams] ⊆ fs := by first | assumption | (refine List.Subset.trans ?_ (by assumption); simp) | simp) :
    KeepsO fs s0 (execHeatWindowEnd a1 a2) := by
  simp only [List.cons_subset, List.nil_subset, and_true] at hm
  simp (maxDischargeDepth := 60) +contextual only [execHeatWindowEnd, h2, List.cons_subset, hm, List.nil_subset, and_self, heatWindowEnd_keeps, implies_true, atTile_keeps]
theorem poisonCopy_keeps {fs : List Field} {s0 : State} {a1 : StoredCopy} {a2 : State} (h2 : Keeps fs s0 a2) (hm : [.clusters, .mem] ⊆ fs := by first | assumption | (refine List.Subset.trans ?_ (by assumption); simp) | simp) :
    Keeps fs s0 (poisonCopy a1 a2) := by
  simp only [List.cons_subset, List.nil_subset, and_true] at hm
  simp (maxDischargeDepth := 60) +contextual only [poisonCopy]
  repeat' (split <;> (try simp (maxDischargeDepth := 60) +contextual only [List.cons_subset, List.nil_subset, and_self, keeps_memrest, setCluster_keeps, poisonLine_keeps, h2, hm]))
  all_goals (first | done | assumption)
theorem lineError_keeps {fs : List Field} {s0 : State} {a1 : StoredCopy} {a2 : Option PageRef} {a3 : Nat} {a4 : Bool} {a5 : State} (h5 : Keeps fs s0 a5) (hm : [.regs, .slots, .tasks, .ctrs, .cores, .clusters, .mem, .granger, .streams, .coll, .control, .step, .power, .traces, .out] ⊆ fs := by first | assumption | (refine List.Subset.trans ?_ (by assumption); simp) | simp) :
    Keeps fs s0 (lineError a1 a2 a3 a4 a5) := by
  simp only [List.cons_subset, List.nil_subset, and_true] at hm
  simp (maxDischargeDepth := 60) +contextual only [lineError]
  repeat' (split <;> (try simp (maxDischargeDepth := 60) +contextual only [List.cons_subset, List.nil_subset, and_self, correctedError_keeps, poisonCopy_keeps, countPoison_keeps, h5, hm]))
  all_goals (first | done | assumption)
theorem memoryEccError_keeps {fs : List Field} {s0 : State} {a1 : StoredCopy} {a2 : Bool} {a3 : State} (h3 : Keeps fs s0 a3) (hm : [.regs, .slots, .tasks, .ctrs, .cores, .clusters, .mem, .granger, .streams, .coll, .control, .step, .power, .traces, .out] ⊆ fs := by first | assumption | (refine List.Subset.trans ?_ (by assumption); simp) | simp) :
    Keeps fs s0 (memoryEccError a1 a2 a3) := by
  simp only [List.cons_subset, List.nil_subset, and_true] at hm
  simp (maxDischargeDepth := 60) +contextual only [memoryEccError]
  repeat' (split <;> (try simp (maxDischargeDepth := 60) +contextual only [keeps_ite, List.cons_subset, List.nil_subset, and_self, poisonCopy_keeps, logErr_keeps, lineError_keeps, h3, hm]))
  all_goals (first | done | assumption)
theorem execMemoryEccError_keeps {fs : List Field} {s0 : State} {a1 : StoredCopy} {a2 : Bool} {a3 : State} (h3 : Keeps fs s0 a3) (hm : [.regs, .slots, .tasks, .ctrs, .cores, .clusters, .mem, .granger, .streams, .coll, .control, .step, .power, .traces, .out] ⊆ fs := by first | assumption | (refine List.Subset.trans ?_ (by assumption); simp) | simp) :
    KeepsO fs s0 (execMemoryEccError a1 a2 a3) := by
  simp only [List.cons_subset, List.nil_subset, and_true] at hm
  simp (maxDischargeDepth := 60) +contextual only [execMemoryEccError, h3, List.cons_subset, hm, List.nil_subset, and_self, memoryEccError_keeps, implies_true, atTile_keeps]
theorem execMemoryUnusable_keeps {fs : List Field} {s0 : State} {a1 : Fin 8} {a2 : Fin 3} {a3 : State} (h3 : Keeps fs s0 a3) (hm : [.regs, .slots, .tasks, .ctrs, .cores, .clusters, .mem, .granger, .streams, .coll, .control, .step, .power, .traces, .out] ⊆ fs := by first | assumption | (refine List.Subset.trans ?_ (by assumption); simp) | simp) :
    KeepsO fs s0 (execMemoryUnusable a1 a2 a3) := by
  simp only [List.cons_subset, List.nil_subset, and_true] at hm
  simp (maxDischargeDepth := 60) +contextual only [execMemoryUnusable, h3, List.cons_subset, hm, List.nil_subset, and_self, declareUnusable_keeps, keeps_ite, implies_true, atTile_keeps]
theorem patrolScrub_keeps {fs : List Field} {s0 : State} {a1 : Fin 8} {a2 : Fin 3} {a3 : Nat} {a4 : State} (h4 : Keeps fs s0 a4) (hm : [.regs, .out] ⊆ fs := by first | assumption | (refine List.Subset.trans ?_ (by assumption); simp) | simp) :
    Keeps fs s0 (patrolScrub a1 a2 a3 a4) := by
  simp only [List.cons_subset, List.nil_subset, and_true] at hm
  simp (maxDischargeDepth := 60) +contextual only [patrolScrub, h4, List.cons_subset, hm, List.nil_subset, and_self, logErr_keeps, addReg_keeps, event_keeps, keeps_ite]
theorem execPatrolScrub_keeps {fs : List Field} {s0 : State} {a1 : Fin 8} {a2 : Fin 3} {a3 : Nat} {a4 : State} (h4 : Keeps fs s0 a4) (hm : [.regs, .out] ⊆ fs := by first | assumption | (refine List.Subset.trans ?_ (by assumption); simp) | simp) :
    KeepsO fs s0 (execPatrolScrub a1 a2 a3 a4) := by
  simp only [List.cons_subset, List.nil_subset, and_true] at hm
  simp (maxDischargeDepth := 60) +contextual only [execPatrolScrub, h4, List.cons_subset, hm, List.nil_subset, and_self, patrolScrub_keeps, implies_true, atTile_keeps]
theorem queryResult_keeps {fs : List Field} {s0 : State} {a1 : State} {a2 : Word} {a3 : Word} (h1 : Keeps fs s0 a1) (hm : [.regs] ⊆ fs := by first | assumption | (refine List.Subset.trans ?_ (by assumption); simp) | simp) :
    Keeps fs s0 (queryResult a1 a2 a3) := by
  simp only [List.cons_subset, List.nil_subset, and_true] at hm
  simp (maxDischargeDepth := 60) +contextual only [queryResult, h1, List.cons_subset, hm, List.nil_subset, and_self, wr_keeps]
theorem queryBushel_keeps {fs : List Field} {s0 : State} {a1 : Nat} {a2 : State} (h2 : Keeps fs s0 a2) (hm : [.regs] ⊆ fs := by first | assumption | (refine List.Subset.trans ?_ (by assumption); simp) | simp) :
    Keeps fs s0 (queryBushel a1 a2) := by
  simp only [List.cons_subset, List.nil_subset, and_true] at hm
  simp (maxDischargeDepth := 60) +contextual only [queryBushel]
  repeat' (split <;> (try simp (maxDischargeDepth := 60) +contextual only [List.cons_subset, List.nil_subset, and_self, queryResult_keeps, h2, hm]))
  all_goals (first | done | assumption)
theorem execQueryBushel_keeps {fs : List Field} {s0 : State} {a1 : BitVec 56} {a2 : State} (h2 : Keeps fs s0 a2) (hm : [.regs] ⊆ fs := by first | assumption | (refine List.Subset.trans ?_ (by assumption); simp) | simp) :
    KeepsO fs s0 (execQueryBushel a1 a2) := by
  simp only [List.cons_subset, List.nil_subset, and_true] at hm
  simp (maxDischargeDepth := 60) +contextual only [execQueryBushel, h2, List.cons_subset, hm, List.nil_subset, and_self, queryBushel_keeps, keepsO_next]
theorem queryCore_keeps {fs : List Field} {s0 : State} {a1 : Nat} {a2 : State} (h2 : Keeps fs s0 a2) (hm : [.regs] ⊆ fs := by first | assumption | (refine List.Subset.trans ?_ (by assumption); simp) | simp) :
    Keeps fs s0 (queryCore a1 a2) := by
  simp only [List.cons_subset, List.nil_subset, and_true] at hm
  simp (maxDischargeDepth := 60) +contextual only [queryCore, h2, List.cons_subset, hm, List.nil_subset, and_self, queryResult_keeps, keeps_ite]
theorem execQueryCore_keeps {fs : List Field} {s0 : State} {a1 : BitVec 56} {a2 : State} (h2 : Keeps fs s0 a2) (hm : [.regs] ⊆ fs := by first | assumption | (refine List.Subset.trans ?_ (by assumption); simp) | simp) :
    KeepsO fs s0 (execQueryCore a1 a2) := by
  simp only [List.cons_subset, List.nil_subset, and_true] at hm
  simp (maxDischargeDepth := 60) +contextual only [execQueryCore, h2, List.cons_subset, hm, List.nil_subset, and_self, queryCore_keeps, keepsO_next]
theorem queryCounterOwner_keeps {fs : List Field} {s0 : State} {a1 : Nat} {a2 : State} (h2 : Keeps fs s0 a2) (hm : [.regs] ⊆ fs := by first | assumption | (refine List.Subset.trans ?_ (by assumption); simp) | simp) :
    Keeps fs s0 (queryCounterOwner a1 a2) := by
  simp only [List.cons_subset, List.nil_subset, and_true] at hm
  simp (maxDischargeDepth := 60) +contextual only [queryCounterOwner, h2, List.cons_subset, hm, List.nil_subset, and_self, queryResult_keeps]
theorem execQueryCounterOwner_keeps {fs : List Field} {s0 : State} {a1 : BitVec 56} {a2 : State} (h2 : Keeps fs s0 a2) (hm : [.regs] ⊆ fs := by first | assumption | (refine List.Subset.trans ?_ (by assumption); simp) | simp) :
    KeepsO fs s0 (execQueryCounterOwner a1 a2) := by
  simp only [List.cons_subset, List.nil_subset, and_true] at hm
  simp (maxDischargeDepth := 60) +contextual only [execQueryCounterOwner, h2, List.cons_subset, hm, List.nil_subset, and_self, queryCounterOwner_keeps, keepsO_next]
theorem queryTask_keeps {fs : List Field} {s0 : State} {a1 : Nat} {a2 : State} (h2 : Keeps fs s0 a2) (hm : [.regs] ⊆ fs := by first | assumption | (refine List.Subset.trans ?_ (by assumption); simp) | simp) :
    Keeps fs s0 (queryTask a1 a2) := by
  simp only [List.cons_subset, List.nil_subset, and_true] at hm
  simp (maxDischargeDepth := 60) +contextual only [queryTask]
  repeat' (split <;> (try simp (maxDischargeDepth := 60) +contextual only [List.cons_subset, List.nil_subset, and_self, queryResult_keeps, h2, hm]))
  all_goals (first | done | assumption)
theorem execQueryTask_keeps {fs : List Field} {s0 : State} {a1 : BitVec 56} {a2 : State} (h2 : Keeps fs s0 a2) (hm : [.regs] ⊆ fs := by first | assumption | (refine List.Subset.trans ?_ (by assumption); simp) | simp) :
    KeepsO fs s0 (execQueryTask a1 a2) := by
  simp only [List.cons_subset, List.nil_subset, and_true] at hm
  simp (maxDischargeDepth := 60) +contextual only [execQueryTask, h2, List.cons_subset, hm, List.nil_subset, and_self, queryTask_keeps, keepsO_next]
theorem shadowMerge_keeps {fs : List Field} {s0 : State} {a1 : Nat} {a2 : State} (h2 : Keeps fs s0 a2) (hm : [.regs, .mem, .out] ⊆ fs := by first | assumption | (refine List.Subset.trans ?_ (by assumption); simp) | simp) :
    Keeps fs s0 (shadowMerge a1 a2) := by
  simp only [List.cons_subset, List.nil_subset, and_true] at hm
  simp (maxDischargeDepth := 60) +contextual only [shadowMerge]
  repeat' (split <;> (try simp (maxDischargeDepth := 60) +contextual only [keeps_ite, List.cons_subset, List.nil_subset, and_self, setBushel_keeps, event_keeps, h2, hm]))
  all_goals (first | done | assumption)
theorem execShadowMerge_keeps {fs : List Field} {s0 : State} {a1 : BitVec 27} {a2 : State} (h2 : Keeps fs s0 a2) (hm : [.regs, .mem, .out] ⊆ fs := by first | assumption | (refine List.Subset.trans ?_ (by assumption); simp) | simp) :
    KeepsO fs s0 (execShadowMerge a1 a2) := by
  simp only [List.cons_subset, List.nil_subset, and_true] at hm
  simp (maxDischargeDepth := 60) +contextual only [execShadowMerge, h2, List.cons_subset, hm, List.nil_subset, and_self, shadowMerge_keeps, keepsO_next]
theorem setDma_keeps {fs : List Field} {s0 : State} {a1 : State} {a2 : Fin 8} {a3 : Fin 32} {a4 : DmaChan} (h1 : Keeps fs s0 a1) (hm : [.dmas] ⊆ fs := by first | assumption | (refine List.Subset.trans ?_ (by assumption); simp) | simp) :
    Keeps fs s0 (setDma a1 a2 a3 a4) := by
  simp only [List.cons_subset, List.nil_subset, and_true] at hm
  simp (maxDischargeDepth := 60) +contextual only [setDma, h1, List.cons_subset, hm, List.nil_subset, and_self, keeps_dmas]
theorem channelWindow_keeps {fs : List Field} {s0 : State} {a1 : Fin 8} {a2 : State} {a3 : Fin 32} (h2 : Keeps fs s0 a2) (hm : [.dmas] ⊆ fs := by first | assumption | (refine List.Subset.trans ?_ (by assumption); simp) | simp) :
    Keeps fs s0 (channelWindow a1 a2 a3) := by
  simp only [List.cons_subset, List.nil_subset, and_true] at hm
  simp (maxDischargeDepth := 60) +contextual only [channelWindow, h2, List.cons_subset, hm, List.nil_subset, and_self, setDma_keeps, keeps_ite]
theorem overlapFree_keeps {fs : List Field} {s0 : State} {a1 : Nat} {a2 : Nat} {a3 : Nat} {a4 : List Byte} {a5 : State} (h5 : Keeps fs s0 a5) (hm : [.free] ⊆ fs := by first | assumption | (refine List.Subset.trans ?_ (by assumption); simp) | simp) :
    Keeps fs s0 (overlapFree a1 a2 a3 a4 a5).2 := by
  simp only [List.cons_subset, List.nil_subset, and_true] at hm
  simp (maxDischargeDepth := 60) +contextual only [overlapFree, apply_ite Prod.snd, h5, List.cons_subset, hm, List.nil_subset, and_self, keeps_free, keeps_ite]
theorem dmaMove_keeps {fs : List Field} {s0 : State} {a1 : Fin 8} {a2 : Fin 32} {a3 : Nat} {a4 : Nat} {a5 : Nat} {a6 : State} (h6 : Keeps fs s0 a6) (hm : [.regs, .cores, .mem, .granger, .dmas, .out, .free] ⊆ fs := by first | assumption | (refine List.Subset.trans ?_ (by assumption); simp) | simp) :
    Keeps fs s0 (dmaMove a1 a2 a3 a4 a5 a6) := by
  simp only [List.cons_subset, List.nil_subset, and_true] at hm
  simp (maxDischargeDepth := 60) +contextual only [dmaMove, h6, List.cons_subset, hm, List.nil_subset, and_self, homeAccesses_keeps, overlapFree_keeps, storeHome_keeps, event_keeps, setDma_keeps, setFld_keeps]
theorem dmaFail_keeps {fs : List Field} {s0 : State} {a1 : Fin 8} {a2 : Fin 32} {a3 : Nat} {a4 : State} (h4 : Keeps fs s0 a4) (hm : [.dmas] ⊆ fs := by first | assumption | (refine List.Subset.trans ?_ (by assumption); simp) | simp) :
    Keeps fs s0 (dmaFail a1 a2 a3 a4) := by
  simp only [List.cons_subset, List.nil_subset, and_true] at hm
  simp (maxDischargeDepth := 60) +contextual only [dmaFail, h4, List.cons_subset, hm, List.nil_subset, and_self, setDma_keeps]
theorem dmaBurst_keeps {fs : List Field} {s0 : State} {a1 : Fin 8} {a2 : State} (h2 : Keeps fs s0 a2) (hm : [.regs, .slots, .tasks, .ctrs, .cores, .clusters, .mem, .granger, .streams, .dmas, .dmaNext, .coll, .control, .step, .power, .traces, .out, .free] ⊆ fs := by first | assumption | (refine List.Subset.trans ?_ (by assumption); simp) | simp) :
    Keeps fs s0 (dmaBurst a1 a2) := by
  simp only [List.cons_subset, List.nil_subset, and_true] at hm
  simp (maxDischargeDepth := 60) +contextual only [dmaBurst]
  repeat' (split <;> (try simp (maxDischargeDepth := 60) +contextual only [List.cons_subset, List.nil_subset, and_self, keeps_dmaNext, dmaMove_keeps, meetPoison_keeps, dmaFail_keeps, h2, hm]))
  all_goals (first | done | assumption)
theorem dmaEnd_keeps {fs : List Field} {s0 : State} {a1 : Fin 8} {a2 : Fin 32} {a3 : Nat} {a4 : State} (h4 : Keeps fs s0 a4) (hm : [.regs, .slots, .tasks, .ctrs, .cores, .clusters, .mem, .granger, .dmas, .coll, .control, .step, .power, .traces, .out] ⊆ fs := by first | assumption | (refine List.Subset.trans ?_ (by assumption); simp) | simp) :
    Keeps fs s0 (dmaEnd a1 a2 a3 a4) := by
  simp only [List.cons_subset, List.nil_subset, and_true] at hm
  simp (maxDischargeDepth := 60) +contextual only [dmaEnd, h4, List.cons_subset, hm, List.nil_subset, and_self, wr_keeps, addReg_keeps, logErr_keeps, keeps_ite, setDma_keeps, trace_keeps, signal_keeps, irq_keeps]
theorem dmaComplete_keeps {fs : List Field} {s0 : State} {a1 : Fin 8} {a2 : Fin 32} {a3 : State} (h3 : Keeps fs s0 a3) (hm : [.regs, .slots, .tasks, .ctrs, .cores, .clusters, .mem, .granger, .dmas, .coll, .control, .step, .power, .traces, .out] ⊆ fs := by first | assumption | (refine List.Subset.trans ?_ (by assumption); simp) | simp) :
    Keeps fs s0 (dmaComplete a1 a2 a3) := by
  simp only [List.cons_subset, List.nil_subset, and_true] at hm
  simp (maxDischargeDepth := 60) +contextual only [dmaComplete, h3, List.cons_subset, hm, List.nil_subset, and_self, dmaEnd_keeps, keeps_ite]
theorem dmaStart_keeps {fs : List Field} {s0 : State} {a1 : Requester} {a2 : Fin 8} {a3 : Fin 32} {a4 : State} (h4 : Keeps fs s0 a4) (hm : [.regs, .slots, .tasks, .ctrs, .cores, .clusters, .mem, .granger, .dmas, .coll, .control, .step, .power, .traces, .out] ⊆ fs := by first | assumption | (refine List.Subset.trans ?_ (by assumption); simp) | simp) :
    Keeps fs s0 (dmaStart a1 a2 a3 a4) := by
  simp only [List.cons_subset, List.nil_subset, and_true] at hm
  simp (maxDischargeDepth := 60) +contextual only [dmaStart, h4, List.cons_subset, hm, List.nil_subset, and_self, setDma_keeps, wr_keeps, dmaEnd_keeps, keeps_ite]
theorem dmaGo_keeps {fs : List Field} {s0 : State} {a1 : Requester} {a2 : Fin 8} {a3 : Fin 32} {a4 : Word} {a5 : State} (h5 : Keeps fs s0 a5) (hm : [.regs, .slots, .tasks, .ctrs, .cores, .clusters, .mem, .granger, .dmas, .coll, .control, .step, .power, .traces, .out] ⊆ fs := by first | assumption | (refine List.Subset.trans ?_ (by assumption); simp) | simp) :
    Keeps fs s0 (dmaGo a1 a2 a3 a4 a5) := by
  simp only [List.cons_subset, List.nil_subset, and_true] at hm
  simp (maxDischargeDepth := 60) +contextual only [dmaGo, h5, List.cons_subset, hm, List.nil_subset, and_self, reservedWrite_keeps, logErr_keeps, dmaStart_keeps, keeps_ite]
theorem dmaShareWindow_keeps {fs : List Field} {s0 : State} {a1 : Fin 8} {a2 : State} (h2 : Keeps fs s0 a2) (hm : [.dmas] ⊆ fs := by first | assumption | (refine List.Subset.trans ?_ (by assumption); simp) | simp) :
    Keeps fs s0 (dmaShareWindow a1 a2) := by
  simp only [List.cons_subset, List.nil_subset, and_true] at hm
  simp (maxDischargeDepth := 60) +contextual only [dmaShareWindow, List.cons_subset, hm, List.nil_subset, and_self, channelWindow_keeps, implies_true, h2, keeps_foldl]
theorem execDmaBurst_keeps {fs : List Field} {s0 : State} {a1 : Fin 8} {a2 : State} (h2 : Keeps fs s0 a2) (hm : [.regs, .slots, .tasks, .ctrs, .cores, .clusters, .mem, .granger, .streams, .dmas, .dmaNext, .coll, .control, .step, .power, .traces, .out, .free] ⊆ fs := by first | assumption | (refine List.Subset.trans ?_ (by assumption); simp) | simp) :
    KeepsO fs s0 (execDmaBurst a1 a2) := by
  simp only [List.cons_subset, List.nil_subset, and_true] at hm
  simp (maxDischargeDepth := 60) +contextual only [execDmaBurst, h2, List.cons_subset, hm, List.nil_subset, and_self, dmaBurst_keeps, implies_true, atTile_keeps]
theorem execDmaComplete_keeps {fs : List Field} {s0 : State} {a1 : Fin 8} {a2 : Fin 32} {a3 : State} (h3 : Keeps fs s0 a3) (hm : [.regs, .slots, .tasks, .ctrs, .cores, .clusters, .mem, .granger, .dmas, .coll, .control, .step, .power, .traces, .out] ⊆ fs := by first | assumption | (refine List.Subset.trans ?_ (by assumption); simp) | simp) :
    KeepsO fs s0 (execDmaComplete a1 a2 a3) := by
  simp only [List.cons_subset, List.nil_subset, and_true] at hm
  simp (maxDischargeDepth := 60) +contextual only [execDmaComplete, h3, List.cons_subset, hm, List.nil_subset, and_self, dmaComplete_keeps, implies_true, atTile_keeps]
theorem execDmaGo_keeps {fs : List Field} {s0 : State} {a1 : Requester} {a2 : Fin 8} {a3 : Fin 32} {a4 : Word} {a5 : State} (h5 : Keeps fs s0 a5) (hm : [.regs, .slots, .tasks, .ctrs, .cores, .clusters, .mem, .granger, .dmas, .coll, .control, .step, .power, .traces, .out] ⊆ fs := by first | assumption | (refine List.Subset.trans ?_ (by assumption); simp) | simp) :
    KeepsO fs s0 (execDmaGo a1 a2 a3 a4 a5) := by
  simp only [List.cons_subset, List.nil_subset, and_true] at hm
  simp (maxDischargeDepth := 60) +contextual only [execDmaGo, h5, List.cons_subset, hm, List.nil_subset, and_self, dmaGo_keeps, implies_true, byAt_keeps]
theorem execDmaShareWindow_keeps {fs : List Field} {s0 : State} {a1 : Fin 8} {a2 : State} (h2 : Keeps fs s0 a2) (hm : [.dmas] ⊆ fs := by first | assumption | (refine List.Subset.trans ?_ (by assumption); simp) | simp) :
    KeepsO fs s0 (execDmaShareWindow a1 a2) := by
  simp only [List.cons_subset, List.nil_subset, and_true] at hm
  simp (maxDischargeDepth := 60) +contextual only [execDmaShareWindow, h2, List.cons_subset, hm, List.nil_subset, and_self, dmaShareWindow_keeps, implies_true, atTile_keeps]
theorem orphans_keeps {fs : List Field} {s0 : State} {a1 : List Nat} {a2 : State} (h2 : Keeps fs s0 a2) (hm : [.regs, .slots, .tasks, .ctrs, .cores, .clusters, .mem, .granger, .coll, .control, .step, .power, .traces, .out] ⊆ fs := by first | assumption | (refine List.Subset.trans ?_ (by assumption); simp) | simp) :
    Keeps fs s0 (orphans a1 a2) := by
  simp only [List.cons_subset, List.nil_subset, and_true] at hm
  simp (maxDischargeDepth := 60) +contextual only [orphans, List.cons_subset, hm, List.nil_subset, and_self, run_keeps, implies_true, h2, keeps_foldl]
theorem acknowledge_keeps {fs : List Field} {s0 : State} {a1 : Nat} {a2 : Nat} {a3 : State} (h3 : Keeps fs s0 a3) (hm : [.ports] ⊆ fs := by first | assumption | (refine List.Subset.trans ?_ (by assumption); simp) | simp) :
    Keeps fs s0 (acknowledge a1 a2 a3) := by
  simp only [List.cons_subset, List.nil_subset, and_true] at hm
  simp (maxDischargeDepth := 60) +contextual only [acknowledge]
  repeat' (split <;> (try simp (maxDischargeDepth := 60) +contextual only [List.cons_subset, List.nil_subset, and_self, setPort_keeps, h3, hm]))
  all_goals (first | done | assumption)
theorem countDetour_keeps {fs : List Field} {s0 : State} {a1 : Nat} {a2 : Bool} {a3 : State} (h3 : Keeps fs s0 a3) (hm : [.regs] ⊆ fs := by first | assumption | (refine List.Subset.trans ?_ (by assumption); simp) | simp) :
    Keeps fs s0 (countDetour a1 a2 a3) := by
  simp only [List.cons_subset, List.nil_subset, and_true] at hm
  simp (maxDischargeDepth := 60) +contextual only [countDetour, h3, List.cons_subset, hm, List.nil_subset, and_self, addReg_keeps, keeps_ite]
theorem sendNow_keeps {fs : List Field} {s0 : State} {a1 : Nat} {a2 : PeerPacket} {a3 : State} (h3 : Keeps fs s0 a3) (hm : [.regs, .ports, .out] ⊆ fs := by first | assumption | (refine List.Subset.trans ?_ (by assumption); simp) | simp) :
    Keeps fs s0 (sendNow a1 a2 a3) := by
  simp only [List.cons_subset, List.nil_subset, and_true] at hm
  simp (maxDischargeDepth := 60) +contextual only [sendNow, h3, List.cons_subset, hm, List.nil_subset, and_self, setPort_keeps, keeps_out, event_keeps]
theorem drainFuel_keeps {fs : List Field} {s0 : State} {a1 : Nat} {a2 : Nat} {a3 : State} (h3 : Keeps fs s0 a3) (hm : [.regs, .ports, .out] ⊆ fs := by first | assumption | (refine List.Subset.trans ?_ (by assumption); simp) | simp) :
    Keeps fs s0 (drainFuel a1 a2 a3) := by
  induction a1 generalizing a3 with
  | zero => exact h3
  | succ k ih =>
    unfold drainFuel
    split
    · exact ih (sendNow_keeps (setPort_keeps h3))
    · exact h3
theorem drainPort_keeps {fs : List Field} {s0 : State} {a1 : Nat} {a2 : State} (h2 : Keeps fs s0 a2) (hm : [.regs, .ports, .out] ⊆ fs := by first | assumption | (refine List.Subset.trans ?_ (by assumption); simp) | simp) :
    Keeps fs s0 (drainPort a1 a2) := by
  simp only [List.cons_subset, List.nil_subset, and_true] at hm
  simp (maxDischargeDepth := 60) +contextual only [drainPort, h2, List.cons_subset, hm, List.nil_subset, and_self, drainFuel_keeps, keeps_ite]
theorem leaveActive_keeps {fs : List Field} {s0 : State} {a1 : Nat} {a2 : State} (h2 : Keeps fs s0 a2) (hm : [.regs, .slots, .tasks, .ctrs, .cores, .clusters, .mem, .granger, .coll, .control, .step, .power, .traces, .out] ⊆ fs := by first | assumption | (refine List.Subset.trans ?_ (by assumption); simp) | simp) :
    Keeps fs s0 (leaveActive a1 a2) := by
  simp only [List.cons_subset, List.nil_subset, and_true] at hm
  simp (maxDischargeDepth := 60) +contextual only [leaveActive, h2, List.cons_subset, hm, List.nil_subset, and_self, fault_keeps, keeps_ite]
theorem giveStatus_keeps {fs : List Field} {s0 : State} {a1 : (CollCmd → Bool)} {a2 : Nat} {a3 : State} (h3 : Keeps fs s0 a3) (hm : [.coll] ⊆ fs := by first | assumption | (refine List.Subset.trans ?_ (by assumption); simp) | simp) :
    Keeps fs s0 (giveStatus a1 a2 a3) := by
  simp only [List.cons_subset, List.nil_subset, and_true] at hm
  simp (maxDischargeDepth := 60) +contextual only [giveStatus, h3, List.cons_subset, hm, List.nil_subset, and_self, keeps_coll]
theorem losePacket_keeps {fs : List Field} {s0 : State} {a1 : State} {a2 : PeerPacket} (h1 : Keeps fs s0 a1) (hm : [.coll] ⊆ fs := by first | assumption | (refine List.Subset.trans ?_ (by assumption); simp) | simp) :
    Keeps fs s0 (losePacket a1 a2) := by
  simp only [List.cons_subset, List.nil_subset, and_true] at hm
  simp (maxDischargeDepth := 60) +contextual only [losePacket, h1, List.cons_subset, hm, List.nil_subset, and_self, giveStatus_keeps, keeps_ite]
theorem sendPeer_keeps {fs : List Field} {s0 : State} {a1 : Nat} {a2 : PeerPacket} {a3 : State} (h3 : Keeps fs s0 a3) (hm : [.regs, .ports, .out] ⊆ fs := by first | assumption | (refine List.Subset.trans ?_ (by assumption); simp) | simp) :
    Keeps fs s0 (sendPeer a1 a2 a3) := by
  simp only [List.cons_subset, List.nil_subset, and_true] at hm
  simp (maxDischargeDepth := 60) +contextual only [sendPeer, h3, List.cons_subset, hm, List.nil_subset, and_self, setPort_keeps, drainPort_keeps]
theorem reroute_keeps {fs : List Field} {s0 : State} {a1 : Nat} {a2 : State} (h2 : Keeps fs s0 a2) (hm : [.regs, .ports, .coll, .out] ⊆ fs := by first | assumption | (refine List.Subset.trans ?_ (by assumption); simp) | simp) :
    Keeps fs s0 (reroute a1 a2) := by
  simp only [reroute]
  repeat' first | with_reducible assumption | (exact List.Subset.trans (by simp) hm) | (intro _ e; cases e; done) | with_reducible apply losePacket_keeps | with_reducible apply countDetour_keeps | with_reducible apply sendPeer_keeps | with_reducible apply setPort_keeps | with_reducible apply keepsO_next | with_reducible apply keepsO_refused | with_reducible apply keepsI_ok | with_reducible apply keepsI_jump | with_reducible apply keepsI_trap | with_reducible apply keepsI_stall | with_reducible apply keepsI_defer | with_reducible apply keepsS_done | with_reducible apply keepsS_fault | with_reducible apply keepsL_value | with_reducible apply keepsL_blocks | with_reducible apply keepsR_ok | with_reducible apply keepsR_ecc | with_reducible apply keepsP_placed | with_reducible apply keepsP_refused | with_reducible apply keepsP_waits | with_reducible apply each_keeps | with_reducible apply keeps_foldl | (with_reducible refine (show ∀ x, _ = _ → _ from allOk_keeps ?_ ?_)) | (refine keeps_of_snd (by assumption) ?_) | (refine keeps_of_fst (by assumption) ?_) | (refine keeps_of_some (by assumption) ?_) | (refine keeps_of_some_snd (by assumption) ?_) | (refine keeps_of_some_fst (by assumption) ?_) | (refine keeps_of_some_snd2 (by assumption) ?_) | (refine keeps_of_okE (by assumption) ?_) | (refine keeps_of_okE_snd (by assumption) ?_) | (refine keeps_of_okE_fst (by assumption) ?_) | (refine keeps_of_okR (by assumption) ?_) | (refine keeps_of_eccR (by assumption) ?_) | (refine keeps_of_placed (by assumption) ?_) | (refine keeps_of_okI (by assumption) ?_) | (refine keeps_of_doneS (by assumption) ?_) | (refine keeps_of_valueL (by assumption) ?_) | (refine keeps_of_blocksL (by assumption) ?_) | intro _ | split
theorem setLink_keeps {fs : List Field} {s0 : State} {a1 : State} {a2 : Nat} {a3 : Nat} (h1 : Keeps fs s0 a1) (hm : [.regs] ⊆ fs := by first | assumption | (refine List.Subset.trans ?_ (by assumption); simp) | simp) :
    Keeps fs s0 (setLink a1 a2 a3) := by
  simp only [List.cons_subset, List.nil_subset, and_true] at hm
  simp (maxDischargeDepth := 60) +contextual only [setLink, h1, List.cons_subset, hm, List.nil_subset, and_self, setFld_keeps]
theorem dropLink_keeps {fs : List Field} {s0 : State} {a1 : Nat} {a2 : Nat} {a3 : Nat} {a4 : State} (h4 : Keeps fs s0 a4) (hm : [.regs, .slots, .tasks, .ctrs, .cores, .clusters, .mem, .granger, .ports, .coll, .control, .step, .power, .traces, .out] ⊆ fs := by first | assumption | (refine List.Subset.trans ?_ (by assumption); simp) | simp) :
    Keeps fs s0 (dropLink a1 a2 a3 a4) := by
  simp only [List.cons_subset, List.nil_subset, and_true] at hm
  simp (maxDischargeDepth := 60) +contextual only [dropLink, List.cons_subset, hm, List.nil_subset, and_self, losePacket_keeps, implies_true, h4, setLink_keeps, setFld_keeps, fault_keeps, keeps_ite, setPort_keeps, keeps_foldl, reroute_keeps, leaveActive_keeps]
theorem enterActive_keeps {fs : List Field} {s0 : State} {a1 : Nat} {a2 : State} (h2 : Keeps fs s0 a2) (hm : [.regs, .ports, .out] ⊆ fs := by first | assumption | (refine List.Subset.trans ?_ (by assumption); simp) | simp) :
    Keeps fs s0 (enterActive a1 a2) := by
  simp only [List.cons_subset, List.nil_subset, and_true] at hm
  simp (maxDischargeDepth := 60) +contextual only [enterActive, h2, List.cons_subset, hm, List.nil_subset, and_self, setPort_keeps, setLink_keeps, drainPort_keeps]
theorem enterRetrain_keeps {fs : List Field} {s0 : State} {a1 : Nat} {a2 : State} (h2 : Keeps fs s0 a2) (hm : [.regs, .slots, .tasks, .ctrs, .cores, .clusters, .mem, .granger, .ports, .coll, .control, .step, .power, .traces, .out] ⊆ fs := by first | assumption | (refine List.Subset.trans ?_ (by assumption); simp) | simp) :
    Keeps fs s0 (enterRetrain a1 a2) := by
  simp only [List.cons_subset, List.nil_subset, and_true] at hm
  simp (maxDischargeDepth := 60) +contextual only [enterRetrain, h2, List.cons_subset, hm, List.nil_subset, and_self, setPort_keeps, setLink_keeps, addReg_keeps, leaveActive_keeps, keeps_ite]
theorem replay_keeps {fs : List Field} {s0 : State} {a1 : Nat} {a2 : State} (h2 : Keeps fs s0 a2) (hm : [.regs, .slots, .tasks, .ctrs, .cores, .clusters, .mem, .granger, .ports, .coll, .control, .step, .power, .traces, .out] ⊆ fs := by first | assumption | (refine List.Subset.trans ?_ (by assumption); simp) | simp) :
    Keeps fs s0 (replay a1 a2) := by
  simp only [List.cons_subset, List.nil_subset, and_true] at hm
  simp (maxDischargeDepth := 60) +contextual only [replay, h2, List.cons_subset, hm, List.nil_subset, and_self, setPort_keeps, addReg_keeps, event_keeps, enterRetrain_keeps, keeps_ite]
theorem sendOwn_keeps {fs : List Field} {s0 : State} {a1 : PeerPacket} {a2 : State} (h2 : Keeps fs s0 a2) (hm : [.regs, .ports, .coll, .out] ⊆ fs := by first | assumption | (refine List.Subset.trans ?_ (by assumption); simp) | simp) :
    Keeps fs s0 (sendOwn a1 a2) := by
  simp only [List.cons_subset, List.nil_subset, and_true] at hm
  simp (maxDischargeDepth := 60) +contextual only [sendOwn]
  repeat' (split <;> (try simp (maxDischargeDepth := 60) +contextual only [List.cons_subset, List.nil_subset, and_self, giveStatus_keeps, countDetour_keeps, sendPeer_keeps, h2, hm]))
  all_goals (first | done | assumption)
theorem setArb_keeps {fs : List Field} {s0 : State} {a1 : State} {a2 : Node} {a3 : Nat} {a4 : Arbiter} (h1 : Keeps fs s0 a1) (hm : [.net] ⊆ fs := by first | assumption | (refine List.Subset.trans ?_ (by assumption); simp) | simp) :
    Keeps fs s0 (setArb a1 a2 a3 a4) := by
  simp only [List.cons_subset, List.nil_subset, and_true] at hm
  simp (maxDischargeDepth := 60) +contextual only [setArb, h1, List.cons_subset, hm, List.nil_subset, and_self, keeps_net]
theorem noteLatency_keeps {fs : List Field} {s0 : State} {a1 : Node} {a2 : NetPacket} {a3 : State} (h3 : Keeps fs s0 a3) (hm : [.regs] ⊆ fs := by first | assumption | (refine List.Subset.trans ?_ (by assumption); simp) | simp) :
    Keeps fs s0 (noteLatency a1 a2 a3) := by
  simp only [List.cons_subset, List.nil_subset, and_true] at hm
  simp (maxDischargeDepth := 60) +contextual only [noteLatency, h3, List.cons_subset, hm, List.nil_subset, and_self, setFld_keeps, keeps_ite]
theorem deliver_keeps {fs : List Field} {s0 : State} {a1 : Node} {a2 : NetPacket} {a3 : State} (h3 : Keeps fs s0 a3) (hm : [.regs, .cores, .clusters, .mem, .granger, .net, .ports, .out, .free] ⊆ fs := by first | assumption | (refine List.Subset.trans ?_ (by assumption); simp) | simp) :
    Keeps fs s0 (deliver a1 a2 a3) := by
  simp only [List.cons_subset, List.nil_subset, and_true] at hm
  simp (maxDischargeDepth := 60) +contextual only [deliver]
  repeat' (split <;> (try simp (maxDischargeDepth := 60) +contextual only [keeps_ite, List.cons_subset, List.nil_subset, and_self, keeps_net, sendPeer_keeps, event_keeps, installLine_keeps, addReg_keeps, setBank_keeps, noteLatency_keeps, h3, hm]))
  all_goals (first | done | assumption)
theorem hop_keeps {fs : List Field} {s0 : State} {a1 : Node} {a2 : Nat} {a3 : NetPacket} {a4 : State} (h4 : Keeps fs s0 a4) (hm : [.regs, .cores, .clusters, .mem, .granger, .net, .ports, .out, .free] ⊆ fs := by first | assumption | (refine List.Subset.trans ?_ (by assumption); simp) | simp) :
    Keeps fs s0 (hop a1 a2 a3 a4) := by
  simp only [List.cons_subset, List.nil_subset, and_true] at hm
  simp (maxDischargeDepth := 60) +contextual only [hop]
  repeat' (split <;> (try simp (maxDischargeDepth := 60) +contextual only [List.cons_subset, List.nil_subset, and_self, keeps_net, deliver_keeps, h4, hm]))
  all_goals (first | done | assumption)
theorem sendFlit_keeps {fs : List Field} {s0 : State} {a1 : Node} {a2 : Nat} {a3 : NetPacket} {a4 : State} (h4 : Keeps fs s0 a4) (hm : [.regs, .cores, .clusters, .mem, .granger, .net, .ports, .out, .free] ⊆ fs := by first | assumption | (refine List.Subset.trans ?_ (by assumption); simp) | simp) :
    Keeps fs s0 (sendFlit a1 a2 a3 a4) := by
  simp only [List.cons_subset, List.nil_subset, and_true] at hm
  simp (maxDischargeDepth := 60) +contextual only [sendFlit, reduceCtorEq, h4, List.cons_subset, hm, List.nil_subset, and_self, countFlits_keeps, countBridge_keeps, setArb_keeps, keeps_net, hop_keeps, keeps_ite]
theorem arbitrate_keeps {fs : List Field} {s0 : State} {a1 : Node} {a2 : Nat} {a3 : State} (h3 : Keeps fs s0 a3) (hm : [.regs, .cores, .clusters, .mem, .granger, .net, .ports, .out, .free] ⊆ fs := by first | assumption | (refine List.Subset.trans ?_ (by assumption); simp) | simp) :
    Keeps fs s0 (arbitrate a1 a2 a3) := by
  simp only [List.cons_subset, List.nil_subset, and_true] at hm
  simp (maxDischargeDepth := 60) +contextual only [arbitrate]
  repeat' (split <;> (try simp (maxDischargeDepth := 60) +contextual only [keeps_ite, List.cons_subset, List.nil_subset, and_self, setArb_keeps, sendFlit_keeps, countFlits_keeps, h3, hm]))
  all_goals (first | done | assumption)
theorem atBridge_keeps {fs : List Field} {s0 : State} {a1 : Fin 8} {a2 : Fin 4} {a3 : (State → State)} {a4 : State} (h3 : ∀ y0, Keeps fs s0 y0 → Keeps fs s0 (a3 y0)) (h4 : Keeps fs s0 a4) :
    Keeps fs s0 (atBridge a1 a2 a3 a4) := by
  simp (maxDischargeDepth := 60) +contextual only [atBridge, h4, h3, keeps_ite]
theorem bridgeCrc_keeps {fs : List Field} {s0 : State} {a1 : Fin 8} {a2 : Fin 4} {a3 : State} (h3 : Keeps fs s0 a3) (hm : [.regs] ⊆ fs := by first | assumption | (refine List.Subset.trans ?_ (by assumption); simp) | simp) :
    Keeps fs s0 (bridgeCrc a1 a2 a3) := by
  simp only [List.cons_subset, List.nil_subset, and_true] at hm
  simp (maxDischargeDepth := 60) +contextual only [bridgeCrc, h3, List.cons_subset, hm, List.nil_subset, and_self, addReg_keeps]
theorem bridgeDown_keeps {fs : List Field} {s0 : State} {a1 : Fin 8} {a2 : Fin 4} {a3 : State} (h3 : Keeps fs s0 a3) (hm : [.regs, .slots, .tasks, .ctrs, .cores, .clusters, .mem, .granger, .net, .coll, .control, .step, .power, .traces, .out] ⊆ fs := by first | assumption | (refine List.Subset.trans ?_ (by assumption); simp) | simp) :
    Keeps fs s0 (bridgeDown a1 a2 a3) := by
  simp only [List.cons_subset, List.nil_subset, and_true] at hm
  simp (maxDischargeDepth := 60) +contextual only [bridgeDown]
  repeat' (split <;> (try simp (maxDischargeDepth := 60) +contextual only [keeps_ite, List.cons_subset, List.nil_subset, and_self, keeps_net, fault_keeps, traceFence_keeps, setFld_keeps, h3, hm]))
  all_goals (first | done | assumption)
theorem bridgeLost_keeps {fs : List Field} {s0 : State} {a1 : Fin 8} {a2 : Fin 4} {a3 : State} (h3 : Keeps fs s0 a3) (hm : [.regs] ⊆ fs := by first | assumption | (refine List.Subset.trans ?_ (by assumption); simp) | simp) :
    Keeps fs s0 (bridgeLost a1 a2 a3) := by
  simp only [List.cons_subset, List.nil_subset, and_true] at hm
  simp (maxDischargeDepth := 60) +contextual only [bridgeLost, h3, List.cons_subset, hm, List.nil_subset, and_self, setFld_keeps, addReg_keeps]
theorem bridgeRetrained_keeps {fs : List Field} {s0 : State} {a1 : Fin 8} {a2 : Fin 4} {a3 : Nat} {a4 : Nat} {a5 : State} (h5 : Keeps fs s0 a5) (hm : [.regs] ⊆ fs := by first | assumption | (refine List.Subset.trans ?_ (by assumption); simp) | simp) :
    Keeps fs s0 (bridgeRetrained a1 a2 a3 a4 a5) := by
  simp only [List.cons_subset, List.nil_subset, and_true] at hm
  simp (maxDischargeDepth := 60) +contextual only [bridgeRetrained, h5, List.cons_subset, hm, List.nil_subset, and_self, setFld_keeps, keeps_ite]
theorem netTimeout_keeps {fs : List Field} {s0 : State} {a1 : State} (h1 : Keeps fs s0 a1) (hm : [.regs, .slots, .tasks, .ctrs, .cores, .clusters, .mem, .granger, .coll, .control, .step, .power, .traces, .out] ⊆ fs := by first | assumption | (refine List.Subset.trans ?_ (by assumption); simp) | simp) :
    Keeps fs s0 (netTimeout a1) := by
  simp only [List.cons_subset, List.nil_subset, and_true] at hm
  simp (maxDischargeDepth := 60) +contextual only [netTimeout, h1, List.cons_subset, hm, List.nil_subset, and_self, fault_keeps, keeps_ite]
theorem coreTimeout_keeps {fs : List Field} {s0 : State} {a1 : CoreRef} {a2 : Bool} {a3 : State} (h3 : Keeps fs s0 a3) (hm : [.regs, .slots, .tasks, .ctrs, .cores, .clusters, .mem, .granger, .coll, .control, .step, .power, .traces, .out, .free] ⊆ fs := by first | assumption | (refine List.Subset.trans ?_ (by assumption); simp) | simp) :
    Keeps fs s0 (coreTimeout a1 a2 a3) := by
  simp only [List.cons_subset, List.nil_subset, and_true] at hm
  simp (maxDischargeDepth := 60) +contextual only [coreTimeout, h3, List.cons_subset, hm, List.nil_subset, and_self, setCore_keeps, netTimeout_keeps, keeps_free, takeTrap_keeps, keeps_ite]
theorem deadStep_keeps {fs : List Field} {s0 : State} {a1 : Node} {a2 : Nat} {a3 : NetPacket} {a4 : State} (h4 : Keeps fs s0 a4) (hm : [.regs, .net, .out] ⊆ fs := by first | assumption | (refine List.Subset.trans ?_ (by assumption); simp) | simp) :
    Keeps fs s0 (deadStep a1 a2 a3 a4) := by
  simp only [List.cons_subset, List.nil_subset, and_true] at hm
  simp (maxDischargeDepth := 60) +contextual only [deadStep, h4, List.cons_subset, hm, List.nil_subset, and_self, setArb_keeps, addReg_keeps, event_keeps]
theorem dropPackets_keeps {fs : List Field} {s0 : State} {a1 : Node} {a2 : Nat} {a3 : List NetPacket} {a4 : State} (h4 : Keeps fs s0 a4) (hm : [.regs, .net] ⊆ fs := by first | assumption | (refine List.Subset.trans ?_ (by assumption); simp) | simp) :
    Keeps fs s0 (dropPackets a1 a2 a3 a4) := by
  simp only [List.cons_subset, List.nil_subset, and_true] at hm
  simp (maxDischargeDepth := 60) +contextual only [dropPackets, h4, List.cons_subset, hm, List.nil_subset, and_self, keeps_net, addReg_keeps, keeps_ite]
theorem execBridgeDown_keeps {fs : List Field} {s0 : State} {a1 : Fin 8} {a2 : Fin 4} {a3 : State} (h3 : Keeps fs s0 a3) (hm : [.regs, .slots, .tasks, .ctrs, .cores, .clusters, .mem, .granger, .net, .coll, .control, .step, .power, .traces, .out] ⊆ fs := by first | assumption | (refine List.Subset.trans ?_ (by assumption); simp) | simp) :
    KeepsO fs s0 (execBridgeDown a1 a2 a3) := by
  simp only [List.cons_subset, List.nil_subset, and_true] at hm
  simp (maxDischargeDepth := 60) +contextual only [execBridgeDown, h3, List.cons_subset, hm, List.nil_subset, and_self, bridgeDown_keeps, implies_true, atTile_keeps]
theorem execBridgeFlitCrcFail_keeps {fs : List Field} {s0 : State} {a1 : Fin 8} {a2 : Fin 4} {a3 : State} (h3 : Keeps fs s0 a3) (hm : [.regs] ⊆ fs := by first | assumption | (refine List.Subset.trans ?_ (by assumption); simp) | simp) :
    KeepsO fs s0 (execBridgeFlitCrcFail a1 a2 a3) := by
  simp only [List.cons_subset, List.nil_subset, and_true] at hm
  simp (maxDischargeDepth := 60) +contextual only [execBridgeFlitCrcFail, h3, List.cons_subset, hm, List.nil_subset, and_self, bridgeCrc_keeps, implies_true, atBridge_keeps, atTile_keeps]
theorem execBridgeRetrained_keeps {fs : List Field} {s0 : State} {a1 : Fin 8} {a2 : Fin 4} {a3 : Fin 16} {a4 : Fin 4096} {a5 : State} (h5 : Keeps fs s0 a5) (hm : [.regs] ⊆ fs := by first | assumption | (refine List.Subset.trans ?_ (by assumption); simp) | simp) :
    KeepsO fs s0 (execBridgeRetrained a1 a2 a3 a4 a5) := by
  simp only [List.cons_subset, List.nil_subset, and_true] at hm
  simp (maxDischargeDepth := 60) +contextual only [execBridgeRetrained, h5, List.cons_subset, hm, List.nil_subset, and_self, bridgeRetrained_keeps, implies_true, atBridge_keeps, atTile_keeps]
theorem execBridgeTrainingLost_keeps {fs : List Field} {s0 : State} {a1 : Fin 8} {a2 : Fin 4} {a3 : State} (h3 : Keeps fs s0 a3) (hm : [.regs] ⊆ fs := by first | assumption | (refine List.Subset.trans ?_ (by assumption); simp) | simp) :
    KeepsO fs s0 (execBridgeTrainingLost a1 a2 a3) := by
  simp only [List.cons_subset, List.nil_subset, and_true] at hm
  simp (maxDischargeDepth := 60) +contextual only [execBridgeTrainingLost, h3, List.cons_subset, hm, List.nil_subset, and_self, bridgeLost_keeps, implies_true, atBridge_keeps, atTile_keeps]
theorem readLatMax_keeps {fs : List Field} {s0 : State} {a1 : Fin 8} {a2 : State} (h2 : Keeps fs s0 a2) (hm : [.regs, .out] ⊆ fs := by first | assumption | (refine List.Subset.trans ?_ (by assumption); simp) | simp) :
    Keeps fs s0 (readLatMax a1 a2) := by
  simp only [List.cons_subset, List.nil_subset, and_true] at hm
  simp (maxDischargeDepth := 60) +contextual only [readLatMax, h2, List.cons_subset, hm, List.nil_subset, and_self, wr_keeps, reply_keeps]
theorem execLatMaxRead_keeps {fs : List Field} {s0 : State} {a1 : Fin 8} {a2 : State} (h2 : Keeps fs s0 a2) (hm : [.regs, .out] ⊆ fs := by first | assumption | (refine List.Subset.trans ?_ (by assumption); simp) | simp) :
    KeepsO fs s0 (execLatMaxRead a1 a2) := by
  simp only [List.cons_subset, List.nil_subset, and_true] at hm
  simp (maxDischargeDepth := 60) +contextual only [execLatMaxRead, h2, List.cons_subset, hm, List.nil_subset, and_self, readLatMax_keeps, implies_true, atTile_keeps]
theorem weedOut_keeps {fs : List Field} {s0 : State} {a1 : Node} {a2 : Nat} {a3 : State} (h3 : Keeps fs s0 a3) (hm : [.regs, .net] ⊆ fs := by first | assumption | (refine List.Subset.trans ?_ (by assumption); simp) | simp) :
    Keeps fs s0 (weedOut a1 a2 a3) := by
  simp only [List.cons_subset, List.nil_subset, and_true] at hm
  simp (maxDischargeDepth := 60) +contextual only [weedOut, h3, List.cons_subset, hm, List.nil_subset, and_self, dropPackets_keeps, keeps_net]
theorem revoke_keeps {fs : List Field} {s0 : State} {a1 : Node} {a2 : Nat} {a3 : State} (h3 : Keeps fs s0 a3) (hm : [.regs, .net, .out] ⊆ fs := by first | assumption | (refine List.Subset.trans ?_ (by assumption); simp) | simp) :
    Keeps fs s0 (revoke a1 a2 a3) := by
  simp only [List.cons_subset, List.nil_subset, and_true] at hm
  simp (maxDischargeDepth := 60) +contextual only [revoke, h3, List.cons_subset, hm, List.nil_subset, and_self, setArb_keeps, addReg_keeps, event_keeps]
theorem outputStep_keeps {fs : List Field} {s0 : State} {a1 : Node} {a2 : Nat} {a3 : State} (h3 : Keeps fs s0 a3) (hm : [.regs, .cores, .clusters, .mem, .granger, .net, .ports, .out, .free] ⊆ fs := by first | assumption | (refine List.Subset.trans ?_ (by assumption); simp) | simp) :
    Keeps fs s0 (outputStep a1 a2 a3) := by
  simp only [List.cons_subset, List.nil_subset, and_true] at hm
  simp (maxDischargeDepth := 60) +contextual only [outputStep]
  repeat' (split <;> (try simp (maxDischargeDepth := 60) +contextual only [keeps_ite, List.cons_subset, List.nil_subset, and_self, sendFlit_keeps, revoke_keeps, deadStep_keeps, arbitrate_keeps, h3, hm]))
  all_goals (first | done | assumption)
theorem slottedStep_keeps {fs : List Field} {s0 : State} {a1 : Node} {a2 : Nat} {a3 : Nat} {a4 : State} (h4 : Keeps fs s0 a4) (hm : [.regs, .net, .out] ⊆ fs := by first | assumption | (refine List.Subset.trans ?_ (by assumption); simp) | simp) :
    Keeps fs s0 (slottedStep a1 a2 a3 a4) := by
  simp only [List.cons_subset, List.nil_subset, and_true] at hm
  simp (maxDischargeDepth := 60) +contextual only [slottedStep, h4, List.cons_subset, hm, List.nil_subset, and_self, revoke_keeps, keeps_ite, keeps_net]
theorem openHop_keeps {fs : List Field} {s0 : State} {a1 : Node} {a2 : Nat} {a3 : State} (h3 : Keeps fs s0 a3) (hm : [.regs, .cores, .clusters, .mem, .granger, .net, .ports, .out, .free] ⊆ fs := by first | assumption | (refine List.Subset.trans ?_ (by assumption); simp) | simp) :
    Keeps fs s0 (openHop a1 a2 a3) := by
  simp only [List.cons_subset, List.nil_subset, and_true] at hm
  simp (maxDischargeDepth := 60) +contextual only [openHop, h3, List.cons_subset, hm, List.nil_subset, and_self, slottedStep_keeps, weedOut_keeps, outputStep_keeps, keeps_ite]
theorem execOpenPacketHop_keeps {fs : List Field} {s0 : State} {a1 : Fin 320} {a2 : Fin 8} {a3 : State} (h3 : Keeps fs s0 a3) (hm : [.regs, .cores, .clusters, .mem, .granger, .net, .ports, .out, .free] ⊆ fs := by first | assumption | (refine List.Subset.trans ?_ (by assumption); simp) | simp) :
    KeepsO fs s0 (execOpenPacketHop a1 a2 a3) := by
  simp only [List.cons_subset, List.nil_subset, and_true] at hm
  simp (maxDischargeDepth := 60) +contextual only [execOpenPacketHop, h3, List.cons_subset, hm, List.nil_subset, and_self, openHop_keeps, keepsO_next, keepsO_refused, keepsO_ite]
theorem requestTimeout_keeps {fs : List Field} {s0 : State} {a1 : Sender} {a2 : State} (h2 : Keeps fs s0 a2) (hm : [.regs, .slots, .tasks, .ctrs, .cores, .clusters, .mem, .granger, .streams, .dmas, .net, .coll, .control, .step, .power, .traces, .out, .free] ⊆ fs := by first | assumption | (refine List.Subset.trans ?_ (by assumption); simp) | simp) :
    Keeps fs s0 (requestTimeout a1 a2) := by
  simp only [List.cons_subset, List.nil_subset, and_true] at hm
  simp (maxDischargeDepth := 60) +contextual only [requestTimeout]
  repeat' (split <;> (try simp (maxDischargeDepth := 60) +contextual only [keeps_ite, List.cons_subset, List.nil_subset, and_self, giveStatus_keeps, dmaFail_keeps, streamComplete_keeps, reComplete_keeps, netTimeout_keeps, addReg_keeps, replyData_keeps, coreTimeout_keeps, h2, hm]))
  all_goals (first | done | assumption)
theorem execRequestTimeout_keeps {fs : List Field} {s0 : State} {a1 : Sender} {a2 : State} (h2 : Keeps fs s0 a2) (hm : [.regs, .slots, .tasks, .ctrs, .cores, .clusters, .mem, .granger, .streams, .dmas, .net, .coll, .control, .step, .power, .traces, .out, .free] ⊆ fs := by first | assumption | (refine List.Subset.trans ?_ (by assumption); simp) | simp) :
    KeepsO fs s0 (execRequestTimeout a1 a2) := by
  simp only [List.cons_subset, List.nil_subset, and_true] at hm
  simp (maxDischargeDepth := 60) +contextual only [execRequestTimeout, h2, List.cons_subset, hm, List.nil_subset, and_self, requestTimeout_keeps, keepsO_next, keepsO_refused, keepsO_ite]
theorem setBankTable_keeps {fs : List Field} {s0 : State} {a1 : State} {a2 : Nat} {a3 : Option SlotTable} (h1 : Keeps fs s0 a1) (hm : [.net] ⊆ fs := by first | assumption | (refine List.Subset.trans ?_ (by assumption); simp) | simp) :
    Keeps fs s0 (setBankTable a1 a2 a3) := by
  simp only [List.cons_subset, List.nil_subset, and_true] at hm
  simp (maxDischargeDepth := 60) +contextual only [setBankTable, h1, List.cons_subset, hm, List.nil_subset, and_self, keeps_net, keeps_ite]
theorem rewriteTable_keeps {fs : List Field} {s0 : State} {a1 : State} (h1 : Keeps fs s0 a1) (hm : [.regs, .net] ⊆ fs := by first | assumption | (refine List.Subset.trans ?_ (by assumption); simp) | simp) :
    Keeps fs s0 (rewriteTable a1) := by
  simp only [List.cons_subset, List.nil_subset, and_true] at hm
  simp (maxDischargeDepth := 60) +contextual only [rewriteTable]
  repeat' (split <;> (try simp (maxDischargeDepth := 60) +contextual only [keeps_ite, List.cons_subset, List.nil_subset, and_self, keeps_net, setFld_keeps, setBankTable_keeps, h1, hm]))
  all_goals (first | done | assumption)
theorem stopUnitLost_keeps {fs : List Field} {s0 : State} {a1 : Node} {a2 : State} (h2 : Keeps fs s0 a2) (hm : [.regs, .slots, .tasks, .ctrs, .cores, .clusters, .mem, .granger, .streams, .coll, .control, .step, .power, .traces, .out] ⊆ fs := by first | assumption | (refine List.Subset.trans ?_ (by assumption); simp) | simp) :
    Keeps fs s0 (stopUnitLost a1 a2) := by
  simp only [List.cons_subset, List.nil_subset, and_true] at hm
  simp (maxDischargeDepth := 60) +contextual only [stopUnitLost]
  repeat' (split <;> (try simp (maxDischargeDepth := 60) +contextual only [keeps_ite, List.cons_subset, List.nil_subset, and_self, declareUnusable_keeps, orphans_keeps, h2, hm]))
  all_goals (first | done | assumption)
theorem routeRewrite_keeps {fs : List Field} {s0 : State} {a1 : State} (h1 : Keeps fs s0 a1) (hm : [.regs, .slots, .tasks, .ctrs, .cores, .clusters, .mem, .granger, .streams, .net, .coll, .control, .step, .power, .traces, .out] ⊆ fs := by first | assumption | (refine List.Subset.trans ?_ (by assumption); simp) | simp) :
    Keeps fs s0 (routeRewrite a1) := by
  simp only [List.cons_subset, List.nil_subset, and_true] at hm
  simp (maxDischargeDepth := 60) +contextual only [routeRewrite, h1, List.cons_subset, hm, List.nil_subset, and_self, fenceNode_keeps, stopUnitLost_keeps, implies_true, keeps_foldl, rewriteTable_keeps, addReg_keeps, keeps_net, keeps_ite]
theorem execRouteRewrite_keeps {fs : List Field} {s0 : State} {a1 : State} (h1 : Keeps fs s0 a1) (hm : [.regs, .slots, .tasks, .ctrs, .cores, .clusters, .mem, .granger, .streams, .net, .coll, .control, .step, .power, .traces, .out] ⊆ fs := by first | assumption | (refine List.Subset.trans ?_ (by assumption); simp) | simp) :
    KeepsO fs s0 (execRouteRewrite a1) := by
  simp only [List.cons_subset, List.nil_subset, and_true] at hm
  simp (maxDischargeDepth := 60) +contextual only [execRouteRewrite, h1, List.cons_subset, hm, List.nil_subset, and_self, routeRewrite_keeps, keepsO_next]
theorem routerBufferUe_keeps {fs : List Field} {s0 : State} {a1 : Node} {a2 : State} (h2 : Keeps fs s0 a2) (hm : [.regs, .slots, .tasks, .ctrs, .cores, .clusters, .mem, .granger, .streams, .net, .coll, .control, .step, .power, .traces, .out] ⊆ fs := by first | assumption | (refine List.Subset.trans ?_ (by assumption); simp) | simp) :
    Keeps fs s0 (routerBufferUe a1 a2) := by
  simp only [List.cons_subset, List.nil_subset, and_true] at hm
  simp (maxDischargeDepth := 60) +contextual only [routerBufferUe, h2, List.cons_subset, hm, List.nil_subset, and_self, logErr_keeps, fenceNode_keeps]
theorem execRouterBufferUe_keeps {fs : List Field} {s0 : State} {a1 : Fin 320} {a2 : State} (h2 : Keeps fs s0 a2) (hm : [.regs, .slots, .tasks, .ctrs, .cores, .clusters, .mem, .granger, .streams, .net, .coll, .control, .step, .power, .traces, .out] ⊆ fs := by first | assumption | (refine List.Subset.trans ?_ (by assumption); simp) | simp) :
    KeepsO fs s0 (execRouterBufferUe a1 a2) := by
  simp only [List.cons_subset, List.nil_subset, and_true] at hm
  simp (maxDischargeDepth := 60) +contextual only [execRouterBufferUe, h2, List.cons_subset, hm, List.nil_subset, and_self, routerBufferUe_keeps, stopUnitLost_keeps, keepsO_next, keepsO_refused, keepsO_ite]
theorem refreshSt_keeps {fs : List Field} {s0 : State} {a1 : State} (h1 : Keeps fs s0 a1) (hm : [.regs] ⊆ fs := by first | assumption | (refine List.Subset.trans ?_ (by assumption); simp) | simp) :
    Keeps fs s0 (refreshSt a1) := by
  simp only [List.cons_subset, List.nil_subset, and_true] at hm
  simp (maxDischargeDepth := 60) +contextual only [refreshSt, h1, List.cons_subset, hm, List.nil_subset, and_self, setFld_keeps, wr_keeps]
theorem stLoad_keeps {fs : List Field} {s0 : State} {a1 : Fin 8} {a2 : Word} {a3 : State} (h3 : Keeps fs s0 a3) (hm : [.regs, .net, .out] ⊆ fs := by first | assumption | (refine List.Subset.trans ?_ (by assumption); simp) | simp) :
    Keeps fs s0 (stLoad a1 a2 a3) := by
  simp only [List.cons_subset, List.nil_subset, and_true] at hm
  simp (maxDischargeDepth := 60) +contextual only [stLoad, h3, List.cons_subset, hm, List.nil_subset, and_self, logErr_keeps, reservedWrite_keeps, setBankTable_keeps, keeps_net, setFld_keeps, refreshSt_keeps, keeps_ite]
theorem execStLoad_keeps {fs : List Field} {s0 : State} {a1 : Fin 8} {a2 : Word} {a3 : State} (h3 : Keeps fs s0 a3) (hm : [.regs, .net, .out] ⊆ fs := by first | assumption | (refine List.Subset.trans ?_ (by assumption); simp) | simp) :
    KeepsO fs s0 (execStLoad a1 a2 a3) := by
  simp only [List.cons_subset, List.nil_subset, and_true] at hm
  simp (maxDischargeDepth := 60) +contextual only [execStLoad, h3, List.cons_subset, hm, List.nil_subset, and_self, stLoad_keeps, implies_true, atTile_keeps]
theorem stLoadDone_keeps {fs : List Field} {s0 : State} {a1 : State} (h1 : Keeps fs s0 a1) (hm : [.regs, .net, .out] ⊆ fs := by first | assumption | (refine List.Subset.trans ?_ (by assumption); simp) | simp) :
    Keeps fs s0 (stLoadDone a1) := by
  simp only [List.cons_subset, List.nil_subset, and_true] at hm
  simp (maxDischargeDepth := 60) +contextual only [stLoadDone]
  repeat' (split <;> (try simp (maxDischargeDepth := 60) +contextual only [List.cons_subset, List.nil_subset, and_self, keeps_net, setFld_keeps, logErr_keeps, setBankTable_keeps, refreshSt_keeps, h1, hm]))
  all_goals (first | done | assumption)
theorem execStLoadDone_keeps {fs : List Field} {s0 : State} {a1 : State} (h1 : Keeps fs s0 a1) (hm : [.regs, .net, .out] ⊆ fs := by first | assumption | (refine List.Subset.trans ?_ (by assumption); simp) | simp) :
    KeepsO fs s0 (execStLoadDone a1) := by
  simp only [List.cons_subset, List.nil_subset, and_true] at hm
  simp (maxDischargeDepth := 60) +contextual only [execStLoadDone, h1, List.cons_subset, hm, List.nil_subset, and_self, stLoadDone_keeps, keepsO_next]
theorem enterDetect_keeps {fs : List Field} {s0 : State} {a1 : Nat} {a2 : State} (h2 : Keeps fs s0 a2) (hm : [.regs, .ports] ⊆ fs := by first | assumption | (refine List.Subset.trans ?_ (by assumption); simp) | simp) :
    Keeps fs s0 (enterDetect a1 a2) := by
  simp only [List.cons_subset, List.nil_subset, and_true] at hm
  simp (maxDischargeDepth := 60) +contextual only [enterDetect, h2, List.cons_subset, hm, List.nil_subset, and_self, setPort_keeps, setLink_keeps, setFld_keeps]
theorem applyPort_keeps {fs : List Field} {s0 : State} {a1 : State} {a2 : Nat} (h1 : Keeps fs s0 a1) (hm : [.regs, .slots, .tasks, .ctrs, .cores, .clusters, .mem, .granger, .ports, .coll, .control, .step, .power, .traces, .out] ⊆ fs := by first | assumption | (refine List.Subset.trans ?_ (by assumption); simp) | simp) :
    Keeps fs s0 (applyPort a1 a2) := by
  simp only [List.cons_subset, List.nil_subset, and_true] at hm
  simp (maxDischargeDepth := 60) +contextual only [applyPort, h1, List.cons_subset, hm, List.nil_subset, and_self, setFld_keeps, dropLink_keeps, keeps_ite, enterDetect_keeps, setLink_keeps]
theorem creditReturn_keeps {fs : List Field} {s0 : State} {a1 : Nat} {a2 : Word} {a3 : State} (h3 : Keeps fs s0 a3) (hm : [.regs, .ports, .out] ⊆ fs := by first | assumption | (refine List.Subset.trans ?_ (by assumption); simp) | simp) :
    Keeps fs s0 (creditReturn a1 a2 a3) := by
  simp only [List.cons_subset, List.nil_subset, and_true] at hm
  simp (maxDischargeDepth := 60) +contextual only [creditReturn, h3, List.cons_subset, hm, List.nil_subset, and_self, setPort_keeps, drainPort_keeps, keeps_ite]
theorem linkCmd_keeps {fs : List Field} {s0 : State} {a1 : Nat} {a2 : Word} {a3 : State} (h3 : Keeps fs s0 a3) (hm : [.regs, .slots, .tasks, .ctrs, .cores, .clusters, .mem, .granger, .ports, .coll, .control, .step, .power, .traces, .out] ⊆ fs := by first | assumption | (refine List.Subset.trans ?_ (by assumption); simp) | simp) :
    Keeps fs s0 (linkCmd a1 a2 a3) := by
  simp only [List.cons_subset, List.nil_subset, and_true] at hm
  simp (maxDischargeDepth := 60) +contextual only [linkCmd, h3, List.cons_subset, hm, List.nil_subset, and_self, reservedWrite_keeps, dropLink_keeps, enterRetrain_keeps, setFld_keeps, setPort_keeps, keeps_ite]
theorem execLinkCmdRetrain_keeps {fs : List Field} {s0 : State} {a1 : Fin 6} {a2 : Word} {a3 : State} (h3 : Keeps fs s0 a3) (hm : [.regs, .slots, .tasks, .ctrs, .cores, .clusters, .mem, .granger, .ports, .coll, .control, .step, .power, .traces, .out] ⊆ fs := by first | assumption | (refine List.Subset.trans ?_ (by assumption); simp) | simp) :
    KeepsO fs s0 (execLinkCmdRetrain a1 a2 a3) := by
  simp only [List.cons_subset, List.nil_subset, and_true] at hm
  simp (maxDischargeDepth := 60) +contextual only [execLinkCmdRetrain, h3, List.cons_subset, hm, List.nil_subset, and_self, linkCmd_keeps, keepsO_next]
theorem identify_keeps {fs : List Field} {s0 : State} {a1 : Nat} {a2 : NeighbourInfo} {a3 : State} (h3 : Keeps fs s0 a3) (hm : [.regs, .slots, .tasks, .ctrs, .cores, .clusters, .mem, .granger, .ports, .coll, .control, .step, .power, .traces, .out] ⊆ fs := by first | assumption | (refine List.Subset.trans ?_ (by assumption); simp) | simp) :
    Keeps fs s0 (identify a1 a2 a3) := by
  simp only [List.cons_subset, List.nil_subset, and_true] at hm
  simp (maxDischargeDepth := 60) +contextual only [identify]
  repeat' (split <;> (try simp (maxDischargeDepth := 60) +contextual only [List.cons_subset, List.nil_subset, and_self, dropLink_keeps, wr_keeps, enterActive_keeps, h3, hm]))
  all_goals (first | done | assumption)
theorem execLinkIdentify_keeps {fs : List Field} {s0 : State} {a1 : Fin 6} {a2 : NeighbourInfo} {a3 : State} (h3 : Keeps fs s0 a3) (hm : [.regs, .slots, .tasks, .ctrs, .cores, .clusters, .mem, .granger, .ports, .coll, .control, .step, .power, .traces, .out] ⊆ fs := by first | assumption | (refine List.Subset.trans ?_ (by assumption); simp) | simp) :
    KeepsO fs s0 (execLinkIdentify a1 a2 a3) := by
  simp only [List.cons_subset, List.nil_subset, and_true] at hm
  simp (maxDischargeDepth := 60) +contextual only [execLinkIdentify, h3, List.cons_subset, hm, List.nil_subset, and_self, identify_keeps, keepsO_next]
theorem trainComplete_keeps {fs : List Field} {s0 : State} {a1 : Nat} {a2 : TrainResult} {a3 : State} (h3 : Keeps fs s0 a3) (hm : [.regs] ⊆ fs := by first | assumption | (refine List.Subset.trans ?_ (by assumption); simp) | simp) :
    Keeps fs s0 (trainComplete a1 a2 a3) := by
  simp only [List.cons_subset, List.nil_subset, and_true] at hm
  simp (maxDischargeDepth := 60) +contextual only [trainComplete]
  repeat' (split <;> (try simp (maxDischargeDepth := 60) +contextual only [keeps_ite, List.cons_subset, List.nil_subset, and_self, setLink_keeps, setFld_keeps, wr_keeps, h3, hm]))
  all_goals (first | done | assumption)
theorem execLinkTrainComplete_keeps {fs : List Field} {s0 : State} {a1 : Fin 6} {a2 : TrainResult} {a3 : State} (h3 : Keeps fs s0 a3) (hm : [.regs] ⊆ fs := by first | assumption | (refine List.Subset.trans ?_ (by assumption); simp) | simp) :
    KeepsO fs s0 (execLinkTrainComplete a1 a2 a3) := by
  simp only [List.cons_subset, List.nil_subset, and_true] at hm
  simp (maxDischargeDepth := 60) +contextual only [execLinkTrainComplete, h3, List.cons_subset, hm, List.nil_subset, and_self, trainComplete_keeps, keepsO_next]
theorem trainTimeout_keeps {fs : List Field} {s0 : State} {a1 : Nat} {a2 : State} (h2 : Keeps fs s0 a2) (hm : [.regs, .slots, .tasks, .ctrs, .cores, .clusters, .mem, .granger, .ports, .coll, .control, .step, .power, .traces, .out] ⊆ fs := by first | assumption | (refine List.Subset.trans ?_ (by assumption); simp) | simp) :
    Keeps fs s0 (trainTimeout a1 a2) := by
  simp only [List.cons_subset, List.nil_subset, and_true] at hm
  simp (maxDischargeDepth := 60) +contextual only [trainTimeout, h2, List.cons_subset, hm, List.nil_subset, and_self, dropLink_keeps, keeps_ite]
theorem execLinkTrainTimeout_keeps {fs : List Field} {s0 : State} {a1 : Fin 6} {a2 : State} (h2 : Keeps fs s0 a2) (hm : [.regs, .slots, .tasks, .ctrs, .cores, .clusters, .mem, .granger, .ports, .coll, .control, .step, .power, .traces, .out] ⊆ fs := by first | assumption | (refine List.Subset.trans ?_ (by assumption); simp) | simp) :
    KeepsO fs s0 (execLinkTrainTimeout a1 a2) := by
  simp only [List.cons_subset, List.nil_subset, and_true] at hm
  simp (maxDischargeDepth := 60) +contextual only [execLinkTrainTimeout, h2, List.cons_subset, hm, List.nil_subset, and_self, trainTimeout_keeps, keepsO_next]
theorem execPeerCredit_keeps {fs : List Field} {s0 : State} {a1 : Fin 6} {a2 : Word} {a3 : State} (h3 : Keeps fs s0 a3) (hm : [.regs, .ports, .out] ⊆ fs := by first | assumption | (refine List.Subset.trans ?_ (by assumption); simp) | simp) :
    KeepsO fs s0 (execPeerCredit a1 a2 a3) := by
  simp only [List.cons_subset, List.nil_subset, and_true] at hm
  simp (maxDischargeDepth := 60) +contextual only [execPeerCredit, h3, List.cons_subset, hm, List.nil_subset, and_self, creditReturn_keeps, keepsO_next]
theorem peerLost_keeps {fs : List Field} {s0 : State} {a1 : Nat} {a2 : State} (h2 : Keeps fs s0 a2) (hm : [.regs, .slots, .tasks, .ctrs, .cores, .clusters, .mem, .granger, .ports, .coll, .control, .step, .power, .traces, .out] ⊆ fs := by first | assumption | (refine List.Subset.trans ?_ (by assumption); simp) | simp) :
    Keeps fs s0 (peerLost a1 a2) := by
  simp only [List.cons_subset, List.nil_subset, and_true] at hm
  simp (maxDischargeDepth := 60) +contextual only [peerLost, h2, List.cons_subset, hm, List.nil_subset, and_self, enterRetrain_keeps, keeps_ite]
theorem execPeerLinkLost_keeps {fs : List Field} {s0 : State} {a1 : Fin 6} {a2 : State} (h2 : Keeps fs s0 a2) (hm : [.regs, .slots, .tasks, .ctrs, .cores, .clusters, .mem, .granger, .ports, .coll, .control, .step, .power, .traces, .out] ⊆ fs := by first | assumption | (refine List.Subset.trans ?_ (by assumption); simp) | simp) :
    KeepsO fs s0 (execPeerLinkLost a1 a2) := by
  simp only [List.cons_subset, List.nil_subset, and_true] at hm
  simp (maxDischargeDepth := 60) +contextual only [execPeerLinkLost, h2, List.cons_subset, hm, List.nil_subset, and_self, peerLost_keeps, keepsO_next]
theorem signalDetect_keeps {fs : List Field} {s0 : State} {a1 : Nat} {a2 : State} (h2 : Keeps fs s0 a2) (hm : [.regs] ⊆ fs := by first | assumption | (refine List.Subset.trans ?_ (by assumption); simp) | simp) :
    Keeps fs s0 (signalDetect a1 a2) := by
  simp only [List.cons_subset, List.nil_subset, and_true] at hm
  simp (maxDischargeDepth := 60) +contextual only [signalDetect, h2, List.cons_subset, hm, List.nil_subset, and_self, setLink_keeps, keeps_ite]
theorem execPortSignalDetect_keeps {fs : List Field} {s0 : State} {a1 : Fin 6} {a2 : State} (h2 : Keeps fs s0 a2) (hm : [.regs] ⊆ fs := by first | assumption | (refine List.Subset.trans ?_ (by assumption); simp) | simp) :
    KeepsO fs s0 (execPortSignalDetect a1 a2) := by
  simp only [List.cons_subset, List.nil_subset, and_true] at hm
  simp (maxDischargeDepth := 60) +contextual only [execPortSignalDetect, h2, List.cons_subset, hm, List.nil_subset, and_self, signalDetect_keeps, keepsO_next]
theorem replayTimeout_keeps {fs : List Field} {s0 : State} {a1 : Nat} {a2 : State} (h2 : Keeps fs s0 a2) (hm : [.regs, .slots, .tasks, .ctrs, .cores, .clusters, .mem, .granger, .ports, .coll, .control, .step, .power, .traces, .out] ⊆ fs := by first | assumption | (refine List.Subset.trans ?_ (by assumption); simp) | simp) :
    Keeps fs s0 (replayTimeout a1 a2) := by
  simp only [List.cons_subset, List.nil_subset, and_true] at hm
  simp (maxDischargeDepth := 60) +contextual only [replayTimeout, h2, List.cons_subset, hm, List.nil_subset, and_self, replay_keeps, keeps_ite]
theorem execReplayTimeout_keeps {fs : List Field} {s0 : State} {a1 : Fin 6} {a2 : State} (h2 : Keeps fs s0 a2) (hm : [.regs, .slots, .tasks, .ctrs, .cores, .clusters, .mem, .granger, .ports, .coll, .control, .step, .power, .traces, .out] ⊆ fs := by first | assumption | (refine List.Subset.trans ?_ (by assumption); simp) | simp) :
    KeepsO fs s0 (execReplayTimeout a1 a2) := by
  simp only [List.cons_subset, List.nil_subset, and_true] at hm
  simp (maxDischargeDepth := 60) +contextual only [execReplayTimeout, h2, List.cons_subset, hm, List.nil_subset, and_self, replayTimeout_keeps, keepsO_next]
theorem flitReceive_keeps {fs : List Field} {s0 : State} {a1 : Nat} {a2 : WelurFlit} {a3 : State} (h3 : Keeps fs s0 a3) (hm : [.regs, .slots, .tasks, .ctrs, .cores, .clusters, .mem, .granger, .ports, .coll, .control, .step, .power, .traces, .out] ⊆ fs := by first | assumption | (refine List.Subset.trans ?_ (by assumption); simp) | simp) :
    Keeps fs s0 (flitReceive a1 a2 a3) := by
  simp only [List.cons_subset, List.nil_subset, and_true] at hm
  simp (maxDischargeDepth := 60) +contextual only [flitReceive, h3, List.cons_subset, hm, List.nil_subset, and_self, addReg_keeps, setPort_keeps, acknowledge_keeps, replay_keeps, keeps_ite, drainPort_keeps]
theorem execWelurFlitReceive_keeps {fs : List Field} {s0 : State} {a1 : Fin 6} {a2 : WelurFlit} {a3 : State} (h3 : Keeps fs s0 a3) (hm : [.regs, .slots, .tasks, .ctrs, .cores, .clusters, .mem, .granger, .ports, .coll, .control, .step, .power, .traces, .out] ⊆ fs := by first | assumption | (refine List.Subset.trans ?_ (by assumption); simp) | simp) :
    KeepsO fs s0 (execWelurFlitReceive a1 a2 a3) := by
  simp only [List.cons_subset, List.nil_subset, and_true] at hm
  simp (maxDischargeDepth := 60) +contextual only [execWelurFlitReceive, h3, List.cons_subset, hm, List.nil_subset, and_self, flitReceive_keeps, keepsO_next]
theorem overrun_keeps {fs : List Field} {s0 : State} {a1 : Node} {a2 : Nat} {a3 : State} (h3 : Keeps fs s0 a3) (hm : [.regs, .slots, .tasks, .ctrs, .cores, .clusters, .mem, .granger, .coll, .control, .step, .power, .traces, .out] ⊆ fs := by first | assumption | (refine List.Subset.trans ?_ (by assumption); simp) | simp) :
    Keeps fs s0 (overrun a1 a2 a3) := by
  simp only [List.cons_subset, List.nil_subset, and_true] at hm
  simp (maxDischargeDepth := 60) +contextual only [overrun, h3, List.cons_subset, hm, List.nil_subset, and_self, addReg_keeps, fault_keeps, keeps_ite]
theorem returnCredit_keeps {fs : List Field} {s0 : State} {a1 : Nat} {a2 : PeerPacket} {a3 : State} (h3 : Keeps fs s0 a3) (hm : [.regs, .ports, .out] ⊆ fs := by first | assumption | (refine List.Subset.trans ?_ (by assumption); simp) | simp) :
    Keeps fs s0 (returnCredit a1 a2 a3) := by
  simp only [List.cons_subset, List.nil_subset, and_true] at hm
  simp (maxDischargeDepth := 60) +contextual only [returnCredit, h3, List.cons_subset, hm, List.nil_subset, and_self, sendPeer_keeps]
theorem transit_keeps {fs : List Field} {s0 : State} {a1 : Nat} {a2 : PeerPacket} {a3 : State} (h3 : Keeps fs s0 a3) (hm : [.regs, .net, .ports, .out] ⊆ fs := by first | assumption | (refine List.Subset.trans ?_ (by assumption); simp) | simp) :
    Keeps fs s0 (transit a1 a2 a3) := by
  simp only [List.cons_subset, List.nil_subset, and_true] at hm
  simp (maxDischargeDepth := 60) +contextual only [transit]
  repeat' (split <;> (try simp (maxDischargeDepth := 60) +contextual only [keeps_ite, List.cons_subset, List.nil_subset, and_self, keeps_net, sendPeer_keeps, addReg_keeps, event_keeps, countDetour_keeps, h3, hm]))
  all_goals (first | done | assumption)

end Sys2Proof.Laws
end

