-- ==== Sys2Proof/Laws/KeepsColl.lean ====
section
/-! SUPPORT. What the operations keep (see Laws/Keeps.lean): collectives, the step cursor, exchanges, slotted time, counters. -/

namespace Sys2Proof.Laws

set_option Elab.async false

open Sys2Proof.Machine Sys2Proof.Safety

theorem endWith_keeps {fs : List Field} {s0 : State} {a1 : CollCmd} {a2 : Nat × Option Nat} {a3 : State} (h3 : Keeps fs s0 a3) (hm : [.regs, .slots, .tasks, .ctrs, .cores, .clusters, .mem, .granger, .streams, .coll, .control, .step, .power, .traces, .out] ⊆ fs := by first | assumption | (refine List.Subset.trans ?_ (by assumption); simp) | simp) :
    Keeps fs s0 (endWith a1 a2 a3) := by
  simp only [List.cons_subset, List.nil_subset, and_true] at hm
  simp (maxDischargeDepth := 60) +contextual only [endWith]
  repeat' (split <;> (try simp (maxDischargeDepth := 60) +contextual only [List.cons_subset, List.nil_subset, and_self, meetPoison_keeps, giveStatus_keeps, h3, hm]))
  all_goals (first | done | assumption)
theorem compareTag_keeps {fs : List Field} {s0 : State} {a1 : CollCmd} {a2 : Nat} {a3 : Word × Word} {a4 : State} (h4 : Keeps fs s0 a4) (hm : [.regs, .coll, .out] ⊆ fs := by first | assumption | (refine List.Subset.trans ?_ (by assumption); simp) | simp) :
    Keeps fs s0 (compareTag a1 a2 a3 a4).2 := by
  simp only [List.cons_subset, List.nil_subset, and_true] at hm
  simp (maxDischargeDepth := 60) +contextual only [compareTag]
  repeat' (split <;> (try simp (maxDischargeDepth := 60) +contextual only [List.cons_subset, List.nil_subset, and_self, keeps_coll, event_keeps, h4, hm]))
  all_goals (first | done | assumption)
theorem checkTag_keeps {fs : List Field} {s0 : State} {a1 : CollCmd} {a2 : Nat} {a3 : Word × Word} {a4 : State} (h4 : Keeps fs s0 a4) (hm : [.regs, .coll, .out] ⊆ fs := by first | assumption | (refine List.Subset.trans ?_ (by assumption); simp) | simp) :
    Keeps fs s0 (checkTag a1 a2 a3 a4).2 := by
  simp only [List.cons_subset, List.nil_subset, and_true] at hm
  simp (maxDischargeDepth := 60) +contextual only [checkTag, apply_ite Prod.snd, h4, List.cons_subset, hm, List.nil_subset, and_self, compareTag_keeps, keeps_ite]
theorem sendChunk_keeps {fs : List Field} {s0 : State} {a1 : Nat} {a2 : PeerPacket} {a3 : State} (h3 : Keeps fs s0 a3) (hm : [.regs, .ports, .coll, .out] ⊆ fs := by first | assumption | (refine List.Subset.trans ?_ (by assumption); simp) | simp) :
    Keeps fs s0 (sendChunk a1 a2 a3) := by
  simp only [List.cons_subset, List.nil_subset, and_true] at hm
  simp (maxDischargeDepth := 60) +contextual only [sendChunk, h3, List.cons_subset, hm, List.nil_subset, and_self, keeps_coll, sendOwn_keeps, keeps_ite]
theorem sendChunks_keeps {fs : List Field} {s0 : State} {a1 : CollCmd} {a2 : Nat} {a3 : Nat} {a4 : Nat} {a5 : Bool} {a6 : List Byte} {a7 : State} (h7 : Keeps fs s0 a7) (hm : [.regs, .ports, .coll, .out] ⊆ fs := by first | assumption | (refine List.Subset.trans ?_ (by assumption); simp) | simp) :
    Keeps fs s0 (sendChunks a1 a2 a3 a4 a5 a6 a7) := by
  simp only [List.cons_subset, List.nil_subset, and_true] at hm
  simp (maxDischargeDepth := 60) +contextual only [sendChunks, List.cons_subset, hm, List.nil_subset, and_self, sendChunk_keeps, implies_true, h7, keeps_foldl]
theorem enginePiece_keeps {fs : List Field} {s0 : State} {a1 : Nat} {a2 : Nat} {a3 : List Byte} {a4 : State} (h4 : Keeps fs s0 a4) (hm : [.regs, .cores, .mem, .granger, .out, .free] ⊆ fs := by first | assumption | (refine List.Subset.trans ?_ (by assumption); simp) | simp) :
    Keeps fs s0 (enginePiece a1 a2 a3 a4) := by
  simp only [List.cons_subset, List.nil_subset, and_true] at hm
  simp (maxDischargeDepth := 60) +contextual only [enginePiece]
  repeat' (split <;> (try simp (maxDischargeDepth := 60) +contextual only [keeps_ite, List.cons_subset, List.nil_subset, and_self, storeHome_keeps, shadowWrite_keeps, h4, hm]))
  all_goals (first | done | assumption)
theorem engineWriteFuel_keeps {fs : List Field} {s0 : State} {a1 : Nat} {a2 : Nat} {a3 : Nat} {a4 : List Byte} {a5 : State} (h5 : Keeps fs s0 a5) (hm : [.regs, .cores, .mem, .granger, .out, .free] ⊆ fs := by first | assumption | (refine List.Subset.trans ?_ (by assumption); simp) | simp) :
    Keeps fs s0 (engineWriteFuel a1 a2 a3 a4 a5) := by
  induction a1 generalizing a3 a4 a5 with
  | zero => exact h5
  | succ k ih =>
    unfold engineWriteFuel
    split
    · exact h5
    · exact ih (enginePiece_keeps h5)
theorem engineWrite_keeps {fs : List Field} {s0 : State} {a1 : Nat} {a2 : Nat} {a3 : List Byte} {a4 : State} (h4 : Keeps fs s0 a4) (hm : [.regs, .cores, .mem, .granger, .out, .free] ⊆ fs := by first | assumption | (refine List.Subset.trans ?_ (by assumption); simp) | simp) :
    Keeps fs s0 (engineWrite a1 a2 a3 a4) := by
  simp only [List.cons_subset, List.nil_subset, and_true] at hm
  simp (maxDischargeDepth := 60) +contextual only [engineWrite, h4, List.cons_subset, hm, List.nil_subset, and_self, engineWriteFuel_keeps]
theorem deliverBytes_keeps {fs : List Field} {s0 : State} {a1 : CollCmd} {a2 : Nat} {a3 : List Byte} {a4 : State} (h4 : Keeps fs s0 a4) (hm : [.regs, .cores, .mem, .granger, .out, .free] ⊆ fs := by first | assumption | (refine List.Subset.trans ?_ (by assumption); simp) | simp) :
    Keeps fs s0 (deliverBytes a1 a2 a3 a4) := by
  simp only [List.cons_subset, List.nil_subset, and_true] at hm
  simp (maxDischargeDepth := 60) +contextual only [deliverBytes, h4, List.cons_subset, hm, List.nil_subset, and_self, engineWrite_keeps, keeps_ite]
theorem passOn_keeps {fs : List Field} {s0 : State} {a1 : CollCmd} {a2 : Ring} {a3 : Nat} {a4 : Bool} {a5 : List Byte} {a6 : State} (h6 : Keeps fs s0 a6) (hm : [.regs, .ports, .coll, .out] ⊆ fs := by first | assumption | (refine List.Subset.trans ?_ (by assumption); simp) | simp) :
    Keeps fs s0 (passOn a1 a2 a3 a4 a5 a6) := by
  simp only [List.cons_subset, List.nil_subset, and_true] at hm
  simp (maxDischargeDepth := 60) +contextual only [passOn, h6, List.cons_subset, hm, List.nil_subset, and_self, sendChunks_keeps, keeps_ite]
theorem takeChunk_keeps {fs : List Field} {s0 : State} {a1 : CollCmd} {a2 : Ring} {a3 : Nat} {a4 : Bool} {a5 : List PeerPacket} {a6 : State} (h6 : Keeps fs s0 a6) (hm : [.regs, .cores, .mem, .granger, .ports, .coll, .out, .free] ⊆ fs := by first | assumption | (refine List.Subset.trans ?_ (by assumption); simp) | simp) :
    Keeps fs s0 (takeChunk a1 a2 a3 a4 a5 a6).2 := by
  simp only [List.cons_subset, List.nil_subset, and_true] at hm
  simp (maxDischargeDepth := 60) +contextual only [takeChunk]
  repeat' (split <;> (try simp (maxDischargeDepth := 60) +contextual only [keeps_ite, List.cons_subset, List.nil_subset, and_self, checkTag_keeps, sendChunk_keeps, sendChunks_keeps, deliverBytes_keeps, passOn_keeps, h6, hm]))
  all_goals (first | done | assumption | (refine checkTag_keeps ?_ _ (by assumption) <;> simp (maxDischargeDepth := 60) +contextual only [keeps_ite, keeps_foldl, List.cons_subset, List.nil_subset, and_true, and_self, implies_true, ite_self, checkTag_keeps, sendChunk_keeps, sendChunks_keeps, deliverBytes_keeps, passOn_keeps, h6, hm]))
theorem setCmd_keeps {fs : List Field} {s0 : State} {a1 : CollCmd} {a2 : CollCmd} {a3 : State} (h3 : Keeps fs s0 a3) (hm : [.coll] ⊆ fs := by first | assumption | (refine List.Subset.trans ?_ (by assumption); simp) | simp) :
    Keeps fs s0 (setCmd a1 a2 a3) := by
  simp only [List.cons_subset, List.nil_subset, and_true] at hm
  simp (maxDischargeDepth := 60) +contextual only [setCmd, h3, List.cons_subset, hm, List.nil_subset, and_self, keeps_coll]
theorem advanceFuel_keeps {fs : List Field} {s0 : State} {a1 : Nat} {a2 : Ring} {a3 : CollCmd} {a4 : State} (h4 : Keeps fs s0 a4) (hm : [.regs, .slots, .tasks, .ctrs, .cores, .clusters, .mem, .granger, .streams, .ports, .coll, .control, .step, .power, .traces, .out, .free] ⊆ fs := by first | assumption | (refine List.Subset.trans ?_ (by assumption); simp) | simp) :
    Keeps fs s0 (advanceFuel a1 a2 a3 a4) := by
  induction a1 generalizing a3 a4 with
  | zero => exact h4
  | succ k ih =>
    unfold advanceFuel
    extract_lets l
    split
    · exact endWith_keeps h4
    split
    · exact endWith_keeps h4
    split
    · exact h4
    · extract_lets mine s d s2
      have h : Keeps fs s0 s2 := setCmd_keeps (keeps_coll h4)
      clear_value s2



      split
      · exact ih (keeps_of_snd (by assumption) (takeChunk_keeps h))
      · exact endWith_keeps (setCmd_keeps (keeps_of_snd (by assumption) (takeChunk_keeps h)))
theorem advanceCmd_keeps {fs : List Field} {s0 : State} {a1 : CollCmd} {a2 : State} (h2 : Keeps fs s0 a2) (hm : [.regs, .slots, .tasks, .ctrs, .cores, .clusters, .mem, .granger, .streams, .ports, .coll, .control, .step, .power, .traces, .out, .free] ⊆ fs := by first | assumption | (refine List.Subset.trans ?_ (by assumption); simp) | simp) :
    Keeps fs s0 (advanceCmd a1 a2) := by
  simp only [List.cons_subset, List.nil_subset, and_true] at hm
  simp (maxDischargeDepth := 60) +contextual only [advanceCmd]
  repeat' (split <;> (try simp (maxDischargeDepth := 60) +contextual only [List.cons_subset, List.nil_subset, and_self, endWith_keeps, advanceFuel_keeps, h2, hm]))
  all_goals (first | done | assumption)
theorem readCollDesc_keeps {fs : List Field} {s0 : State} {a1 : Option Nat} {a2 : State} (h2 : Keeps fs s0 a2) (hm : [.regs, .slots, .tasks, .ctrs, .cores, .clusters, .mem, .granger, .streams, .coll, .control, .step, .power, .traces, .out] ⊆ fs := by first | assumption | (refine List.Subset.trans ?_ (by assumption); simp) | simp) :
    Keeps fs s0 (readCollDesc a1 a2) := by
  simp only [List.cons_subset, List.nil_subset, and_true] at hm
  simp (maxDischargeDepth := 60) +contextual only [readCollDesc]
  repeat' (split <;> (try simp (maxDischargeDepth := 60) +contextual only [List.cons_subset, List.nil_subset, and_self, countPoison_keeps, h2, hm]))
  all_goals (first | done | assumption)
theorem collEnter_keeps {fs : List Field} {s0 : State} {a1 : Option Nat} {a2 : List Word} {a3 : Option Nat} {a4 : Word} {a5 : Option (Nat × Nat)} {a6 : State} (h6 : Keeps fs s0 a6) (hm : [.regs, .slots, .tasks, .ctrs, .cores, .clusters, .mem, .granger, .streams, .coll, .control, .step, .power, .traces, .out] ⊆ fs := by first | assumption | (refine List.Subset.trans ?_ (by assumption); simp) | simp) :
    Keeps fs s0 (collEnter a1 a2 a3 a4 a5 a6) := by
  simp only [List.cons_subset, List.nil_subset, and_true] at hm
  simp (maxDischargeDepth := 60) +contextual only [collEnter, h6, List.cons_subset, hm, List.nil_subset, and_self, keeps_coll, collCount_keeps, readCollDesc_keeps, run_keeps, keeps_ite]
theorem collAccept_keeps {fs : List Field} {s0 : State} {a1 : Requester} {a2 : Word} {a3 : State} (h3 : Keeps fs s0 a3) (hm : [.regs, .slots, .tasks, .ctrs, .cores, .clusters, .mem, .granger, .streams, .coll, .control, .step, .power, .traces, .out] ⊆ fs := by first | assumption | (refine List.Subset.trans ?_ (by assumption); simp) | simp) :
    Keeps fs s0 (collAccept a1 a2 a3) := by
  simp only [List.cons_subset, List.nil_subset, and_true] at hm
  simp (maxDischargeDepth := 60) +contextual only [collAccept, h3, List.cons_subset, hm, List.nil_subset, and_self, reservedWrite_keeps, collEnter_keeps]
theorem gatherArrival_keeps {fs : List Field} {s0 : State} {a1 : CollCmd} {a2 : State} (h2 : Keeps fs s0 a2) (hm : [.regs, .slots, .tasks, .ctrs, .cores, .clusters, .mem, .granger, .coll, .control, .step, .power, .traces, .out] ⊆ fs := by first | assumption | (refine List.Subset.trans ?_ (by assumption); simp) | simp) :
    Keeps fs s0 (gatherArrival a1 a2) := by
  simp only [List.cons_subset, List.nil_subset, and_true] at hm
  simp (maxDischargeDepth := 60) +contextual only [gatherArrival]
  repeat' (split <;> (try simp (maxDischargeDepth := 60) +contextual only [keeps_foldl, List.cons_subset, List.nil_subset, and_self, implies_true, arrivalSignal_keeps, h2, hm]))
  all_goals (first | done | assumption)
theorem notePass_keeps {fs : List Field} {s0 : State} {a1 : CollCmd} {a2 : State} (h2 : Keeps fs s0 a2) (hm : [.coll] ⊆ fs := by first | assumption | (refine List.Subset.trans ?_ (by assumption); simp) | simp) :
    Keeps fs s0 (notePass a1 a2) := by
  simp only [List.cons_subset, List.nil_subset, and_true] at hm
  simp (maxDischargeDepth := 60) +contextual only [notePass, h2, List.cons_subset, hm, List.nil_subset, and_self, keeps_coll, keeps_ite]
theorem collCommandComplete_keeps {fs : List Field} {s0 : State} {a1 : Nat} {a2 : State} (h2 : Keeps fs s0 a2) (hm : [.regs, .slots, .tasks, .ctrs, .cores, .clusters, .mem, .granger, .coll, .control, .step, .power, .traces, .out] ⊆ fs := by first | assumption | (refine List.Subset.trans ?_ (by assumption); simp) | simp) :
    Keeps fs s0 (collCommandComplete a1 a2) := by
  simp only [List.cons_subset, List.nil_subset, and_true] at hm
  simp (maxDischargeDepth := 60) +contextual only [collCommandComplete]
  repeat' (split <;> (try simp (maxDischargeDepth := 60) +contextual only [keeps_ite, List.cons_subset, List.nil_subset, and_self, keeps_step, gatherArrival_keeps, run_keeps, notePass_keeps, h2, hm]))
  all_goals (first | done | assumption)
theorem collRow_keeps {fs : List Field} {s0 : State} {a1 : Nat} {a2 : Nat} {a3 : (State → CollCmd → List (Nat × Nat))} {a4 : (CollCmd → State → State)} {a5 : (CollCmd → State → State)} {a6 : State} (h4 : ∀ y0 y1, Keeps fs s0 y1 → Keeps fs s0 (a4 y0 y1)) (h5 : ∀ y0 y1, Keeps fs s0 y1 → Keeps fs s0 (a5 y0 y1)) (h6 : Keeps fs s0 a6) :
    Keeps fs s0 (collRow a1 a2 a3 a4 a5 a6) := by
  simp (maxDischargeDepth := 60) +contextual only [collRow]
  repeat' (split <;> (try simp (maxDischargeDepth := 60) +contextual only [keeps_ite, h4, h5, h6]))
  all_goals (first | done | assumption)
theorem collStore_keeps {fs : List Field} {s0 : State} {a1 : CoreRef} {a2 : Word} {a3 : State} (h3 : Keeps fs s0 a3) (hm : [.regs, .slots, .tasks, .ctrs, .cores, .clusters, .mem, .granger, .streams, .coll, .control, .step, .power, .traces, .out] ⊆ fs := by first | assumption | (refine List.Subset.trans ?_ (by assumption); simp) | simp) :
    KeepsS fs s0 (collStore a1 a2 a3) := by
  simp only [List.cons_subset, List.nil_subset, and_true] at hm
  simp (maxDischargeDepth := 60) +contextual only [collStore, h3, List.cons_subset, hm, List.nil_subset, and_self, holdStore_keeps, keepsS_done, collAccept_keeps, keepsS_ite]
theorem collSubmit_keeps {fs : List Field} {s0 : State} {a1 : Requester} {a2 : Word} {a3 : State} (h3 : Keeps fs s0 a3) (hm : [.regs, .slots, .tasks, .ctrs, .cores, .clusters, .mem, .granger, .streams, .coll, .control, .step, .power, .traces, .out] ⊆ fs := by first | assumption | (refine List.Subset.trans ?_ (by assumption); simp) | simp) :
    Keeps fs s0 (collSubmit a1 a2 a3) := by
  simp only [List.cons_subset, List.nil_subset, and_true] at hm
  simp (maxDischargeDepth := 60) +contextual only [collSubmit]
  repeat' (split <;> (try simp (maxDischargeDepth := 60) +contextual only [keeps_ite, List.cons_subset, List.nil_subset, and_self, collAccept_keeps, setFld_keeps, logErr_keeps, collStore_keeps, settle_keeps, h3, hm]))
  all_goals (first | done | assumption)
theorem refreshGroups_keeps {fs : List Field} {s0 : State} {a1 : State} (h1 : Keeps fs s0 a1) (hm : [.regs] ⊆ fs := by first | assumption | (refine List.Subset.trans ?_ (by assumption); simp) | simp) :
    Keeps fs s0 (refreshGroups a1) := by
  simp only [List.cons_subset, List.nil_subset, and_true] at hm
  simp (maxDischargeDepth := 60) +contextual only [refreshGroups, h1, List.cons_subset, hm, List.nil_subset, and_self, setFld_keeps, keeps_ite]
theorem groupResult_keeps {fs : List Field} {s0 : State} {a1 : Nat} {a2 : State} (h2 : Keeps fs s0 a2) (hm : [.regs] ⊆ fs := by first | assumption | (refine List.Subset.trans ?_ (by assumption); simp) | simp) :
    Keeps fs s0 (groupResult a1 a2) := by
  simp only [List.cons_subset, List.nil_subset, and_true] at hm
  simp (maxDischargeDepth := 60) +contextual only [groupResult, h2, List.cons_subset, hm, List.nil_subset, and_self, setFld_keeps, refreshGroups_keeps]
theorem createGroup_keeps {fs : List Field} {s0 : State} {a1 : State} (h1 : Keeps fs s0 a1) (hm : [.regs, .coll] ⊆ fs := by first | assumption | (refine List.Subset.trans ?_ (by assumption); simp) | simp) :
    Keeps fs s0 (createGroup a1) := by
  simp only [List.cons_subset, List.nil_subset, and_true] at hm
  simp (maxDischargeDepth := 60) +contextual only [createGroup, h1, List.cons_subset, hm, List.nil_subset, and_self, groupResult_keeps, keeps_coll, keeps_ite]
theorem epochCtrlStore_keeps {fs : List Field} {s0 : State} {a1 : Word} {a2 : State} (h2 : Keeps fs s0 a2) (hm : [.regs, .out] ⊆ fs := by first | assumption | (refine List.Subset.trans ?_ (by assumption); simp) | simp) :
    Keeps fs s0 (epochCtrlStore a1 a2) := by
  simp only [List.cons_subset, List.nil_subset, and_true] at hm
  simp (maxDischargeDepth := 60) +contextual only [epochCtrlStore, h2, List.cons_subset, hm, List.nil_subset, and_self, reservedWrite_keeps, logErr_keeps, wr_keeps, keeps_ite]
theorem ownPart_keeps {fs : List Field} {s0 : State} {a1 : CollCmd} {a2 : Ring} {a3 : State} (h3 : Keeps fs s0 a3) (hm : [.regs, .cores, .mem, .granger, .ports, .coll, .out, .free] ⊆ fs := by first | assumption | (refine List.Subset.trans ?_ (by assumption); simp) | simp) :
    Keeps fs s0 (ownPart a1 a2 a3) := by
  simp only [List.cons_subset, List.nil_subset, and_true] at hm
  simp (maxDischargeDepth := 60) +contextual only [ownPart]
  repeat' (split <;> (try simp (maxDischargeDepth := 60) +contextual only [keeps_ite, List.cons_subset, List.nil_subset, and_self, sendChunk_keeps, deliverBytes_keeps, sendChunks_keeps, h3, hm]))
  all_goals (first | done | assumption)
theorem ownTag_keeps {fs : List Field} {s0 : State} {a1 : CollCmd} {a2 : Ring} {a3 : State} (h3 : Keeps fs s0 a3) (hm : [.regs, .coll, .out] ⊆ fs := by first | assumption | (refine List.Subset.trans ?_ (by assumption); simp) | simp) :
    Keeps fs s0 (ownTag a1 a2 a3).2 := by
  simp only [List.cons_subset, List.nil_subset, and_true] at hm
  simp (maxDischargeDepth := 60) +contextual only [ownTag, apply_ite Prod.snd, h3, List.cons_subset, hm, List.nil_subset, and_self, compareTag_keeps, keeps_ite]
theorem mapGathered_keeps {fs : List Field} {s0 : State} {a1 : CollCmd} {a2 : Ring} {a3 : State} (h3 : Keeps fs s0 a3) (hm : [.mem, .granger] ⊆ fs := by first | assumption | (refine List.Subset.trans ?_ (by assumption); simp) | simp) :
    Keeps fs s0 (mapGathered a1 a2 a3) := by
  simp only [List.cons_subset, List.nil_subset, and_true] at hm
  simp (maxDischargeDepth := 60) +contextual only [mapGathered]
  repeat' (split <;> (try simp (maxDischargeDepth := 60) +contextual only [keeps_ite, keeps_foldl, List.cons_subset, List.nil_subset, and_self, implies_true, keeps_memrest, setBushel_keeps, takeStack_keeps, h3, hm]))
  all_goals (first | done | assumption)
theorem startCmd_keeps {fs : List Field} {s0 : State} {a1 : CollCmd} {a2 : State} (h2 : Keeps fs s0 a2) (hm : [.regs, .slots, .tasks, .ctrs, .cores, .clusters, .mem, .granger, .streams, .ports, .coll, .control, .step, .power, .traces, .out, .free] ⊆ fs := by first | assumption | (refine List.Subset.trans ?_ (by assumption); simp) | simp) :
    Keeps fs s0 (startCmd a1 a2) := by
  unfold startCmd
  split
  · exact endWith_keeps h2
  · extract_lets s d s'
    have h : Keeps fs s0 s := mapGathered_keeps h2
    have h' : Keeps fs s0 s' := setCmd_keeps h
    clear_value s'
    split
    · exact endWith_keeps h
    split
    · exact endWith_keeps (setCmd_keeps (keeps_of_snd (by assumption) (ownTag_keeps h')))
    · exact advanceFuel_keeps (ownPart_keeps (keeps_of_snd (by assumption) (ownTag_keeps h')))
theorem execAllGather_keeps {fs : List Field} {s0 : State} {a1 : Nat} {a2 : State} (h2 : Keeps fs s0 a2) (hm : [.regs, .slots, .tasks, .ctrs, .cores, .clusters, .mem, .granger, .streams, .ports, .coll, .control, .step, .power, .traces, .out, .free] ⊆ fs := by first | assumption | (refine List.Subset.trans ?_ (by assumption); simp) | simp) :
    KeepsO fs s0 (execAllGather a1 a2) := by
  simp only [List.cons_subset, List.nil_subset, and_true] at hm
  simp (maxDischargeDepth := 60) +contextual only [execAllGather, List.cons_subset, hm, List.nil_subset, and_self, startCmd_keeps, implies_true, advanceCmd_keeps, h2, collRow_keeps, keepsO_next]
theorem execAllReduce_keeps {fs : List Field} {s0 : State} {a1 : Nat} {a2 : State} (h2 : Keeps fs s0 a2) (hm : [.regs, .slots, .tasks, .ctrs, .cores, .clusters, .mem, .granger, .streams, .ports, .coll, .control, .step, .power, .traces, .out, .free] ⊆ fs := by first | assumption | (refine List.Subset.trans ?_ (by assumption); simp) | simp) :
    KeepsO fs s0 (execAllReduce a1 a2) := by
  simp only [List.cons_subset, List.nil_subset, and_true] at hm
  simp (maxDischargeDepth := 60) +contextual only [execAllReduce, List.cons_subset, hm, List.nil_subset, and_self, startCmd_keeps, implies_true, advanceCmd_keeps, h2, collRow_keeps, keepsO_next]
theorem execBarrier_keeps {fs : List Field} {s0 : State} {a1 : Nat} {a2 : State} (h2 : Keeps fs s0 a2) (hm : [.regs, .slots, .tasks, .ctrs, .cores, .clusters, .mem, .granger, .streams, .ports, .coll, .control, .step, .power, .traces, .out, .free] ⊆ fs := by first | assumption | (refine List.Subset.trans ?_ (by assumption); simp) | simp) :
    KeepsO fs s0 (execBarrier a1 a2) := by
  simp only [List.cons_subset, List.nil_subset, and_true] at hm
  simp (maxDischargeDepth := 60) +contextual only [execBarrier, List.cons_subset, hm, List.nil_subset, and_self, startCmd_keeps, implies_true, advanceCmd_keeps, h2, collRow_keeps, keepsO_next]
theorem execBroadcast_keeps {fs : List Field} {s0 : State} {a1 : Nat} {a2 : State} (h2 : Keeps fs s0 a2) (hm : [.regs, .slots, .tasks, .ctrs, .cores, .clusters, .mem, .granger, .streams, .ports, .coll, .control, .step, .power, .traces, .out, .free] ⊆ fs := by first | assumption | (refine List.Subset.trans ?_ (by assumption); simp) | simp) :
    KeepsO fs s0 (execBroadcast a1 a2) := by
  simp only [List.cons_subset, List.nil_subset, and_true] at hm
  simp (maxDischargeDepth := 60) +contextual only [execBroadcast, List.cons_subset, hm, List.nil_subset, and_self, startCmd_keeps, implies_true, advanceCmd_keeps, h2, collRow_keeps, keepsO_next]
theorem execCollCommandComplete_keeps {fs : List Field} {s0 : State} {a1 : Nat} {a2 : State} (h2 : Keeps fs s0 a2) (hm : [.regs, .slots, .tasks, .ctrs, .cores, .clusters, .mem, .granger, .coll, .control, .step, .power, .traces, .out] ⊆ fs := by first | assumption | (refine List.Subset.trans ?_ (by assumption); simp) | simp) :
    KeepsO fs s0 (execCollCommandComplete a1 a2) := by
  simp only [List.cons_subset, List.nil_subset, and_true] at hm
  simp (maxDischargeDepth := 60) +contextual only [execCollCommandComplete, h2, List.cons_subset, hm, List.nil_subset, and_self, collCommandComplete_keeps, keepsO_next]
theorem readCollStat_keeps {fs : List Field} {s0 : State} {a1 : State} (h1 : Keeps fs s0 a1) (hm : [.regs, .out] ⊆ fs := by first | assumption | (refine List.Subset.trans ?_ (by assumption); simp) | simp) :
    Keeps fs s0 (readCollStat a1) := by
  simp only [List.cons_subset, List.nil_subset, and_true] at hm
  simp (maxDischargeDepth := 60) +contextual only [readCollStat, h1, List.cons_subset, hm, List.nil_subset, and_self, setFld_keeps, reply_keeps]
theorem execCollStatRead_keeps {fs : List Field} {s0 : State} {a1 : State} (h1 : Keeps fs s0 a1) (hm : [.regs, .out] ⊆ fs := by first | assumption | (refine List.Subset.trans ?_ (by assumption); simp) | simp) :
    KeepsO fs s0 (execCollStatRead a1) := by
  simp only [List.cons_subset, List.nil_subset, and_true] at hm
  simp (maxDischargeDepth := 60) +contextual only [execCollStatRead, h1, List.cons_subset, hm, List.nil_subset, and_self, readCollStat_keeps, keepsO_next]
theorem execCollSubmit_keeps {fs : List Field} {s0 : State} {a1 : Requester} {a2 : Word} {a3 : State} (h3 : Keeps fs s0 a3) (hm : [.regs, .slots, .tasks, .ctrs, .cores, .clusters, .mem, .granger, .streams, .coll, .control, .step, .power, .traces, .out] ⊆ fs := by first | assumption | (refine List.Subset.trans ?_ (by assumption); simp) | simp) :
    KeepsO fs s0 (execCollSubmit a1 a2 a3) := by
  simp only [List.cons_subset, List.nil_subset, and_true] at hm
  simp (maxDischargeDepth := 60) +contextual only [execCollSubmit, h3, List.cons_subset, hm, List.nil_subset, and_self, collSubmit_keeps, implies_true, byReq_keeps]
theorem execEpochCtrlWrite_keeps {fs : List Field} {s0 : State} {a1 : Word} {a2 : State} (h2 : Keeps fs s0 a2) (hm : [.regs, .out] ⊆ fs := by first | assumption | (refine List.Subset.trans ?_ (by assumption); simp) | simp) :
    KeepsO fs s0 (execEpochCtrlWrite a1 a2) := by
  simp only [List.cons_subset, List.nil_subset, and_true] at hm
  simp (maxDischargeDepth := 60) +contextual only [execEpochCtrlWrite, h2, List.cons_subset, hm, List.nil_subset, and_self, epochCtrlStore_keeps, keepsO_next]
theorem execGatherShard_keeps {fs : List Field} {s0 : State} {a1 : Nat} {a2 : State} (h2 : Keeps fs s0 a2) (hm : [.regs, .slots, .tasks, .ctrs, .cores, .clusters, .mem, .granger, .streams, .ports, .coll, .control, .step, .power, .traces, .out, .free] ⊆ fs := by first | assumption | (refine List.Subset.trans ?_ (by assumption); simp) | simp) :
    KeepsO fs s0 (execGatherShard a1 a2) := by
  simp only [List.cons_subset, List.nil_subset, and_true] at hm
  simp (maxDischargeDepth := 60) +contextual only [execGatherShard, List.cons_subset, hm, List.nil_subset, and_self, startCmd_keeps, implies_true, advanceCmd_keeps, h2, collRow_keeps, keepsO_next]
theorem retireGroup_keeps {fs : List Field} {s0 : State} {a1 : State} (h1 : Keeps fs s0 a1) (hm : [.regs, .coll] ⊆ fs := by first | assumption | (refine List.Subset.trans ?_ (by assumption); simp) | simp) :
    Keeps fs s0 (retireGroup a1) := by
  simp only [List.cons_subset, List.nil_subset, and_true] at hm
  simp (maxDischargeDepth := 60) +contextual only [retireGroup]
  repeat' (split <;> (try simp (maxDischargeDepth := 60) +contextual only [keeps_ite, List.cons_subset, List.nil_subset, and_self, keeps_coll, groupResult_keeps, h1, hm]))
  all_goals (first | done | assumption)
theorem groupCmd_keeps {fs : List Field} {s0 : State} {a1 : Word} {a2 : State} (h2 : Keeps fs s0 a2) (hm : [.regs, .coll, .out] ⊆ fs := by first | assumption | (refine List.Subset.trans ?_ (by assumption); simp) | simp) :
    Keeps fs s0 (groupCmd a1 a2) := by
  simp only [List.cons_subset, List.nil_subset, and_true] at hm
  simp (maxDischargeDepth := 60) +contextual only [groupCmd, h2, List.cons_subset, hm, List.nil_subset, and_self, reservedWrite_keeps, createGroup_keeps, retireGroup_keeps, logErr_keeps, keeps_ite]
theorem execGroupCreate_keeps {fs : List Field} {s0 : State} {a1 : Word} {a2 : State} (h2 : Keeps fs s0 a2) (hm : [.regs, .coll, .out] ⊆ fs := by first | assumption | (refine List.Subset.trans ?_ (by assumption); simp) | simp) :
    KeepsO fs s0 (execGroupCreate a1 a2) := by
  simp only [List.cons_subset, List.nil_subset, and_true] at hm
  simp (maxDischargeDepth := 60) +contextual only [execGroupCreate, h2, List.cons_subset, hm, List.nil_subset, and_self, groupCmd_keeps, keepsO_next]
theorem groupExpiry_keeps {fs : List Field} {s0 : State} {a1 : Nat} {a2 : State} (h2 : Keeps fs s0 a2) (hm : [.regs, .coll] ⊆ fs := by first | assumption | (refine List.Subset.trans ?_ (by assumption); simp) | simp) :
    Keeps fs s0 (groupExpiry a1 a2) := by
  simp only [List.cons_subset, List.nil_subset, and_true] at hm
  simp (maxDischargeDepth := 60) +contextual only [groupExpiry]
  repeat' (split <;> (try simp (maxDischargeDepth := 60) +contextual only [keeps_ite, List.cons_subset, List.nil_subset, and_self, keeps_coll, refreshGroups_keeps, h2, hm]))
  all_goals (first | done | assumption)
theorem execGroupQuarantineExpiry_keeps {fs : List Field} {s0 : State} {a1 : BitVec 12} {a2 : State} (h2 : Keeps fs s0 a2) (hm : [.regs, .coll] ⊆ fs := by first | assumption | (refine List.Subset.trans ?_ (by assumption); simp) | simp) :
    KeepsO fs s0 (execGroupQuarantineExpiry a1 a2) := by
  simp only [List.cons_subset, List.nil_subset, and_true] at hm
  simp (maxDischargeDepth := 60) +contextual only [execGroupQuarantineExpiry, h2, List.cons_subset, hm, List.nil_subset, and_self, groupExpiry_keeps, keepsO_next]
theorem execGroupRetire_keeps {fs : List Field} {s0 : State} {a1 : Word} {a2 : State} (h2 : Keeps fs s0 a2) (hm : [.regs, .coll, .out] ⊆ fs := by first | assumption | (refine List.Subset.trans ?_ (by assumption); simp) | simp) :
    KeepsO fs s0 (execGroupRetire a1 a2) := by
  simp only [List.cons_subset, List.nil_subset, and_true] at hm
  simp (maxDischargeDepth := 60) +contextual only [execGroupRetire, h2, List.cons_subset, hm, List.nil_subset, and_self, groupCmd_keeps, keepsO_next]
theorem execReduceScatter_keeps {fs : List Field} {s0 : State} {a1 : Nat} {a2 : State} (h2 : Keeps fs s0 a2) (hm : [.regs, .slots, .tasks, .ctrs, .cores, .clusters, .mem, .granger, .streams, .ports, .coll, .control, .step, .power, .traces, .out, .free] ⊆ fs := by first | assumption | (refine List.Subset.trans ?_ (by assumption); simp) | simp) :
    KeepsO fs s0 (execReduceScatter a1 a2) := by
  simp only [List.cons_subset, List.nil_subset, and_true] at hm
  simp (maxDischargeDepth := 60) +contextual only [execReduceScatter, List.cons_subset, hm, List.nil_subset, and_self, startCmd_keeps, implies_true, advanceCmd_keeps, h2, collRow_keeps, keepsO_next]
theorem putFlits_keeps {fs : List Field} {s0 : State} {a1 : Nat} {a2 : Nat} {a3 : List Byte} {a4 : State} (h4 : Keeps fs s0 a4) (hm : [.regs, .cores, .mem, .granger, .out, .free] ⊆ fs := by first | assumption | (refine List.Subset.trans ?_ (by assumption); simp) | simp) :
    Keeps fs s0 (putFlits a1 a2 a3 a4) := by
  simp only [List.cons_subset, List.nil_subset, and_true] at hm
  simp (maxDischargeDepth := 60) +contextual only [putFlits, h4, List.cons_subset, hm, List.nil_subset, and_self, holdAccess_keeps, engineWrite_keeps, keeps_ite]
theorem cursorArrivals_keeps {fs : List Field} {s0 : State} {a1 : Nat} {a2 : State} {a3 : Cursor} (h2 : Keeps fs s0 a2) (hm : [.regs, .slots, .tasks, .ctrs, .cores, .clusters, .mem, .granger, .coll, .control, .step, .power, .traces, .out] ⊆ fs := by first | assumption | (refine List.Subset.trans ?_ (by assumption); simp) | simp) :
    Keeps fs s0 (cursorArrivals a1 a2 a3) := by
  simp only [List.cons_subset, List.nil_subset, and_true] at hm
  simp (maxDischargeDepth := 60) +contextual only [cursorArrivals, List.cons_subset, hm, List.nil_subset, and_self, arrivalSignal_keeps, implies_true, h2, setCursor_keeps, keeps_foldl]
theorem layerArrival_keeps {fs : List Field} {s0 : State} {a1 : Nat} {a2 : State} (h2 : Keeps fs s0 a2) (hm : [.regs, .slots, .tasks, .ctrs, .cores, .clusters, .mem, .granger, .coll, .control, .step, .power, .traces, .out] ⊆ fs := by first | assumption | (refine List.Subset.trans ?_ (by assumption); simp) | simp) :
    Keeps fs s0 (layerArrival a1 a2) := by
  simp only [List.cons_subset, List.nil_subset, and_true] at hm
  simp (maxDischargeDepth := 60) +contextual only [layerArrival, List.cons_subset, hm, List.nil_subset, and_self, cursorArrivals_keeps, implies_true, h2, keeps_foldl, keeps_ite]
theorem execLayerArrivalSignal_keeps {fs : List Field} {s0 : State} {a1 : BitVec 16} {a2 : State} (h2 : Keeps fs s0 a2) (hm : [.regs, .slots, .tasks, .ctrs, .cores, .clusters, .mem, .granger, .coll, .control, .step, .power, .traces, .out] ⊆ fs := by first | assumption | (refine List.Subset.trans ?_ (by assumption); simp) | simp) :
    KeepsO fs s0 (execLayerArrivalSignal a1 a2) := by
  simp only [List.cons_subset, List.nil_subset, and_true] at hm
  simp (maxDischargeDepth := 60) +contextual only [execLayerArrivalSignal, h2, List.cons_subset, hm, List.nil_subset, and_self, layerArrival_keeps, keepsO_next]
theorem makeDue_keeps {fs : List Field} {s0 : State} {a1 : Nat} {a2 : Nat} {a3 : Bool} {a4 : State} (h4 : Keeps fs s0 a4) (hm : [.granger] ⊆ fs := by first | assumption | (refine List.Subset.trans ?_ (by assumption); simp) | simp) :
    Keeps fs s0 (makeDue a1 a2 a3 a4) := by
  simp only [List.cons_subset, List.nil_subset, and_true] at hm
  simp (maxDischargeDepth := 60) +contextual only [makeDue]
  repeat' (split <;> (try simp (maxDischargeDepth := 60) +contextual only [List.cons_subset, List.nil_subset, and_self, setCursor_keeps, h4, hm]))
  all_goals (first | done | assumption)
theorem startGather_keeps {fs : List Field} {s0 : State} {a1 : Nat} {a2 : Nat} {a3 : State} {a4 : Nat} (h3 : Keeps fs s0 a3) (hm : [.regs, .slots, .tasks, .ctrs, .cores, .clusters, .mem, .granger, .streams, .coll, .control, .step, .power, .traces, .out] ⊆ fs := by first | assumption | (refine List.Subset.trans ?_ (by assumption); simp) | simp) :
    Keeps fs s0 (startGather a1 a2 a3 a4) := by
  simp only [List.cons_subset, List.nil_subset, and_true] at hm
  simp (maxDischargeDepth := 60) +contextual only [startGather, h3, List.cons_subset, hm, List.nil_subset, and_self, collEnter_keeps]
theorem fetchLayer_keeps {fs : List Field} {s0 : State} {a1 : Nat} {a2 : Nat} {a3 : State} (h3 : Keeps fs s0 a3) (hm : [.regs, .slots, .tasks, .ctrs, .cores, .clusters, .mem, .granger, .streams, .coll, .control, .step, .power, .traces, .out] ⊆ fs := by first | assumption | (refine List.Subset.trans ?_ (by assumption); simp) | simp) :
    Keeps fs s0 (fetchLayer a1 a2 a3) := by
  simp only [List.cons_subset, List.nil_subset, and_true] at hm
  simp (maxDischargeDepth := 60) +contextual only [fetchLayer, List.cons_subset, hm, List.nil_subset, and_self, grangerCmd_keeps, startGather_keeps, keeps_ite, implies_true, h3, makeDue_keeps, keeps_foldl]
theorem windowCursorVisit_keeps {fs : List Field} {s0 : State} {a1 : Nat} {a2 : State} (h2 : Keeps fs s0 a2) (hm : [.regs, .slots, .tasks, .ctrs, .cores, .clusters, .mem, .granger, .streams, .coll, .control, .step, .power, .traces, .out] ⊆ fs := by first | assumption | (refine List.Subset.trans ?_ (by assumption); simp) | simp) :
    Keeps fs s0 (windowCursorVisit a1 a2) := by
  simp only [List.cons_subset, List.nil_subset, and_true] at hm
  simp (maxDischargeDepth := 60) +contextual only [windowCursorVisit]
  repeat' (split <;> (try simp (maxDischargeDepth := 60) +contextual only [List.cons_subset, List.nil_subset, and_self, releaseLayer_keeps, fetchLayer_keeps, noteVisit_keeps, makeDue_keeps, h2, hm]))
  all_goals (first | done | assumption)
theorem execWindowCursorVisit_keeps {fs : List Field} {s0 : State} {a1 : Fin 64} {a2 : State} (h2 : Keeps fs s0 a2) (hm : [.regs, .slots, .tasks, .ctrs, .cores, .clusters, .mem, .granger, .streams, .coll, .control, .step, .power, .traces, .out] ⊆ fs := by first | assumption | (refine List.Subset.trans ?_ (by assumption); simp) | simp) :
    KeepsO fs s0 (execWindowCursorVisit a1 a2) := by
  simp only [List.cons_subset, List.nil_subset, and_true] at hm
  simp (maxDischargeDepth := 60) +contextual only [execWindowCursorVisit, h2, List.cons_subset, hm, List.nil_subset, and_self, windowCursorVisit_keeps, keepsO_next]
theorem settleExchange_keeps {fs : List Field} {s0 : State} {a1 : CollCmd} {a2 : Ring} {a3 : State} (h3 : Keeps fs s0 a3) (hm : [.regs, .slots, .tasks, .ctrs, .cores, .clusters, .mem, .granger, .streams, .coll, .control, .step, .power, .traces, .out] ⊆ fs := by first | assumption | (refine List.Subset.trans ?_ (by assumption); simp) | simp) :
    Keeps fs s0 (settleExchange a1 a2 a3) := by
  simp only [List.cons_subset, List.nil_subset, and_true] at hm
  simp (maxDischargeDepth := 60) +contextual only [settleExchange]
  repeat' (split <;> (try simp (maxDischargeDepth := 60) +contextual only [keeps_ite, List.cons_subset, List.nil_subset, and_self, keeps_coll, endWith_keeps, h3, hm]))
  all_goals (first | done | assumption)
theorem advanceExchange_keeps {fs : List Field} {s0 : State} {a1 : CollCmd} {a2 : State} (h2 : Keeps fs s0 a2) (hm : [.regs, .slots, .tasks, .ctrs, .cores, .clusters, .mem, .granger, .streams, .coll, .control, .step, .power, .traces, .out] ⊆ fs := by first | assumption | (refine List.Subset.trans ?_ (by assumption); simp) | simp) :
    Keeps fs s0 (advanceExchange a1 a2) := by
  simp only [List.cons_subset, List.nil_subset, and_true] at hm
  simp (maxDischargeDepth := 60) +contextual only [advanceExchange]
  repeat' (split <;> (try simp (maxDischargeDepth := 60) +contextual only [List.cons_subset, List.nil_subset, and_self, endWith_keeps, settleExchange_keeps, h2, hm]))
  all_goals (first | done | assumption)
theorem answer_keeps {fs : List Field} {s0 : State} {a1 : PeerPacket} {a2 : Nat} {a3 : State} (h3 : Keeps fs s0 a3) (hm : [.regs, .ports, .coll, .out] ⊆ fs := by first | assumption | (refine List.Subset.trans ?_ (by assumption); simp) | simp) :
    Keeps fs s0 (answer a1 a2 a3) := by
  simp only [List.cons_subset, List.nil_subset, and_true] at hm
  simp (maxDischargeDepth := 60) +contextual only [answer, h3, List.cons_subset, hm, List.nil_subset, and_self, sendOwn_keeps]
theorem clearRows_keeps {fs : List Field} {s0 : State} {a1 : State} (h1 : Keeps fs s0 a1) (hm : [.regs, .cores, .mem, .granger, .coll, .out, .free] ⊆ fs := by first | assumption | (refine List.Subset.trans ?_ (by assumption); simp) | simp) :
    Keeps fs s0 (clearRows a1) := by
  simp only [List.cons_subset, List.nil_subset, and_true] at hm
  simp (maxDischargeDepth := 60) +contextual only [clearRows, List.cons_subset, hm, List.nil_subset, and_self, engineWrite_keeps, implies_true, h1, keeps_foldl, keeps_coll]
theorem settleAck_keeps {fs : List Field} {s0 : State} {a1 : CollCmd} {a2 : Bool} {a3 : State} (h3 : Keeps fs s0 a3) (hm : [.regs, .slots, .tasks, .ctrs, .cores, .clusters, .mem, .granger, .streams, .coll, .control, .step, .power, .traces, .out] ⊆ fs := by first | assumption | (refine List.Subset.trans ?_ (by assumption); simp) | simp) :
    Keeps fs s0 (settleAck a1 a2 a3) := by
  simp only [List.cons_subset, List.nil_subset, and_true] at hm
  simp (maxDischargeDepth := 60) +contextual only [settleAck, h3, List.cons_subset, hm, List.nil_subset, and_self, endWith_keeps, keeps_ite]
theorem routeStatus_keeps {fs : List Field} {s0 : State} {a1 : CollCmd} {a2 : Nat} {a3 : Nat} {a4 : State} (h4 : Keeps fs s0 a4) (hm : [.regs, .cores, .mem, .granger, .out, .free] ⊆ fs := by first | assumption | (refine List.Subset.trans ?_ (by assumption); simp) | simp) :
    Keeps fs s0 (routeStatus a1 a2 a3 a4) := by
  simp only [List.cons_subset, List.nil_subset, and_true] at hm
  simp (maxDischargeDepth := 60) +contextual only [routeStatus, h4, List.cons_subset, hm, List.nil_subset, and_self, engineWrite_keeps, addReg_keeps, event_keeps, keeps_ite]
theorem takeAck_keeps {fs : List Field} {s0 : State} {a1 : PeerPacket} {a2 : State} (h2 : Keeps fs s0 a2) (hm : [.regs, .slots, .tasks, .ctrs, .cores, .clusters, .mem, .granger, .streams, .coll, .control, .step, .power, .traces, .out, .free] ⊆ fs := by first | assumption | (refine List.Subset.trans ?_ (by assumption); simp) | simp) :
    Keeps fs s0 (takeAck a1 a2) := by
  simp only [List.cons_subset, List.nil_subset, and_true] at hm
  simp (maxDischargeDepth := 60) +contextual only [takeAck]
  repeat' (split <;> (try simp (maxDischargeDepth := 60) +contextual only [keeps_ite, List.cons_subset, List.nil_subset, and_self, settleAck_keeps, routeStatus_keeps, giveStatus_keeps, setCmd_keeps, h2, hm]))
  all_goals (first | done | assumption)
theorem putHere_keeps {fs : List Field} {s0 : State} {a1 : Nat} {a2 : PeerPacket} {a3 : State} (h3 : Keeps fs s0 a3) (hm : [.regs, .slots, .tasks, .ctrs, .cores, .clusters, .mem, .granger, .coll, .control, .step, .power, .traces, .out, .free] ⊆ fs := by first | assumption | (refine List.Subset.trans ?_ (by assumption); simp) | simp) :
    Keeps fs s0 (putHere a1 a2 a3).2 := by
  simp only [List.cons_subset, List.nil_subset, and_true] at hm
  simp (maxDischargeDepth := 60) +contextual only [putHere]
  repeat' (split <;> (try simp (maxDischargeDepth := 60) +contextual only [keeps_ite, List.cons_subset, List.nil_subset, and_self, signal_keeps, engineWrite_keeps, h3, hm]))
  all_goals (first | done | assumption)
theorem resultHere_keeps {fs : List Field} {s0 : State} {a1 : Nat} {a2 : PeerPacket} {a3 : State} (h3 : Keeps fs s0 a3) (hm : [.regs, .cores, .mem, .granger, .coll, .out, .free] ⊆ fs := by first | assumption | (refine List.Subset.trans ?_ (by assumption); simp) | simp) :
    Keeps fs s0 (resultHere a1 a2 a3).2 := by
  simp only [List.cons_subset, List.nil_subset, and_true] at hm
  simp (maxDischargeDepth := 60) +contextual only [resultHere]
  repeat' (split <;> (try simp (maxDischargeDepth := 60) +contextual only [List.cons_subset, List.nil_subset, and_self, engineWrite_keeps, giveStatus_keeps, h3, hm]))
  all_goals (first | done | assumption)
theorem setRowCounts_keeps {fs : List Field} {s0 : State} {a1 : Nat} {a2 : Nat} {a3 : Nat} {a4 : Nat} {a5 : State} (h5 : Keeps fs s0 a5) (hm : [.regs, .cores, .mem, .granger, .coll, .out, .free] ⊆ fs := by first | assumption | (refine List.Subset.trans ?_ (by assumption); simp) | simp) :
    Keeps fs s0 (setRowCounts a1 a2 a3 a4 a5) := by
  simp only [List.cons_subset, List.nil_subset, and_true] at hm
  simp (maxDischargeDepth := 60) +contextual only [setRowCounts, h5, List.cons_subset, hm, List.nil_subset, and_self, keeps_coll, engineWrite_keeps]
theorem noteToken_keeps {fs : List Field} {s0 : State} {a1 : Nat} {a2 : Nat} {a3 : State} (h3 : Keeps fs s0 a3) (hm : [.coll] ⊆ fs := by first | assumption | (refine List.Subset.trans ?_ (by assumption); simp) | simp) :
    Keeps fs s0 (noteToken a1 a2 a3) := by
  simp only [List.cons_subset, List.nil_subset, and_true] at hm
  simp (maxDischargeDepth := 60) +contextual only [noteToken, h3, List.cons_subset, hm, List.nil_subset, and_self, keeps_coll]
theorem placeRow_keeps {fs : List Field} {s0 : State} {a1 : Nat} {a2 : PeerPacket} {a3 : List Byte} {a4 : State} (h4 : Keeps fs s0 a4) (hm : [.regs, .cores, .mem, .granger, .coll, .out, .free] ⊆ fs := by first | assumption | (refine List.Subset.trans ?_ (by assumption); simp) | simp) :
    Keeps fs s0 (placeRow a1 a2 a3 a4).2 := by
  simp only [List.cons_subset, List.nil_subset, and_true] at hm
  simp (maxDischargeDepth := 60) +contextual only [placeRow]
  repeat' (split <;> (try simp (maxDischargeDepth := 60) +contextual only [List.cons_subset, List.nil_subset, and_self, engineWrite_keeps, setRowCounts_keeps, noteToken_keeps, giveStatus_keeps, h4, hm]))
  all_goals (first | done | assumption)
theorem takeRow_keeps {fs : List Field} {s0 : State} {a1 : Nat} {a2 : PeerPacket} {a3 : State} (h3 : Keeps fs s0 a3) (hm : [.regs, .cores, .mem, .granger, .ports, .coll, .out, .free] ⊆ fs := by first | assumption | (refine List.Subset.trans ?_ (by assumption); simp) | simp) :
    Keeps fs s0 (takeRow a1 a2 a3) := by
  unfold takeRow
  extract_lets s1 s2 l k row q s3
  have h2 : Keeps fs s0 s2 := giveStatus_keeps (giveStatus_keeps h3)
  have h3' : Keeps fs s0 s3 := keeps_coll h2
  clear_value s3
  split
  · exact keeps_coll h2
  split
  · exact answer_keeps (keeps_of_snd (by assumption) (placeRow_keeps h3'))
  · exact answer_keeps (keeps_of_snd (by assumption) (placeRow_keeps h3'))
theorem takeContribution_keeps {fs : List Field} {s0 : State} {a1 : PeerPacket} {a2 : State} (h2 : Keeps fs s0 a2) (hm : [.regs, .slots, .tasks, .ctrs, .cores, .clusters, .mem, .granger, .coll, .control, .step, .power, .traces, .out] ⊆ fs := by first | assumption | (refine List.Subset.trans ?_ (by assumption); simp) | simp) :
    Keeps fs s0 (takeContribution a1 a2) := by
  simp only [List.cons_subset, List.nil_subset, and_true] at hm
  simp (maxDischargeDepth := 60) +contextual only [takeContribution, h2, List.cons_subset, hm, List.nil_subset, and_self, fault_keeps, keeps_ite, keeps_coll, giveStatus_keeps]
theorem takeKind_keeps {fs : List Field} {s0 : State} {a1 : Nat} {a2 : PeerPacket} {a3 : State} (h3 : Keeps fs s0 a3) (hm : [.regs, .slots, .tasks, .ctrs, .cores, .clusters, .mem, .granger, .streams, .ports, .coll, .control, .step, .power, .traces, .out, .free] ⊆ fs := by first | assumption | (refine List.Subset.trans ?_ (by assumption); simp) | simp) :
    Keeps fs s0 (takeKind a1 a2 a3) := by
  simp only [List.cons_subset, List.nil_subset, and_true] at hm
  simp (maxDischargeDepth := 60) +contextual only [takeKind]
  repeat' (split <;> (try simp (maxDischargeDepth := 60) +contextual only [List.cons_subset, List.nil_subset, and_self, keeps_coll, takeAck_keeps, putHere_keeps, answer_keeps, resultHere_keeps, giveStatus_keeps, takeRow_keeps, takeContribution_keeps, h3, hm]))
  all_goals (first | done | assumption)
theorem engineTake_keeps {fs : List Field} {s0 : State} {a1 : Nat} {a2 : PeerPacket} {a3 : State} (h3 : Keeps fs s0 a3) (hm : [.regs, .slots, .tasks, .ctrs, .cores, .clusters, .mem, .granger, .streams, .ports, .coll, .control, .step, .power, .traces, .out, .free] ⊆ fs := by first | assumption | (refine List.Subset.trans ?_ (by assumption); simp) | simp) :
    Keeps fs s0 (engineTake a1 a2 a3) := by
  simp only [List.cons_subset, List.nil_subset, and_true] at hm
  simp (maxDischargeDepth := 60) +contextual only [engineTake, h3, List.cons_subset, hm, List.nil_subset, and_self, returnCredit_keeps, addReg_keeps, holdAccess_keeps, takeKind_keeps, keeps_ite, keeps_coll, fault_keeps]
theorem epochSwitch_keeps {fs : List Field} {s0 : State} {a1 : Word} {a2 : State} (h2 : Keeps fs s0 a2) (hm : [.regs, .slots, .tasks, .ctrs, .cores, .clusters, .mem, .granger, .streams, .ports, .coll, .control, .step, .power, .traces, .out, .free] ⊆ fs := by first | assumption | (refine List.Subset.trans ?_ (by assumption); simp) | simp) :
    Keeps fs s0 (epochSwitch a1 a2) := by
  simp only [List.cons_subset, List.nil_subset, and_true] at hm
  simp (maxDischargeDepth := 60) +contextual only [epochSwitch]
  repeat' (split <;> (try simp (maxDischargeDepth := 60) +contextual only [keeps_ite, keeps_foldl, List.cons_subset, List.nil_subset, and_self, implies_true, keeps_coll, engineTake_keeps, setFld_keeps, logErr_keeps, addFld_keeps, reservedWrite_keeps, h2, hm]))
  all_goals (first | done | assumption)
theorem sendEnds_keeps {fs : List Field} {s0 : State} {a1 : CollCmd} {a2 : Ring} {a3 : State} (h3 : Keeps fs s0 a3) (hm : [.regs, .ports, .coll, .out] ⊆ fs := by first | assumption | (refine List.Subset.trans ?_ (by assumption); simp) | simp) :
    Keeps fs s0 (sendEnds a1 a2 a3) := by
  simp only [List.cons_subset, List.nil_subset, and_true] at hm
  simp (maxDischargeDepth := 60) +contextual only [sendEnds, List.cons_subset, hm, List.nil_subset, and_self, sendOwn_keeps, implies_true, h3, keeps_foldl]
theorem sendResult_keeps {fs : List Field} {s0 : State} {a1 : CollCmd × State} {a2 : Nat × Nat} (h1 : Keeps fs s0 a1.2) (hm : [.regs, .slots, .tasks, .ctrs, .cores, .clusters, .mem, .granger, .streams, .ports, .coll, .control, .step, .power, .traces, .out, .free] ⊆ fs := by first | assumption | (refine List.Subset.trans ?_ (by assumption); simp) | simp) :
    Keeps fs s0 (sendResult a1 a2).2 := by
  unfold sendResult
  extract_lets c s ws src m w dst
  split
  · exact endWith_keeps h1
  · exact endWith_keeps h1
  · refine keeps_foldl_snd (fun t x h => ?_) h1
    extract_lets c s p d
    split
    · exact resultHere_keeps h
    · exact sendOwn_keeps (setCmd_keeps h)
theorem zeroResult_keeps {fs : List Field} {s0 : State} {a1 : CollCmd} {a2 : State} {a3 : Nat} (h2 : Keeps fs s0 a2) (hm : [.regs, .slots, .tasks, .ctrs, .cores, .clusters, .mem, .granger, .streams, .coll, .control, .step, .power, .traces, .out, .free] ⊆ fs := by first | assumption | (refine List.Subset.trans ?_ (by assumption); simp) | simp) :
    Keeps fs s0 (zeroResult a1 a2 a3) := by
  simp only [List.cons_subset, List.nil_subset, and_true] at hm
  simp (maxDischargeDepth := 60) +contextual only [zeroResult]
  repeat' (split <;> (try simp (maxDischargeDepth := 60) +contextual only [List.cons_subset, List.nil_subset, and_self, deliverBytes_keeps, endWith_keeps, h2, hm]))
  all_goals (first | done | assumption)
theorem startCombine_keeps {fs : List Field} {s0 : State} {a1 : CollCmd} {a2 : State} (h2 : Keeps fs s0 a2) (hm : [.regs, .slots, .tasks, .ctrs, .cores, .clusters, .mem, .granger, .streams, .ports, .coll, .control, .step, .power, .traces, .out, .free] ⊆ fs := by first | assumption | (refine List.Subset.trans ?_ (by assumption); simp) | simp) :
    Keeps fs s0 (startCombine a1 a2) := by
  unfold startCombine
  split
  · exact endWith_keeps h2
  split
  · exact endWith_keeps h2
  · exact settleExchange_keeps (sendEnds_keeps (keeps_foldl_snd (fun _ _ h => sendResult_keeps h)
      (keeps_foldl (fun _ _ h => zeroResult_keeps h) (setCmd_keeps h2))))
theorem execCombine_keeps {fs : List Field} {s0 : State} {a1 : Nat} {a2 : State} (h2 : Keeps fs s0 a2) (hm : [.regs, .slots, .tasks, .ctrs, .cores, .clusters, .mem, .granger, .streams, .ports, .coll, .control, .step, .power, .traces, .out, .free] ⊆ fs := by first | assumption | (refine List.Subset.trans ?_ (by assumption); simp) | simp) :
    KeepsO fs s0 (execCombine a1 a2) := by
  simp only [List.cons_subset, List.nil_subset, and_true] at hm
  simp (maxDischargeDepth := 60) +contextual only [execCombine, List.cons_subset, hm, List.nil_subset, and_self, startCombine_keeps, implies_true, advanceExchange_keeps, h2, collRow_keeps, keepsO_next]
theorem sendRoute_keeps {fs : List Field} {s0 : State} {a1 : Ring} {a2 : CollCmd × State} {a3 : Nat} (h2 : Keeps fs s0 a2.2) (hm : [.regs, .slots, .tasks, .ctrs, .cores, .clusters, .mem, .granger, .streams, .ports, .coll, .control, .step, .power, .traces, .out, .free] ⊆ fs := by first | assumption | (refine List.Subset.trans ?_ (by assumption); simp) | simp) :
    Keeps fs s0 (sendRoute a1 a2 a3).2 := by
  unfold sendRoute
  extract_lets c s w m row ps d
  split
  · dsimp only
    exact routeStatus_keeps h2
  split
  · exact endWith_keeps h2
  split
  · split
    · split
      · exact routeStatus_keeps (keeps_of_snd (by assumption) (placeRow_keeps h2))
      · exact keeps_of_snd (by assumption) (placeRow_keeps h2)
    · exact h2
  · exact keeps_foldl (fun _ _ h => sendOwn_keeps h) (setCmd_keeps h2)
theorem startDispatch_keeps {fs : List Field} {s0 : State} {a1 : CollCmd} {a2 : State} (h2 : Keeps fs s0 a2) (hm : [.regs, .slots, .tasks, .ctrs, .cores, .clusters, .mem, .granger, .streams, .ports, .coll, .control, .step, .power, .traces, .out, .free] ⊆ fs := by first | assumption | (refine List.Subset.trans ?_ (by assumption); simp) | simp) :
    Keeps fs s0 (startDispatch a1 a2) := by
  unfold startDispatch
  split
  · exact endWith_keeps h2
  split
  · exact endWith_keeps h2
  split
  · exact endWith_keeps h2
  · exact settleExchange_keeps (sendEnds_keeps (keeps_foldl_snd (fun _ _ h => sendRoute_keeps h) (setCmd_keeps h2)))
theorem execDispatch_keeps {fs : List Field} {s0 : State} {a1 : Nat} {a2 : State} (h2 : Keeps fs s0 a2) (hm : [.regs, .slots, .tasks, .ctrs, .cores, .clusters, .mem, .granger, .streams, .ports, .coll, .control, .step, .power, .traces, .out, .free] ⊆ fs := by first | assumption | (refine List.Subset.trans ?_ (by assumption); simp) | simp) :
    KeepsO fs s0 (execDispatch a1 a2) := by
  simp only [List.cons_subset, List.nil_subset, and_true] at hm
  simp (maxDischargeDepth := 60) +contextual only [execDispatch, List.cons_subset, hm, List.nil_subset, and_self, startDispatch_keeps, implies_true, advanceExchange_keeps, h2, collRow_keeps, keepsO_next]
theorem execEpochSwitch_keeps {fs : List Field} {s0 : State} {a1 : Word} {a2 : State} (h2 : Keeps fs s0 a2) (hm : [.regs, .slots, .tasks, .ctrs, .cores, .clusters, .mem, .granger, .streams, .ports, .coll, .control, .step, .power, .traces, .out, .free] ⊆ fs := by first | assumption | (refine List.Subset.trans ?_ (by assumption); simp) | simp) :
    KeepsO fs s0 (execEpochSwitch a1 a2) := by
  simp only [List.cons_subset, List.nil_subset, and_true] at hm
  simp (maxDischargeDepth := 60) +contextual only [execEpochSwitch, h2, List.cons_subset, hm, List.nil_subset, and_self, epochSwitch_keeps, keepsO_next]
theorem peerReceive_keeps {fs : List Field} {s0 : State} {a1 : Nat} {a2 : PeerPacket} {a3 : State} (h3 : Keeps fs s0 a3) (hm : [.regs, .slots, .tasks, .ctrs, .cores, .clusters, .mem, .granger, .streams, .net, .ports, .coll, .control, .step, .power, .traces, .out, .free] ⊆ fs := by first | assumption | (refine List.Subset.trans ?_ (by assumption); simp) | simp) :
    Keeps fs s0 (peerReceive a1 a2 a3) := by
  simp only [List.cons_subset, List.nil_subset, and_true] at hm
  simp (maxDischargeDepth := 60) +contextual only [peerReceive, h3, List.cons_subset, hm, List.nil_subset, and_self, returnCredit_keeps, logErr_keeps, addReg_keeps, transit_keeps, keeps_ite, engineTake_keeps]
theorem execPeerPacketReceive_keeps {fs : List Field} {s0 : State} {a1 : Fin 6} {a2 : PeerPacket} {a3 : State} (h3 : Keeps fs s0 a3) (hm : [.regs, .slots, .tasks, .ctrs, .cores, .clusters, .mem, .granger, .streams, .net, .ports, .coll, .control, .step, .power, .traces, .out, .free] ⊆ fs := by first | assumption | (refine List.Subset.trans ?_ (by assumption); simp) | simp) :
    KeepsO fs s0 (execPeerPacketReceive a1 a2 a3) := by
  simp only [List.cons_subset, List.nil_subset, and_true] at hm
  simp (maxDischargeDepth := 60) +contextual only [execPeerPacketReceive, h3, List.cons_subset, hm, List.nil_subset, and_self, peerReceive_keeps, keepsO_next]
theorem slottedReceive_keeps {fs : List Field} {s0 : State} {a1 : Nat} {a2 : PeerPacket} {a3 : State} (h3 : Keeps fs s0 a3) (hm : [.regs, .slots, .tasks, .ctrs, .cores, .clusters, .mem, .granger, .ports, .coll, .control, .step, .power, .traces, .out] ⊆ fs := by first | assumption | (refine List.Subset.trans ?_ (by assumption); simp) | simp) :
    Keeps fs s0 (slottedReceive a1 a2 a3) := by
  simp only [List.cons_subset, List.nil_subset, and_true] at hm
  simp (maxDischargeDepth := 60) +contextual only [slottedReceive, h3, List.cons_subset, hm, List.nil_subset, and_self, addReg_keeps, overrun_keeps, setPort_keeps, keeps_ite]
theorem execPeerSlottedReceive_keeps {fs : List Field} {s0 : State} {a1 : Fin 6} {a2 : PeerPacket} {a3 : State} (h3 : Keeps fs s0 a3) (hm : [.regs, .slots, .tasks, .ctrs, .cores, .clusters, .mem, .granger, .ports, .coll, .control, .step, .power, .traces, .out] ⊆ fs := by first | assumption | (refine List.Subset.trans ?_ (by assumption); simp) | simp) :
    KeepsO fs s0 (execPeerSlottedReceive a1 a2 a3) := by
  simp only [List.cons_subset, List.nil_subset, and_true] at hm
  simp (maxDischargeDepth := 60) +contextual only [execPeerSlottedReceive, h3, List.cons_subset, hm, List.nil_subset, and_self, slottedReceive_keeps, keepsO_next]
theorem startPut_keeps {fs : List Field} {s0 : State} {a1 : CollCmd} {a2 : State} (h2 : Keeps fs s0 a2) (hm : [.regs, .slots, .tasks, .ctrs, .cores, .clusters, .mem, .granger, .streams, .ports, .coll, .control, .step, .power, .traces, .out, .free] ⊆ fs := by first | assumption | (refine List.Subset.trans ?_ (by assumption); simp) | simp) :
    Keeps fs s0 (startPut a1 a2) := by
  unfold startPut
  split
  · exact endWith_keeps h2
  · extract_lets ps r d
    split
    · refine endWith_keeps (keeps_foldl_snd (fun t x h => ?_) h2)
      split
      · exact putHere_keeps h
      · exact h
    · exact keeps_foldl (fun _ _ h => sendOwn_keeps h) (setCmd_keeps h2)
theorem execPut_keeps {fs : List Field} {s0 : State} {a1 : Nat} {a2 : State} (h2 : Keeps fs s0 a2) (hm : [.regs, .slots, .tasks, .ctrs, .cores, .clusters, .mem, .granger, .streams, .ports, .coll, .control, .step, .power, .traces, .out, .free] ⊆ fs := by first | assumption | (refine List.Subset.trans ?_ (by assumption); simp) | simp) :
    KeepsO fs s0 (execPut a1 a2) := by
  simp only [List.cons_subset, List.nil_subset, and_true] at hm
  simp (maxDischargeDepth := 60) +contextual only [execPut, List.cons_subset, hm, List.nil_subset, and_self, startPut_keeps, implies_true, settleAck_keeps, h2, collRow_keeps, keepsO_next]
theorem putDest_keeps {fs : List Field} {s0 : State} {a1 : Nat} {a2 : Nat} {a3 : List Byte} {a4 : State} (h4 : Keeps fs s0 a4) (hm : [.regs, .cores, .mem, .granger, .net, .out, .free] ⊆ fs := by first | assumption | (refine List.Subset.trans ?_ (by assumption); simp) | simp) :
    Keeps fs s0 (putDest a1 a2 a3 a4) := by
  simp only [List.cons_subset, List.nil_subset, and_true] at hm
  simp (maxDischargeDepth := 60) +contextual only [putDest]
  repeat' (split <;> (try simp (maxDischargeDepth := 60) +contextual only [List.cons_subset, List.nil_subset, and_self, keeps_net, putFlits_keeps, h4, hm]))
  all_goals (first | done | assumption)
theorem takeSource_keeps {fs : List Field} {s0 : State} {a1 : Nat} {a2 : Nat} {a3 : State} (h3 : Keeps fs s0 a3) (hm : [.regs, .slots, .tasks, .ctrs, .cores, .clusters, .mem, .granger, .streams, .net, .coll, .control, .step, .power, .traces, .out] ⊆ fs := by first | assumption | (refine List.Subset.trans ?_ (by assumption); simp) | simp) :
    Keeps fs s0 (takeSource a1 a2 a3).2 := by
  simp only [List.cons_subset, List.nil_subset, and_true] at hm
  simp (maxDischargeDepth := 60) +contextual only [takeSource]
  repeat' (split <;> (try simp (maxDischargeDepth := 60) +contextual only [List.cons_subset, List.nil_subset, and_self, keeps_net, meetPoison_keeps, h3, hm]))
  all_goals (first | done | assumption)
theorem detourEntry_keeps {fs : List Field} {s0 : State} {a1 : State} {a2 : SlotEntry} (h1 : Keeps fs s0 a1) (hm : [.regs, .slots, .tasks, .ctrs, .cores, .clusters, .mem, .granger, .streams, .net, .coll, .control, .step, .power, .traces, .out, .free] ⊆ fs := by first | assumption | (refine List.Subset.trans ?_ (by assumption); simp) | simp) :
    Keeps fs s0 (detourEntry a1 a2) := by
  simp only [List.cons_subset, List.nil_subset, and_true] at hm
  simp (maxDischargeDepth := 60) +contextual only [detourEntry, h1, List.cons_subset, hm, List.nil_subset, and_self, takeSource_keeps, putDest_keeps, keeps_ite]
theorem ejectPort_keeps {fs : List Field} {s0 : State} {a1 : State} {a2 : Nat} (h1 : Keeps fs s0 a1) (hm : [.regs, .ports, .coll, .out] ⊆ fs := by first | assumption | (refine List.Subset.trans ?_ (by assumption); simp) | simp) :
    Keeps fs s0 (ejectPort a1 a2) := by
  simp only [List.cons_subset, List.nil_subset, and_true] at hm
  simp (maxDischargeDepth := 60) +contextual only [ejectPort, apply_ite Prod.snd, apply_ite Prod.fst, h1, List.cons_subset, hm, List.nil_subset, and_self, sendOwn_keeps, sendPeer_keeps, keeps_ite, implies_true, keeps_coll, keeps_foldl]
theorem ejectSignal_keeps {fs : List Field} {s0 : State} {a1 : Nat} {a2 : Nat} {a3 : State} (h3 : Keeps fs s0 a3) (hm : [.regs, .slots, .tasks, .ctrs, .cores, .clusters, .mem, .granger, .net, .coll, .control, .step, .power, .traces, .out] ⊆ fs := by first | assumption | (refine List.Subset.trans ?_ (by assumption); simp) | simp) :
    Keeps fs s0 (ejectSignal a1 a2 a3) := by
  simp only [List.cons_subset, List.nil_subset, and_true] at hm
  simp (maxDischargeDepth := 60) +contextual only [ejectSignal]
  repeat' (split <;> (try simp (maxDischargeDepth := 60) +contextual only [keeps_ite, List.cons_subset, List.nil_subset, and_self, keeps_net, signal_keeps, h3, hm]))
  all_goals (first | done | assumption)
theorem holdSteps_keeps {fs : List Field} {s0 : State} {a1 : Node} {a2 : Nat} {a3 : Nat} {a4 : State} (h4 : Keeps fs s0 a4) (hm : [.net] ⊆ fs := by first | assumption | (refine List.Subset.trans ?_ (by assumption); simp) | simp) :
    Keeps fs s0 (holdSteps a1 a2 a3 a4) := by
  simp only [List.cons_subset, List.nil_subset, and_true] at hm
  simp (maxDischargeDepth := 60) +contextual only [holdSteps, h4, List.cons_subset, hm, List.nil_subset, and_self, keeps_net]
theorem moveEntry_keeps {fs : List Field} {s0 : State} {a1 : List Nat} {a2 : List SlottedBuf × State} {a3 : SlotEntry} (h2 : Keeps fs s0 a2.2) (hm : [.regs, .slots, .tasks, .ctrs, .cores, .clusters, .mem, .granger, .streams, .net, .coll, .control, .step, .power, .traces, .out, .free] ⊆ fs := by first | assumption | (refine List.Subset.trans ?_ (by assumption); simp) | simp) :
    Keeps fs s0 (moveEntry a1 a2 a3).2 := by
  unfold moveEntry
  extract_lets next s
  have h : Keeps fs s0 s := h2
  clear_value s next
  split
  · exact h
  · have k : Keeps fs s0 (if a3.inPort = 0 then
        if engineNode s a3.node then ([], s) else takeSource a3.stream (flitsLeft s a3.stream a3.count) s
      else match bufferAt s.net.buffers a3.node a3.inPort a3.stream with
        | some b =>
          (b.data.take (flitBytes * a3.count),
            { s with net := { s.net with buffers := s.net.buffers.map (fun c => if c = b then { b with data := b.data.drop (flitBytes * a3.count) } else c) } })
        | none => (([] : List Byte), s)).2 := by
      split
      · split
        · exact h
        · exact takeSource_keeps h
      · split
        · exact keeps_net h
        · exact h
    generalize (if a3.inPort = 0 then _ else _ : List Byte × State) = p at k ⊢
    obtain ⟨v, t⟩ := p
    dsimp only at k ⊢
    have j : Keeps fs s0 (if v.length / flitBytes = 0 then t else holdSteps a3.node a3.outPort (v.length / flitBytes) t) := keeps_ite k (holdSteps_keeps k)
    generalize (if v.length / flitBytes = 0 then t else holdSteps a3.node a3.outPort (v.length / flitBytes) t) = u at j ⊢
    split
    · exact j
    split
    · split
      · exact overrun_keeps j
      · exact keeps_ite (countFlits_keeps j) (putDest_keeps (countFlits_keeps j))
    split
    · exact j
    · have i := countBridge_keeps (a1 := a3.node) (a2 := a3.outPort) (a3 := v.length / flitBytes) (countFlits_keeps (a1 := a3.node) (a2 := 1) (a3 := v.length / flitBytes) j)
      split
      · exact i
      split
      · exact overrun_keeps i
      · exact i
theorem injectPeer_keeps {fs : List Field} {s0 : State} {a1 : State} {a2 : PeerPacket} (h1 : Keeps fs s0 a1) (hm : [.regs, .slots, .tasks, .ctrs, .cores, .clusters, .mem, .granger, .coll, .control, .step, .power, .traces, .out] ⊆ fs := by first | assumption | (refine List.Subset.trans ?_ (by assumption); simp) | simp) :
    Keeps fs s0 (injectPeer a1 a2) := by
  simp only [List.cons_subset, List.nil_subset, and_true] at hm
  simp (maxDischargeDepth := 60) +contextual only [injectPeer]
  repeat' (split <;> (try simp (maxDischargeDepth := 60) +contextual only [keeps_ite, List.cons_subset, List.nil_subset, and_self, keeps_coll, takeContribution_keeps, addReg_keeps, h1, hm]))
  all_goals (first | done | assumption)
theorem injectPort_keeps {fs : List Field} {s0 : State} {a1 : State} {a2 : Nat} (h1 : Keeps fs s0 a1) (hm : [.regs, .slots, .tasks, .ctrs, .cores, .clusters, .mem, .granger, .ports, .coll, .control, .step, .power, .traces, .out] ⊆ fs := by first | assumption | (refine List.Subset.trans ?_ (by assumption); simp) | simp) :
    Keeps fs s0 (injectPort a1 a2) := by
  simp only [List.cons_subset, List.nil_subset, and_true] at hm
  simp (maxDischargeDepth := 60) +contextual only [injectPort, List.cons_subset, hm, List.nil_subset, and_self, injectPeer_keeps, implies_true, h1, setPort_keeps, keeps_foldl, overrun_keeps, keeps_ite]
theorem slotBoundary_keeps {fs : List Field} {s0 : State} {a1 : List Nat} {a2 : State} (h2 : Keeps fs s0 a2) (hm : [.regs, .slots, .tasks, .ctrs, .cores, .clusters, .mem, .granger, .streams, .net, .ports, .coll, .control, .step, .power, .traces, .out, .free] ⊆ fs := by first | assumption | (refine List.Subset.trans ?_ (by assumption); simp) | simp) :
    Keeps fs s0 (slotBoundary a1 a2) := by
  unfold slotBoundary
  split
  · exact h2
  · extract_lets n0 s1 es s2 s3 s4 r s5 left
    have h4 : Keeps fs s0 s4 := keeps_foldl (fun _ _ h => detourEntry_keeps h) (keeps_foldl (fun _ _ h => ejectPort_keeps h)
      (keeps_foldl (fun _ _ h => injectPort_keeps h) (keeps_net h2)))
    clear_value s4
    have h5 : Keeps fs s0 s5 := keeps_foldl_snd (fun _ _ h => moveEntry_keeps h) h4
    exact keeps_net h5
theorem execBeaconSlotBoundary_keeps {fs : List Field} {s0 : State} {a1 : List (Fin 320)} {a2 : State} (h2 : Keeps fs s0 a2) (hm : [.regs, .slots, .tasks, .ctrs, .cores, .clusters, .mem, .granger, .streams, .net, .ports, .coll, .control, .step, .power, .traces, .out, .free] ⊆ fs := by first | assumption | (refine List.Subset.trans ?_ (by assumption); simp) | simp) :
    KeepsO fs s0 (execBeaconSlotBoundary a1 a2) := by
  simp only [List.cons_subset, List.nil_subset, and_true] at hm
  simp (maxDischargeDepth := 60) +contextual only [execBeaconSlotBoundary, h2, List.cons_subset, hm, List.nil_subset, and_self, slotBoundary_keeps, keepsO_next]
theorem execStreamEjectSignal_keeps {fs : List Field} {s0 : State} {a1 : Fin 320} {a2 : Fin 4096} {a3 : State} (h3 : Keeps fs s0 a3) (hm : [.regs, .slots, .tasks, .ctrs, .cores, .clusters, .mem, .granger, .net, .coll, .control, .step, .power, .traces, .out] ⊆ fs := by first | assumption | (refine List.Subset.trans ?_ (by assumption); simp) | simp) :
    KeepsO fs s0 (execStreamEjectSignal a1 a2 a3) := by
  simp only [List.cons_subset, List.nil_subset, and_true] at hm
  simp (maxDischargeDepth := 60) +contextual only [execStreamEjectSignal, h3, List.cons_subset, hm, List.nil_subset, and_self, ejectSignal_keeps, keepsO_next, keepsO_refused, keepsO_ite]
theorem resetBank_keeps {fs : List Field} {s0 : State} {a1 : PageRef} {a2 : State} (h2 : Keeps fs s0 a2) (hm : [.regs] ⊆ fs := by first | assumption | (refine List.Subset.trans ?_ (by assumption); simp) | simp) :
    Keeps fs s0 (resetBank a1 a2) := by
  simp only [List.cons_subset, List.nil_subset, and_true] at hm
  simp (maxDischargeDepth := 60) +contextual only [resetBank, List.cons_subset, hm, List.nil_subset, and_self, wr_keeps, setFld_keeps, implies_true, h2, keeps_foldl]
theorem autoReset_keeps {fs : List Field} {s0 : State} {a1 : Bool} {a2 : State} (h2 : Keeps fs s0 a2) (hm : [.regs] ⊆ fs := by first | assumption | (refine List.Subset.trans ?_ (by assumption); simp) | simp) :
    Keeps fs s0 (autoReset a1 a2) := by
  simp only [List.cons_subset, List.nil_subset, and_true] at hm
  simp (maxDischargeDepth := 60) +contextual only [autoReset, List.cons_subset, hm, List.nil_subset, and_self, resetBank_keeps, keeps_ite, implies_true, h2, keeps_foldl]
theorem onBank_keeps {fs : List Field} {s0 : State} {a1 : PageRef} {a2 : Nat} {a3 : (State → State)} {a4 : State} (h3 : ∀ y0, Keeps fs s0 y0 → Keeps fs s0 (a3 y0)) (h4 : Keeps fs s0 a4) (hm : [.regs, .out] ⊆ fs := by first | assumption | (refine List.Subset.trans ?_ (by assumption); simp) | simp) :
    Keeps fs s0 (onBank a1 a2 a3 a4) := by
  simp only [List.cons_subset, List.nil_subset, and_true] at hm
  simp (maxDischargeDepth := 60) +contextual only [onBank, h4, List.cons_subset, hm, List.nil_subset, and_self, logErr_keeps, h3, keeps_ite]
theorem bankResetStore_keeps {fs : List Field} {s0 : State} {a1 : PageRef} {a2 : Word} {a3 : State} (h3 : Keeps fs s0 a3) (hm : [.regs, .out] ⊆ fs := by first | assumption | (refine List.Subset.trans ?_ (by assumption); simp) | simp) :
    Keeps fs s0 (bankResetStore a1 a2 a3) := by
  simp only [List.cons_subset, List.nil_subset, and_true] at hm
  simp (maxDischargeDepth := 60) +contextual only [bankResetStore, List.cons_subset, hm, List.nil_subset, and_self, reservedWrite_keeps, resetBank_keeps, keeps_ite, implies_true, h3, onBank_keeps]
theorem execCounterBankReset_keeps {fs : List Field} {s0 : State} {a1 : PageRef} {a2 : Word} {a3 : State} (h3 : Keeps fs s0 a3) (hm : [.regs, .out] ⊆ fs := by first | assumption | (refine List.Subset.trans ?_ (by assumption); simp) | simp) :
    KeepsO fs s0 (execCounterBankReset a1 a2 a3) := by
  simp only [List.cons_subset, List.nil_subset, and_true] at hm
  simp (maxDischargeDepth := 60) +contextual only [execCounterBankReset, h3, List.cons_subset, hm, List.nil_subset, and_self, bankResetStore_keeps, implies_true, atPage_keeps]
theorem sampleStore_keeps {fs : List Field} {s0 : State} {a1 : PageRef} {a2 : Word} {a3 : State} (h3 : Keeps fs s0 a3) (hm : [.regs, .out] ⊆ fs := by first | assumption | (refine List.Subset.trans ?_ (by assumption); simp) | simp) :
    Keeps fs s0 (sampleStore a1 a2 a3) := by
  simp only [List.cons_subset, List.nil_subset, and_true] at hm
  simp (maxDischargeDepth := 60) +contextual only [sampleStore, List.cons_subset, hm, List.nil_subset, and_self, reservedWrite_keeps, wr_keeps, implies_true, h3, onBank_keeps]
theorem execSampleSelWrite_keeps {fs : List Field} {s0 : State} {a1 : PageRef} {a2 : Word} {a3 : State} (h3 : Keeps fs s0 a3) (hm : [.regs, .out] ⊆ fs := by first | assumption | (refine List.Subset.trans ?_ (by assumption); simp) | simp) :
    KeepsO fs s0 (execSampleSelWrite a1 a2 a3) := by
  simp only [List.cons_subset, List.nil_subset, and_true] at hm
  simp (maxDischargeDepth := 60) +contextual only [execSampleSelWrite, h3, List.cons_subset, hm, List.nil_subset, and_self, sampleStore_keeps, implies_true, atPage_keeps]
theorem snapStore_keeps {fs : List Field} {s0 : State} {a1 : PageRef} {a2 : Word} {a3 : State} (h3 : Keeps fs s0 a3) (hm : [.regs, .snaps, .out] ⊆ fs := by first | assumption | (refine List.Subset.trans ?_ (by assumption); simp) | simp) :
    Keeps fs s0 (snapStore a1 a2 a3) := by
  simp only [List.cons_subset, List.nil_subset, and_true] at hm
  simp (maxDischargeDepth := 60) +contextual only [snapStore, List.cons_subset, hm, List.nil_subset, and_self, reservedWrite_keeps, logErr_keeps, wr_keeps, keeps_snaps, keeps_ite, implies_true, h3, onBank_keeps]
theorem execSnap_keeps {fs : List Field} {s0 : State} {a1 : PageRef} {a2 : Word} {a3 : State} (h3 : Keeps fs s0 a3) (hm : [.regs, .snaps, .out] ⊆ fs := by first | assumption | (refine List.Subset.trans ?_ (by assumption); simp) | simp) :
    KeepsO fs s0 (execSnap a1 a2 a3) := by
  simp only [List.cons_subset, List.nil_subset, and_true] at hm
  simp (maxDischargeDepth := 60) +contextual only [execSnap, h3, List.cons_subset, hm, List.nil_subset, and_self, snapStore_keeps, implies_true, atPage_keeps]
theorem snapDone_keeps {fs : List Field} {s0 : State} {a1 : PageRef} {a2 : State} (h2 : Keeps fs s0 a2) (hm : [.regs, .cores, .mem, .granger, .snaps, .out, .free] ⊆ fs := by first | assumption | (refine List.Subset.trans ?_ (by assumption); simp) | simp) :
    Keeps fs s0 (snapDone a1 a2) := by
  simp only [List.cons_subset, List.nil_subset, and_true] at hm
  simp (maxDischargeDepth := 60) +contextual only [snapDone]
  repeat' (split <;> (try simp (maxDischargeDepth := 60) +contextual only [List.cons_subset, List.nil_subset, and_self, keeps_snaps, setFld_keeps, storeHome_keeps, h2, hm]))
  all_goals (first | done | assumption)
theorem execSnapDone_keeps {fs : List Field} {s0 : State} {a1 : PageRef} {a2 : State} (h2 : Keeps fs s0 a2) (hm : [.regs, .cores, .mem, .granger, .snaps, .out, .free] ⊆ fs := by first | assumption | (refine List.Subset.trans ?_ (by assumption); simp) | simp) :
    KeepsO fs s0 (execSnapDone a1 a2) := by
  simp only [List.cons_subset, List.nil_subset, and_true] at hm
  simp (maxDischargeDepth := 60) +contextual only [execSnapDone, h2, List.cons_subset, hm, List.nil_subset, and_self, snapDone_keeps, implies_true, atPage_keeps]
theorem fullTimes_keeps {fs : List Field} {s0 : State} {a1 : State} (h1 : Keeps fs s0 a1) (hm : [.regs, .traces] ⊆ fs := by first | assumption | (refine List.Subset.trans ?_ (by assumption); simp) | simp) :
    Keeps fs s0 (fullTimes a1) := by
  simp only [List.cons_subset, List.nil_subset, and_true] at hm
  simp (maxDischargeDepth := 60) +contextual only [fullTimes, List.cons_subset, hm, List.nil_subset, and_self, tracePush_keeps, keeps_ite, implies_true, h1, keeps_foldl]
theorem traceCtrlStore_keeps {fs : List Field} {s0 : State} {a1 : Word} {a2 : State} (h2 : Keeps fs s0 a2) (hm : [.regs, .traces, .out] ⊆ fs := by first | assumption | (refine List.Subset.trans ?_ (by assumption); simp) | simp) :
    Keeps fs s0 (traceCtrlStore a1 a2) := by
  simp only [List.cons_subset, List.nil_subset, and_true] at hm
  simp (maxDischargeDepth := 60) +contextual only [traceCtrlStore, h2, List.cons_subset, hm, List.nil_subset, and_self, reservedWrite_keeps, logErr_keeps, wr_keeps, fullTimes_keeps, keeps_ite]
theorem execTraceCtrlWrite_keeps {fs : List Field} {s0 : State} {a1 : Word} {a2 : State} (h2 : Keeps fs s0 a2) (hm : [.regs, .traces, .out] ⊆ fs := by first | assumption | (refine List.Subset.trans ?_ (by assumption); simp) | simp) :
    KeepsO fs s0 (execTraceCtrlWrite a1 a2) := by
  simp only [List.cons_subset, List.nil_subset, and_true] at hm
  simp (maxDischargeDepth := 60) +contextual only [execTraceCtrlWrite, h2, List.cons_subset, hm, List.nil_subset, and_self, traceCtrlStore_keeps, keepsO_next]
theorem fifoWrite_keeps {fs : List Field} {s0 : State} {a1 : Nat} {a2 : State} (h2 : Keeps fs s0 a2) (hm : [.regs, .cores, .mem, .granger, .traces, .out, .free] ⊆ fs := by first | assumption | (refine List.Subset.trans ?_ (by assumption); simp) | simp) :
    Keeps fs s0 (fifoWrite a1 a2) := by
  simp only [List.cons_subset, List.nil_subset, and_true] at hm
  simp (maxDischargeDepth := 60) +contextual only [fifoWrite]
  repeat' (split <;> (try simp (maxDischargeDepth := 60) +contextual only [keeps_ite, List.cons_subset, List.nil_subset, and_self, storeHome_keeps, addReg_keeps, setFld_keeps, traceLose_keeps, setTrace_keeps, traceHigh_keeps, h2, hm]))
  all_goals (first | done | assumption)
theorem execTraceFifoWrite_keeps {fs : List Field} {s0 : State} {a1 : Fin 9} {a2 : State} (h2 : Keeps fs s0 a2) (hm : [.regs, .cores, .mem, .granger, .traces, .out, .free] ⊆ fs := by first | assumption | (refine List.Subset.trans ?_ (by assumption); simp) | simp) :
    KeepsO fs s0 (execTraceFifoWrite a1 a2) := by
  simp only [List.cons_subset, List.nil_subset, and_true] at hm
  simp (maxDischargeDepth := 60) +contextual only [execTraceFifoWrite, h2, List.cons_subset, hm, List.nil_subset, and_self, fifoWrite_keeps, keepsO_next, keepsO_refused, keepsO_ite]
theorem fullTimeTick_keeps {fs : List Field} {s0 : State} {a1 : State} (h1 : Keeps fs s0 a1) (hm : [.regs, .traces] ⊆ fs := by first | assumption | (refine List.Subset.trans ?_ (by assumption); simp) | simp) :
    Keeps fs s0 (fullTimeTick a1) := by
  simp only [List.cons_subset, List.nil_subset, and_true] at hm
  simp (maxDischargeDepth := 60) +contextual only [fullTimeTick, h1, List.cons_subset, hm, List.nil_subset, and_self, setTrace_keeps, tracePush_keeps, keeps_ite, implies_true, keeps_foldl]
theorem execTraceFullTimeTick_keeps {fs : List Field} {s0 : State} {a1 : State} (h1 : Keeps fs s0 a1) (hm : [.regs, .traces] ⊆ fs := by first | assumption | (refine List.Subset.trans ?_ (by assumption); simp) | simp) :
    KeepsO fs s0 (execTraceFullTimeTick a1) := by
  simp only [List.cons_subset, List.nil_subset, and_true] at hm
  simp (maxDischargeDepth := 60) +contextual only [execTraceFullTimeTick, h1, List.cons_subset, hm, List.nil_subset, and_self, fullTimeTick_keeps, keepsO_next]
theorem markStore_keeps {fs : List Field} {s0 : State} {a1 : Requester} {a2 : Word} {a3 : State} (h3 : Keeps fs s0 a3) (hm : [.regs, .traces, .out] ⊆ fs := by first | assumption | (refine List.Subset.trans ?_ (by assumption); simp) | simp) :
    Keeps fs s0 (markStore a1 a2 a3) := by
  simp only [List.cons_subset, List.nil_subset, and_true] at hm
  simp (maxDischargeDepth := 60) +contextual only [markStore, h3, List.cons_subset, hm, List.nil_subset, and_self, logErr_keeps, trace_keeps, keeps_ite]
theorem execTraceMark_keeps {fs : List Field} {s0 : State} {a1 : Requester} {a2 : Word} {a3 : State} (h3 : Keeps fs s0 a3) (hm : [.regs, .traces, .out] ⊆ fs := by first | assumption | (refine List.Subset.trans ?_ (by assumption); simp) | simp) :
    KeepsO fs s0 (execTraceMark a1 a2 a3) := by
  simp only [List.cons_subset, List.nil_subset, and_true] at hm
  simp (maxDischargeDepth := 60) +contextual only [execTraceMark, h3, List.cons_subset, hm, List.nil_subset, and_self, markStore_keeps, implies_true, byReq_keeps]
theorem sampleBank_keeps {fs : List Field} {s0 : State} {a1 : PageRef} {a2 : Nat} {a3 : State} (h3 : Keeps fs s0 a3) (hm : [.regs, .traces] ⊆ fs := by first | assumption | (refine List.Subset.trans ?_ (by assumption); simp) | simp) :
    Keeps fs s0 (sampleBank a1 a2 a3) := by
  simp only [List.cons_subset, List.nil_subset, and_true] at hm
  simp (maxDischargeDepth := 60) +contextual only [sampleBank, List.cons_subset, hm, List.nil_subset, and_self, trace_keeps, keeps_ite, implies_true, h3, keeps_foldl]
theorem sampleTick_keeps {fs : List Field} {s0 : State} {a1 : State} (h1 : Keeps fs s0 a1) (hm : [.regs, .traces] ⊆ fs := by first | assumption | (refine List.Subset.trans ?_ (by assumption); simp) | simp) :
    Keeps fs s0 (sampleTick a1) := by
  simp only [List.cons_subset, List.nil_subset, and_true] at hm
  simp (maxDischargeDepth := 60) +contextual only [sampleTick, h1, List.cons_subset, hm, List.nil_subset, and_self, sampleBank_keeps, implies_true, setTrace_keeps, keeps_foldl, keeps_ite]
theorem execTraceSampleTick_keeps {fs : List Field} {s0 : State} {a1 : State} (h1 : Keeps fs s0 a1) (hm : [.regs, .traces] ⊆ fs := by first | assumption | (refine List.Subset.trans ?_ (by assumption); simp) | simp) :
    KeepsO fs s0 (execTraceSampleTick a1) := by
  simp only [List.cons_subset, List.nil_subset, and_true] at hm
  simp (maxDischargeDepth := 60) +contextual only [execTraceSampleTick, h1, List.cons_subset, hm, List.nil_subset, and_self, sampleTick_keeps, keepsO_next]
theorem tileMarkStore_keeps {fs : List Field} {s0 : State} {a1 : Requester} {a2 : Fin 8} {a3 : Word} {a4 : State} (h4 : Keeps fs s0 a4) (hm : [.regs, .traces, .out] ⊆ fs := by first | assumption | (refine List.Subset.trans ?_ (by assumption); simp) | simp) :
    Keeps fs s0 (tileMarkStore a1 a2 a3 a4) := by
  simp only [List.cons_subset, List.nil_subset, and_true] at hm
  simp (maxDischargeDepth := 60) +contextual only [tileMarkStore, h4, List.cons_subset, hm, List.nil_subset, and_self, logErr_keeps, trace_keeps, keeps_ite]
theorem execTtraceMark_keeps {fs : List Field} {s0 : State} {a1 : Requester} {a2 : Fin 8} {a3 : Word} {a4 : State} (h4 : Keeps fs s0 a4) (hm : [.regs, .traces, .out] ⊆ fs := by first | assumption | (refine List.Subset.trans ?_ (by assumption); simp) | simp) :
    KeepsO fs s0 (execTtraceMark a1 a2 a3 a4) := by
  simp only [List.cons_subset, List.nil_subset, and_true] at hm
  simp (maxDischargeDepth := 60) +contextual only [execTtraceMark, h4, List.cons_subset, hm, List.nil_subset, and_self, tileMarkStore_keeps, implies_true, byAt_keeps]
theorem readTtraceStat_keeps {fs : List Field} {s0 : State} {a1 : Fin 8} {a2 : State} (h2 : Keeps fs s0 a2) (hm : [.regs, .out] ⊆ fs := by first | assumption | (refine List.Subset.trans ?_ (by assumption); simp) | simp) :
    Keeps fs s0 (readTtraceStat a1 a2) := by
  simp only [List.cons_subset, List.nil_subset, and_true] at hm
  simp (maxDischargeDepth := 60) +contextual only [readTtraceStat, h2, List.cons_subset, hm, List.nil_subset, and_self, setFld_keeps, reply_keeps]
theorem execTtraceStatRead_keeps {fs : List Field} {s0 : State} {a1 : Fin 8} {a2 : State} (h2 : Keeps fs s0 a2) (hm : [.regs, .out] ⊆ fs := by first | assumption | (refine List.Subset.trans ?_ (by assumption); simp) | simp) :
    KeepsO fs s0 (execTtraceStatRead a1 a2) := by
  simp only [List.cons_subset, List.nil_subset, and_true] at hm
  simp (maxDischargeDepth := 60) +contextual only [execTtraceStatRead, h2, List.cons_subset, hm, List.nil_subset, and_self, readTtraceStat_keeps, implies_true, atTile_keeps]

end Sys2Proof.Laws
end

