-- ==== Sys2Proof/Laws/KeepsLaunch.lean ====
section
/-! SUPPORT. What the operations keep (see Laws/Keeps.lean): launches, recovery, host traffic, register resets. -/

namespace Sys2Proof.Laws

set_option Elab.async false

open Sys2Proof.Machine Sys2Proof.Safety

theorem endMove_keeps {fs : List Field} {s0 : State} {a1 : State} {a2 : Nat} (h1 : Keeps fs s0 a1) (hm : [.regs, .mem, .streams] ⊆ fs := by first | assumption | (refine List.Subset.trans ?_ (by assumption); simp) | simp) :
    Keeps fs s0 (endMove a1 a2) := by
  simp only [List.cons_subset, List.nil_subset, and_true] at hm
  simp (maxDischargeDepth := 60) +contextual only [endMove, h1, List.cons_subset, hm, List.nil_subset, and_self, dropCopyCmds_keeps, keeps_memrest]
theorem serveHeld_keeps {fs : List Field} {s0 : State} {a1 : State} {a2 : HeldAccess} (h1 : Keeps fs s0 a1) (hm : [.regs, .slots, .tasks, .ctrs, .cores, .clusters, .mem, .granger, .streams, .ports, .coll, .control, .step, .power, .traces, .out, .free] ⊆ fs := by first | assumption | (refine List.Subset.trans ?_ (by assumption); simp) | simp) :
    Keeps fs s0 (serveHeld a1 a2) := by
  simp only [List.cons_subset, List.nil_subset, and_true] at hm
  simp (maxDischargeDepth := 60) +contextual only [serveHeld]
  repeat' (split <;> (try simp (maxDischargeDepth := 60) +contextual only [keeps_ite, List.cons_subset, List.nil_subset, and_self, keeps_out, serveRead_keeps, holdAccess_keeps, putFlits_keeps, engineTake_keeps, cxlWrite_keeps, h1, hm]))
  all_goals (first | done | assumption)
theorem releaseHeld_keeps {fs : List Field} {s0 : State} {a1 : State} (h1 : Keeps fs s0 a1) (hm : [.regs, .slots, .tasks, .ctrs, .cores, .clusters, .mem, .granger, .streams, .ports, .coll, .control, .step, .power, .traces, .out, .free] ⊆ fs := by first | assumption | (refine List.Subset.trans ?_ (by assumption); simp) | simp) :
    Keeps fs s0 (releaseHeld a1) := by
  simp only [List.cons_subset, List.nil_subset, and_true] at hm
  simp (maxDischargeDepth := 60) +contextual only [releaseHeld, h1, List.cons_subset, hm, List.nil_subset, and_self, serveHeld_keeps, implies_true, keeps_memrest_out, keeps_foldl, keeps_ite]
theorem biTimeout_keeps {fs : List Field} {s0 : State} {a1 : Nat} {a2 : State} (h2 : Keeps fs s0 a2) (hm : [.regs, .slots, .tasks, .ctrs, .cores, .clusters, .mem, .granger, .streams, .ports, .coll, .control, .step, .power, .traces, .out, .free] ⊆ fs := by first | assumption | (refine List.Subset.trans ?_ (by assumption); simp) | simp) :
    Keeps fs s0 (biTimeout a1 a2) := by
  simp only [List.cons_subset, List.nil_subset, and_true] at hm
  simp (maxDischargeDepth := 60) +contextual only [biTimeout]
  repeat' (split <;> (try simp (maxDischargeDepth := 60) +contextual only [keeps_ite, List.cons_subset, List.nil_subset, and_self, endMove_keeps, event_keeps, releaseHeld_keeps, h2, hm]))
  all_goals (first | done | assumption)
theorem setMove_keeps {fs : List Field} {s0 : State} {a1 : State} {a2 : Move} (h1 : Keeps fs s0 a1) (hm : [.mem] ⊆ fs := by first | assumption | (refine List.Subset.trans ?_ (by assumption); simp) | simp) :
    Keeps fs s0 (setMove a1 a2) := by
  simp only [List.cons_subset, List.nil_subset, and_true] at hm
  simp (maxDischargeDepth := 60) +contextual only [setMove, h1, List.cons_subset, hm, List.nil_subset, and_self, keeps_memrest]
theorem endEvacuating_keeps {fs : List Field} {s0 : State} {a1 : Bushel} {a2 : State} (h2 : Keeps fs s0 a2) (hm : [.regs] ⊆ fs := by first | assumption | (refine List.Subset.trans ?_ (by assumption); simp) | simp) :
    Keeps fs s0 (endEvacuating a1 a2) := by
  simp only [List.cons_subset, List.nil_subset, and_true] at hm
  simp (maxDischargeDepth := 60) +contextual only [endEvacuating, h2, List.cons_subset, hm, List.nil_subset, and_self, setFld_keeps, keeps_ite]
theorem relabelCopy_keeps {fs : List Field} {s0 : State} {a1 : Nat} {a2 : Move} {a3 : Nat} {a4 : State} (h4 : Keeps fs s0 a4) (hm : [.mem] ⊆ fs := by first | assumption | (refine List.Subset.trans ?_ (by assumption); simp) | simp) :
    Keeps fs s0 (relabelCopy a1 a2 a3 a4) := by
  simp only [List.cons_subset, List.nil_subset, and_true] at hm
  simp (maxDischargeDepth := 60) +contextual only [relabelCopy, h4, List.cons_subset, hm, List.nil_subset, and_self, keeps_memrest]
theorem finishSwitch_keeps {fs : List Field} {s0 : State} {a1 : Move} {a2 : State} (h2 : Keeps fs s0 a2) (hm : [.regs, .slots, .tasks, .ctrs, .cores, .clusters, .mem, .granger, .streams, .ports, .coll, .control, .step, .power, .traces, .out, .free] ⊆ fs := by first | assumption | (refine List.Subset.trans ?_ (by assumption); simp) | simp) :
    Keeps fs s0 (finishSwitch a1 a2) := by
  simp only [List.cons_subset, List.nil_subset, and_true] at hm
  simp (maxDischargeDepth := 60) +contextual only [finishSwitch]
  repeat' (split <;> (try simp (maxDischargeDepth := 60) +contextual only [List.cons_subset, List.nil_subset, and_self, releaseHeld_keeps, pinMoves_keeps, endEvacuating_keeps, homeTraffic_keeps, switchHome_keeps, relabelCopy_keeps, endMove_keeps, h2, hm]))
  all_goals (first | done | assumption)
theorem bisnpResponse_keeps {fs : List Field} {s0 : State} {a1 : Nat} {a2 : Nat} {a3 : Option (List Byte)} {a4 : State} (h4 : Keeps fs s0 a4) (hm : [.regs, .slots, .tasks, .ctrs, .cores, .clusters, .mem, .granger, .streams, .ports, .coll, .control, .step, .power, .traces, .out, .free] ⊆ fs := by first | assumption | (refine List.Subset.trans ?_ (by assumption); simp) | simp) :
    Keeps fs s0 (bisnpResponse a1 a2 a3 a4) := by
  simp only [List.cons_subset, List.nil_subset, and_true] at hm
  simp (maxDischargeDepth := 60) +contextual only [bisnpResponse]
  repeat' (split <;> (try simp (maxDischargeDepth := 60) +contextual only [keeps_ite, List.cons_subset, List.nil_subset, and_self, setMove_keeps, finishSwitch_keeps, setSnoop_keeps, storeHome_keeps, h4, hm]))
  all_goals (first | done | assumption)
theorem copyReads_keeps {fs : List Field} {s0 : State} {a1 : Move} {a2 : State} (h2 : Keeps fs s0 a2) (hm : [.regs, .slots, .tasks, .ctrs, .cores, .clusters, .mem, .granger, .streams, .coll, .control, .step, .power, .traces, .out, .free] ⊆ fs := by first | assumption | (refine List.Subset.trans ?_ (by assumption); simp) | simp) :
    Keeps fs s0 (copyReads a1 a2) := by
  simp only [List.cons_subset, List.nil_subset, and_true] at hm
  simp (maxDischargeDepth := 60) +contextual only [copyReads, List.cons_subset, hm, List.nil_subset, and_self, countPoison_keeps, implies_true, h2, homeTraffic_keeps, keeps_foldl]
theorem execBiTimeout_keeps {fs : List Field} {s0 : State} {a1 : BitVec 27} {a2 : State} (h2 : Keeps fs s0 a2) (hm : [.regs, .slots, .tasks, .ctrs, .cores, .clusters, .mem, .granger, .streams, .ports, .coll, .control, .step, .power, .traces, .out, .free] ⊆ fs := by first | assumption | (refine List.Subset.trans ?_ (by assumption); simp) | simp) :
    KeepsO fs s0 (execBiTimeout a1 a2) := by
  simp only [List.cons_subset, List.nil_subset, and_true] at hm
  simp (maxDischargeDepth := 60) +contextual only [execBiTimeout, h2, List.cons_subset, hm, List.nil_subset, and_self, biTimeout_keeps, keepsO_next]
theorem execBisnpResponse_keeps {fs : List Field} {s0 : State} {a1 : BitVec 27} {a2 : Fin 32768} {a3 : Option (List Byte)} {a4 : State} (h4 : Keeps fs s0 a4) (hm : [.regs, .slots, .tasks, .ctrs, .cores, .clusters, .mem, .granger, .streams, .ports, .coll, .control, .step, .power, .traces, .out, .free] ⊆ fs := by first | assumption | (refine List.Subset.trans ?_ (by assumption); simp) | simp) :
    KeepsO fs s0 (execBisnpResponse a1 a2 a3 a4) := by
  simp only [List.cons_subset, List.nil_subset, and_true] at hm
  simp (maxDischargeDepth := 60) +contextual only [execBisnpResponse, h4, List.cons_subset, hm, List.nil_subset, and_self, bisnpResponse_keeps, keepsO_next]
theorem migrationSwitch_keeps {fs : List Field} {s0 : State} {a1 : Nat} {a2 : State} (h2 : Keeps fs s0 a2) (hm : [.regs, .slots, .tasks, .ctrs, .cores, .clusters, .mem, .granger, .streams, .ports, .coll, .control, .step, .power, .traces, .out, .free] ⊆ fs := by first | assumption | (refine List.Subset.trans ?_ (by assumption); simp) | simp) :
    Keeps fs s0 (migrationSwitch a1 a2) := by
  simp only [List.cons_subset, List.nil_subset, and_true] at hm
  simp (maxDischargeDepth := 60) +contextual only [migrationSwitch]
  repeat' (split <;> (try simp (maxDischargeDepth := 60) +contextual only [keeps_ite, List.cons_subset, List.nil_subset, and_self, setMove_keeps, event_keeps, finishSwitch_keeps, copyReads_keeps, dropCopyCmds_keeps, h2, hm]))
  all_goals (first | done | assumption)
theorem execMigrationSwitch_keeps {fs : List Field} {s0 : State} {a1 : BitVec 27} {a2 : State} (h2 : Keeps fs s0 a2) (hm : [.regs, .slots, .tasks, .ctrs, .cores, .clusters, .mem, .granger, .streams, .ports, .coll, .control, .step, .power, .traces, .out, .free] ⊆ fs := by first | assumption | (refine List.Subset.trans ?_ (by assumption); simp) | simp) :
    KeepsO fs s0 (execMigrationSwitch a1 a2) := by
  simp only [List.cons_subset, List.nil_subset, and_true] at hm
  simp (maxDischargeDepth := 60) +contextual only [execMigrationSwitch, h2, List.cons_subset, hm, List.nil_subset, and_self, migrationSwitch_keeps, keepsO_next]
theorem abandonMoves_keeps {fs : List Field} {s0 : State} {a1 : State} (h1 : Keeps fs s0 a1) (hm : [.regs, .slots, .tasks, .ctrs, .cores, .clusters, .mem, .granger, .streams, .ports, .coll, .control, .step, .power, .traces, .out, .free] ⊆ fs := by first | assumption | (refine List.Subset.trans ?_ (by assumption); simp) | simp) :
    Keeps fs s0 (abandonMoves a1) := by
  simp only [List.cons_subset, List.nil_subset, and_true] at hm
  simp (maxDischargeDepth := 60) +contextual only [abandonMoves, h1, List.cons_subset, hm, List.nil_subset, and_self, dropCopyCmds_keeps, keeps_memrest_granger, releaseHeld_keeps]
theorem launchTasks_keeps {fs : List Field} {s0 : State} {a1 : State} {a2 : Nat} {a3 : Option Nat} (h1 : Keeps fs s0 a1) (hm : [.tasks] ⊆ fs := by first | assumption | (refine List.Subset.trans ?_ (by assumption); simp) | simp) :
    Keeps fs s0 (launchTasks a1 a2 a3) := by
  simp only [List.cons_subset, List.nil_subset, and_true] at hm
  simp (maxDischargeDepth := 60) +contextual only [launchTasks, h1, List.cons_subset, hm, List.nil_subset, and_self, keeps_tasks]
theorem launchPlain_keeps {fs : List Field} {s0 : State} {a1 : Nat} {a2 : State} (h2 : Keeps fs s0 a2) (hm : [.regs, .slots, .tasks, .ctrs, .cores, .clusters, .mem, .granger, .coll, .control, .step, .power, .traces, .out] ⊆ fs := by first | assumption | (refine List.Subset.trans ?_ (by assumption); simp) | simp) :
    Keeps fs s0 (launchPlain a1 a2) := by
  simp only [List.cons_subset, List.nil_subset, and_true] at hm
  simp (maxDischargeDepth := 60) +contextual only [launchPlain, h2, List.cons_subset, hm, List.nil_subset, and_self, launchTasks_keeps, setSlot_keeps, run_keeps]
theorem releaseArrivals_keeps {fs : List Field} {s0 : State} {a1 : Nat} {a2 : State} (h2 : Keeps fs s0 a2) (hm : [.granger] ⊆ fs := by first | assumption | (refine List.Subset.trans ?_ (by assumption); simp) | simp) :
    Keeps fs s0 (releaseArrivals a1 a2) := by
  simp only [List.cons_subset, List.nil_subset, and_true] at hm
  simp (maxDischargeDepth := 60) +contextual only [releaseArrivals]
  repeat' (split <;> (try simp (maxDischargeDepth := 60) +contextual only [List.cons_subset, List.nil_subset, and_self, setCursor_keeps, h2, hm]))
  all_goals (first | done | assumption)
theorem launchShadows_keeps {fs : List Field} {s0 : State} {a1 : State} {a2 : Nat} (h1 : Keeps fs s0 a1) (hm : [.regs, .mem, .granger] ⊆ fs := by first | assumption | (refine List.Subset.trans ?_ (by assumption); simp) | simp) :
    Keeps fs s0 (launchShadows a1 a2) := by
  simp only [List.cons_subset, List.nil_subset, and_true] at hm
  simp (maxDischargeDepth := 60) +contextual only [launchShadows, List.cons_subset, hm, List.nil_subset, and_self, allocShadow_keeps, implies_true, h1, keeps_memrest, keeps_foldl, refreshShadowUse_keeps]
theorem launchNet_keeps {fs : List Field} {s0 : State} {a1 : State} (h1 : Keeps fs s0 a1) (hm : [.regs, .net] ⊆ fs := by first | assumption | (refine List.Subset.trans ?_ (by assumption); simp) | simp) :
    Keeps fs s0 (launchNet a1) := by
  simp only [List.cons_subset, List.nil_subset, and_true] at hm
  simp (maxDischargeDepth := 60) +contextual only [launchNet, h1, List.cons_subset, hm, List.nil_subset, and_self, addReg_keeps, keeps_net]
theorem ownCounters_keeps {fs : List Field} {s0 : State} {a1 : State} {a2 : Task} (h1 : Keeps fs s0 a1) (hm : [.ctrs] ⊆ fs := by first | assumption | (refine List.Subset.trans ?_ (by assumption); simp) | simp) :
    Keeps fs s0 (ownCounters a1 a2) := by
  simp only [List.cons_subset, List.nil_subset, and_true] at hm
  simp (maxDischargeDepth := 60) +contextual only [ownCounters, List.cons_subset, hm, List.nil_subset, and_self, setCtr_keeps, implies_true, h1, keeps_foldl]
theorem rebase_keeps {fs : List Field} {s0 : State} {a1 : State} {a2 : Nat} (h1 : Keeps fs s0 a1) (hm : [.ctrs] ⊆ fs := by first | assumption | (refine List.Subset.trans ?_ (by assumption); simp) | simp) :
    Keeps fs s0 (rebase a1 a2) := by
  simp only [List.cons_subset, List.nil_subset, and_true] at hm
  simp (maxDischargeDepth := 60) +contextual only [rebase, List.cons_subset, hm, List.nil_subset, and_self, ownCounters_keeps, implies_true, h1, keeps_ctrs, keeps_foldl]
theorem writeSheaf_keeps {fs : List Field} {s0 : State} {a1 : Nat} {a2 : State} (h2 : Keeps fs s0 a2) (hm : [.regs, .cores, .mem, .granger, .step, .out, .free] ⊆ fs := by first | assumption | (refine List.Subset.trans ?_ (by assumption); simp) | simp) :
    Keeps fs s0 (writeSheaf a1 a2) := by
  simp only [List.cons_subset, List.nil_subset, and_true] at hm
  simp (maxDischargeDepth := 60) +contextual only [writeSheaf, h2, List.cons_subset, hm, List.nil_subset, and_self, storeHome_keeps, keeps_ite, keeps_step]
theorem restoreSheaf_keeps {fs : List Field} {s0 : State} {a1 : Nat} {a2 : State} (h2 : Keeps fs s0 a2) (hm : [.regs, .cores, .mem, .granger, .out, .free] ⊆ fs := by first | assumption | (refine List.Subset.trans ?_ (by assumption); simp) | simp) :
    Keeps fs s0 (restoreSheaf a1 a2) := by
  simp only [List.cons_subset, List.nil_subset, and_true] at hm
  simp (maxDischargeDepth := 60) +contextual only [restoreSheaf, List.cons_subset, hm, List.nil_subset, and_self, storeHome_keeps, keeps_ite, implies_true, h2, keeps_foldl, wr_keeps]
theorem takeRedo_keeps {fs : List Field} {s0 : State} {a1 : State} (h1 : Keeps fs s0 a1) (hm : [.regs, .cores, .mem, .granger, .step, .out, .free] ⊆ fs := by first | assumption | (refine List.Subset.trans ?_ (by assumption); simp) | simp) :
    Keeps fs s0 (takeRedo a1) := by
  simp only [List.cons_subset, List.nil_subset, and_true] at hm
  simp (maxDischargeDepth := 60) +contextual only [takeRedo, h1, List.cons_subset, hm, List.nil_subset, and_self, restoreSheaf_keeps, setFld_keeps, keeps_step]
theorem launchStep_keeps {fs : List Field} {s0 : State} {a1 : Nat} {a2 : State} (h2 : Keeps fs s0 a2) (hm : [.regs, .slots, .tasks, .ctrs, .cores, .clusters, .mem, .granger, .net, .coll, .control, .step, .power, .traces, .out, .free] ⊆ fs := by first | assumption | (refine List.Subset.trans ?_ (by assumption); simp) | simp) :
    Keeps fs s0 (launchStep a1 a2) := by
  simp only [List.cons_subset, List.nil_subset, and_true] at hm
  simp (maxDischargeDepth := 60) +contextual only [launchStep, h2, List.cons_subset, hm, List.nil_subset, and_self, takeRedo_keeps, writeSheaf_keeps, keeps_ite, keeps_step, launchTasks_keeps, rebase_keeps, wr_keeps, launchShadows_keeps, launchNet_keeps, keeps_coll, clearRows_keeps, setSlot_keeps, setPhase_keeps, keeps_power, releaseArrivals_keeps, run_keeps]
theorem settleExpert_keeps {fs : List Field} {s0 : State} {a1 : State} {a2 : Nat × Nat} (h1 : Keeps fs s0 a1) (hm : [.granger] ⊆ fs := by first | assumption | (refine List.Subset.trans ?_ (by assumption); simp) | simp) :
    Keeps fs s0 (settleExpert a1 a2) := by
  simp only [List.cons_subset, List.nil_subset, and_true] at hm
  simp (maxDischargeDepth := 60) +contextual only [settleExpert, h1, List.cons_subset, hm, List.nil_subset, and_self, keeps_granger, keeps_ite]
theorem settleMoves_keeps {fs : List Field} {s0 : State} {a1 : State} (h1 : Keeps fs s0 a1) (hm : [.regs, .slots, .tasks, .ctrs, .cores, .clusters, .mem, .granger, .streams, .ports, .coll, .control, .step, .power, .traces, .out, .free] ⊆ fs := by first | assumption | (refine List.Subset.trans ?_ (by assumption); simp) | simp) :
    Keeps fs s0 (settleMoves a1) := by
  simp only [List.cons_subset, List.nil_subset, and_true] at hm
  simp (maxDischargeDepth := 60) +contextual only [settleMoves, List.cons_subset, hm, List.nil_subset, and_self, settleExpert_keeps, implies_true, h1, abandonMoves_keeps, keeps_foldl]
theorem redoPoison_keeps {fs : List Field} {s0 : State} {a1 : State} (h1 : Keeps fs s0 a1) (hm : [.regs, .slots, .tasks, .ctrs, .cores, .clusters, .mem, .granger, .streams, .coll, .control, .step, .power, .traces, .out] ⊆ fs := by first | assumption | (refine List.Subset.trans ?_ (by assumption); simp) | simp) :
    Keeps fs s0 (redoPoison a1) := by
  simp only [List.cons_subset, List.nil_subset, and_true] at hm
  simp (maxDischargeDepth := 60) +contextual only [redoPoison]
  repeat' (split <;> (try simp (maxDischargeDepth := 60) +contextual only [List.cons_subset, List.nil_subset, and_self, countPoison_keeps, h1, hm]))
  all_goals (first | done | assumption)
theorem launchFault_keeps {fs : List Field} {s0 : State} {a1 : Nat} {a2 : Nat} {a3 : Nat} {a4 : Nat} {a5 : State} (h5 : Keeps fs s0 a5) (hm : [.regs, .slots, .tasks, .cores, .clusters, .mem, .granger, .step, .power, .traces, .out] ⊆ fs := by first | assumption | (refine List.Subset.trans ?_ (by assumption); simp) | simp) :
    Keeps fs s0 (launchFault a1 a2 a3 a4 a5) := by
  simp only [List.cons_subset, List.nil_subset, and_true] at hm
  simp (maxDischargeDepth := 60) +contextual only [launchFault, h5, List.cons_subset, hm, List.nil_subset, and_self, recordFault_keeps, sendNotice_keeps, keeps_ite, dropPlacement_keeps, closeStep_keeps, endSlot_keeps]
theorem keepPlacement_keeps {fs : List Field} {s0 : State} {a1 : Nat} {a2 : State} (h2 : Keeps fs s0 a2) (hm : [.regs, .tasks, .clusters, .mem, .granger] ⊆ fs := by first | assumption | (refine List.Subset.trans ?_ (by assumption); simp) | simp) :
    Keeps fs s0 (keepPlacement a1 a2) := by
  simp only [List.cons_subset, List.nil_subset, and_true] at hm
  simp (maxDischargeDepth := 60) +contextual only [keepPlacement, h2, List.cons_subset, hm, List.nil_subset, and_self, retireTags_keeps, keeps_tasks, dequeue_keeps, freeShadows_keeps, endCursor_keeps]
theorem launchUnlocked_keeps {fs : List Field} {s0 : State} {a1 : Nat} {a2 : State} (h2 : Keeps fs s0 a2) (hm : [.regs, .slots, .tasks, .cores, .clusters, .mem, .granger, .step, .power, .traces, .out] ⊆ fs := by first | assumption | (refine List.Subset.trans ?_ (by assumption); simp) | simp) :
    Keeps fs s0 (launchUnlocked a1 a2) := by
  simp only [List.cons_subset, List.nil_subset, and_true] at hm
  simp (maxDischargeDepth := 60) +contextual only [launchUnlocked, h2, List.cons_subset, hm, List.nil_subset, and_self, launchFault_keeps, recordFault_keeps, sendNotice_keeps, keepPlacement_keeps, keeps_step, armReplay_keeps, keeps_ite]
theorem launchPlaced_keeps {fs : List Field} {s0 : State} {a1 : Nat} {a2 : State} (h2 : Keeps fs s0 a2) (hm : [.regs, .slots, .tasks, .ctrs, .cores, .clusters, .mem, .granger, .streams, .net, .ports, .coll, .control, .step, .power, .traces, .out, .free] ⊆ fs := by first | assumption | (refine List.Subset.trans ?_ (by assumption); simp) | simp) :
    Keeps fs s0 (launchPlaced a1 a2) := by
  simp only [List.cons_subset, List.nil_subset, and_true] at hm
  simp (maxDischargeDepth := 60) +contextual only [launchPlaced, h2, List.cons_subset, hm, List.nil_subset, and_self, dropPlacement_keeps, closeStep_keeps, endSlot_keeps, launchUnlocked_keeps, refuseSlot_keeps, launchFault_keeps, redoPoison_keeps, setSlot_keeps, autoReset_keeps, wr_keeps, settleMoves_keeps, launchStep_keeps, launchPlain_keeps, keeps_ite]
theorem lostNotice_keeps {fs : List Field} {s0 : State} {a1 : Nat} {a2 : State} (h2 : Keeps fs s0 a2) (hm : [.out] ⊆ fs := by first | assumption | (refine List.Subset.trans ?_ (by assumption); simp) | simp) :
    Keeps fs s0 (lostNotice a1 a2) := by
  simp only [List.cons_subset, List.nil_subset, and_true] at hm
  simp (maxDischargeDepth := 60) +contextual only [lostNotice, h2, List.cons_subset, hm, List.nil_subset, and_self, sendNotice_keeps]
theorem launchLate_keeps {fs : List Field} {s0 : State} {a1 : Nat} {a2 : State} (h2 : Keeps fs s0 a2) (hm : [.regs, .slots, .tasks, .ctrs, .cores, .clusters, .mem, .granger, .streams, .coll, .control, .step, .power, .traces, .out] ⊆ fs := by first | assumption | (refine List.Subset.trans ?_ (by assumption); simp) | simp) :
    Keeps fs s0 (launchLate a1 a2) := by
  simp only [List.cons_subset, List.nil_subset, and_true] at hm
  simp (maxDischargeDepth := 60) +contextual only [launchLate, h2, List.cons_subset, hm, List.nil_subset, and_self, refuseSlot_keeps, lostNotice_keeps, keeps_ite]
theorem effectiveLaunch_keeps {fs : List Field} {s0 : State} {a1 : Nat} {a2 : State} (h2 : Keeps fs s0 a2) (hm : [.regs, .slots, .tasks, .ctrs, .cores, .clusters, .mem, .granger, .streams, .net, .ports, .coll, .control, .step, .power, .traces, .out, .free] ⊆ fs := by first | assumption | (refine List.Subset.trans ?_ (by assumption); simp) | simp) :
    Keeps fs s0 (effectiveLaunch a1 a2) := by
  simp only [List.cons_subset, List.nil_subset, and_true] at hm
  simp (maxDischargeDepth := 60) +contextual only [effectiveLaunch]
  repeat' (split <;> (try simp (maxDischargeDepth := 60) +contextual only [keeps_ite, List.cons_subset, List.nil_subset, and_self, keeps_step, launchPlaced_keeps, launchLate_keeps, lostNotice_keeps, h2, hm]))
  all_goals (first | done | assumption)
theorem execEffectiveLaunch_keeps {fs : List Field} {s0 : State} {a1 : Fin 64} {a2 : State} (h2 : Keeps fs s0 a2) (hm : [.regs, .slots, .tasks, .ctrs, .cores, .clusters, .mem, .granger, .streams, .net, .ports, .coll, .control, .step, .power, .traces, .out, .free] ⊆ fs := by first | assumption | (refine List.Subset.trans ?_ (by assumption); simp) | simp) :
    KeepsO fs s0 (execEffectiveLaunch a1 a2) := by
  simp only [List.cons_subset, List.nil_subset, and_true] at hm
  simp (maxDischargeDepth := 60) +contextual only [execEffectiveLaunch, h2, List.cons_subset, hm, List.nil_subset, and_self, effectiveLaunch_keeps, keepsO_next]
theorem relaunch_keeps {fs : List Field} {s0 : State} {a1 : State} (h1 : Keeps fs s0 a1) (hm : [.regs, .slots, .tasks, .ctrs, .cores, .clusters, .mem, .granger, .streams, .net, .ports, .coll, .control, .step, .power, .traces, .out, .free] ⊆ fs := by first | assumption | (refine List.Subset.trans ?_ (by assumption); simp) | simp) :
    Keeps fs s0 (relaunch a1) := by
  simp only [List.cons_subset, List.nil_subset, and_true] at hm
  simp (maxDischargeDepth := 60) +contextual only [relaunch]
  repeat' (split <;> (try simp (maxDischargeDepth := 60) +contextual only [List.cons_subset, List.nil_subset, and_self, effectiveLaunch_keeps, h1, hm]))
  all_goals (first | done | assumption)
theorem execRelaunch_keeps {fs : List Field} {s0 : State} {a1 : State} (h1 : Keeps fs s0 a1) (hm : [.regs, .slots, .tasks, .ctrs, .cores, .clusters, .mem, .granger, .streams, .net, .ports, .coll, .control, .step, .power, .traces, .out, .free] ⊆ fs := by first | assumption | (refine List.Subset.trans ?_ (by assumption); simp) | simp) :
    KeepsO fs s0 (execRelaunch a1) := by
  simp only [List.cons_subset, List.nil_subset, and_true] at hm
  simp (maxDischargeDepth := 60) +contextual only [execRelaunch, h1, List.cons_subset, hm, List.nil_subset, and_self, relaunch_keeps, keepsO_next]
theorem noteVersion_keeps {fs : List Field} {s0 : State} {a1 : State} {a2 : Nat} (h1 : Keeps fs s0 a1) (hm : [.coll] ⊆ fs := by first | assumption | (refine List.Subset.trans ?_ (by assumption); simp) | simp) :
    Keeps fs s0 (noteVersion a1 a2) := by
  simp only [List.cons_subset, List.nil_subset, and_true] at hm
  simp (maxDischargeDepth := 60) +contextual only [noteVersion, h1, List.cons_subset, hm, List.nil_subset, and_self, keeps_coll]
theorem recode_keeps {fs : List Field} {s0 : State} {a1 : Nat} {a2 : List Nat} {a3 : State} (h3 : Keeps fs s0 a3) (hm : [.regs, .cores, .mem, .granger, .out, .free] ⊆ fs := by first | assumption | (refine List.Subset.trans ?_ (by assumption); simp) | simp) :
    Keeps fs s0 (recode a1 a2 a3) := by
  simp only [List.cons_subset, List.nil_subset, and_true] at hm
  simp (maxDischargeDepth := 60) +contextual only [recode]
  repeat' (split <;> (try simp (maxDischargeDepth := 60) +contextual only [keeps_ite, keeps_foldl, List.cons_subset, List.nil_subset, and_self, implies_true, codeBlock_keeps, growBushel_keeps, h3, hm]))
  all_goals (first | done | assumption)
theorem adoptBushel_keeps {fs : List Field} {s0 : State} {a1 : State} {a2 : Nat} (h1 : Keeps fs s0 a1) (hm : [.regs, .cores, .mem, .granger, .coll, .out, .free] ⊆ fs := by first | assumption | (refine List.Subset.trans ?_ (by assumption); simp) | simp) :
    Keeps fs s0 (adoptBushel a1 a2) := by
  simp only [List.cons_subset, List.nil_subset, and_true] at hm
  simp (maxDischargeDepth := 60) +contextual only [adoptBushel]
  repeat' (split <;> (try simp (maxDischargeDepth := 60) +contextual only [List.cons_subset, List.nil_subset, and_self, noteVersion_keeps, recode_keeps, setBushel_keeps, h1, hm]))
  all_goals (first | done | assumption)
theorem adoptLine_keeps {fs : List Field} {s0 : State} {a1 : State} {a2 : Nat} (h1 : Keeps fs s0 a1) (hm : [.cores, .mem] ⊆ fs := by first | assumption | (refine List.Subset.trans ?_ (by assumption); simp) | simp) :
    Keeps fs s0 (adoptLine a1 a2) := by
  simp only [List.cons_subset, List.nil_subset, and_true] at hm
  simp (maxDischargeDepth := 60) +contextual only [adoptLine, h1, List.cons_subset, hm, List.nil_subset, and_self, writeMem_keeps, poisonLine_keeps, keeps_ite]
theorem adoptShadows_keeps {fs : List Field} {s0 : State} {a1 : State} (h1 : Keeps fs s0 a1) (hm : [.regs, .cores, .mem, .granger, .coll, .step, .out, .free] ⊆ fs := by first | assumption | (refine List.Subset.trans ?_ (by assumption); simp) | simp) :
    Keeps fs s0 (adoptShadows a1) := by
  simp only [List.cons_subset, List.nil_subset, and_true] at hm
  simp (maxDischargeDepth := 60) +contextual only [adoptShadows, List.cons_subset, hm, List.nil_subset, and_self, adoptBushel_keeps, implies_true, adoptLine_keeps, h1, keeps_foldl, keeps_step]
theorem moveExpert_keeps {fs : List Field} {s0 : State} {a1 : State} {a2 : Nat × Nat × Nat} (h1 : Keeps fs s0 a1) (hm : [.regs, .cores, .mem, .granger, .streams, .out] ⊆ fs := by first | assumption | (refine List.Subset.trans ?_ (by assumption); simp) | simp) :
    Keeps fs s0 (moveExpert a1 a2) := by
  simp only [List.cons_subset, List.nil_subset, and_true] at hm
  simp (maxDischargeDepth := 60) +contextual only [moveExpert, List.cons_subset, hm, List.nil_subset, and_self, startMove_keeps, keeps_ite, implies_true, h1, keeps_foldl, report_keeps, keeps_granger]
theorem commitMoves_keeps {fs : List Field} {s0 : State} {a1 : State} (h1 : Keeps fs s0 a1) (hm : [.regs, .cores, .mem, .granger, .streams, .out] ⊆ fs := by first | assumption | (refine List.Subset.trans ?_ (by assumption); simp) | simp) :
    Keeps fs s0 (commitMoves a1) := by
  simp only [List.cons_subset, List.nil_subset, and_true] at hm
  simp (maxDischargeDepth := 60) +contextual only [commitMoves, h1, List.cons_subset, hm, List.nil_subset, and_self, moveExpert_keeps, implies_true, keeps_foldl, keeps_ite]
theorem shareExpert_keeps {fs : List Field} {s0 : State} {a1 : State} {a2 : Nat} (h1 : Keeps fs s0 a1) (hm : [.granger] ⊆ fs := by first | assumption | (refine List.Subset.trans ?_ (by assumption); simp) | simp) :
    Keeps fs s0 (shareExpert a1 a2) := by
  simp only [List.cons_subset, List.nil_subset, and_true] at hm
  simp (maxDischargeDepth := 60) +contextual only [shareExpert, List.cons_subset, hm, List.nil_subset, and_self, keeps_granger, implies_true, h1, keeps_foldl]
theorem commitShares_keeps {fs : List Field} {s0 : State} {a1 : State} (h1 : Keeps fs s0 a1) (hm : [.granger, .coll] ⊆ fs := by first | assumption | (refine List.Subset.trans ?_ (by assumption); simp) | simp) :
    Keeps fs s0 (commitShares a1) := by
  simp only [List.cons_subset, List.nil_subset, and_true] at hm
  simp (maxDischargeDepth := 60) +contextual only [commitShares, h1, List.cons_subset, hm, List.nil_subset, and_self, shareExpert_keeps, implies_true, keeps_foldl, keeps_ite, keeps_coll]
theorem commitWork_keeps {fs : List Field} {s0 : State} {a1 : State} (h1 : Keeps fs s0 a1) (hm : [.granger] ⊆ fs := by first | assumption | (refine List.Subset.trans ?_ (by assumption); simp) | simp) :
    Keeps fs s0 (commitWork a1) := by
  simp only [List.cons_subset, List.nil_subset, and_true] at hm
  simp (maxDischargeDepth := 60) +contextual only [commitWork, h1, List.cons_subset, hm, List.nil_subset, and_self, keeps_granger, keeps_ite]
theorem noticeLive_keeps {fs : List Field} {s0 : State} {a1 : Nat} {a2 : Notice} {a3 : State} (h3 : Keeps fs s0 a3) (hm : [.regs, .slots, .tasks, .ctrs, .cores, .clusters, .mem, .granger, .coll, .control, .step, .power, .traces, .out] ⊆ fs := by first | assumption | (refine List.Subset.trans ?_ (by assumption); simp) | simp) :
    Keeps fs s0 (noticeLive a1 a2 a3) := by
  simp only [List.cons_subset, List.nil_subset, and_true] at hm
  simp (maxDischargeDepth := 60) +contextual only [noticeLive, h3, List.cons_subset, hm, List.nil_subset, and_self, recordFault_keeps, keeps_ite, sendNotice_keeps, discard_keeps, run_keeps]
theorem endWaiting_keeps {fs : List Field} {s0 : State} {a1 : Nat} {a2 : Nat} {a3 : Nat} {a4 : Nat} {a5 : Nat} {a6 : State} (h6 : Keeps fs s0 a6) (hm : [.regs, .slots, .tasks, .cores, .clusters, .mem, .granger, .step, .power, .traces] ⊆ fs := by first | assumption | (refine List.Subset.trans ?_ (by assumption); simp) | simp) :
    Keeps fs s0 (endWaiting a1 a2 a3 a4 a5 a6) := by
  simp only [List.cons_subset, List.nil_subset, and_true] at hm
  simp (maxDischargeDepth := 60) +contextual only [endWaiting, h6, List.cons_subset, hm, List.nil_subset, and_self, recordFault_keeps, dropPlacement_keeps, closeStep_keeps, endSlot_keeps, setFld_keeps, keeps_ite]
theorem noticeWaiting_keeps {fs : List Field} {s0 : State} {a1 : Nat} {a2 : Notice} {a3 : State} (h3 : Keeps fs s0 a3) (hm : [.regs, .slots, .tasks, .cores, .clusters, .mem, .granger, .step, .power, .traces, .out] ⊆ fs := by first | assumption | (refine List.Subset.trans ?_ (by assumption); simp) | simp) :
    Keeps fs s0 (noticeWaiting a1 a2 a3) := by
  simp only [List.cons_subset, List.nil_subset, and_true] at hm
  simp (maxDischargeDepth := 60) +contextual only [noticeWaiting, h3, List.cons_subset, hm, List.nil_subset, and_self, sendNotice_keeps, keeps_step, setSlot_keeps, endWaiting_keeps, keeps_ite]
theorem noticeNone_keeps {fs : List Field} {s0 : State} {a1 : Notice} {a2 : State} (h2 : Keeps fs s0 a2) (hm : [.regs, .step, .out] ⊆ fs := by first | assumption | (refine List.Subset.trans ?_ (by assumption); simp) | simp) :
    Keeps fs s0 (noticeNone a1 a2) := by
  simp only [List.cons_subset, List.nil_subset, and_true] at hm
  simp (maxDischargeDepth := 60) +contextual only [noticeNone]
  repeat' (split <;> (try simp (maxDischargeDepth := 60) +contextual only [keeps_ite, List.cons_subset, List.nil_subset, and_self, keeps_step, addReg_keeps, sendNotice_keeps, h2, hm]))
  all_goals (first | done | assumption)
theorem discardNotice_keeps {fs : List Field} {s0 : State} {a1 : Notice} {a2 : State} (h2 : Keeps fs s0 a2) (hm : [.regs, .slots, .tasks, .ctrs, .cores, .clusters, .mem, .granger, .coll, .control, .step, .power, .traces, .out] ⊆ fs := by first | assumption | (refine List.Subset.trans ?_ (by assumption); simp) | simp) :
    Keeps fs s0 (discardNotice a1 a2) := by
  simp only [List.cons_subset, List.nil_subset, and_true] at hm
  simp (maxDischargeDepth := 60) +contextual only [discardNotice]
  repeat' (split <;> (try simp (maxDischargeDepth := 60) +contextual only [keeps_ite, List.cons_subset, List.nil_subset, and_self, noticeLive_keeps, noticeWaiting_keeps, noticeNone_keeps, h2, hm]))
  all_goals (first | done | assumption)
theorem dropChanged_keeps {fs : List Field} {s0 : State} {a1 : List Nat} {a2 : State} (h2 : Keeps fs s0 a2) (hm : [.mem] ⊆ fs := by first | assumption | (refine List.Subset.trans ?_ (by assumption); simp) | simp) :
    Keeps fs s0 (dropChanged a1 a2) := by
  simp only [List.cons_subset, List.nil_subset, and_true] at hm
  simp (maxDischargeDepth := 60) +contextual only [dropChanged, h2, List.cons_subset, hm, List.nil_subset, and_self, dropWindow_keeps]
theorem execDiscardNotice_keeps {fs : List Field} {s0 : State} {a1 : Notice} {a2 : State} (h2 : Keeps fs s0 a2) (hm : [.regs, .slots, .tasks, .ctrs, .cores, .clusters, .mem, .granger, .coll, .control, .step, .power, .traces, .out] ⊆ fs := by first | assumption | (refine List.Subset.trans ?_ (by assumption); simp) | simp) :
    KeepsO fs s0 (execDiscardNotice a1 a2) := by
  simp only [List.cons_subset, List.nil_subset, and_true] at hm
  simp (maxDischargeDepth := 60) +contextual only [execDiscardNotice, h2, List.cons_subset, hm, List.nil_subset, and_self, discardNotice_keeps, keepsO_next]
theorem faultReport_keeps {fs : List Field} {s0 : State} {a1 : Nat} {a2 : Nat} {a3 : Bool} {a4 : State} (h4 : Keeps fs s0 a4) (hm : [.regs, .slots, .tasks, .ctrs, .cores, .clusters, .mem, .granger, .coll, .control, .step, .power, .traces, .out] ⊆ fs := by first | assumption | (refine List.Subset.trans ?_ (by assumption); simp) | simp) :
    Keeps fs s0 (faultReport a1 a2 a3 a4) := by
  simp only [List.cons_subset, List.nil_subset, and_true] at hm
  simp (maxDischargeDepth := 60) +contextual only [faultReport, h4, List.cons_subset, hm, List.nil_subset, and_self, takeDeferred_keeps, fault_keeps, keeps_ite]
theorem execFaultReport_keeps {fs : List Field} {s0 : State} {a1 : Fin 27} {a2 : BitVec 32} {a3 : Bool} {a4 : State} (h4 : Keeps fs s0 a4) (hm : [.regs, .slots, .tasks, .ctrs, .cores, .clusters, .mem, .granger, .coll, .control, .step, .power, .traces, .out] ⊆ fs := by first | assumption | (refine List.Subset.trans ?_ (by assumption); simp) | simp) :
    KeepsO fs s0 (execFaultReport a1 a2 a3 a4) := by
  simp only [List.cons_subset, List.nil_subset, and_true] at hm
  simp (maxDischargeDepth := 60) +contextual only [execFaultReport, h4, List.cons_subset, hm, List.nil_subset, and_self, faultReport_keeps, keepsO_next]
theorem setStage_keeps {fs : List Field} {s0 : State} {a1 : State} {a2 : Nat} (h1 : Keeps fs s0 a1) (hm : [.regs] ⊆ fs := by first | assumption | (refine List.Subset.trans ?_ (by assumption); simp) | simp) :
    Keeps fs s0 (setStage a1 a2) := by
  simp only [List.cons_subset, List.nil_subset, and_true] at hm
  simp (maxDischargeDepth := 60) +contextual only [setStage, h1, List.cons_subset, hm, List.nil_subset, and_self, setFld_keeps]
theorem stageSettle_keeps {fs : List Field} {s0 : State} {a1 : State} (h1 : Keeps fs s0 a1) (hm : [.regs] ⊆ fs := by first | assumption | (refine List.Subset.trans ?_ (by assumption); simp) | simp) :
    Keeps fs s0 (stageSettle a1) := by
  simp only [List.cons_subset, List.nil_subset, and_true] at hm
  simp (maxDischargeDepth := 60) +contextual only [stageSettle, h1, List.cons_subset, hm, List.nil_subset, and_self, setStage_keeps, keeps_ite]
theorem flashWriteDone_keeps {fs : List Field} {s0 : State} {a1 : Bool} {a2 : State} (h2 : Keeps fs s0 a2) (hm : [.regs, .step, .out] ⊆ fs := by first | assumption | (refine List.Subset.trans ?_ (by assumption); simp) | simp) :
    Keeps fs s0 (flashWriteDone a1 a2) := by
  simp only [List.cons_subset, List.nil_subset, and_true] at hm
  simp (maxDischargeDepth := 60) +contextual only [flashWriteDone, h2, List.cons_subset, hm, List.nil_subset, and_self, keeps_step, setFld_keeps, logErr_keeps, keeps_ite, stageSettle_keeps]
theorem execFlashWriteDone_keeps {fs : List Field} {s0 : State} {a1 : Bool} {a2 : State} (h2 : Keeps fs s0 a2) (hm : [.regs, .step, .out] ⊆ fs := by first | assumption | (refine List.Subset.trans ?_ (by assumption); simp) | simp) :
    KeepsO fs s0 (execFlashWriteDone a1 a2) := by
  simp only [List.cons_subset, List.nil_subset, and_true] at hm
  simp (maxDischargeDepth := 60) +contextual only [execFlashWriteDone, h2, List.cons_subset, hm, List.nil_subset, and_self, flashWriteDone_keeps, keepsO_next]
theorem traceVerdict_keeps {fs : List Field} {s0 : State} {a1 : State} (h1 : Keeps fs s0 a1) (hm : [.regs, .traces] ⊆ fs := by first | assumption | (refine List.Subset.trans ?_ (by assumption); simp) | simp) :
    Keeps fs s0 (traceVerdict a1) := by
  simp only [List.cons_subset, List.nil_subset, and_true] at hm
  simp (maxDischargeDepth := 60) +contextual only [traceVerdict, h1, List.cons_subset, hm, List.nil_subset, and_self, trace_keeps]
theorem setVerdict_keeps {fs : List Field} {s0 : State} {a1 : Nat} {a2 : Nat} {a3 : Nat} {a4 : State} (h4 : Keeps fs s0 a4) (hm : [.regs, .slots] ⊆ fs := by first | assumption | (refine List.Subset.trans ?_ (by assumption); simp) | simp) :
    Keeps fs s0 (setVerdict a1 a2 a3 a4) := by
  simp only [List.cons_subset, List.nil_subset, and_true] at hm
  simp (maxDischargeDepth := 60) +contextual only [setVerdict]
  repeat' (split <;> (try simp (maxDischargeDepth := 60) +contextual only [List.cons_subset, List.nil_subset, and_self, setSlot_keeps, wr_keeps, h4, hm]))
  all_goals (first | done | assumption)
theorem foghornFail_keeps {fs : List Field} {s0 : State} {a1 : Nat} {a2 : Nat} {a3 : State} (h3 : Keeps fs s0 a3) (hm : [.regs, .slots, .tasks, .ctrs, .cores, .clusters, .mem, .granger, .coll, .control, .step, .power, .traces, .out] ⊆ fs := by first | assumption | (refine List.Subset.trans ?_ (by assumption); simp) | simp) :
    Keeps fs s0 (foghornFail a1 a2 a3) := by
  simp only [List.cons_subset, List.nil_subset, and_true] at hm
  simp (maxDischargeDepth := 60) +contextual only [foghornFail, h3, List.cons_subset, hm, List.nil_subset, and_self, setVerdict_keeps, addReg_keeps, event_keeps, traceVerdict_keeps, fault_keeps]
theorem foghornLoss_keeps {fs : List Field} {s0 : State} {a1 : Requester} {a2 : Word} {a3 : State} (h3 : Keeps fs s0 a3) (hm : [.regs, .slots, .tasks, .ctrs, .cores, .clusters, .mem, .granger, .coll, .control, .step, .power, .traces, .out] ⊆ fs := by first | assumption | (refine List.Subset.trans ?_ (by assumption); simp) | simp) :
    Keeps fs s0 (foghornLoss a1 a2 a3) := by
  simp only [List.cons_subset, List.nil_subset, and_true] at hm
  simp (maxDischargeDepth := 60) +contextual only [foghornLoss]
  repeat' (split <;> (try simp (maxDischargeDepth := 60) +contextual only [List.cons_subset, List.nil_subset, and_self, keeps_step, traceVerdict_keeps, foghornFail_keeps, setVerdict_keeps, logErr_keeps, reservedWrite_keeps, h3, hm]))
  all_goals (first | done | assumption)
theorem execFoghornLoss_keeps {fs : List Field} {s0 : State} {a1 : Requester} {a2 : Word} {a3 : State} (h3 : Keeps fs s0 a3) (hm : [.regs, .slots, .tasks, .ctrs, .cores, .clusters, .mem, .granger, .coll, .control, .step, .power, .traces, .out] ⊆ fs := by first | assumption | (refine List.Subset.trans ?_ (by assumption); simp) | simp) :
    KeepsO fs s0 (execFoghornLoss a1 a2 a3) := by
  simp only [List.cons_subset, List.nil_subset, and_true] at hm
  simp (maxDischargeDepth := 60) +contextual only [execFoghornLoss, h3, List.cons_subset, hm, List.nil_subset, and_self, foghornLoss_keeps, implies_true, byReq_keeps]
theorem nfReport_keeps {fs : List Field} {s0 : State} {a1 : Requester} {a2 : Word} {a3 : State} (h3 : Keeps fs s0 a3) (hm : [.regs, .slots, .tasks, .ctrs, .cores, .clusters, .mem, .granger, .coll, .control, .step, .power, .traces, .out] ⊆ fs := by first | assumption | (refine List.Subset.trans ?_ (by assumption); simp) | simp) :
    Keeps fs s0 (nfReport a1 a2 a3) := by
  simp only [List.cons_subset, List.nil_subset, and_true] at hm
  simp (maxDischargeDepth := 60) +contextual only [nfReport, h3, List.cons_subset, hm, List.nil_subset, and_self, reservedWrite_keeps, logErr_keeps, keeps_step, foghornFail_keeps, keeps_ite]
theorem execNfReport_keeps {fs : List Field} {s0 : State} {a1 : Requester} {a2 : Word} {a3 : State} (h3 : Keeps fs s0 a3) (hm : [.regs, .slots, .tasks, .ctrs, .cores, .clusters, .mem, .granger, .coll, .control, .step, .power, .traces, .out] ⊆ fs := by first | assumption | (refine List.Subset.trans ?_ (by assumption); simp) | simp) :
    KeepsO fs s0 (execNfReport a1 a2 a3) := by
  simp only [List.cons_subset, List.nil_subset, and_true] at hm
  simp (maxDischargeDepth := 60) +contextual only [execNfReport, h3, List.cons_subset, hm, List.nil_subset, and_self, nfReport_keeps, implies_true, byReq_keeps]
theorem partnerRefreshDone_keeps {fs : List Field} {s0 : State} {a1 : Option (Nat × Nat)} {a2 : Bool} {a3 : State} (h3 : Keeps fs s0 a3) (hm : [.regs, .step, .out] ⊆ fs := by first | assumption | (refine List.Subset.trans ?_ (by assumption); simp) | simp) :
    Keeps fs s0 (partnerRefreshDone a1 a2 a3) := by
  simp only [List.cons_subset, List.nil_subset, and_true] at hm
  simp (maxDischargeDepth := 60) +contextual only [partnerRefreshDone]
  repeat' (split <;> (try simp (maxDischargeDepth := 60) +contextual only [keeps_ite, List.cons_subset, List.nil_subset, and_self, keeps_step, logErr_keeps, stageSettle_keeps, setFld_keeps, h3, hm]))
  all_goals (first | done | assumption)
theorem execPartnerRefreshDone_keeps {fs : List Field} {s0 : State} {a1 : Option (BitVec 12 × Nat)} {a2 : Bool} {a3 : State} (h3 : Keeps fs s0 a3) (hm : [.regs, .step, .out] ⊆ fs := by first | assumption | (refine List.Subset.trans ?_ (by assumption); simp) | simp) :
    KeepsO fs s0 (execPartnerRefreshDone a1 a2 a3) := by
  simp only [List.cons_subset, List.nil_subset, and_true] at hm
  simp (maxDischargeDepth := 60) +contextual only [execPartnerRefreshDone, h3, List.cons_subset, hm, List.nil_subset, and_self, partnerRefreshDone_keeps, keepsO_next]
theorem quietWrite_keeps {fs : List Field} {s0 : State} {a1 : PageRef} {a2 : Nat} {a3 : Nat} {a4 : Word} {a5 : State} (h5 : Keeps fs s0 a5) (hm : [.regs, .out] ⊆ fs := by first | assumption | (refine List.Subset.trans ?_ (by assumption); simp) | simp) :
    Keeps fs s0 (quietWrite a1 a2 a3 a4 a5) := by
  simp only [List.cons_subset, List.nil_subset, and_true] at hm
  simp (maxDischargeDepth := 60) +contextual only [quietWrite, h5, List.cons_subset, hm, List.nil_subset, and_self, reservedWrite_keeps, wr_keeps, logErr_keeps, keeps_ite]
theorem execRedoWrite_keeps {fs : List Field} {s0 : State} {a1 : Word} {a2 : State} (h2 : Keeps fs s0 a2) (hm : [.regs, .out] ⊆ fs := by first | assumption | (refine List.Subset.trans ?_ (by assumption); simp) | simp) :
    KeepsO fs s0 (execRedoWrite a1 a2) := by
  simp only [List.cons_subset, List.nil_subset, and_true] at hm
  simp (maxDischargeDepth := 60) +contextual only [execRedoWrite, h2, List.cons_subset, hm, List.nil_subset, and_self, quietWrite_keeps, keepsO_next]
theorem restoreStat_keeps {fs : List Field} {s0 : State} {a1 : Nat} {a2 : Nat} {a3 : State} (h3 : Keeps fs s0 a3) (hm : [.regs] ⊆ fs := by first | assumption | (refine List.Subset.trans ?_ (by assumption); simp) | simp) :
    Keeps fs s0 (restoreStat a1 a2 a3) := by
  simp only [List.cons_subset, List.nil_subset, and_true] at hm
  simp (maxDischargeDepth := 60) +contextual only [restoreStat, h3, List.cons_subset, hm, List.nil_subset, and_self, wr_keeps]
theorem restore_keeps {fs : List Field} {s0 : State} {a1 : Word} {a2 : State} (h2 : Keeps fs s0 a2) (hm : [.regs, .step, .out] ⊆ fs := by first | assumption | (refine List.Subset.trans ?_ (by assumption); simp) | simp) :
    Keeps fs s0 (restore a1 a2) := by
  simp only [List.cons_subset, List.nil_subset, and_true] at hm
  simp (maxDischargeDepth := 60) +contextual only [restore, h2, List.cons_subset, hm, List.nil_subset, and_self, reservedWrite_keeps, logErr_keeps, restoreStat_keeps, keeps_step, keeps_ite]
theorem execRestore_keeps {fs : List Field} {s0 : State} {a1 : Word} {a2 : State} (h2 : Keeps fs s0 a2) (hm : [.regs, .step, .out] ⊆ fs := by first | assumption | (refine List.Subset.trans ?_ (by assumption); simp) | simp) :
    KeepsO fs s0 (execRestore a1 a2) := by
  simp only [List.cons_subset, List.nil_subset, and_true] at hm
  simp (maxDischargeDepth := 60) +contextual only [execRestore, h2, List.cons_subset, hm, List.nil_subset, and_self, restore_keeps, keepsO_next]
theorem restoreHeader_keeps {fs : List Field} {s0 : State} {a1 : List Word} {a2 : State} (h2 : Keeps fs s0 a2) (hm : [.regs] ⊆ fs := by first | assumption | (refine List.Subset.trans ?_ (by assumption); simp) | simp) :
    Keeps fs s0 (restoreHeader a1 a2) := by
  simp only [List.cons_subset, List.nil_subset, and_true] at hm
  simp (maxDischargeDepth := 60) +contextual only [restoreHeader, h2, List.cons_subset, hm, List.nil_subset, and_self, wr_keeps, setFld_keeps]
theorem restoreSheaves_keeps {fs : List Field} {s0 : State} {a1 : List (Nat × List Byte)} {a2 : State} (h2 : Keeps fs s0 a2) (hm : [.regs, .cores, .mem, .granger, .out, .free] ⊆ fs := by first | assumption | (refine List.Subset.trans ?_ (by assumption); simp) | simp) :
    Keeps fs s0 (restoreSheaves a1 a2) := by
  simp only [List.cons_subset, List.nil_subset, and_true] at hm
  simp (maxDischargeDepth := 60) +contextual only [restoreSheaves, List.cons_subset, hm, List.nil_subset, and_self, storeHome_keeps, keeps_ite, implies_true, h2, keeps_foldl]
theorem restoreBushel_keeps {fs : List Field} {s0 : State} {a1 : Nat × Nat × List Byte} {a2 : State} (h2 : Keeps fs s0 a2) (hm : [.regs, .cores, .mem, .granger, .streams, .out, .free] ⊆ fs := by first | assumption | (refine List.Subset.trans ?_ (by assumption); simp) | simp) :
    ∀ x, (restoreBushel a1 a2) = .ok x → Keeps fs s0 x := by
  intro x e
  unfold restoreBushel at e
  extract_lets p at e
  split at e
  · cases e
  · cases e
    exact storeHome_keeps (keeps_of_okE_fst (by assumption) (placeBushel_keeps h2))
theorem restoreDone_keeps {fs : List Field} {s0 : State} {a1 : List (Nat × Nat × List Byte)} {a2 : List Word} {a3 : List (Nat × List Byte)} {a4 : Nat} {a5 : State} (h5 : Keeps fs s0 a5) (hm : [.regs, .cores, .mem, .granger, .streams, .step, .out, .free] ⊆ fs := by first | assumption | (refine List.Subset.trans ?_ (by assumption); simp) | simp) :
    Keeps fs s0 (restoreDone a1 a2 a3 a4 a5) := by
  unfold restoreDone
  split
  · exact h5
  · extract_lets q s
    have h : Keeps fs s0 s := keeps_step h5
    clear_value s
    split
    extract_lets bad
    split
    · exact restoreStat_keeps h
    split
    · exact restoreStat_keeps h
    split
    · exact restoreStat_keeps h
    · have h2 := keeps_of_okE (by assumption) (allOk_keeps (fun _ _ h => restoreBushel_keeps h) h)
      exact restoreStat_keeps (restoreHeader_keeps (keeps_ite (restoreSheaves_keeps h2) h2))
theorem execRestoreDone_keeps {fs : List Field} {s0 : State} {a1 : List (Nat × Nat × List Byte)} {a2 : List Word} {a3 : List (Nat × List Byte)} {a4 : Fin 6} {a5 : State} (h5 : Keeps fs s0 a5) (hm : [.regs, .cores, .mem, .granger, .streams, .step, .out, .free] ⊆ fs := by first | assumption | (refine List.Subset.trans ?_ (by assumption); simp) | simp) :
    KeepsO fs s0 (execRestoreDone a1 a2 a3 a4 a5) := by
  simp only [List.cons_subset, List.nil_subset, and_true] at hm
  simp (maxDischargeDepth := 60) +contextual only [execRestoreDone, h5, List.cons_subset, hm, List.nil_subset, and_self, restoreDone_keeps, keepsO_next]
theorem partnerPut_keeps {fs : List Field} {s0 : State} {a1 : Nat} {a2 : Nat} {a3 : Nat} {a4 : State} (h4 : Keeps fs s0 a4) (hm : [.regs, .slots, .tasks, .ctrs, .cores, .clusters, .mem, .granger, .streams, .coll, .control, .step, .power, .traces, .out] ⊆ fs := by first | assumption | (refine List.Subset.trans ?_ (by assumption); simp) | simp) :
    Keeps fs s0 (partnerPut a1 a2 a3 a4) := by
  simp only [List.cons_subset, List.nil_subset, and_true] at hm
  simp (maxDischargeDepth := 60) +contextual only [partnerPut, h4, List.cons_subset, hm, List.nil_subset, and_self, collEnter_keeps]
theorem writeImage_keeps {fs : List Field} {s0 : State} {a1 : Nat} {a2 : State} (h2 : Keeps fs s0 a2) (hm : [.regs, .cores, .mem, .granger, .out, .free] ⊆ fs := by first | assumption | (refine List.Subset.trans ?_ (by assumption); simp) | simp) :
    Keeps fs s0 (writeImage a1 a2) := by
  simp only [List.cons_subset, List.nil_subset, and_true] at hm
  simp (maxDischargeDepth := 60) +contextual only [writeImage, List.cons_subset, hm, List.nil_subset, and_self, storeHome_keeps, implies_true, h2, keeps_foldl]
theorem stageCopyDone_keeps {fs : List Field} {s0 : State} {a1 : State} (h1 : Keeps fs s0 a1) (hm : [.regs, .slots, .tasks, .ctrs, .cores, .clusters, .mem, .granger, .streams, .coll, .control, .step, .power, .traces, .out, .free] ⊆ fs := by first | assumption | (refine List.Subset.trans ?_ (by assumption); simp) | simp) :
    Keeps fs s0 (stageCopyDone a1) := by
  simp only [List.cons_subset, List.nil_subset, and_true] at hm
  simp (maxDischargeDepth := 60) +contextual only [stageCopyDone, h1, List.cons_subset, hm, List.nil_subset, and_self, writeImage_keeps, setStage_keeps, setFld_keeps, partnerPut_keeps, keeps_ite, stageSettle_keeps]
theorem execStageCopyDone_keeps {fs : List Field} {s0 : State} {a1 : State} (h1 : Keeps fs s0 a1) (hm : [.regs, .slots, .tasks, .ctrs, .cores, .clusters, .mem, .granger, .streams, .coll, .control, .step, .power, .traces, .out, .free] ⊆ fs := by first | assumption | (refine List.Subset.trans ?_ (by assumption); simp) | simp) :
    KeepsO fs s0 (execStageCopyDone a1) := by
  simp only [List.cons_subset, List.nil_subset, and_true] at hm
  simp (maxDischargeDepth := 60) +contextual only [execStageCopyDone, h1, List.cons_subset, hm, List.nil_subset, and_self, stageCopyDone_keeps, keepsO_next]
theorem startCkpt_keeps {fs : List Field} {s0 : State} {a1 : Nat} {a2 : State} (h2 : Keeps fs s0 a2) (hm : [.regs, .step, .out] ⊆ fs := by first | assumption | (refine List.Subset.trans ?_ (by assumption); simp) | simp) :
    Keeps fs s0 (startCkpt a1 a2) := by
  simp only [List.cons_subset, List.nil_subset, and_true] at hm
  simp (maxDischargeDepth := 60) +contextual only [startCkpt, h2, List.cons_subset, hm, List.nil_subset, and_self, keeps_step, addFld_keeps, logErr_keeps, setStage_keeps, setFld_keeps, keeps_ite]
theorem sendSheaf_keeps {fs : List Field} {s0 : State} {a1 : Nat} {a2 : State} (h2 : Keeps fs s0 a2) (hm : [.regs, .slots, .tasks, .ctrs, .cores, .clusters, .mem, .granger, .streams, .coll, .control, .step, .power, .traces, .out] ⊆ fs := by first | assumption | (refine List.Subset.trans ?_ (by assumption); simp) | simp) :
    Keeps fs s0 (sendSheaf a1 a2) := by
  simp only [List.cons_subset, List.nil_subset, and_true] at hm
  simp (maxDischargeDepth := 60) +contextual only [sendSheaf, h2, List.cons_subset, hm, List.nil_subset, and_self, partnerPut_keeps, keeps_ite]
theorem finishCommit_keeps {fs : List Field} {s0 : State} {a1 : Nat} {a2 : Nat} {a3 : State} (h3 : Keeps fs s0 a3) (hm : [.regs, .slots, .tasks, .ctrs, .cores, .clusters, .mem, .granger, .streams, .coll, .control, .step, .power, .traces, .out] ⊆ fs := by first | assumption | (refine List.Subset.trans ?_ (by assumption); simp) | simp) :
    Keeps fs s0 (finishCommit a1 a2 a3) := by
  simp only [List.cons_subset, List.nil_subset, and_true] at hm
  simp (maxDischargeDepth := 60) +contextual only [finishCommit, reduceCtorEq, h3, List.cons_subset, hm, List.nil_subset, and_self, sheafEnd_keeps, sendSheaf_keeps, wr_keeps, recordFault_keeps, keeps_ite, setFld_keeps, endSlot_keeps, event_keeps, keeps_granger_step, endCursor_keeps, setPhase_keeps]
theorem foghornCommit_keeps {fs : List Field} {s0 : State} {a1 : State} (h1 : Keeps fs s0 a1) (hm : [.regs] ⊆ fs := by first | assumption | (refine List.Subset.trans ?_ (by assumption); simp) | simp) :
    Keeps fs s0 (foghornCommit a1) := by
  simp only [List.cons_subset, List.nil_subset, and_true] at hm
  simp (maxDischargeDepth := 60) +contextual only [foghornCommit, h1, List.cons_subset, hm, List.nil_subset, and_self, wr_keeps, keeps_ite]
theorem wrLane_keeps {fs : List Field} {s0 : State} {a1 : State} {a2 : Nat} {a3 : Lane} (h1 : Keeps fs s0 a1) (hm : [.cores, .mem] ⊆ fs := by first | assumption | (refine List.Subset.trans ?_ (by assumption); simp) | simp) :
    Keeps fs s0 (wrLane a1 a2 a3) := by
  simp only [List.cons_subset, List.nil_subset, and_true] at hm
  simp (maxDischargeDepth := 60) +contextual only [wrLane, h1, List.cons_subset, hm, List.nil_subset, and_self, writeMem_keeps]
theorem tallyRow_keeps {fs : List Field} {s0 : State} {a1 : Nat} {a2 : Nat} {a3 : Nat} {a4 : Nat} {a5 : Nat} {a6 : Bool} {a7 : State} {a8 : Nat} (h7 : Keeps fs s0 a7) (hm : [.cores, .mem] ⊆ fs := by first | assumption | (refine List.Subset.trans ?_ (by assumption); simp) | simp) :
    Keeps fs s0 (tallyRow a1 a2 a3 a4 a5 a6 a7 a8) := by
  simp only [List.cons_subset, List.nil_subset, and_true] at hm
  simp (maxDischargeDepth := 60) +contextual only [tallyRow]
  repeat' (split <;> (try simp (maxDischargeDepth := 60) +contextual only [List.cons_subset, List.nil_subset, and_self, wr64_keeps, wrLane_keeps, h7, hm]))
  all_goals (first | done | assumption)
theorem tallyRecord_keeps {fs : List Field} {s0 : State} {a1 : Nat} {a2 : State} (h2 : Keeps fs s0 a2) (hm : [.cores, .mem] ⊆ fs := by first | assumption | (refine List.Subset.trans ?_ (by assumption); simp) | simp) :
    Keeps fs s0 (tallyRecord a1 a2) := by
  simp only [List.cons_subset, List.nil_subset, and_true] at hm
  simp (maxDischargeDepth := 60) +contextual only [tallyRecord, List.cons_subset, hm, List.nil_subset, and_self, tallyRow_keeps, implies_true, h2, keeps_foldl, wr64_keeps]
theorem tallyCommit_keeps {fs : List Field} {s0 : State} {a1 : State} {a2 : Nat × Nat} (h1 : Keeps fs s0 a1) (hm : [.regs, .slots, .tasks, .ctrs, .cores, .clusters, .mem, .granger, .streams, .coll, .control, .step, .power, .traces, .out, .free] ⊆ fs := by first | assumption | (refine List.Subset.trans ?_ (by assumption); simp) | simp) :
    Keeps fs s0 (tallyCommit a1 a2) := by
  simp only [List.cons_subset, List.nil_subset, and_true] at hm
  simp (maxDischargeDepth := 60) +contextual only [tallyCommit]
  repeat' (split <;> (try simp (maxDischargeDepth := 60) +contextual only [keeps_ite, keeps_foldl, List.cons_subset, List.nil_subset, and_self, implies_true, keeps_step, recode_keeps, tallyRecord_keeps, noteVersion_keeps, logErr_keeps, event_keeps, countPoison_keeps, h1, hm]))
  all_goals (first | done | assumption)
theorem tallyCommits_keeps {fs : List Field} {s0 : State} {a1 : State} (h1 : Keeps fs s0 a1) (hm : [.regs, .slots, .tasks, .ctrs, .cores, .clusters, .mem, .granger, .streams, .coll, .control, .step, .power, .traces, .out, .free] ⊆ fs := by first | assumption | (refine List.Subset.trans ?_ (by assumption); simp) | simp) :
    Keeps fs s0 (tallyCommits a1) := by
  simp only [List.cons_subset, List.nil_subset, and_true] at hm
  simp (maxDischargeDepth := 60) +contextual only [tallyCommits, List.cons_subset, hm, List.nil_subset, and_self, tallyCommit_keeps, implies_true, h1, keeps_foldl]
theorem flushSlot_keeps {fs : List Field} {s0 : State} {a1 : Nat} {a2 : State} (h2 : Keeps fs s0 a2) (hm : [.regs, .cores, .clusters, .mem, .granger, .net, .out, .free] ⊆ fs := by first | assumption | (refine List.Subset.trans ?_ (by assumption); simp) | simp) :
    Keeps fs s0 (flushSlot a1 a2) := by
  simp only [List.cons_subset, List.nil_subset, and_true] at hm
  simp (maxDischargeDepth := 60) +contextual only [flushSlot, List.cons_subset, hm, List.nil_subset, and_self, l1Flush_keeps, implies_true, h2, keeps_foldl]
theorem stepCommit_keeps {fs : List Field} {s0 : State} {a1 : State} (h1 : Keeps fs s0 a1) (hm : [.regs, .slots, .tasks, .ctrs, .cores, .clusters, .mem, .granger, .streams, .net, .coll, .control, .step, .power, .traces, .out, .free] ⊆ fs := by first | assumption | (refine List.Subset.trans ?_ (by assumption); simp) | simp) :
    Keeps fs s0 (stepCommit a1) := by
  simp only [List.cons_subset, List.nil_subset, and_true] at hm
  simp (maxDischargeDepth := 60) +contextual only [stepCommit]
  repeat' (split <;> (try simp (maxDischargeDepth := 60) +contextual only [keeps_ite, List.cons_subset, List.nil_subset, and_self, keeps_coll_step, startCkpt_keeps, retireTags_keeps, finishCommit_keeps, commitMoves_keeps, pinMoves_keeps, dropChanged_keeps, commitWork_keeps, commitShares_keeps, addReg_keeps, foghornCommit_keeps, tallyCommits_keeps, adoptShadows_keeps, freeShadows_keeps, flushSlot_keeps, setPhase_keeps, h1, hm]))
  all_goals (first | done | assumption)
theorem execStepCommit_keeps {fs : List Field} {s0 : State} {a1 : State} (h1 : Keeps fs s0 a1) (hm : [.regs, .slots, .tasks, .ctrs, .cores, .clusters, .mem, .granger, .streams, .net, .coll, .control, .step, .power, .traces, .out, .free] ⊆ fs := by first | assumption | (refine List.Subset.trans ?_ (by assumption); simp) | simp) :
    KeepsO fs s0 (execStepCommit a1) := by
  simp only [List.cons_subset, List.nil_subset, and_true] at hm
  simp (maxDischargeDepth := 60) +contextual only [execStepCommit, h1, List.cons_subset, hm, List.nil_subset, and_self, stepCommit_keeps, keepsO_next]
theorem stepTimeout_keeps {fs : List Field} {s0 : State} {a1 : State} (h1 : Keeps fs s0 a1) (hm : [.regs, .slots, .tasks, .ctrs, .cores, .clusters, .mem, .granger, .coll, .control, .step, .power, .traces, .out] ⊆ fs := by first | assumption | (refine List.Subset.trans ?_ (by assumption); simp) | simp) :
    Keeps fs s0 (stepTimeout a1) := by
  simp only [List.cons_subset, List.nil_subset, and_true] at hm
  simp (maxDischargeDepth := 60) +contextual only [stepTimeout]
  repeat' (split <;> (try simp (maxDischargeDepth := 60) +contextual only [keeps_ite, List.cons_subset, List.nil_subset, and_self, fault_keeps, run_keeps, discard_keeps, recordFault_keeps, h1, hm]))
  all_goals (first | done | assumption)
theorem execStepTimeout_keeps {fs : List Field} {s0 : State} {a1 : State} (h1 : Keeps fs s0 a1) (hm : [.regs, .slots, .tasks, .ctrs, .cores, .clusters, .mem, .granger, .coll, .control, .step, .power, .traces, .out] ⊆ fs := by first | assumption | (refine List.Subset.trans ?_ (by assumption); simp) | simp) :
    KeepsO fs s0 (execStepTimeout a1) := by
  simp only [List.cons_subset, List.nil_subset, and_true] at hm
  simp (maxDischargeDepth := 60) +contextual only [execStepTimeout, h1, List.cons_subset, hm, List.nil_subset, and_self, stepTimeout_keeps, keepsO_next]
theorem vote_keeps {fs : List Field} {s0 : State} {a1 : Nat} {a2 : State} (h2 : Keeps fs s0 a2) (hm : [.regs, .slots, .tasks, .ctrs, .cores, .clusters, .mem, .granger, .streams, .coll, .control, .step, .power, .traces, .out] ⊆ fs := by first | assumption | (refine List.Subset.trans ?_ (by assumption); simp) | simp) :
    Keeps fs s0 (vote a1 a2) := by
  simp only [List.cons_subset, List.nil_subset, and_true] at hm
  simp (maxDischargeDepth := 60) +contextual only [vote, h2, List.cons_subset, hm, List.nil_subset, and_self, keeps_step, setSlot_keeps, setPhase_keeps, collEnter_keeps, keeps_ite]
theorem stepVote_keeps {fs : List Field} {s0 : State} {a1 : State} (h1 : Keeps fs s0 a1) (hm : [.regs, .slots, .tasks, .ctrs, .cores, .clusters, .mem, .granger, .streams, .coll, .control, .step, .power, .traces, .out] ⊆ fs := by first | assumption | (refine List.Subset.trans ?_ (by assumption); simp) | simp) :
    Keeps fs s0 (stepVote a1) := by
  simp only [List.cons_subset, List.nil_subset, and_true] at hm
  simp (maxDischargeDepth := 60) +contextual only [stepVote]
  repeat' (split <;> (try simp (maxDischargeDepth := 60) +contextual only [keeps_ite, List.cons_subset, List.nil_subset, and_self, keeps_step, vote_keeps, foghornFail_keeps, fault_keeps, h1, hm]))
  all_goals (first | done | assumption)
theorem execStepVote_keeps {fs : List Field} {s0 : State} {a1 : State} (h1 : Keeps fs s0 a1) (hm : [.regs, .slots, .tasks, .ctrs, .cores, .clusters, .mem, .granger, .streams, .coll, .control, .step, .power, .traces, .out] ⊆ fs := by first | assumption | (refine List.Subset.trans ?_ (by assumption); simp) | simp) :
    KeepsO fs s0 (execStepVote a1) := by
  simp only [List.cons_subset, List.nil_subset, and_true] at hm
  simp (maxDischargeDepth := 60) +contextual only [execStepVote, h1, List.cons_subset, hm, List.nil_subset, and_self, stepVote_keeps, keepsO_next]
theorem storeDone_keeps {fs : List Field} {s0 : State} {a1 : Word} {a2 : State} (h2 : Keeps fs s0 a2) (hm : [.regs, .step, .out] ⊆ fs := by first | assumption | (refine List.Subset.trans ?_ (by assumption); simp) | simp) :
    Keeps fs s0 (storeDone a1 a2) := by
  simp only [List.cons_subset, List.nil_subset, and_true] at hm
  simp (maxDischargeDepth := 60) +contextual only [storeDone, h2, List.cons_subset, hm, List.nil_subset, and_self, reservedWrite_keeps, keeps_step, stageSettle_keeps, keeps_ite]
theorem execStoreDone_keeps {fs : List Field} {s0 : State} {a1 : Word} {a2 : State} (h2 : Keeps fs s0 a2) (hm : [.regs, .step, .out] ⊆ fs := by first | assumption | (refine List.Subset.trans ?_ (by assumption); simp) | simp) :
    KeepsO fs s0 (execStoreDone a1 a2) := by
  simp only [List.cons_subset, List.nil_subset, and_true] at hm
  simp (maxDischargeDepth := 60) +contextual only [execStoreDone, h2, List.cons_subset, hm, List.nil_subset, and_self, storeDone_keeps, keepsO_next]
theorem execWverWrite_keeps {fs : List Field} {s0 : State} {a1 : Word} {a2 : State} (h2 : Keeps fs s0 a2) (hm : [.regs, .out] ⊆ fs := by first | assumption | (refine List.Subset.trans ?_ (by assumption); simp) | simp) :
    KeepsO fs s0 (execWverWrite a1 a2) := by
  simp only [List.cons_subset, List.nil_subset, and_true] at hm
  simp (maxDischargeDepth := 60) +contextual only [execWverWrite, h2, List.cons_subset, hm, List.nil_subset, and_self, quietWrite_keeps, keepsO_next]
theorem sheafAbort_keeps {fs : List Field} {s0 : State} {a1 : Nat} {a2 : State} (h2 : Keeps fs s0 a2) (hm : [.cores, .mem, .step] ⊆ fs := by first | assumption | (refine List.Subset.trans ?_ (by assumption); simp) | simp) :
    Keeps fs s0 (sheafAbort a1 a2) := by
  simp only [List.cons_subset, List.nil_subset, and_true] at hm
  simp (maxDischargeDepth := 60) +contextual only [sheafAbort, h2, List.cons_subset, hm, List.nil_subset, and_self, sheafEnd_keeps, keeps_step, keeps_ite]
theorem abortEnd_keeps {fs : List Field} {s0 : State} {a1 : Nat} {a2 : State} (h2 : Keeps fs s0 a2) (hm : [.regs, .slots, .cores, .mem, .step, .power, .traces] ⊆ fs := by first | assumption | (refine List.Subset.trans ?_ (by assumption); simp) | simp) :
    Keeps fs s0 (abortEnd a1 a2) := by
  simp only [List.cons_subset, List.nil_subset, and_true] at hm
  simp (maxDischargeDepth := 60) +contextual only [abortEnd, h2, List.cons_subset, hm, List.nil_subset, and_self, sheafAbort_keeps, closeStep_keeps, endSlot_keeps]
theorem abortRunning_keeps {fs : List Field} {s0 : State} {a1 : Nat} {a2 : State} (h2 : Keeps fs s0 a2) (hm : [.regs, .slots, .tasks, .ctrs, .cores, .clusters, .mem, .granger, .coll, .control, .step, .power, .traces, .out] ⊆ fs := by first | assumption | (refine List.Subset.trans ?_ (by assumption); simp) | simp) :
    Keeps fs s0 (abortRunning a1 a2) := by
  simp only [List.cons_subset, List.nil_subset, and_true] at hm
  simp (maxDischargeDepth := 60) +contextual only [abortRunning, h2, List.cons_subset, hm, List.nil_subset, and_self, keeps_step, discardActions_keeps, abortEnd_keeps, run_keeps, stopTasks_keeps, retireTags_keeps, keeps_ite]
theorem abortPlaced_keeps {fs : List Field} {s0 : State} {a1 : Nat} {a2 : State} (h2 : Keeps fs s0 a2) (hm : [.regs, .slots, .tasks, .cores, .clusters, .mem, .granger, .step, .power, .traces] ⊆ fs := by first | assumption | (refine List.Subset.trans ?_ (by assumption); simp) | simp) :
    Keeps fs s0 (abortPlaced a1 a2) := by
  simp only [List.cons_subset, List.nil_subset, and_true] at hm
  simp (maxDischargeDepth := 60) +contextual only [abortPlaced, h2, List.cons_subset, hm, List.nil_subset, and_self, keeps_step, keeps_ite, dropPlacement_keeps, abortEnd_keeps]
theorem abort_keeps {fs : List Field} {s0 : State} {a1 : Nat} {a2 : State} (h2 : Keeps fs s0 a2) (hm : [.regs, .slots, .tasks, .ctrs, .cores, .clusters, .mem, .granger, .coll, .control, .step, .power, .traces, .out] ⊆ fs := by first | assumption | (refine List.Subset.trans ?_ (by assumption); simp) | simp) :
    Keeps fs s0 (abort a1 a2) := by
  simp only [List.cons_subset, List.nil_subset, and_true] at hm
  simp (maxDischargeDepth := 60) +contextual only [abort]
  repeat' (split <;> (try simp (maxDischargeDepth := 60) +contextual only [List.cons_subset, List.nil_subset, and_self, logErr_keeps, abortRunning_keeps, abortPlaced_keeps, h2, hm]))
  all_goals (first | done | assumption)
theorem execAbort_keeps {fs : List Field} {s0 : State} {a1 : Fin 64} {a2 : State} (h2 : Keeps fs s0 a2) (hm : [.regs, .slots, .tasks, .ctrs, .cores, .clusters, .mem, .granger, .coll, .control, .step, .power, .traces, .out] ⊆ fs := by first | assumption | (refine List.Subset.trans ?_ (by assumption); simp) | simp) :
    KeepsO fs s0 (execAbort a1 a2) := by
  simp only [List.cons_subset, List.nil_subset, and_true] at hm
  simp (maxDischargeDepth := 60) +contextual only [execAbort, h2, List.cons_subset, hm, List.nil_subset, and_self, abort_keeps, keepsO_next]
theorem hostLink_keeps {fs : List Field} {s0 : State} {a1 : Nat} {a2 : Nat} {a3 : Nat} {a4 : State} (h4 : Keeps fs s0 a4) (hm : [.regs] ⊆ fs := by first | assumption | (refine List.Subset.trans ?_ (by assumption); simp) | simp) :
    Keeps fs s0 (hostLink a1 a2 a3 a4) := by
  simp only [List.cons_subset, List.nil_subset, and_true] at hm
  simp (maxDischargeDepth := 60) +contextual only [hostLink, h4, List.cons_subset, hm, List.nil_subset, and_self, setFld_keeps]
theorem execHostLinkStateChange_keeps {fs : List Field} {s0 : State} {a1 : Fin 3} {a2 : Fin 32} {a3 : Fin 16} {a4 : State} (h4 : Keeps fs s0 a4) (hm : [.regs] ⊆ fs := by first | assumption | (refine List.Subset.trans ?_ (by assumption); simp) | simp) :
    KeepsO fs s0 (execHostLinkStateChange a1 a2 a3 a4) := by
  simp only [List.cons_subset, List.nil_subset, and_true] at hm
  simp (maxDischargeDepth := 60) +contextual only [execHostLinkStateChange, h4, List.cons_subset, hm, List.nil_subset, and_self, hostLink_keeps, keepsO_next]
theorem ideIntegrityFail_keeps {fs : List Field} {s0 : State} {a1 : State} (h1 : Keeps fs s0 a1) (hm : [.out] ⊆ fs := by first | assumption | (refine List.Subset.trans ?_ (by assumption); simp) | simp) :
    Keeps fs s0 (ideIntegrityFail a1) := by
  simp only [List.cons_subset, List.nil_subset, and_true] at hm
  simp (maxDischargeDepth := 60) +contextual only [ideIntegrityFail, h1, List.cons_subset, hm, List.nil_subset, and_self, keeps_out]
theorem execIdeIntegrityFail_keeps {fs : List Field} {s0 : State} {a1 : State} (h1 : Keeps fs s0 a1) (hm : [.out] ⊆ fs := by first | assumption | (refine List.Subset.trans ?_ (by assumption); simp) | simp) :
    KeepsO fs s0 (execIdeIntegrityFail a1) := by
  simp only [List.cons_subset, List.nil_subset, and_true] at hm
  simp (maxDischargeDepth := 60) +contextual only [execIdeIntegrityFail, h1, List.cons_subset, hm, List.nil_subset, and_self, ideIntegrityFail_keeps, keepsO_next]
theorem mirrorWrite_keeps {fs : List Field} {s0 : State} {a1 : Nat} {a2 : State} (h2 : Keeps fs s0 a2) (hm : [.slots] ⊆ fs := by first | assumption | (refine List.Subset.trans ?_ (by assumption); simp) | simp) :
    Keeps fs s0 (mirrorWrite a1 a2) := by
  simp only [List.cons_subset, List.nil_subset, and_true] at hm
  simp (maxDischargeDepth := 60) +contextual only [mirrorWrite, h2, List.cons_subset, hm, List.nil_subset, and_self, setSlot_keeps, keeps_ite]
theorem execMirrorWrite_keeps {fs : List Field} {s0 : State} {a1 : Fin 64} {a2 : State} (h2 : Keeps fs s0 a2) (hm : [.slots] ⊆ fs := by first | assumption | (refine List.Subset.trans ?_ (by assumption); simp) | simp) :
    KeepsO fs s0 (execMirrorWrite a1 a2) := by
  simp only [List.cons_subset, List.nil_subset, and_true] at hm
  simp (maxDischargeDepth := 60) +contextual only [execMirrorWrite, h2, List.cons_subset, hm, List.nil_subset, and_self, mirrorWrite_keeps, keepsO_next]
theorem partialRead_keeps {fs : List Field} {s0 : State} {a1 : Nat} {a2 : Nat} {a3 : Nat} {a4 : State} (h4 : Keeps fs s0 a4) (hm : [.regs, .slots, .tasks, .ctrs, .cores, .clusters, .mem, .granger, .streams, .coll, .control, .step, .power, .traces, .out, .free] ⊆ fs := by first | assumption | (refine List.Subset.trans ?_ (by assumption); simp) | simp) :
    Keeps fs s0 (partialRead a1 a2 a3 a4) := by
  simp only [List.cons_subset, List.nil_subset, and_true] at hm
  simp (maxDischargeDepth := 60) +contextual only [partialRead]
  repeat' (split <;> (try simp (maxDischargeDepth := 60) +contextual only [List.cons_subset, List.nil_subset, and_self, homeAccesses_keeps, countPoison_keeps, addReg_keeps, logErr_keeps, hostRefused_keeps, replyData_keeps, h4, hm]))
  all_goals (first | done | assumption)
theorem execPartialRead_keeps {fs : List Field} {s0 : State} {a1 : Fin 64} {a2 : BitVec 16} {a3 : Nat} {a4 : State} (h4 : Keeps fs s0 a4) (hm : [.regs, .slots, .tasks, .ctrs, .cores, .clusters, .mem, .granger, .streams, .coll, .control, .step, .power, .traces, .out, .free] ⊆ fs := by first | assumption | (refine List.Subset.trans ?_ (by assumption); simp) | simp) :
    KeepsO fs s0 (execPartialRead a1 a2 a3 a4) := by
  simp only [List.cons_subset, List.nil_subset, and_true] at hm
  simp (maxDischargeDepth := 60) +contextual only [execPartialRead, h4, List.cons_subset, hm, List.nil_subset, and_self, partialRead_keeps, keepsO_next]
theorem release_keeps {fs : List Field} {s0 : State} {a1 : Nat} {a2 : State} (h2 : Keeps fs s0 a2) (hm : [.regs, .slots, .out] ⊆ fs := by first | assumption | (refine List.Subset.trans ?_ (by assumption); simp) | simp) :
    Keeps fs s0 (release a1 a2) := by
  simp only [List.cons_subset, List.nil_subset, and_true] at hm
  simp (maxDischargeDepth := 60) +contextual only [release]
  repeat' (split <;> (try simp (maxDischargeDepth := 60) +contextual only [List.cons_subset, List.nil_subset, and_self, logErr_keeps, setSlot_keeps, h2, hm]))
  all_goals (first | done | assumption)
theorem execRelease_keeps {fs : List Field} {s0 : State} {a1 : Fin 64} {a2 : State} (h2 : Keeps fs s0 a2) (hm : [.regs, .slots, .out] ⊆ fs := by first | assumption | (refine List.Subset.trans ?_ (by assumption); simp) | simp) :
    KeepsO fs s0 (execRelease a1 a2) := by
  simp only [List.cons_subset, List.nil_subset, and_true] at hm
  simp (maxDischargeDepth := 60) +contextual only [execRelease, h2, List.cons_subset, hm, List.nil_subset, and_self, release_keeps, keepsO_next]
theorem slotWritebackDone_keeps {fs : List Field} {s0 : State} {a1 : Nat} {a2 : State} (h2 : Keeps fs s0 a2) (hm : [.regs, .slots, .cores, .clusters, .mem, .granger, .net, .power, .out, .free] ⊆ fs := by first | assumption | (refine List.Subset.trans ?_ (by assumption); simp) | simp) :
    Keeps fs s0 (slotWritebackDone a1 a2) := by
  simp only [List.cons_subset, List.nil_subset, and_true] at hm
  simp (maxDischargeDepth := 60) +contextual only [slotWritebackDone, h2, List.cons_subset, hm, List.nil_subset, and_self, flushSlot_keeps, endSlot_keeps, keeps_ite]
theorem execSlotWritebackDone_keeps {fs : List Field} {s0 : State} {a1 : Fin 64} {a2 : State} (h2 : Keeps fs s0 a2) (hm : [.regs, .slots, .cores, .clusters, .mem, .granger, .net, .power, .out, .free] ⊆ fs := by first | assumption | (refine List.Subset.trans ?_ (by assumption); simp) | simp) :
    KeepsO fs s0 (execSlotWritebackDone a1 a2) := by
  simp only [List.cons_subset, List.nil_subset, and_true] at hm
  simp (maxDischargeDepth := 60) +contextual only [execSlotWritebackDone, h2, List.cons_subset, hm, List.nil_subset, and_self, slotWritebackDone_keeps, keepsO_next]
theorem uioRead_keeps {fs : List Field} {s0 : State} {a1 : Nat} {a2 : Sender} {a3 : State} (h3 : Keeps fs s0 a3) (hm : [.regs, .slots, .tasks, .ctrs, .cores, .clusters, .mem, .granger, .streams, .dmas, .net, .coll, .control, .step, .power, .traces, .out, .free] ⊆ fs := by first | assumption | (refine List.Subset.trans ?_ (by assumption); simp) | simp) :
    Keeps fs s0 (uioRead a1 a2 a3) := by
  simp only [List.cons_subset, List.nil_subset, and_true] at hm
  simp (maxDischargeDepth := 60) +contextual only [uioRead]
  repeat' (split <;> (try simp (maxDischargeDepth := 60) +contextual only [keeps_ite, List.cons_subset, List.nil_subset, and_self, endWith_keeps, dmaFail_keeps, streamComplete_keeps, reComplete_keeps, addReg_keeps, replyData_keeps, takeTrap_keeps, meetPoison_keeps, h3, hm]))
  all_goals (first | done | assumption)
theorem uioFailure_keeps {fs : List Field} {s0 : State} {a1 : Nat} {a2 : Sender} {a3 : Bool} {a4 : State} (h4 : Keeps fs s0 a4) (hm : [.regs, .slots, .tasks, .ctrs, .cores, .clusters, .mem, .granger, .streams, .dmas, .net, .coll, .control, .step, .power, .traces, .out, .free] ⊆ fs := by first | assumption | (refine List.Subset.trans ?_ (by assumption); simp) | simp) :
    Keeps fs s0 (uioFailure a1 a2 a3 a4) := by
  simp only [List.cons_subset, List.nil_subset, and_true] at hm
  simp (maxDischargeDepth := 60) +contextual only [uioFailure]
  repeat' (split <;> (try simp (maxDischargeDepth := 60) +contextual only [keeps_ite, List.cons_subset, List.nil_subset, and_self, uioRead_keeps, poisonLine_keeps, addReg_keeps, h4, hm]))
  all_goals (first | done | assumption)
theorem execUioFailure_keeps {fs : List Field} {s0 : State} {a1 : BitVec 48} {a2 : Sender} {a3 : Bool} {a4 : State} (h4 : Keeps fs s0 a4) (hm : [.regs, .slots, .tasks, .ctrs, .cores, .clusters, .mem, .granger, .streams, .dmas, .net, .coll, .control, .step, .power, .traces, .out, .free] ⊆ fs := by first | assumption | (refine List.Subset.trans ?_ (by assumption); simp) | simp) :
    KeepsO fs s0 (execUioFailure a1 a2 a3 a4) := by
  simp only [List.cons_subset, List.nil_subset, and_true] at hm
  simp (maxDischargeDepth := 60) +contextual only [execUioFailure, h4, List.cons_subset, hm, List.nil_subset, and_self, uioFailure_keeps, keepsO_next, keepsO_refused, keepsO_ite]
theorem markStaged_keeps {fs : List Field} {s0 : State} {a1 : PageRef} {a2 : State} (h2 : Keeps fs s0 a2) (hm : [.regs] ⊆ fs := by first | assumption | (refine List.Subset.trans ?_ (by assumption); simp) | simp) :
    Keeps fs s0 (markStaged a1 a2) := by
  simp only [List.cons_subset, List.nil_subset, and_true] at hm
  simp (maxDischargeDepth := 60) +contextual only [markStaged, h2, List.cons_subset, hm, List.nil_subset, and_self, setFld_keeps]
theorem storeReg_keeps {fs : List Field} {s0 : State} {a1 : PageRef} {a2 : Nat} {a3 : Nat} {a4 : Word} {a5 : State} (h5 : Keeps fs s0 a5) (hm : [.regs] ⊆ fs := by first | assumption | (refine List.Subset.trans ?_ (by assumption); simp) | simp) :
    Keeps fs s0 (storeReg a1 a2 a3 a4 a5) := by
  simp only [List.cons_subset, List.nil_subset, and_true] at hm
  simp (maxDischargeDepth := 60) +contextual only [storeReg, h5, List.cons_subset, hm, List.nil_subset, and_self, wr_keeps]
theorem plainWrite_keeps {fs : List Field} {s0 : State} {a1 : PageRef} {a2 : Nat} {a3 : Word} {a4 : State} (h4 : Keeps fs s0 a4) (hm : [.regs, .out] ⊆ fs := by first | assumption | (refine List.Subset.trans ?_ (by assumption); simp) | simp) :
    Keeps fs s0 (plainWrite a1 a2 a3 a4) := by
  simp only [List.cons_subset, List.nil_subset, and_true] at hm
  simp (maxDischargeDepth := 60) +contextual only [plainWrite]
  repeat' (split <;> (try simp (maxDischargeDepth := 60) +contextual only [keeps_ite, List.cons_subset, List.nil_subset, and_self, markStaged_keeps, storeReg_keeps, reservedWrite_keeps, logErr_keeps, h4, hm]))
  all_goals (first | done | assumption)
theorem cfgWrite_keeps {fs : List Field} {s0 : State} {a1 : PageRef} {a2 : Nat} {a3 : Word} {a4 : State} (h4 : Keeps fs s0 a4) (hm : [.regs, .out] ⊆ fs := by first | assumption | (refine List.Subset.trans ?_ (by assumption); simp) | simp) :
    Keeps fs s0 (cfgWrite a1 a2 a3 a4) := by
  simp only [List.cons_subset, List.nil_subset, and_true] at hm
  simp (maxDischargeDepth := 60) +contextual only [cfgWrite, h4, List.cons_subset, hm, List.nil_subset, and_self, plainWrite_keeps, logIf_keeps]
theorem evselWrite_keeps {fs : List Field} {s0 : State} {a1 : PageRef} {a2 : Block} {a3 : Nat} {a4 : Word} {a5 : State} (h5 : Keeps fs s0 a5) (hm : [.regs, .out] ⊆ fs := by first | assumption | (refine List.Subset.trans ?_ (by assumption); simp) | simp) :
    Keeps fs s0 (evselWrite a1 a2 a3 a4 a5) := by
  simp only [List.cons_subset, List.nil_subset, and_true] at hm
  simp (maxDischargeDepth := 60) +contextual only [evselWrite, h5, List.cons_subset, hm, List.nil_subset, and_self, plainWrite_keeps, logIf_keeps]

end Sys2Proof.Laws
end

