-- ==== Sys2Proof/Laws/KeepsKeeper.lean ====
section
/-! SUPPORT. What the operations keep (see Laws/Keeps.lean): the Keeper, commits, power, the chain, the mailbox. -/

namespace Sys2Proof.Laws

set_option Elab.async false

open Sys2Proof.Machine Sys2Proof.Safety

theorem bankChanged_keeps {fs : List Field} {s0 : State} {a1 : State} (h1 : Keeps fs s0 a1) (hm : [.keeper] ⊆ fs := by first | assumption | (refine List.Subset.trans ?_ (by assumption); simp) | simp) :
    Keeps fs s0 (bankChanged a1) := by
  simp only [List.cons_subset, List.nil_subset, and_true] at hm
  simp (maxDischargeDepth := 60) +contextual only [bankChanged, h1, List.cons_subset, hm, List.nil_subset, and_self, keeps_keeper]
theorem switchImage_keeps {fs : List Field} {s0 : State} {a1 : Bool} {a2 : State} (h2 : Keeps fs s0 a2) (hm : [.keeper] ⊆ fs := by first | assumption | (refine List.Subset.trans ?_ (by assumption); simp) | simp) :
    Keeps fs s0 (switchImage a1 a2) := by
  simp only [List.cons_subset, List.nil_subset, and_true] at hm
  simp (maxDischargeDepth := 60) +contextual only [switchImage, h2, List.cons_subset, hm, List.nil_subset, and_self, keeps_keeper, bankChanged_keeps]
theorem fenceDisabled_keeps {fs : List Field} {s0 : State} {a1 : State} (h1 : Keeps fs s0 a1) (hm : [.regs, .granger] ⊆ fs := by first | assumption | (refine List.Subset.trans ?_ (by assumption); simp) | simp) :
    Keeps fs s0 (fenceDisabled a1) := by
  simp only [List.cons_subset, List.nil_subset, and_true] at hm
  simp (maxDischargeDepth := 60) +contextual only [fenceDisabled, List.cons_subset, hm, List.nil_subset, and_self, markFenced_keeps, implies_true, h1, keeps_foldl]
theorem resetBlocks_keeps {fs : List Field} {s0 : State} {a1 : State} (h1 : Keeps fs s0 a1) (hm : [.now, .beacon, .regs, .slots, .tasks, .ctrs, .cores, .clusters, .mem, .granger, .streams, .dmas, .dmaNext, .net, .ports, .coll, .control, .step, .keeper, .power, .traces, .snaps, .commits] ⊆ fs := by first | assumption | (refine List.Subset.trans ?_ (by assumption); simp) | simp) :
    Keeps fs s0 (resetBlocks a1) := by
  refine fenceDisabled_keeps ⟨fun f hf => ?_, fun _ => rfl, fun _ => (by decide : 0 < 2 ^ 64)⟩
  have k := h1.frame f hf
  cases f <;> first | exact k | exact absurd (hm (by simp)) hf
theorem activationTime_keeps {fs : List Field} {s0 : State} {a1 : State} (h1 : Keeps fs s0 a1) (hm : [.now, .beacon, .regs, .slots, .tasks, .ctrs, .cores, .clusters, .mem, .granger, .streams, .dmas, .dmaNext, .net, .ports, .coll, .control, .step, .keeper, .power, .traces, .snaps, .commits, .out] ⊆ fs := by first | assumption | (refine List.Subset.trans ?_ (by assumption); simp) | simp) :
    Keeps fs s0 (activationTime a1) := by
  simp only [List.cons_subset, List.nil_subset, and_true] at hm
  simp (maxDischargeDepth := 60) +contextual only [activationTime, h1, List.cons_subset, hm, List.nil_subset, and_self, switchImage_keeps, resetBlocks_keeps, keeps_keeper, bankChanged_keeps, chainEvent_keeps, keeps_ite]
theorem confirmImage_keeps {fs : List Field} {s0 : State} {a1 : Nat} {a2 : State} (h2 : Keeps fs s0 a2) (hm : [.keeper] ⊆ fs := by first | assumption | (refine List.Subset.trans ?_ (by assumption); simp) | simp) :
    Keeps fs s0 (confirmImage a1 a2).2 := by
  simp only [List.cons_subset, List.nil_subset, and_true] at hm
  simp (maxDischargeDepth := 60) +contextual only [confirmImage, apply_ite Prod.snd, h2, List.cons_subset, hm, List.nil_subset, and_self, keeps_keeper, bankChanged_keeps, keeps_ite]
theorem fallBack_keeps {fs : List Field} {s0 : State} {a1 : Nat} {a2 : State} (h2 : Keeps fs s0 a2) (hm : [.now, .beacon, .regs, .slots, .tasks, .ctrs, .cores, .clusters, .mem, .granger, .streams, .dmas, .dmaNext, .net, .ports, .coll, .control, .step, .keeper, .power, .traces, .snaps, .commits] ⊆ fs := by first | assumption | (refine List.Subset.trans ?_ (by assumption); simp) | simp) :
    Keeps fs s0 (fallBack a1 a2) := by
  simp only [List.cons_subset, List.nil_subset, and_true] at hm
  simp (maxDischargeDepth := 60) +contextual only [fallBack, h2, List.cons_subset, hm, List.nil_subset, and_self, keeps_keeper, bankChanged_keeps, resetBlocks_keeps]
theorem confirmTimeout_keeps {fs : List Field} {s0 : State} {a1 : State} (h1 : Keeps fs s0 a1) (hm : [.now, .beacon, .regs, .slots, .tasks, .ctrs, .cores, .clusters, .mem, .granger, .streams, .dmas, .dmaNext, .net, .ports, .coll, .control, .step, .keeper, .power, .traces, .snaps, .commits] ⊆ fs := by first | assumption | (refine List.Subset.trans ?_ (by assumption); simp) | simp) :
    Keeps fs s0 (confirmTimeout a1) := by
  simp only [List.cons_subset, List.nil_subset, and_true] at hm
  simp (maxDischargeDepth := 60) +contextual only [confirmTimeout, h1, List.cons_subset, hm, List.nil_subset, and_self, fallBack_keeps, keeps_ite]
theorem deviceReset_keeps {fs : List Field} {s0 : State} {a1 : State} (h1 : Keeps fs s0 a1) (hm : [.now, .beacon, .regs, .slots, .tasks, .ctrs, .cores, .clusters, .mem, .granger, .streams, .dmas, .dmaNext, .net, .ports, .coll, .control, .step, .keeper, .power, .traces, .snaps, .commits] ⊆ fs := by first | assumption | (refine List.Subset.trans ?_ (by assumption); simp) | simp) :
    Keeps fs s0 (deviceReset a1) := by
  simp only [List.cons_subset, List.nil_subset, and_true] at hm
  simp (maxDischargeDepth := 60) +contextual only [deviceReset, h1, List.cons_subset, hm, List.nil_subset, and_self, switchImage_keeps, keeps_ite, resetBlocks_keeps]
theorem enumWaitTimeout_keeps {fs : List Field} {s0 : State} {a1 : State} (h1 : Keeps fs s0 a1) (hm : [.regs, .keeper] ⊆ fs := by first | assumption | (refine List.Subset.trans ?_ (by assumption); simp) | simp) :
    Keeps fs s0 (enumWaitTimeout a1) := by
  simp only [List.cons_subset, List.nil_subset, and_true] at hm
  simp (maxDischargeDepth := 60) +contextual only [enumWaitTimeout, h1, List.cons_subset, hm, List.nil_subset, and_self, setFld_keeps, keeps_keeper, keeps_ite]
theorem setActiveCopy_keeps {fs : List Field} {s0 : State} {a1 : State} {a2 : List (Nat × Word)} (h1 : Keeps fs s0 a1) (hm : [.keeper] ⊆ fs := by first | assumption | (refine List.Subset.trans ?_ (by assumption); simp) | simp) :
    Keeps fs s0 (setActiveCopy a1 a2) := by
  simp only [List.cons_subset, List.nil_subset, and_true] at hm
  simp (maxDischargeDepth := 60) +contextual only [setActiveCopy, h1, List.cons_subset, hm, List.nil_subset, and_self, keeps_keeper, keeps_ite, bankChanged_keeps]
theorem setSetting_keeps {fs : List Field} {s0 : State} {a1 : State} {a2 : Nat} {a3 : Word} (h1 : Keeps fs s0 a1) (hm : [.keeper] ⊆ fs := by first | assumption | (refine List.Subset.trans ?_ (by assumption); simp) | simp) :
    Keeps fs s0 (setSetting a1 a2 a3) := by
  simp only [List.cons_subset, List.nil_subset, and_true] at hm
  simp (maxDischargeDepth := 60) +contextual only [setSetting, h1, List.cons_subset, hm, List.nil_subset, and_self, setActiveCopy_keeps]
theorem eqSeedSave_keeps {fs : List Field} {s0 : State} {a1 : Nat} {a2 : List Word} {a3 : State} (h3 : Keeps fs s0 a3) (hm : [.keeper] ⊆ fs := by first | assumption | (refine List.Subset.trans ?_ (by assumption); simp) | simp) :
    Keeps fs s0 (eqSeedSave a1 a2 a3) := by
  simp only [List.cons_subset, List.nil_subset, and_true] at hm
  simp (maxDischargeDepth := 60) +contextual only [eqSeedSave, h3, List.cons_subset, hm, List.nil_subset, and_self, setSetting_keeps, implies_true, keeps_foldl, keeps_ite]
theorem execActivationTime_keeps {fs : List Field} {s0 : State} {a1 : State} (h1 : Keeps fs s0 a1) (hm : [.now, .beacon, .regs, .slots, .tasks, .ctrs, .cores, .clusters, .mem, .granger, .streams, .dmas, .dmaNext, .net, .ports, .coll, .control, .step, .keeper, .power, .traces, .snaps, .commits, .out] ⊆ fs := by first | assumption | (refine List.Subset.trans ?_ (by assumption); simp) | simp) :
    KeepsO fs s0 (execActivationTime a1) := by
  simp only [List.cons_subset, List.nil_subset, and_true] at hm
  simp (maxDischargeDepth := 60) +contextual only [execActivationTime, h1, List.cons_subset, hm, List.nil_subset, and_self, activationTime_keeps, keepsO_next]
theorem setBoot_keeps {fs : List Field} {s0 : State} {a1 : State} {a2 : Nat} (h1 : Keeps fs s0 a1) (hm : [.regs] ⊆ fs := by first | assumption | (refine List.Subset.trans ?_ (by assumption); simp) | simp) :
    Keeps fs s0 (setBoot a1 a2) := by
  simp only [List.cons_subset, List.nil_subset, and_true] at hm
  simp (maxDischargeDepth := 60) +contextual only [setBoot, h1, List.cons_subset, hm, List.nil_subset, and_self, setFld_keeps]
theorem failBoot_keeps {fs : List Field} {s0 : State} {a1 : Nat} {a2 : State} (h2 : Keeps fs s0 a2) (hm : [.now, .beacon, .regs, .slots, .tasks, .ctrs, .cores, .clusters, .mem, .granger, .streams, .dmas, .dmaNext, .net, .ports, .coll, .control, .step, .keeper, .power, .traces, .snaps, .commits, .out] ⊆ fs := by first | assumption | (refine List.Subset.trans ?_ (by assumption); simp) | simp) :
    Keeps fs s0 (failBoot a1 a2) := by
  simp only [List.cons_subset, List.nil_subset, and_true] at hm
  simp (maxDischargeDepth := 60) +contextual only [failBoot, h2, List.cons_subset, hm, List.nil_subset, and_self, setBoot_keeps, setFld_keeps, chainEvent_keeps, fallBack_keeps, keeps_ite]
theorem showSettings_keeps {fs : List Field} {s0 : State} {a1 : State} (h1 : Keeps fs s0 a1) (hm : [.regs] ⊆ fs := by first | assumption | (refine List.Subset.trans ?_ (by assumption); simp) | simp) :
    Keeps fs s0 (showSettings a1) := by
  simp only [List.cons_subset, List.nil_subset, and_true] at hm
  simp (maxDischargeDepth := 60) +contextual only [showSettings, List.cons_subset, hm, List.nil_subset, and_self, wr_keeps, implies_true, h1, keeps_foldl]
theorem setBoth_keeps {fs : List Field} {s0 : State} {a1 : State} {a2 : PageRef} {a3 : Nat} {a4 : Word} (h1 : Keeps fs s0 a1) (hm : [.regs] ⊆ fs := by first | assumption | (refine List.Subset.trans ?_ (by assumption); simp) | simp) :
    Keeps fs s0 (setBoth a1 a2 a3 a4) := by
  simp only [List.cons_subset, List.nil_subset, and_true] at hm
  simp (maxDischargeDepth := 60) +contextual only [setBoth, h1, List.cons_subset, hm, List.nil_subset, and_self, wr_keeps]
theorem loadSettingsRegs_keeps {fs : List Field} {s0 : State} {a1 : State} (h1 : Keeps fs s0 a1) (hm : [.regs] ⊆ fs := by first | assumption | (refine List.Subset.trans ?_ (by assumption); simp) | simp) :
    Keeps fs s0 (loadSettingsRegs a1) := by
  simp only [List.cons_subset, List.nil_subset, and_true] at hm
  simp (maxDischargeDepth := 60) +contextual only [loadSettingsRegs, h1, List.cons_subset, hm, List.nil_subset, and_self, setBoth_keeps, showSettings_keeps]
theorem loadSettings_keeps {fs : List Field} {s0 : State} {a1 : Bool} {a2 : Nat} {a3 : Nat} {a4 : State} (h4 : Keeps fs s0 a4) (hm : [.regs, .keeper] ⊆ fs := by first | assumption | (refine List.Subset.trans ?_ (by assumption); simp) | simp) :
    Keeps fs s0 (loadSettings a1 a2 a3 a4) := by
  simp only [List.cons_subset, List.nil_subset, and_true] at hm
  simp (maxDischargeDepth := 60) +contextual only [loadSettings, h4, List.cons_subset, hm, List.nil_subset, and_self, setActiveCopy_keeps, keeps_keeper, keeps_ite, wr_keeps, setFld_keeps, loadSettingsRegs_keeps]
theorem verifyOther_keeps {fs : List Field} {s0 : State} {a1 : State} (h1 : Keeps fs s0 a1) (hm : [.now, .beacon, .regs, .slots, .tasks, .ctrs, .cores, .clusters, .mem, .granger, .streams, .dmas, .dmaNext, .net, .ports, .coll, .control, .step, .keeper, .power, .traces, .snaps, .commits, .out] ⊆ fs := by first | assumption | (refine List.Subset.trans ?_ (by assumption); simp) | simp) :
    Keeps fs s0 (verifyOther a1) := by
  simp only [List.cons_subset, List.nil_subset, and_true] at hm
  simp (maxDischargeDepth := 60) +contextual only [verifyOther, h1, List.cons_subset, hm, List.nil_subset, and_self, fallBack_keeps, keeps_keeper, bankChanged_keeps, setBoot_keeps, failBoot_keeps, keeps_ite]
theorem reachReady_keeps {fs : List Field} {s0 : State} {a1 : Nat} {a2 : State} (h2 : Keeps fs s0 a2) (hm : [.regs, .keeper, .out] ⊆ fs := by first | assumption | (refine List.Subset.trans ?_ (by assumption); simp) | simp) :
    Keeps fs s0 (reachReady a1 a2) := by
  simp only [List.cons_subset, List.nil_subset, and_true] at hm
  simp (maxDischargeDepth := 60) +contextual only [reachReady, h2, List.cons_subset, hm, List.nil_subset, and_self, setBoot_keeps, setFld_keeps, chainEvent_keeps, keeps_keeper, keeps_ite]
theorem startServo_keeps {fs : List Field} {s0 : State} {a1 : State} (h1 : Keeps fs s0 a1) (hm : [.beacon, .regs] ⊆ fs := by first | assumption | (refine List.Subset.trans ?_ (by assumption); simp) | simp) :
    Keeps fs s0 (startServo a1) := by
  simp only [List.cons_subset, List.nil_subset, and_true] at hm
  simp (maxDischargeDepth := 60) +contextual only [startServo, h1, List.cons_subset, hm, List.nil_subset, and_self, keeps_beacon, takeMaster_keeps, keeps_ite, setParent_keeps]
theorem startPorts_keeps {fs : List Field} {s0 : State} {a1 : State} (h1 : Keeps fs s0 a1) (hm : [.regs, .slots, .tasks, .ctrs, .cores, .clusters, .mem, .granger, .ports, .coll, .control, .step, .power, .traces, .out] ⊆ fs := by first | assumption | (refine List.Subset.trans ?_ (by assumption); simp) | simp) :
    Keeps fs s0 (startPorts a1) := by
  simp only [List.cons_subset, List.nil_subset, and_true] at hm
  simp (maxDischargeDepth := 60) +contextual only [startPorts, List.cons_subset, hm, List.nil_subset, and_self, applyPort_keeps, implies_true, h1, keeps_foldl]
theorem loadCoord_keeps {fs : List Field} {s0 : State} {a1 : Word} {a2 : State} (h2 : Keeps fs s0 a2) (hm : [.regs] ⊆ fs := by first | assumption | (refine List.Subset.trans ?_ (by assumption); simp) | simp) :
    Keeps fs s0 (loadCoord a1 a2) := by
  simp only [List.cons_subset, List.nil_subset, and_true] at hm
  simp (maxDischargeDepth := 60) +contextual only [loadCoord, h2, List.cons_subset, hm, List.nil_subset, and_self, setFld_keeps, wr_keeps]
theorem loadPosition_keeps {fs : List Field} {s0 : State} {a1 : State} (h1 : Keeps fs s0 a1) (hm : [.regs] ⊆ fs := by first | assumption | (refine List.Subset.trans ?_ (by assumption); simp) | simp) :
    Keeps fs s0 (loadPosition a1) := by
  simp only [List.cons_subset, List.nil_subset, and_true] at hm
  simp (maxDischargeDepth := 60) +contextual only [loadPosition, h1, List.cons_subset, hm, List.nil_subset, and_self, loadCoord_keeps, keeps_ite]
theorem setMemories_keeps {fs : List Field} {s0 : State} {a1 : Nat} {a2 : State} (h2 : Keeps fs s0 a2) (hm : [.regs] ⊆ fs := by first | assumption | (refine List.Subset.trans ?_ (by assumption); simp) | simp) :
    Keeps fs s0 (setMemories a1 a2) := by
  simp only [List.cons_subset, List.nil_subset, and_true] at hm
  simp (maxDischargeDepth := 60) +contextual only [setMemories, List.cons_subset, hm, List.nil_subset, and_self, setFld_keeps, keeps_ite, implies_true, keeps_foldl, h2]
theorem firstBootCopy_keeps {fs : List Field} {s0 : State} {a1 : State} (h1 : Keeps fs s0 a1) (hm : [.keeper] ⊆ fs := by first | assumption | (refine List.Subset.trans ?_ (by assumption); simp) | simp) :
    Keeps fs s0 (firstBootCopy a1) := by
  simp only [List.cons_subset, List.nil_subset, and_true] at hm
  simp (maxDischargeDepth := 60) +contextual only [firstBootCopy, h1, List.cons_subset, hm, List.nil_subset, and_self, keeps_keeper, setActiveCopy_keeps, keeps_ite]
theorem stageOk_keeps {fs : List Field} {s0 : State} {a1 : Nat} {a2 : State} (h2 : Keeps fs s0 a2) (hm : [.now, .beacon, .regs, .slots, .tasks, .ctrs, .cores, .clusters, .mem, .granger, .streams, .dmas, .dmaNext, .net, .ports, .coll, .control, .step, .keeper, .power, .traces, .snaps, .commits, .out] ⊆ fs := by first | assumption | (refine List.Subset.trans ?_ (by assumption); simp) | simp) :
    Keeps fs s0 (stageOk a1 a2) := by
  simp only [List.cons_subset, List.nil_subset, and_true] at hm
  simp (maxDischargeDepth := 60) +contextual only [stageOk]
  repeat' (split <;> (try simp (maxDischargeDepth := 60) +contextual only [keeps_ite, List.cons_subset, List.nil_subset, and_self, reachReady_keeps, startServo_keeps, refreshRepair_keeps, startPorts_keeps, loadPosition_keeps, setMemories_keeps, verifyOther_keeps, firstBootCopy_keeps, setBoot_keeps, h2, hm]))
  all_goals (first | done | assumption)
theorem stageAdvance_keeps {fs : List Field} {s0 : State} {a1 : StageOutcome} {a2 : Nat} {a3 : State} (h3 : Keeps fs s0 a3) (hm : [.now, .beacon, .regs, .slots, .tasks, .ctrs, .cores, .clusters, .mem, .granger, .streams, .dmas, .dmaNext, .net, .ports, .coll, .control, .step, .keeper, .power, .traces, .snaps, .commits, .out] ⊆ fs := by first | assumption | (refine List.Subset.trans ?_ (by assumption); simp) | simp) :
    Keeps fs s0 (stageAdvance a1 a2 a3) := by
  simp only [List.cons_subset, List.nil_subset, and_true] at hm
  simp (maxDischargeDepth := 60) +contextual only [stageAdvance]
  repeat' (split <;> (try simp (maxDischargeDepth := 60) +contextual only [keeps_ite, List.cons_subset, List.nil_subset, and_self, keeps_keeper, failBoot_keeps, loadSettings_keeps, setBoot_keeps, verifyOther_keeps, stageOk_keeps, h3, hm]))
  all_goals (first | done | assumption)
theorem execBringupStageAdvance_keeps {fs : List Field} {s0 : State} {a1 : StageOutcome} {a2 : Nat} {a3 : State} (h3 : Keeps fs s0 a3) (hm : [.now, .beacon, .regs, .slots, .tasks, .ctrs, .cores, .clusters, .mem, .granger, .streams, .dmas, .dmaNext, .net, .ports, .coll, .control, .step, .keeper, .power, .traces, .snaps, .commits, .out] ⊆ fs := by first | assumption | (refine List.Subset.trans ?_ (by assumption); simp) | simp) :
    KeepsO fs s0 (execBringupStageAdvance a1 a2 a3) := by
  simp only [List.cons_subset, List.nil_subset, and_true] at hm
  simp (maxDischargeDepth := 60) +contextual only [execBringupStageAdvance, h3, List.cons_subset, hm, List.nil_subset, and_self, stageAdvance_keeps, keepsO_next]
theorem execConfirmTimeout_keeps {fs : List Field} {s0 : State} {a1 : State} (h1 : Keeps fs s0 a1) (hm : [.now, .beacon, .regs, .slots, .tasks, .ctrs, .cores, .clusters, .mem, .granger, .streams, .dmas, .dmaNext, .net, .ports, .coll, .control, .step, .keeper, .power, .traces, .snaps, .commits] ⊆ fs := by first | assumption | (refine List.Subset.trans ?_ (by assumption); simp) | simp) :
    KeepsO fs s0 (execConfirmTimeout a1) := by
  simp only [List.cons_subset, List.nil_subset, and_true] at hm
  simp (maxDischargeDepth := 60) +contextual only [execConfirmTimeout, h1, List.cons_subset, hm, List.nil_subset, and_self, confirmTimeout_keeps, keepsO_next]
theorem execDeviceReset_keeps {fs : List Field} {s0 : State} {a1 : State} (h1 : Keeps fs s0 a1) (hm : [.now, .beacon, .regs, .slots, .tasks, .ctrs, .cores, .clusters, .mem, .granger, .streams, .dmas, .dmaNext, .net, .ports, .coll, .control, .step, .keeper, .power, .traces, .snaps, .commits] ⊆ fs := by first | assumption | (refine List.Subset.trans ?_ (by assumption); simp) | simp) :
    KeepsO fs s0 (execDeviceReset a1) := by
  simp only [List.cons_subset, List.nil_subset, and_true] at hm
  simp (maxDischargeDepth := 60) +contextual only [execDeviceReset, h1, List.cons_subset, hm, List.nil_subset, and_self, deviceReset_keeps, keepsO_next]
theorem execEnumWaitTimeout_keeps {fs : List Field} {s0 : State} {a1 : State} (h1 : Keeps fs s0 a1) (hm : [.regs, .keeper] ⊆ fs := by first | assumption | (refine List.Subset.trans ?_ (by assumption); simp) | simp) :
    KeepsO fs s0 (execEnumWaitTimeout a1) := by
  simp only [List.cons_subset, List.nil_subset, and_true] at hm
  simp (maxDischargeDepth := 60) +contextual only [execEnumWaitTimeout, h1, List.cons_subset, hm, List.nil_subset, and_self, enumWaitTimeout_keeps, keepsO_next]
theorem execEqSeedSave_keeps {fs : List Field} {s0 : State} {a1 : Fin 6} {a2 : List Word} {a3 : State} (h3 : Keeps fs s0 a3) (hm : [.keeper] ⊆ fs := by first | assumption | (refine List.Subset.trans ?_ (by assumption); simp) | simp) :
    KeepsO fs s0 (execEqSeedSave a1 a2 a3) := by
  simp only [List.cons_subset, List.nil_subset, and_true] at hm
  simp (maxDischargeDepth := 60) +contextual only [execEqSeedSave, h3, List.cons_subset, hm, List.nil_subset, and_self, eqSeedSave_keeps, keepsO_next]
theorem keeperWatchdog_keeps {fs : List Field} {s0 : State} {a1 : State} (h1 : Keeps fs s0 a1) (hm : [.now, .beacon, .regs, .slots, .tasks, .ctrs, .cores, .clusters, .mem, .granger, .streams, .dmas, .dmaNext, .net, .ports, .coll, .control, .step, .keeper, .power, .traces, .snaps, .commits] ⊆ fs := by first | assumption | (refine List.Subset.trans ?_ (by assumption); simp) | simp) :
    Keeps fs s0 (keeperWatchdog a1) := by
  simp only [List.cons_subset, List.nil_subset, and_true] at hm
  simp (maxDischargeDepth := 60) +contextual only [keeperWatchdog, h1, List.cons_subset, hm, List.nil_subset, and_self, addFld_keeps, keeps_keeper, bankChanged_keeps, fallBack_keeps, keeps_ite]
theorem execKeeperWatchdog_keeps {fs : List Field} {s0 : State} {a1 : State} (h1 : Keeps fs s0 a1) (hm : [.now, .beacon, .regs, .slots, .tasks, .ctrs, .cores, .clusters, .mem, .granger, .streams, .dmas, .dmaNext, .net, .ports, .coll, .control, .step, .keeper, .power, .traces, .snaps, .commits] ⊆ fs := by first | assumption | (refine List.Subset.trans ?_ (by assumption); simp) | simp) :
    KeepsO fs s0 (execKeeperWatchdog a1) := by
  simp only [List.cons_subset, List.nil_subset, and_true] at hm
  simp (maxDischargeDepth := 60) +contextual only [execKeeperWatchdog, h1, List.cons_subset, hm, List.nil_subset, and_self, keeperWatchdog_keeps, keepsO_next]
theorem settingsMirrorWrite_keeps {fs : List Field} {s0 : State} {a1 : Bool} {a2 : State} (h2 : Keeps fs s0 a2) (hm : [.keeper] ⊆ fs := by first | assumption | (refine List.Subset.trans ?_ (by assumption); simp) | simp) :
    Keeps fs s0 (settingsMirrorWrite a1 a2) := by
  simp only [List.cons_subset, List.nil_subset, and_true] at hm
  simp (maxDischargeDepth := 60) +contextual only [settingsMirrorWrite, h2, List.cons_subset, hm, List.nil_subset, and_self, keeps_keeper, keeps_ite]
theorem execSettingsMirrorWrite_keeps {fs : List Field} {s0 : State} {a1 : Bool} {a2 : State} (h2 : Keeps fs s0 a2) (hm : [.keeper] ⊆ fs := by first | assumption | (refine List.Subset.trans ?_ (by assumption); simp) | simp) :
    KeepsO fs s0 (execSettingsMirrorWrite a1 a2) := by
  simp only [List.cons_subset, List.nil_subset, and_true] at hm
  simp (maxDischargeDepth := 60) +contextual only [execSettingsMirrorWrite, h2, List.cons_subset, hm, List.nil_subset, and_self, settingsMirrorWrite_keeps, keepsO_next]
theorem settingsApply_keeps {fs : List Field} {s0 : State} {a1 : State} (h1 : Keeps fs s0 a1) (hm : [.regs, .keeper] ⊆ fs := by first | assumption | (refine List.Subset.trans ?_ (by assumption); simp) | simp) :
    Keeps fs s0 (settingsApply a1) := by
  simp only [List.cons_subset, List.nil_subset, and_true] at hm
  simp (maxDischargeDepth := 60) +contextual only [settingsApply, List.cons_subset, hm, List.nil_subset, and_self, wr_keeps, setSetting_keeps, implies_true, h1, keeps_foldl]
theorem unmapRegion_keeps {fs : List Field} {s0 : State} {a1 : State} (h1 : Keeps fs s0 a1) (hm : [.mem] ⊆ fs := by first | assumption | (refine List.Subset.trans ?_ (by assumption); simp) | simp) :
    Keeps fs s0 (unmapRegion a1) := by
  simp only [List.cons_subset, List.nil_subset, and_true] at hm
  simp (maxDischargeDepth := 60) +contextual only [unmapRegion, h1, List.cons_subset, hm, List.nil_subset, and_self, keeps_memrest]
theorem mapRegion_keeps {fs : List Field} {s0 : State} {a1 : State} (h1 : Keeps fs s0 a1) (hm : [.regs, .mem, .granger] ⊆ fs := by first | assumption | (refine List.Subset.trans ?_ (by assumption); simp) | simp) :
    Keeps fs s0 (mapRegion a1) := by
  unfold mapRegion
  extract_lets size base b streams s1 s2 s3
  have h : Keeps fs s0 s1 := keeps_foldl (fun _ _ h => setBushel_keeps (takeStack_keeps h)) h1
  clear_value s1
  refine keeps_foldl (fun _ _ h => wr_keeps h) (wr_keeps (keeps_mem h fun w => ?_))
  simp only [Memory.wf, Bool.and_eq_true] at w ⊢
  exact ⟨⟨mapWf_filter _ _ w.1.1, w.1.2⟩, w.2⟩
theorem reidentify_keeps {fs : List Field} {s0 : State} {a1 : State} {a2 : Nat} (h1 : Keeps fs s0 a1) (hm : [.regs, .slots, .tasks, .ctrs, .cores, .clusters, .mem, .granger, .ports, .coll, .control, .step, .power, .traces, .out] ⊆ fs := by first | assumption | (refine List.Subset.trans ?_ (by assumption); simp) | simp) :
    Keeps fs s0 (reidentify a1 a2) := by
  simp only [List.cons_subset, List.nil_subset, and_true] at hm
  simp (maxDischargeDepth := 60) +contextual only [reidentify, h1, List.cons_subset, hm, List.nil_subset, and_self, setLink_keeps, keeps_ite, applyPort_keeps]
theorem makeActive_keeps {fs : List Field} {s0 : State} {a1 : PageRef} {a2 : List (Nat × Word)} {a3 : State} (h3 : Keeps fs s0 a3) (hm : [.regs] ⊆ fs := by first | assumption | (refine List.Subset.trans ?_ (by assumption); simp) | simp) :
    Keeps fs s0 (makeActive a1 a2 a3) := by
  simp only [List.cons_subset, List.nil_subset, and_true] at hm
  simp (maxDischargeDepth := 60) +contextual only [makeActive, List.cons_subset, hm, List.nil_subset, and_self, wr_keeps, implies_true, h3, keeps_foldl]
theorem applyValues_keeps {fs : List Field} {s0 : State} {a1 : PageRef} {a2 : Block} {a3 : List (Nat × Word)} {a4 : State} (h4 : Keeps fs s0 a4) (hm : [.beacon, .regs, .slots, .tasks, .ctrs, .cores, .clusters, .mem, .granger, .ports, .coll, .control, .step, .keeper, .power, .traces, .out] ⊆ fs := by first | assumption | (refine List.Subset.trans ?_ (by assumption); simp) | simp) :
    Keeps fs s0 (applyValues a1 a2 a3 a4) := by
  simp only [List.cons_subset, List.nil_subset, and_true] at hm
  simp (maxDischargeDepth := 60) +contextual only [applyValues]
  repeat' (split <;> (try simp (maxDischargeDepth := 60) +contextual only [keeps_ite, keeps_foldl, List.cons_subset, List.nil_subset, and_self, implies_true, refreshSt_keeps, unmapRegion_keeps, mapRegion_keeps, settingsApply_keeps, applyPort_keeps, reidentify_keeps, takeFollower_keeps, takeMaster_keeps, refSelChanged_keeps, makeActive_keeps, h4, hm]))
  all_goals (first | done | assumption)
theorem collAbort_keeps {fs : List Field} {s0 : State} {a1 : State} (h1 : Keeps fs s0 a1) (hm : [.regs, .slots, .tasks, .ctrs, .cores, .clusters, .mem, .granger, .coll, .control, .step, .power, .traces, .out] ⊆ fs := by first | assumption | (refine List.Subset.trans ?_ (by assumption); simp) | simp) :
    Keeps fs s0 (collAbort a1) := by
  simp only [List.cons_subset, List.nil_subset, and_true] at hm
  simp (maxDischargeDepth := 60) +contextual only [collAbort, List.cons_subset, hm, List.nil_subset, and_self, run_keeps, implies_true, h1, keeps_coll, keeps_foldl, orphans_keeps]
theorem commitDone_keeps {fs : List Field} {s0 : State} {a1 : PageRef} {a2 : Nat} {a3 : Bool} {a4 : State} (h4 : Keeps fs s0 a4) (hm : [.regs] ⊆ fs := by first | assumption | (refine List.Subset.trans ?_ (by assumption); simp) | simp) :
    Keeps fs s0 (commitDone a1 a2 a3 a4) := by
  simp only [List.cons_subset, List.nil_subset, and_true] at hm
  simp (maxDischargeDepth := 60) +contextual only [commitDone, h4, List.cons_subset, hm, List.nil_subset, and_self, setFld_keeps]
theorem commitPage_keeps {fs : List Field} {s0 : State} {a1 : PageRef} {a2 : State} (h2 : Keeps fs s0 a2) (hm : [.beacon, .regs, .slots, .tasks, .ctrs, .cores, .clusters, .mem, .granger, .ports, .coll, .control, .step, .keeper, .power, .traces, .commits, .out] ⊆ fs := by first | assumption | (refine List.Subset.trans ?_ (by assumption); simp) | simp) :
    Keeps fs s0 (commitPage a1 a2) := by
  simp only [List.cons_subset, List.nil_subset, and_true] at hm
  simp (maxDischargeDepth := 60) +contextual only [commitPage]
  repeat' (split <;> (try simp (maxDischargeDepth := 60) +contextual only [keeps_ite, List.cons_subset, List.nil_subset, and_self, keeps_commits, applyValues_keeps, commitDone_keeps, setFld_keeps, logErr_keeps, h2, hm]))
  all_goals (first | done | assumption)
theorem enableWrite_keeps {fs : List Field} {s0 : State} {a1 : PageRef} {a2 : Bool} {a3 : State} (h3 : Keeps fs s0 a3) (hm : [.regs, .out] ⊆ fs := by first | assumption | (refine List.Subset.trans ?_ (by assumption); simp) | simp) :
    Keeps fs s0 (enableWrite a1 a2 a3) := by
  simp only [List.cons_subset, List.nil_subset, and_true] at hm
  simp (maxDischargeDepth := 60) +contextual only [enableWrite]
  repeat' (split <;> (try simp (maxDischargeDepth := 60) +contextual only [keeps_ite, List.cons_subset, List.nil_subset, and_self, logErr_keeps, setFld_keeps, h3, hm]))
  all_goals (first | done | assumption)
theorem snapAbort_keeps {fs : List Field} {s0 : State} {a1 : PageRef} {a2 : State} (h2 : Keeps fs s0 a2) (hm : [.regs, .snaps] ⊆ fs := by first | assumption | (refine List.Subset.trans ?_ (by assumption); simp) | simp) :
    Keeps fs s0 (snapAbort a1 a2) := by
  simp only [List.cons_subset, List.nil_subset, and_true] at hm
  simp (maxDischargeDepth := 60) +contextual only [snapAbort, h2, List.cons_subset, hm, List.nil_subset, and_self, setFld_keeps, keeps_snaps]
theorem reAbort_keeps {fs : List Field} {s0 : State} {a1 : ClusterRef} {a2 : State} (h2 : Keeps fs s0 a2) (hm : [.regs, .slots, .tasks, .ctrs, .cores, .clusters, .mem, .granger, .streams, .net, .coll, .control, .step, .power, .traces, .out, .free] ⊆ fs := by first | assumption | (refine List.Subset.trans ?_ (by assumption); simp) | simp) :
    Keeps fs s0 (reAbort a1 a2) := by
  simp only [List.cons_subset, List.nil_subset, and_true] at hm
  simp (maxDischargeDepth := 60) +contextual only [reAbort]
  repeat' (split <;> (try simp (maxDischargeDepth := 60) +contextual only [keeps_ite, List.cons_subset, List.nil_subset, and_self, orphans_keeps, fault_keeps, reComplete_keeps, setCluster_keeps, h2, hm]))
  all_goals (first | done | assumption)
theorem streamAbort_keeps {fs : List Field} {s0 : State} {a1 : Fin 8} {a2 : State} (h2 : Keeps fs s0 a2) (hm : [.regs, .slots, .tasks, .ctrs, .cores, .clusters, .mem, .granger, .streams, .coll, .control, .step, .power, .traces, .out, .free] ⊆ fs := by first | assumption | (refine List.Subset.trans ?_ (by assumption); simp) | simp) :
    Keeps fs s0 (streamAbort a1 a2) := by
  simp only [List.cons_subset, List.nil_subset, and_true] at hm
  simp (maxDischargeDepth := 60) +contextual only [streamAbort, List.cons_subset, hm, List.nil_subset, and_self, streamFinish_keeps, implies_true, endMove_keeps, h2, keeps_foldl, orphans_keeps]
theorem dmaAbort_keeps {fs : List Field} {s0 : State} {a1 : Fin 8} {a2 : Fin 32} {a3 : State} (h3 : Keeps fs s0 a3) (hm : [.regs, .slots, .tasks, .ctrs, .cores, .clusters, .mem, .granger, .dmas, .coll, .control, .step, .power, .traces, .out] ⊆ fs := by first | assumption | (refine List.Subset.trans ?_ (by assumption); simp) | simp) :
    Keeps fs s0 (dmaAbort a1 a2 a3) := by
  simp only [List.cons_subset, List.nil_subset, and_true] at hm
  simp (maxDischargeDepth := 60) +contextual only [dmaAbort, h3, List.cons_subset, hm, List.nil_subset, and_self, setFld_keeps, wr_keeps, setDma_keeps, orphans_keeps, keeps_ite]
theorem stopBlock_keeps {fs : List Field} {s0 : State} {a1 : PageRef} {a2 : Block} {a3 : State} (h3 : Keeps fs s0 a3) (hm : [.regs, .slots, .tasks, .ctrs, .cores, .clusters, .mem, .granger, .streams, .dmas, .net, .coll, .control, .step, .power, .traces, .snaps, .out, .free] ⊆ fs := by first | assumption | (refine List.Subset.trans ?_ (by assumption); simp) | simp) :
    Keeps fs s0 (stopBlock a1 a2 a3) := by
  simp only [List.cons_subset, List.nil_subset, and_true] at hm
  simp (maxDischargeDepth := 60) +contextual only [stopBlock]
  repeat' (split <;> (try simp (maxDischargeDepth := 60) +contextual only [List.cons_subset, List.nil_subset, and_self, traceEmpty_keeps, snapAbort_keeps, reAbort_keeps, collAbort_keeps, streamAbort_keeps, dmaAbort_keeps, h3, hm]))
  all_goals (first | done | assumption)
theorem softReset_keeps {fs : List Field} {s0 : State} {a1 : PageRef} {a2 : State} (h2 : Keeps fs s0 a2) (hm : [.regs, .slots, .tasks, .ctrs, .cores, .clusters, .mem, .granger, .streams, .dmas, .net, .coll, .control, .step, .power, .traces, .snaps, .out, .free] ⊆ fs := by first | assumption | (refine List.Subset.trans ?_ (by assumption); simp) | simp) :
    Keeps fs s0 (softReset a1 a2) := by
  simp only [List.cons_subset, List.nil_subset, and_true] at hm
  simp (maxDischargeDepth := 60) +contextual only [softReset]
  repeat' (split <;> (try simp (maxDischargeDepth := 60) +contextual only [keeps_ite, List.cons_subset, List.nil_subset, and_self, logErr_keeps, stopBlock_keeps, setFld_keeps, h2, hm]))
  all_goals (first | done | assumption)
theorem ctrlWrite_keeps {fs : List Field} {s0 : State} {a1 : PageRef} {a2 : Word} {a3 : State} (h3 : Keeps fs s0 a3) (hm : [.beacon, .regs, .slots, .tasks, .ctrs, .cores, .clusters, .mem, .granger, .streams, .dmas, .net, .ports, .coll, .control, .step, .keeper, .power, .traces, .snaps, .commits, .out, .free] ⊆ fs := by first | assumption | (refine List.Subset.trans ?_ (by assumption); simp) | simp) :
    Keeps fs s0 (ctrlWrite a1 a2 a3) := by
  simp only [List.cons_subset, List.nil_subset, and_true] at hm
  simp (maxDischargeDepth := 60) +contextual only [ctrlWrite, h3, List.cons_subset, hm, List.nil_subset, and_self, reservedWrite_keeps, softReset_keeps, keeps_ite, enableWrite_keeps, commitPage_keeps]
theorem errClear_keeps {fs : List Field} {s0 : State} {a1 : PageRef} {a2 : Word} {a3 : State} (h3 : Keeps fs s0 a3) (hm : [.regs, .out] ⊆ fs := by first | assumption | (refine List.Subset.trans ?_ (by assumption); simp) | simp) :
    Keeps fs s0 (errClear a1 a2 a3) := by
  simp only [List.cons_subset, List.nil_subset, and_true] at hm
  simp (maxDischargeDepth := 60) +contextual only [errClear, h3, List.cons_subset, hm, List.nil_subset, and_self, wr_keeps, reservedWrite_keeps]
theorem errInject_keeps {fs : List Field} {s0 : State} {a1 : PageRef} {a2 : Word} {a3 : State} (h3 : Keeps fs s0 a3) (hm : [.regs, .out] ⊆ fs := by first | assumption | (refine List.Subset.trans ?_ (by assumption); simp) | simp) :
    Keeps fs s0 (errInject a1 a2 a3) := by
  simp only [List.cons_subset, List.nil_subset, and_true] at hm
  simp (maxDischargeDepth := 60) +contextual only [errInject]
  repeat' (split <;> (try simp (maxDischargeDepth := 60) +contextual only [keeps_ite, List.cons_subset, List.nil_subset, and_self, storeReg_keeps, wr_keeps, logErr_keeps, reservedWrite_keeps, h3, hm]))
  all_goals (first | done | assumption)
theorem execBlkCommit_keeps {fs : List Field} {s0 : State} {a1 : Requester} {a2 : PageRef} {a3 : State} (h3 : Keeps fs s0 a3) (hm : [.beacon, .regs, .slots, .tasks, .ctrs, .cores, .clusters, .mem, .granger, .ports, .coll, .control, .step, .keeper, .power, .traces, .commits, .out] ⊆ fs := by first | assumption | (refine List.Subset.trans ?_ (by assumption); simp) | simp) :
    KeepsO fs s0 (execBlkCommit a1 a2 a3) := by
  simp only [List.cons_subset, List.nil_subset, and_true] at hm
  simp (maxDischargeDepth := 60) +contextual only [execBlkCommit, h3, List.cons_subset, hm, List.nil_subset, and_self, commitPage_keeps, implies_true, byPage_keeps]
theorem execBlkEnableWrite_keeps {fs : List Field} {s0 : State} {a1 : Requester} {a2 : PageRef} {a3 : Bool} {a4 : State} (h4 : Keeps fs s0 a4) (hm : [.regs, .out] ⊆ fs := by first | assumption | (refine List.Subset.trans ?_ (by assumption); simp) | simp) :
    KeepsO fs s0 (execBlkEnableWrite a1 a2 a3 a4) := by
  simp only [List.cons_subset, List.nil_subset, and_true] at hm
  simp (maxDischargeDepth := 60) +contextual only [execBlkEnableWrite, h4, List.cons_subset, hm, List.nil_subset, and_self, enableWrite_keeps, implies_true, byPage_keeps]
theorem execBlkSoftReset_keeps {fs : List Field} {s0 : State} {a1 : Requester} {a2 : PageRef} {a3 : State} (h3 : Keeps fs s0 a3) (hm : [.regs, .slots, .tasks, .ctrs, .cores, .clusters, .mem, .granger, .streams, .dmas, .net, .coll, .control, .step, .power, .traces, .snaps, .out, .free] ⊆ fs := by first | assumption | (refine List.Subset.trans ?_ (by assumption); simp) | simp) :
    KeepsO fs s0 (execBlkSoftReset a1 a2 a3) := by
  simp only [List.cons_subset, List.nil_subset, and_true] at hm
  simp (maxDischargeDepth := 60) +contextual only [execBlkSoftReset, h3, List.cons_subset, hm, List.nil_subset, and_self, softReset_keeps, implies_true, byPage_keeps]
theorem execErrInjWrite_keeps {fs : List Field} {s0 : State} {a1 : PageRef} {a2 : Word} {a3 : State} (h3 : Keeps fs s0 a3) (hm : [.regs, .out] ⊆ fs := by first | assumption | (refine List.Subset.trans ?_ (by assumption); simp) | simp) :
    KeepsO fs s0 (execErrInjWrite a1 a2 a3) := by
  simp only [List.cons_subset, List.nil_subset, and_true] at hm
  simp (maxDischargeDepth := 60) +contextual only [execErrInjWrite, h3, List.cons_subset, hm, List.nil_subset, and_self, errInject_keeps, implies_true, atPage_keeps]
theorem execErrStatClear_keeps {fs : List Field} {s0 : State} {a1 : PageRef} {a2 : Word} {a3 : State} (h3 : Keeps fs s0 a3) (hm : [.regs, .out] ⊆ fs := by first | assumption | (refine List.Subset.trans ?_ (by assumption); simp) | simp) :
    KeepsO fs s0 (execErrStatClear a1 a2 a3) := by
  simp only [List.cons_subset, List.nil_subset, and_true] at hm
  simp (maxDischargeDepth := 60) +contextual only [execErrStatClear, h3, List.cons_subset, hm, List.nil_subset, and_self, errClear_keeps, implies_true, atPage_keeps]
theorem packageApply_keeps {fs : List Field} {s0 : State} {a1 : PageRef} {a2 : State} (h2 : Keeps fs s0 a2) (hm : [.beacon, .regs, .slots, .tasks, .ctrs, .cores, .clusters, .mem, .granger, .ports, .coll, .control, .step, .keeper, .power, .traces, .commits, .out] ⊆ fs := by first | assumption | (refine List.Subset.trans ?_ (by assumption); simp) | simp) :
    Keeps fs s0 (packageApply a1 a2) := by
  simp only [List.cons_subset, List.nil_subset, and_true] at hm
  simp (maxDischargeDepth := 60) +contextual only [packageApply]
  repeat' (split <;> (try simp (maxDischargeDepth := 60) +contextual only [List.cons_subset, List.nil_subset, and_self, keeps_commits, commitDone_keeps, applyValues_keeps, h2, hm]))
  all_goals (first | done | assumption)
theorem execPackageCommitApply_keeps {fs : List Field} {s0 : State} {a1 : PageRef} {a2 : State} (h2 : Keeps fs s0 a2) (hm : [.beacon, .regs, .slots, .tasks, .ctrs, .cores, .clusters, .mem, .granger, .ports, .coll, .control, .step, .keeper, .power, .traces, .commits, .out] ⊆ fs := by first | assumption | (refine List.Subset.trans ?_ (by assumption); simp) | simp) :
    KeepsO fs s0 (execPackageCommitApply a1 a2) := by
  simp only [List.cons_subset, List.nil_subset, and_true] at hm
  simp (maxDischargeDepth := 60) +contextual only [execPackageCommitApply, h2, List.cons_subset, hm, List.nil_subset, and_self, packageApply_keeps, implies_true, atPage_keeps]
theorem softResetDone_keeps {fs : List Field} {s0 : State} {a1 : PageRef} {a2 : State} (h2 : Keeps fs s0 a2) (hm : [.regs] ⊆ fs := by first | assumption | (refine List.Subset.trans ?_ (by assumption); simp) | simp) :
    Keeps fs s0 (softResetDone a1 a2) := by
  simp only [List.cons_subset, List.nil_subset, and_true] at hm
  simp (maxDischargeDepth := 60) +contextual only [softResetDone, h2, List.cons_subset, hm, List.nil_subset, and_self, setFld_keeps]
theorem execSoftResetDone_keeps {fs : List Field} {s0 : State} {a1 : PageRef} {a2 : State} (h2 : Keeps fs s0 a2) (hm : [.regs] ⊆ fs := by first | assumption | (refine List.Subset.trans ?_ (by assumption); simp) | simp) :
    KeepsO fs s0 (execSoftResetDone a1 a2) := by
  simp only [List.cons_subset, List.nil_subset, and_true] at hm
  simp (maxDischargeDepth := 60) +contextual only [execSoftResetDone, h2, List.cons_subset, hm, List.nil_subset, and_self, softResetDone_keeps, implies_true, atPage_keeps]
theorem countUnmet_keeps {fs : List Field} {s0 : State} {a1 : Nat} {a2 : State} (h2 : Keeps fs s0 a2) (hm : [.regs] ⊆ fs := by first | assumption | (refine List.Subset.trans ?_ (by assumption); simp) | simp) :
    Keeps fs s0 (countUnmet a1 a2) := by
  simp only [List.cons_subset, List.nil_subset, and_true] at hm
  simp (maxDischargeDepth := 60) +contextual only [countUnmet, keeps_ite, List.cons_subset, List.nil_subset, and_self, addReg_keeps, h2, hm]
  repeat' (split <;> (try simp (maxDischargeDepth := 60) +contextual only [keeps_ite, List.cons_subset, List.nil_subset, and_self, addReg_keeps, h2, hm]))
  all_goals (first | done | assumption)
theorem setLoop_keeps {fs : List Field} {s0 : State} {a1 : Nat} {a2 : Nat} {a3 : State} (h3 : Keeps fs s0 a3) (hm : [.regs, .power] ⊆ fs := by first | assumption | (refine List.Subset.trans ?_ (by assumption); simp) | simp) :
    Keeps fs s0 (setLoop a1 a2 a3) := by
  simp only [List.cons_subset, List.nil_subset, and_true] at hm
  simp (maxDischargeDepth := 60) +contextual only [setLoop, h3, List.cons_subset, hm, List.nil_subset, and_self, keeps_power, setFld_keeps]
theorem loopAct_keeps {fs : List Field} {s0 : State} {a1 : Nat} {a2 : State} (h2 : Keeps fs s0 a2) (hm : [.regs, .power, .free] ⊆ fs := by first | assumption | (refine List.Subset.trans ?_ (by assumption); simp) | simp) :
    Keeps fs s0 (loopAct a1 a2) := by
  simp only [List.cons_subset, List.nil_subset, and_true] at hm
  simp (maxDischargeDepth := 60) +contextual only [loopAct, h2, List.cons_subset, hm, List.nil_subset, and_self, setLoop_keeps, choose_keeps, keeps_ite]
theorem outletLimit_keeps {fs : List Field} {s0 : State} {a1 : Nat} {a2 : State} (h2 : Keeps fs s0 a2) (hm : [.regs, .power] ⊆ fs := by first | assumption | (refine List.Subset.trans ?_ (by assumption); simp) | simp) :
    Keeps fs s0 (outletLimit a1 a2) := by
  simp only [List.cons_subset, List.nil_subset, and_true] at hm
  simp (maxDischargeDepth := 60) +contextual only [outletLimit, h2, List.cons_subset, hm, List.nil_subset, and_self, keeps_power, setFld_keeps]
theorem expireFloor_keeps {fs : List Field} {s0 : State} {a1 : State} (h1 : Keeps fs s0 a1) (hm : [.power] ⊆ fs := by first | assumption | (refine List.Subset.trans ?_ (by assumption); simp) | simp) :
    Keeps fs s0 (expireFloor a1) := by
  simp only [List.cons_subset, List.nil_subset, and_true] at hm
  simp (maxDischargeDepth := 60) +contextual only [expireFloor, h1, List.cons_subset, hm, List.nil_subset, and_self, keeps_power, keeps_ite]
theorem noteSample_keeps {fs : List Field} {s0 : State} {a1 : PowerSample} {a2 : State} (h2 : Keeps fs s0 a2) (hm : [.regs] ⊆ fs := by first | assumption | (refine List.Subset.trans ?_ (by assumption); simp) | simp) :
    Keeps fs s0 (noteSample a1 a2) := by
  simp only [List.cons_subset, List.nil_subset, and_true] at hm
  simp (maxDischargeDepth := 60) +contextual only [noteSample, h2, List.cons_subset, hm, List.nil_subset, and_self, setFld_keeps, wr_keeps]
theorem countEnergy_keeps {fs : List Field} {s0 : State} {a1 : Nat} {a2 : Nat} {a3 : State} (h3 : Keeps fs s0 a3) (hm : [.regs, .power] ⊆ fs := by first | assumption | (refine List.Subset.trans ?_ (by assumption); simp) | simp) :
    Keeps fs s0 (countEnergy a1 a2 a3) := by
  simp only [List.cons_subset, List.nil_subset, and_true] at hm
  simp (maxDischargeDepth := 60) +contextual only [countEnergy, h3, List.cons_subset, hm, List.nil_subset, and_self, addReg_keeps, keeps_power]
theorem controlWindowEnd_keeps {fs : List Field} {s0 : State} {a1 : PowerSample} {a2 : State} (h2 : Keeps fs s0 a2) (hm : [.regs, .power, .free] ⊆ fs := by first | assumption | (refine List.Subset.trans ?_ (by assumption); simp) | simp) :
    Keeps fs s0 (controlWindowEnd a1 a2) := by
  simp only [List.cons_subset, List.nil_subset, and_true] at hm
  simp (maxDischargeDepth := 60) +contextual only [controlWindowEnd, h2, List.cons_subset, hm, List.nil_subset, and_self, keeps_power, expireFloor_keeps, noteSample_keeps, countEnergy_keeps, outletLimit_keeps, setFld_keeps, countUnmet_keeps, loopAct_keeps, keeps_ite]
theorem inletRange_keeps {fs : List Field} {s0 : State} {a1 : Nat} {a2 : State} (h2 : Keeps fs s0 a2) (hm : [.regs] ⊆ fs := by first | assumption | (refine List.Subset.trans ?_ (by assumption); simp) | simp) :
    Keeps fs s0 (inletRange a1 a2) := by
  simp only [List.cons_subset, List.nil_subset, and_true] at hm
  simp (maxDischargeDepth := 60) +contextual only [inletRange, h2, List.cons_subset, hm, List.nil_subset, and_self, setFld_keeps, keeps_ite]
theorem execInletRange_keeps {fs : List Field} {s0 : State} {a1 : Nat} {a2 : State} (h2 : Keeps fs s0 a2) (hm : [.regs] ⊆ fs := by first | assumption | (refine List.Subset.trans ?_ (by assumption); simp) | simp) :
    KeepsO fs s0 (execInletRange a1 a2) := by
  simp only [List.cons_subset, List.nil_subset, and_true] at hm
  simp (maxDischargeDepth := 60) +contextual only [execInletRange, h2, List.cons_subset, hm, List.nil_subset, and_self, inletRange_keeps, keepsO_next]
theorem setUndervolt_keeps {fs : List Field} {s0 : State} {a1 : Bool} {a2 : State} (h2 : Keeps fs s0 a2) (hm : [.regs, .power] ⊆ fs := by first | assumption | (refine List.Subset.trans ?_ (by assumption); simp) | simp) :
    Keeps fs s0 (setUndervolt a1 a2) := by
  simp only [List.cons_subset, List.nil_subset, and_true] at hm
  simp (maxDischargeDepth := 60) +contextual only [setUndervolt, h2, List.cons_subset, hm, List.nil_subset, and_self, keeps_power, setFld_keeps]
theorem execInputUndervoltBand_keeps {fs : List Field} {s0 : State} {a1 : State} (h1 : Keeps fs s0 a1) (hm : [.regs, .power] ⊆ fs := by first | assumption | (refine List.Subset.trans ?_ (by assumption); simp) | simp) :
    KeepsO fs s0 (execInputUndervoltBand a1) := by
  simp only [List.cons_subset, List.nil_subset, and_true] at hm
  simp (maxDischargeDepth := 60) +contextual only [execInputUndervoltBand, h1, List.cons_subset, hm, List.nil_subset, and_self, setUndervolt_keeps, keepsO_next]
theorem execInputVoltageRestored_keeps {fs : List Field} {s0 : State} {a1 : State} (h1 : Keeps fs s0 a1) (hm : [.regs, .power] ⊆ fs := by first | assumption | (refine List.Subset.trans ?_ (by assumption); simp) | simp) :
    KeepsO fs s0 (execInputVoltageRestored a1) := by
  simp only [List.cons_subset, List.nil_subset, and_true] at hm
  simp (maxDischargeDepth := 60) +contextual only [execInputVoltageRestored, h1, List.cons_subset, hm, List.nil_subset, and_self, setUndervolt_keeps, keepsO_next]
theorem execPowerControlWindow_keeps {fs : List Field} {s0 : State} {a1 : PowerSample} {a2 : State} (h2 : Keeps fs s0 a2) (hm : [.regs, .power, .free] ⊆ fs := by first | assumption | (refine List.Subset.trans ?_ (by assumption); simp) | simp) :
    KeepsO fs s0 (execPowerControlWindow a1 a2) := by
  simp only [List.cons_subset, List.nil_subset, and_true] at hm
  simp (maxDischargeDepth := 60) +contextual only [execPowerControlWindow, h2, List.cons_subset, hm, List.nil_subset, and_self, controlWindowEnd_keeps, keepsO_next, keepsO_refused, keepsO_ite]
theorem shutdown_keeps {fs : List Field} {s0 : State} {a1 : Nat} {a2 : State} (h2 : Keeps fs s0 a2) (hm : [.now, .beacon, .regs, .slots, .tasks, .ctrs, .cores, .clusters, .mem, .granger, .streams, .dmas, .dmaNext, .net, .ports, .coll, .control, .step, .keeper, .power, .traces, .snaps, .commits, .out] ⊆ fs := by first | assumption | (refine List.Subset.trans ?_ (by assumption); simp) | simp) :
    Keeps fs s0 (shutdown a1 a2) := by
  unfold shutdown
  extract_lets r r2 r3
  have h : Keeps fs s0 r := resetBlocks_keeps h2
  have h' : Keeps fs s0 { r with now := a2.now } := ⟨frame_now h.frame (hm (by simp)), h.mem, h2.time⟩
  exact chainEvent_keeps (keeps_power (setFld_keeps (setBoot_keeps (wr_keeps h'))))
theorem execProtectiveShutdown_keeps {fs : List Field} {s0 : State} {a1 : Fin 7} {a2 : State} (h2 : Keeps fs s0 a2) (hm : [.now, .beacon, .regs, .slots, .tasks, .ctrs, .cores, .clusters, .mem, .granger, .streams, .dmas, .dmaNext, .net, .ports, .coll, .control, .step, .keeper, .power, .traces, .snaps, .commits, .out] ⊆ fs := by first | assumption | (refine List.Subset.trans ?_ (by assumption); simp) | simp) :
    KeepsO fs s0 (execProtectiveShutdown a1 a2) := by
  simp only [List.cons_subset, List.nil_subset, and_true] at hm
  simp (maxDischargeDepth := 60) +contextual only [execProtectiveShutdown, h2, List.cons_subset, hm, List.nil_subset, and_self, shutdown_keeps, keeps_ite, keepsO_next]
theorem readPwrStat_keeps {fs : List Field} {s0 : State} {a1 : State} (h1 : Keeps fs s0 a1) (hm : [.regs, .out] ⊆ fs := by first | assumption | (refine List.Subset.trans ?_ (by assumption); simp) | simp) :
    Keeps fs s0 (readPwrStat a1) := by
  simp only [List.cons_subset, List.nil_subset, and_true] at hm
  simp (maxDischargeDepth := 60) +contextual only [readPwrStat, h1, List.cons_subset, hm, List.nil_subset, and_self, setFld_keeps, reply_keeps]
theorem execPwrStatRead_keeps {fs : List Field} {s0 : State} {a1 : State} (h1 : Keeps fs s0 a1) (hm : [.regs, .out] ⊆ fs := by first | assumption | (refine List.Subset.trans ?_ (by assumption); simp) | simp) :
    KeepsO fs s0 (execPwrStatRead a1) := by
  simp only [List.cons_subset, List.nil_subset, and_true] at hm
  simp (maxDischargeDepth := 60) +contextual only [execPwrStatRead, h1, List.cons_subset, hm, List.nil_subset, and_self, readPwrStat_keeps, keepsO_next]
theorem valveTick_keeps {fs : List Field} {s0 : State} {a1 : Nat} {a2 : Nat} {a3 : Nat} {a4 : Nat} {a5 : State} (h5 : Keeps fs s0 a5) (hm : [.regs, .power] ⊆ fs := by first | assumption | (refine List.Subset.trans ?_ (by assumption); simp) | simp) :
    Keeps fs s0 (valveTick a1 a2 a3 a4 a5) := by
  simp only [List.cons_subset, List.nil_subset, and_true] at hm
  simp (maxDischargeDepth := 60) +contextual only [valveTick, h5, List.cons_subset, hm, List.nil_subset, and_self, keeps_power, wr_keeps]
theorem execValveLoopTick_keeps {fs : List Field} {s0 : State} {a1 : Nat} {a2 : Nat} {a3 : Nat} {a4 : Fin 101} {a5 : State} (h5 : Keeps fs s0 a5) (hm : [.regs, .power] ⊆ fs := by first | assumption | (refine List.Subset.trans ?_ (by assumption); simp) | simp) :
    KeepsO fs s0 (execValveLoopTick a1 a2 a3 a4 a5) := by
  simp only [List.cons_subset, List.nil_subset, and_true] at hm
  simp (maxDischargeDepth := 60) +contextual only [execValveLoopTick, h5, List.cons_subset, hm, List.nil_subset, and_self, valveTick_keeps, keepsO_next]
theorem plain_keeps {fs : List Field} {s0 : State} {a1 : Nat} {a2 : State} (h2 : Keeps fs s0 a2) :
    Keeps fs s0 (plain a1 a2).2.2 := by
  simp (maxDischargeDepth := 60) +contextual only [plain, h2]
theorem activate_keeps {fs : List Field} {s0 : State} {a1 : ChainFrame} {a2 : State} (h2 : Keeps fs s0 a2) (hm : [.now, .beacon, .regs, .slots, .tasks, .ctrs, .cores, .clusters, .mem, .granger, .streams, .dmas, .dmaNext, .net, .ports, .coll, .control, .step, .keeper, .power, .traces, .snaps, .commits] ⊆ fs := by first | assumption | (refine List.Subset.trans ?_ (by assumption); simp) | simp) :
    Keeps fs s0 (activate a1 a2).2.2 := by
  simp only [List.cons_subset, List.nil_subset, and_true] at hm
  simp (maxDischargeDepth := 60) +contextual only [activate, apply_ite Prod.snd, h2, plain_keeps, List.cons_subset, hm, List.nil_subset, and_self, keeps_keeper, switchImage_keeps, resetBlocks_keeps, bankChanged_keeps, keeps_ite]
theorem takeLeaf_keeps {fs : List Field} {s0 : State} {a1 : State} (h1 : Keeps fs s0 a1) (hm : [.keeper] ⊆ fs := by first | assumption | (refine List.Subset.trans ?_ (by assumption); simp) | simp) :
    ∀ x, (takeLeaf a1) = some x → Keeps fs s0 x.2 := by
  simp only [List.cons_subset, List.nil_subset, and_true] at hm
  simp only [takeLeaf]
  (repeat' split) <;> (try simp (maxDischargeDepth := 60) +contextual [List.cons_subset, List.nil_subset, and_self, implies_true, keeps_keeper, bankChanged_keeps, h1, hm])
  all_goals (first | done | assumption)
theorem attest_keeps {fs : List Field} {s0 : State} {a1 : List Byte} {a2 : State} (h2 : Keeps fs s0 a2) (hm : [.keeper] ⊆ fs := by first | assumption | (refine List.Subset.trans ?_ (by assumption); simp) | simp) :
    ∀ x, (attest a1 a2) = some x → Keeps fs s0 x.2 := by
  intro x e
  unfold attest at e
  split at e
  · cases e
  · cases e
    exact (takeLeaf_keeps h2) _ (by assumption)
theorem chainAttest_keeps {fs : List Field} {s0 : State} {a1 : ChainFrame} {a2 : State} (h2 : Keeps fs s0 a2) (hm : [.keeper] ⊆ fs := by first | assumption | (refine List.Subset.trans ?_ (by assumption); simp) | simp) :
    Keeps fs s0 (chainAttest a1 a2).2.2 := by
  simp only [chainAttest]
  repeat' first | with_reducible assumption | (exact List.Subset.trans (by simp) hm) | (intro _ e; cases e; done) | with_reducible apply plain_keeps | with_reducible apply keepsO_next | with_reducible apply keepsO_refused | with_reducible apply keepsI_ok | with_reducible apply keepsI_jump | with_reducible apply keepsI_trap | with_reducible apply keepsI_stall | with_reducible apply keepsI_defer | with_reducible apply keepsS_done | with_reducible apply keepsS_fault | with_reducible apply keepsL_value | with_reducible apply keepsL_blocks | with_reducible apply keepsR_ok | with_reducible apply keepsR_ecc | with_reducible apply keepsP_placed | with_reducible apply keepsP_refused | with_reducible apply keepsP_waits | with_reducible apply each_keeps | with_reducible apply keeps_foldl | (with_reducible refine (show ∀ x, _ = _ → _ from attest_keeps ?_)) | (with_reducible refine (show ∀ x, _ = _ → _ from allOk_keeps ?_ ?_)) | (refine keeps_of_snd (by assumption) ?_) | (refine keeps_of_fst (by assumption) ?_) | (refine keeps_of_some (by assumption) ?_) | (refine keeps_of_some_snd (by assumption) ?_) | (refine keeps_of_some_fst (by assumption) ?_) | (refine keeps_of_some_snd2 (by assumption) ?_) | (refine keeps_of_okE (by assumption) ?_) | (refine keeps_of_okE_snd (by assumption) ?_) | (refine keeps_of_okE_fst (by assumption) ?_) | (refine keeps_of_okR (by assumption) ?_) | (refine keeps_of_eccR (by assumption) ?_) | (refine keeps_of_placed (by assumption) ?_) | (refine keeps_of_okI (by assumption) ?_) | (refine keeps_of_doneS (by assumption) ?_) | (refine keeps_of_valueL (by assumption) ?_) | (refine keeps_of_blocksL (by assumption) ?_) | intro _ | split
theorem chainRead_keeps {fs : List Field} {s0 : State} {a1 : ChainFrame} {a2 : State} (h2 : Keeps fs s0 a2) :
    Keeps fs s0 (chainRead a1 a2).2.2 := by
  simp (maxDischargeDepth := 60) +contextual only [chainRead, h2]
theorem chainRespond_keeps {fs : List Field} {s0 : State} {a1 : ChainFrame} {a2 : Answer} (h2 : Keeps fs s0 a2.2.2) (hm : [.keeper, .out] ⊆ fs := by first | assumption | (refine List.Subset.trans ?_ (by assumption); simp) | simp) :
    Keeps fs s0 (chainRespond a1 a2) := by
  simp only [List.cons_subset, List.nil_subset, and_true] at hm
  simp (maxDischargeDepth := 60) +contextual only [chainRespond, h2, List.cons_subset, hm, List.nil_subset, and_self, keeps_keeper_out]
theorem repeatResponse_keeps {fs : List Field} {s0 : State} {a1 : State} (h1 : Keeps fs s0 a1) (hm : [.out] ⊆ fs := by first | assumption | (refine List.Subset.trans ?_ (by assumption); simp) | simp) :
    Keeps fs s0 (repeatResponse a1) := by
  simp only [List.cons_subset, List.nil_subset, and_true] at hm
  simp (maxDischargeDepth := 60) +contextual only [repeatResponse, h1, List.cons_subset, hm, List.nil_subset, and_self, keeps_out]
theorem countDrop_keeps {fs : List Field} {s0 : State} {a1 : State} (h1 : Keeps fs s0 a1) (hm : [.regs] ⊆ fs := by first | assumption | (refine List.Subset.trans ?_ (by assumption); simp) | simp) :
    Keeps fs s0 (countDrop a1) := by
  simp only [List.cons_subset, List.nil_subset, and_true] at hm
  simp (maxDischargeDepth := 60) +contextual only [countDrop, h1, List.cons_subset, hm, List.nil_subset, and_self, addFld_keeps]
theorem forward_keeps {fs : List Field} {s0 : State} {a1 : ChainFrame} {a2 : State} (h2 : Keeps fs s0 a2) (hm : [.out] ⊆ fs := by first | assumption | (refine List.Subset.trans ?_ (by assumption); simp) | simp) :
    Keeps fs s0 (forward a1 a2) := by
  simp only [List.cons_subset, List.nil_subset, and_true] at hm
  simp (maxDischargeDepth := 60) +contextual only [forward, h2, List.cons_subset, hm, List.nil_subset, and_self, keeps_out, keeps_ite]
theorem receive_keeps {fs : List Field} {s0 : State} {a1 : Nat} {a2 : (ChainFrame → Bool)} {a3 : (ChainFrame → State → Answer)} {a4 : ChainFrame} {a5 : State} (h3 : ∀ y0 y1, Keeps fs s0 y1 → Keeps fs s0 (a3 y0 y1).2.2) (h5 : Keeps fs s0 a5) (hm : [.regs, .keeper, .out] ⊆ fs := by first | assumption | (refine List.Subset.trans ?_ (by assumption); simp) | simp) :
    Keeps fs s0 (receive a1 a2 a3 a4 a5) := by
  simp only [List.cons_subset, List.nil_subset, and_true] at hm
  simp (maxDischargeDepth := 60) +contextual only [receive, h5, List.cons_subset, hm, List.nil_subset, and_self, forward_keeps, countDrop_keeps, h3, keeps_ite, repeatResponse_keeps, apply_ite Prod.snd, plain_keeps, chainRespond_keeps]
theorem chainReset_keeps {fs : List Field} {s0 : State} {a1 : ChainFrame} {a2 : State} (h2 : Keeps fs s0 a2) (hm : [.now, .beacon, .regs, .slots, .tasks, .ctrs, .cores, .clusters, .mem, .granger, .streams, .dmas, .dmaNext, .net, .ports, .coll, .control, .step, .keeper, .power, .traces, .snaps, .commits, .out] ⊆ fs := by first | assumption | (refine List.Subset.trans ?_ (by assumption); simp) | simp) :
    Keeps fs s0 (chainReset a1 a2) := by
  simp only [List.cons_subset, List.nil_subset, and_true] at hm
  simp (maxDischargeDepth := 60) +contextual only [chainReset, plain_keeps, implies_true, h2, List.cons_subset, hm, List.nil_subset, and_self, receive_keeps, deviceReset_keeps, keeps_ite]
theorem chainWrite_keeps {fs : List Field} {s0 : State} {a1 : ChainFrame} {a2 : State} (h2 : Keeps fs s0 a2) (hm : [.beacon, .regs, .slots, .tasks, .ctrs, .cores, .clusters, .mem, .granger, .ports, .coll, .control, .step, .keeper, .power, .traces, .commits, .out] ⊆ fs := by first | assumption | (refine List.Subset.trans ?_ (by assumption); simp) | simp) :
    Keeps fs s0 (chainWrite a1 a2).2.2 := by
  simp only [List.cons_subset, List.nil_subset, and_true] at hm
  simp (maxDischargeDepth := 60) +contextual only [chainWrite, apply_ite Prod.snd, h2, plain_keeps, List.cons_subset, hm, List.nil_subset, and_self, plainWrite_keeps, implies_true, keeps_foldl, commitPage_keeps, keeps_ite]
theorem confirm_keeps {fs : List Field} {s0 : State} {a1 : ChainFrame} {a2 : State} (h2 : Keeps fs s0 a2) (hm : [.keeper] ⊆ fs := by first | assumption | (refine List.Subset.trans ?_ (by assumption); simp) | simp) :
    Keeps fs s0 (confirm a1 a2).2.2 := by
  simp only [List.cons_subset, List.nil_subset, and_true] at hm
  simp (maxDischargeDepth := 60) +contextual only [confirm, h2, List.cons_subset, hm, List.nil_subset, and_self, confirmImage_keeps, plain_keeps]
theorem takeAddress_keeps {fs : List Field} {s0 : State} {a1 : Nat} {a2 : State} (h2 : Keeps fs s0 a2) (hm : [.regs, .keeper] ⊆ fs := by first | assumption | (refine List.Subset.trans ?_ (by assumption); simp) | simp) :
    Keeps fs s0 (takeAddress a1 a2) := by
  simp only [List.cons_subset, List.nil_subset, and_true] at hm
  simp (maxDischargeDepth := 60) +contextual only [takeAddress, h2, List.cons_subset, hm, List.nil_subset, and_self, setSetting_keeps, setFld_keeps, keeps_keeper]
theorem loseAddress_keeps {fs : List Field} {s0 : State} {a1 : State} (h1 : Keeps fs s0 a1) (hm : [.regs, .slots, .tasks, .ctrs, .cores, .clusters, .mem, .granger, .ports, .coll, .control, .step, .keeper, .power, .traces, .out] ⊆ fs := by first | assumption | (refine List.Subset.trans ?_ (by assumption); simp) | simp) :
    Keeps fs s0 (loseAddress a1) := by
  simp only [List.cons_subset, List.nil_subset, and_true] at hm
  simp (maxDischargeDepth := 60) +contextual only [loseAddress, List.cons_subset, hm, List.nil_subset, and_self, applyPort_keeps, implies_true, h1, takeAddress_keeps, setSetting_keeps, setFld_keeps, keeps_foldl]
theorem enumFrame_keeps {fs : List Field} {s0 : State} {a1 : ChainFrame} {a2 : State} (h2 : Keeps fs s0 a2) (hm : [.regs, .slots, .tasks, .ctrs, .cores, .clusters, .mem, .granger, .ports, .coll, .control, .step, .keeper, .power, .traces, .out] ⊆ fs := by first | assumption | (refine List.Subset.trans ?_ (by assumption); simp) | simp) :
    Keeps fs s0 (enumFrame a1 a2) := by
  simp only [List.cons_subset, List.nil_subset, and_true] at hm
  simp (maxDischargeDepth := 60) +contextual only [enumFrame, h2, List.cons_subset, hm, List.nil_subset, and_self, forward_keeps, countDrop_keeps, keeps_ite, takeAddress_keeps, loseAddress_keeps, keeps_keeper, chainEvent_keeps]
theorem execActivate_keeps {fs : List Field} {s0 : State} {a1 : ChainFrame} {a2 : State} (h2 : Keeps fs s0 a2) (hm : [.now, .beacon, .regs, .slots, .tasks, .ctrs, .cores, .clusters, .mem, .granger, .streams, .dmas, .dmaNext, .net, .ports, .coll, .control, .step, .keeper, .power, .traces, .snaps, .commits, .out] ⊆ fs := by first | assumption | (refine List.Subset.trans ?_ (by assumption); simp) | simp) :
    KeepsO fs s0 (execActivate a1 a2) := by
  simp only [List.cons_subset, List.nil_subset, and_true] at hm
  simp (maxDischargeDepth := 60) +contextual only [execActivate, List.cons_subset, hm, List.nil_subset, and_self, activate_keeps, implies_true, h2, receive_keeps, keepsO_next]
theorem relayChange_keeps {fs : List Field} {s0 : State} {a1 : Bool} {a2 : State} (h2 : Keeps fs s0 a2) (hm : [.keeper, .out] ⊆ fs := by first | assumption | (refine List.Subset.trans ?_ (by assumption); simp) | simp) :
    Keeps fs s0 (relayChange a1 a2) := by
  simp only [List.cons_subset, List.nil_subset, and_true] at hm
  simp (maxDischargeDepth := 60) +contextual only [relayChange, h2, List.cons_subset, hm, List.nil_subset, and_self, keeps_keeper, chainEvent_keeps, keeps_ite]
theorem execBypassRelayChange_keeps {fs : List Field} {s0 : State} {a1 : Bool} {a2 : State} (h2 : Keeps fs s0 a2) (hm : [.keeper, .out] ⊆ fs := by first | assumption | (refine List.Subset.trans ?_ (by assumption); simp) | simp) :
    KeepsO fs s0 (execBypassRelayChange a1 a2) := by
  simp only [List.cons_subset, List.nil_subset, and_true] at hm
  simp (maxDischargeDepth := 60) +contextual only [execBypassRelayChange, h2, List.cons_subset, hm, List.nil_subset, and_self, relayChange_keeps, keepsO_next]
theorem execChainAttest_keeps {fs : List Field} {s0 : State} {a1 : ChainFrame} {a2 : State} (h2 : Keeps fs s0 a2) (hm : [.regs, .keeper, .out] ⊆ fs := by first | assumption | (refine List.Subset.trans ?_ (by assumption); simp) | simp) :
    KeepsO fs s0 (execChainAttest a1 a2) := by
  simp only [List.cons_subset, List.nil_subset, and_true] at hm
  simp (maxDischargeDepth := 60) +contextual only [execChainAttest, List.cons_subset, hm, List.nil_subset, and_self, chainAttest_keeps, implies_true, h2, receive_keeps, keepsO_next]
theorem execChainOutLinkUp_keeps {fs : List Field} {s0 : State} {a1 : State} (h1 : Keeps fs s0 a1) (hm : [.keeper] ⊆ fs := by first | assumption | (refine List.Subset.trans ?_ (by assumption); simp) | simp) :
    KeepsO fs s0 (execChainOutLinkUp a1) := by
  simp only [List.cons_subset, List.nil_subset, and_true] at hm
  simp (maxDischargeDepth := 60) +contextual only [execChainOutLinkUp, h1, List.cons_subset, hm, List.nil_subset, and_self, keeps_keeper, keepsO_next]
theorem execChainRead_keeps {fs : List Field} {s0 : State} {a1 : ChainFrame} {a2 : State} (h2 : Keeps fs s0 a2) (hm : [.regs, .keeper, .out] ⊆ fs := by first | assumption | (refine List.Subset.trans ?_ (by assumption); simp) | simp) :
    KeepsO fs s0 (execChainRead a1 a2) := by
  simp only [List.cons_subset, List.nil_subset, and_true] at hm
  simp (maxDischargeDepth := 60) +contextual only [execChainRead, chainRead_keeps, implies_true, h2, List.cons_subset, hm, List.nil_subset, and_self, receive_keeps, keepsO_next]
theorem execChainReset_keeps {fs : List Field} {s0 : State} {a1 : ChainFrame} {a2 : State} (h2 : Keeps fs s0 a2) (hm : [.now, .beacon, .regs, .slots, .tasks, .ctrs, .cores, .clusters, .mem, .granger, .streams, .dmas, .dmaNext, .net, .ports, .coll, .control, .step, .keeper, .power, .traces, .snaps, .commits, .out] ⊆ fs := by first | assumption | (refine List.Subset.trans ?_ (by assumption); simp) | simp) :
    KeepsO fs s0 (execChainReset a1 a2) := by
  simp only [List.cons_subset, List.nil_subset, and_true] at hm
  simp (maxDischargeDepth := 60) +contextual only [execChainReset, h2, List.cons_subset, hm, List.nil_subset, and_self, chainReset_keeps, keepsO_next]
theorem execChainTailTimeout_keeps {fs : List Field} {s0 : State} {a1 : State} (h1 : Keeps fs s0 a1) (hm : [.keeper] ⊆ fs := by first | assumption | (refine List.Subset.trans ?_ (by assumption); simp) | simp) :
    KeepsO fs s0 (execChainTailTimeout a1) := by
  simp only [List.cons_subset, List.nil_subset, and_true] at hm
  simp (maxDischargeDepth := 60) +contextual only [execChainTailTimeout, h1, List.cons_subset, hm, List.nil_subset, and_self, keeps_keeper, keepsO_next]
theorem execChainWrite_keeps {fs : List Field} {s0 : State} {a1 : ChainFrame} {a2 : State} (h2 : Keeps fs s0 a2) (hm : [.beacon, .regs, .slots, .tasks, .ctrs, .cores, .clusters, .mem, .granger, .ports, .coll, .control, .step, .keeper, .power, .traces, .commits, .out] ⊆ fs := by first | assumption | (refine List.Subset.trans ?_ (by assumption); simp) | simp) :
    KeepsO fs s0 (execChainWrite a1 a2) := by
  simp only [List.cons_subset, List.nil_subset, and_true] at hm
  simp (maxDischargeDepth := 60) +contextual only [execChainWrite, List.cons_subset, hm, List.nil_subset, and_self, chainWrite_keeps, implies_true, h2, receive_keeps, keepsO_next]
theorem execConfirm_keeps {fs : List Field} {s0 : State} {a1 : ChainFrame} {a2 : State} (h2 : Keeps fs s0 a2) (hm : [.regs, .keeper, .out] ⊆ fs := by first | assumption | (refine List.Subset.trans ?_ (by assumption); simp) | simp) :
    KeepsO fs s0 (execConfirm a1 a2) := by
  simp only [List.cons_subset, List.nil_subset, and_true] at hm
  simp (maxDischargeDepth := 60) +contextual only [execConfirm, List.cons_subset, hm, List.nil_subset, and_self, confirm_keeps, implies_true, h2, receive_keeps, keepsO_next]
theorem execEnum_keeps {fs : List Field} {s0 : State} {a1 : ChainFrame} {a2 : State} (h2 : Keeps fs s0 a2) (hm : [.regs, .slots, .tasks, .ctrs, .cores, .clusters, .mem, .granger, .ports, .coll, .control, .step, .keeper, .power, .traces, .out] ⊆ fs := by first | assumption | (refine List.Subset.trans ?_ (by assumption); simp) | simp) :
    KeepsO fs s0 (execEnum a1 a2) := by
  simp only [List.cons_subset, List.nil_subset, and_true] at hm
  simp (maxDischargeDepth := 60) +contextual only [execEnum, h2, List.cons_subset, hm, List.nil_subset, and_self, enumFrame_keeps, keepsO_next]
theorem setImage_keeps {fs : List Field} {s0 : State} {a1 : State} {a2 : Bool} {a3 : List Host.Cell} (h1 : Keeps fs s0 a1) (hm : [.keeper] ⊆ fs := by first | assumption | (refine List.Subset.trans ?_ (by assumption); simp) | simp) :
    Keeps fs s0 (setImage a1 a2 a3) := by
  simp only [List.cons_subset, List.nil_subset, and_true] at hm
  simp (maxDischargeDepth := 60) +contextual only [setImage, h1, List.cons_subset, hm, List.nil_subset, and_self, keeps_keeper, keeps_ite]
theorem imageData_keeps {fs : List Field} {s0 : State} {a1 : ChainFrame} {a2 : State} (h2 : Keeps fs s0 a2) (hm : [.keeper] ⊆ fs := by first | assumption | (refine List.Subset.trans ?_ (by assumption); simp) | simp) :
    Keeps fs s0 (imageData a1 a2).2.2 := by
  simp only [List.cons_subset, List.nil_subset, and_true] at hm
  simp (maxDischargeDepth := 60) +contextual only [imageData]
  repeat' (split <;> (try simp (maxDischargeDepth := 60) +contextual only [List.cons_subset, List.nil_subset, and_self, setImage_keeps, plain_keeps, h2, hm]))
  all_goals (first | done | assumption)
theorem imageFrame_keeps {fs : List Field} {s0 : State} {a1 : ChainFrame} {a2 : State} (h2 : Keeps fs s0 a2) (hm : [.regs, .keeper, .out] ⊆ fs := by first | assumption | (refine List.Subset.trans ?_ (by assumption); simp) | simp) :
    Keeps fs s0 (imageFrame a1 a2) := by
  simp only [List.cons_subset, List.nil_subset, and_true] at hm
  simp (maxDischargeDepth := 60) +contextual only [imageFrame, h2, List.cons_subset, hm, List.nil_subset, and_self, forward_keeps, countDrop_keeps, imageData_keeps, implies_true, receive_keeps, keeps_ite]
theorem execImage_keeps {fs : List Field} {s0 : State} {a1 : ChainFrame} {a2 : State} (h2 : Keeps fs s0 a2) (hm : [.regs, .keeper, .out] ⊆ fs := by first | assumption | (refine List.Subset.trans ?_ (by assumption); simp) | simp) :
    KeepsO fs s0 (execImage a1 a2) := by
  simp only [List.cons_subset, List.nil_subset, and_true] at hm
  simp (maxDischargeDepth := 60) +contextual only [execImage, h2, List.cons_subset, hm, List.nil_subset, and_self, imageFrame_keeps, keepsO_next]
theorem setCoord_keeps {fs : List Field} {s0 : State} {a1 : ChainFrame} {a2 : State} (h2 : Keeps fs s0 a2) (hm : [.regs, .slots, .tasks, .ctrs, .cores, .clusters, .mem, .granger, .ports, .coll, .control, .step, .keeper, .power, .traces, .out] ⊆ fs := by first | assumption | (refine List.Subset.trans ?_ (by assumption); simp) | simp) :
    Keeps fs s0 (setCoord a1 a2).2.2 := by
  simp only [List.cons_subset, List.nil_subset, and_true] at hm
  simp (maxDischargeDepth := 60) +contextual only [setCoord, apply_ite Prod.snd, h2, plain_keeps, List.cons_subset, hm, List.nil_subset, and_self, reidentify_keeps, implies_true, setSetting_keeps, loadCoord_keeps, keeps_foldl, keeps_ite]
theorem execSetCoord_keeps {fs : List Field} {s0 : State} {a1 : ChainFrame} {a2 : State} (h2 : Keeps fs s0 a2) (hm : [.regs, .slots, .tasks, .ctrs, .cores, .clusters, .mem, .granger, .ports, .coll, .control, .step, .keeper, .power, .traces, .out] ⊆ fs := by first | assumption | (refine List.Subset.trans ?_ (by assumption); simp) | simp) :
    KeepsO fs s0 (execSetCoord a1 a2) := by
  simp only [List.cons_subset, List.nil_subset, and_true] at hm
  simp (maxDischargeDepth := 60) +contextual only [execSetCoord, List.cons_subset, hm, List.nil_subset, and_self, setCoord_keeps, implies_true, h2, receive_keeps, keepsO_next]
theorem setImageState_keeps {fs : List Field} {s0 : State} {a1 : State} {a2 : Bool} {a3 : Nat} (h1 : Keeps fs s0 a1) (hm : [.keeper] ⊆ fs := by first | assumption | (refine List.Subset.trans ?_ (by assumption); simp) | simp) :
    Keeps fs s0 (setImageState a1 a2 a3) := by
  simp only [List.cons_subset, List.nil_subset, and_true] at hm
  simp (maxDischargeDepth := 60) +contextual only [setImageState, h1, List.cons_subset, hm, List.nil_subset, and_self, keeps_keeper, keeps_ite]
theorem stageBegin_keeps {fs : List Field} {s0 : State} {a1 : ChainFrame} {a2 : State} (h2 : Keeps fs s0 a2) (hm : [.keeper] ⊆ fs := by first | assumption | (refine List.Subset.trans ?_ (by assumption); simp) | simp) :
    Keeps fs s0 (stageBegin a1 a2).2.2 := by
  simp only [List.cons_subset, List.nil_subset, and_true] at hm
  simp (maxDischargeDepth := 60) +contextual only [stageBegin, apply_ite Prod.snd, h2, plain_keeps, List.cons_subset, hm, List.nil_subset, and_self, setImage_keeps, setImageState_keeps, keeps_keeper, keeps_ite]
theorem execStageBegin_keeps {fs : List Field} {s0 : State} {a1 : ChainFrame} {a2 : State} (h2 : Keeps fs s0 a2) (hm : [.regs, .keeper, .out] ⊆ fs := by first | assumption | (refine List.Subset.trans ?_ (by assumption); simp) | simp) :
    KeepsO fs s0 (execStageBegin a1 a2) := by
  simp only [List.cons_subset, List.nil_subset, and_true] at hm
  simp (maxDischargeDepth := 60) +contextual only [execStageBegin, List.cons_subset, hm, List.nil_subset, and_self, stageBegin_keeps, implies_true, h2, receive_keeps, keepsO_next]
theorem stageEnd_keeps {fs : List Field} {s0 : State} {a1 : VerifyResult} {a2 : ChainFrame} {a3 : State} (h3 : Keeps fs s0 a3) (hm : [.keeper] ⊆ fs := by first | assumption | (refine List.Subset.trans ?_ (by assumption); simp) | simp) :
    Keeps fs s0 (stageEnd a1 a2 a3).2.2 := by
  simp only [List.cons_subset, List.nil_subset, and_true] at hm
  simp (maxDischargeDepth := 60) +contextual only [stageEnd]
  repeat' (split <;> (try simp (maxDischargeDepth := 60) +contextual only [List.cons_subset, List.nil_subset, and_self, keeps_keeper, setImageState_keeps, plain_keeps, h3, hm]))
  all_goals (first | done | assumption)
theorem execStageEnd_keeps {fs : List Field} {s0 : State} {a1 : ChainFrame} {a2 : VerifyResult} {a3 : State} (h3 : Keeps fs s0 a3) (hm : [.regs, .keeper, .out] ⊆ fs := by first | assumption | (refine List.Subset.trans ?_ (by assumption); simp) | simp) :
    KeepsO fs s0 (execStageEnd a1 a2 a3) := by
  simp only [List.cons_subset, List.nil_subset, and_true] at hm
  simp (maxDischargeDepth := 60) +contextual only [execStageEnd, List.cons_subset, hm, List.nil_subset, and_self, stageEnd_keeps, implies_true, h3, receive_keeps, keepsO_next]
theorem mboxDone_keeps {fs : List Field} {s0 : State} {a1 : Nat} {a2 : Nat} {a3 : State} (h3 : Keeps fs s0 a3) (hm : [.regs, .keeper, .out] ⊆ fs := by first | assumption | (refine List.Subset.trans ?_ (by assumption); simp) | simp) :
    Keeps fs s0 (mboxDone a1 a2 a3) := by
  simp only [List.cons_subset, List.nil_subset, and_true] at hm
  simp (maxDischargeDepth := 60) +contextual only [mboxDone, h3, List.cons_subset, hm, List.nil_subset, and_self, wr_keeps, keeps_keeper, irq_keeps]
theorem confirmFw_keeps {fs : List Field} {s0 : State} {a1 : State} (h1 : Keeps fs s0 a1) (hm : [.regs, .keeper, .out] ⊆ fs := by first | assumption | (refine List.Subset.trans ?_ (by assumption); simp) | simp) :
    Keeps fs s0 (confirmFw a1) := by
  simp only [List.cons_subset, List.nil_subset, and_true] at hm
  simp (maxDischargeDepth := 60) +contextual only [confirmFw, h1, List.cons_subset, hm, List.nil_subset, and_self, confirmImage_keeps, mboxDone_keeps]
theorem mboxRun_keeps {fs : List Field} {s0 : State} {a1 : Nat} {a2 : (State → State)} {a3 : State} (h2 : ∀ y0, Keeps fs s0 y0 → Keeps fs s0 (a2 y0)) (h3 : Keeps fs s0 a3) :
    Keeps fs s0 (mboxRun a1 a2 a3) := by
  simp (maxDischargeDepth := 60) +contextual only [mboxRun, h3, h2, keeps_ite]
theorem execConfirmFw_keeps {fs : List Field} {s0 : State} {a1 : State} (h1 : Keeps fs s0 a1) (hm : [.regs, .keeper, .out] ⊆ fs := by first | assumption | (refine List.Subset.trans ?_ (by assumption); simp) | simp) :
    KeepsO fs s0 (execConfirmFw a1) := by
  simp only [List.cons_subset, List.nil_subset, and_true] at hm
  simp (maxDischargeDepth := 60) +contextual only [execConfirmFw, List.cons_subset, hm, List.nil_subset, and_self, confirmFw_keeps, implies_true, h1, mboxRun_keeps, keepsO_next]
theorem mboxResult_keeps {fs : List Field} {s0 : State} {a1 : List Byte} {a2 : State} (h2 : Keeps fs s0 a2) (hm : [.regs, .cores, .mem, .granger, .keeper, .out, .free] ⊆ fs := by first | assumption | (refine List.Subset.trans ?_ (by assumption); simp) | simp) :
    Keeps fs s0 (mboxResult a1 a2) := by
  simp only [List.cons_subset, List.nil_subset, and_true] at hm
  simp (maxDischargeDepth := 60) +contextual only [mboxResult, h2, List.cons_subset, hm, List.nil_subset, and_self, storeHome_keeps, mboxDone_keeps, keeps_ite]
theorem mboxAttest_keeps {fs : List Field} {s0 : State} {a1 : State} (h1 : Keeps fs s0 a1) (hm : [.regs, .cores, .mem, .granger, .keeper, .out, .free] ⊆ fs := by first | assumption | (refine List.Subset.trans ?_ (by assumption); simp) | simp) :
    Keeps fs s0 (mboxAttest a1) := by
  simp only [mboxAttest]
  repeat' first | with_reducible assumption | (exact List.Subset.trans (by simp) hm) | (intro _ e; cases e; done) | with_reducible apply mboxResult_keeps | with_reducible apply mboxDone_keeps | with_reducible apply keepsO_next | with_reducible apply keepsO_refused | with_reducible apply keepsI_ok | with_reducible apply keepsI_jump | with_reducible apply keepsI_trap | with_reducible apply keepsI_stall | with_reducible apply keepsI_defer | with_reducible apply keepsS_done | with_reducible apply keepsS_fault | with_reducible apply keepsL_value | with_reducible apply keepsL_blocks | with_reducible apply keepsR_ok | with_reducible apply keepsR_ecc | with_reducible apply keepsP_placed | with_reducible apply keepsP_refused | with_reducible apply keepsP_waits | with_reducible apply each_keeps | with_reducible apply keeps_foldl | (with_reducible refine (show ∀ x, _ = _ → _ from attest_keeps ?_)) | (with_reducible refine (show ∀ x, _ = _ → _ from allOk_keeps ?_ ?_)) | (refine keeps_of_snd (by assumption) ?_) | (refine keeps_of_fst (by assumption) ?_) | (refine keeps_of_some (by assumption) ?_) | (refine keeps_of_some_snd (by assumption) ?_) | (refine keeps_of_some_fst (by assumption) ?_) | (refine keeps_of_some_snd2 (by assumption) ?_) | (refine keeps_of_okE (by assumption) ?_) | (refine keeps_of_okE_snd (by assumption) ?_) | (refine keeps_of_okE_fst (by assumption) ?_) | (refine keeps_of_okR (by assumption) ?_) | (refine keeps_of_eccR (by assumption) ?_) | (refine keeps_of_placed (by assumption) ?_) | (refine keeps_of_okI (by assumption) ?_) | (refine keeps_of_doneS (by assumption) ?_) | (refine keeps_of_valueL (by assumption) ?_) | (refine keeps_of_blocksL (by assumption) ?_) | intro _ | split
theorem execMboxAttest_keeps {fs : List Field} {s0 : State} {a1 : State} (h1 : Keeps fs s0 a1) (hm : [.regs, .cores, .mem, .granger, .keeper, .out, .free] ⊆ fs := by first | assumption | (refine List.Subset.trans ?_ (by assumption); simp) | simp) :
    KeepsO fs s0 (execMboxAttest a1) := by
  simp only [List.cons_subset, List.nil_subset, and_true] at hm
  simp (maxDischargeDepth := 60) +contextual only [execMboxAttest, List.cons_subset, hm, List.nil_subset, and_self, mboxAttest_keeps, implies_true, h1, mboxRun_keeps, keepsO_next]
theorem mboxFuseLog_keeps {fs : List Field} {s0 : State} {a1 : State} (h1 : Keeps fs s0 a1) (hm : [.regs, .cores, .mem, .granger, .keeper, .out, .free] ⊆ fs := by first | assumption | (refine List.Subset.trans ?_ (by assumption); simp) | simp) :
    Keeps fs s0 (mboxFuseLog a1) := by
  simp only [List.cons_subset, List.nil_subset, and_true] at hm
  simp (maxDischargeDepth := 60) +contextual only [mboxFuseLog, h1, List.cons_subset, hm, List.nil_subset, and_self, mboxResult_keeps]
theorem execMboxFuseLog_keeps {fs : List Field} {s0 : State} {a1 : State} (h1 : Keeps fs s0 a1) (hm : [.regs, .cores, .mem, .granger, .keeper, .out, .free] ⊆ fs := by first | assumption | (refine List.Subset.trans ?_ (by assumption); simp) | simp) :
    KeepsO fs s0 (execMboxFuseLog a1) := by
  simp only [List.cons_subset, List.nil_subset, and_true] at hm
  simp (maxDischargeDepth := 60) +contextual only [execMboxFuseLog, List.cons_subset, hm, List.nil_subset, and_self, mboxFuseLog_keeps, implies_true, h1, mboxRun_keeps, keepsO_next]
theorem mboxHealth_keeps {fs : List Field} {s0 : State} {a1 : State} (h1 : Keeps fs s0 a1) (hm : [.regs, .cores, .mem, .granger, .keeper, .out, .free] ⊆ fs := by first | assumption | (refine List.Subset.trans ?_ (by assumption); simp) | simp) :
    Keeps fs s0 (mboxHealth a1) := by
  simp only [List.cons_subset, List.nil_subset, and_true] at hm
  simp (maxDischargeDepth := 60) +contextual only [mboxHealth, h1, List.cons_subset, hm, List.nil_subset, and_self, mboxResult_keeps]
theorem execMboxHealth_keeps {fs : List Field} {s0 : State} {a1 : State} (h1 : Keeps fs s0 a1) (hm : [.regs, .cores, .mem, .granger, .keeper, .out, .free] ⊆ fs := by first | assumption | (refine List.Subset.trans ?_ (by assumption); simp) | simp) :
    KeepsO fs s0 (execMboxHealth a1) := by
  simp only [List.cons_subset, List.nil_subset, and_true] at hm
  simp (maxDischargeDepth := 60) +contextual only [execMboxHealth, List.cons_subset, hm, List.nil_subset, and_self, mboxHealth_keeps, implies_true, h1, mboxRun_keeps, keepsO_next]
theorem mboxIdentity_keeps {fs : List Field} {s0 : State} {a1 : State} (h1 : Keeps fs s0 a1) (hm : [.regs, .cores, .mem, .granger, .keeper, .out, .free] ⊆ fs := by first | assumption | (refine List.Subset.trans ?_ (by assumption); simp) | simp) :
    Keeps fs s0 (mboxIdentity a1) := by
  simp only [List.cons_subset, List.nil_subset, and_true] at hm
  simp (maxDischargeDepth := 60) +contextual only [mboxIdentity, h1, List.cons_subset, hm, List.nil_subset, and_self, mboxResult_keeps]
theorem execMboxIdentity_keeps {fs : List Field} {s0 : State} {a1 : State} (h1 : Keeps fs s0 a1) (hm : [.regs, .cores, .mem, .granger, .keeper, .out, .free] ⊆ fs := by first | assumption | (refine List.Subset.trans ?_ (by assumption); simp) | simp) :
    KeepsO fs s0 (execMboxIdentity a1) := by
  simp only [List.cons_subset, List.nil_subset, and_true] at hm
  simp (maxDischargeDepth := 60) +contextual only [execMboxIdentity, List.cons_subset, hm, List.nil_subset, and_self, mboxIdentity_keeps, implies_true, h1, mboxRun_keeps, keepsO_next]
theorem mboxSelfTest_keeps {fs : List Field} {s0 : State} {a1 : Option ArrayLine} {a2 : Bool} {a3 : State} (h3 : Keeps fs s0 a3) (hm : [.regs, .slots, .tasks, .ctrs, .cores, .clusters, .mem, .granger, .coll, .control, .step, .keeper, .power, .traces, .out, .free] ⊆ fs := by first | assumption | (refine List.Subset.trans ?_ (by assumption); simp) | simp) :
    Keeps fs s0 (mboxSelfTest a1 a2 a3) := by
  simp only [List.cons_subset, List.nil_subset, and_true] at hm
  simp (maxDischargeDepth := 60) +contextual only [mboxSelfTest]
  repeat' (split <;> (try simp (maxDischargeDepth := 60) +contextual only [keeps_ite, List.cons_subset, List.nil_subset, and_self, fieldRepair_keeps, failSelfTest_keeps, setCore_keeps, mboxResult_keeps, mboxDone_keeps, h3, hm]))
  all_goals (first | done | assumption)
theorem execMboxSelfTest_keeps {fs : List Field} {s0 : State} {a1 : Option ArrayLine} {a2 : Bool} {a3 : State} (h3 : Keeps fs s0 a3) (hm : [.regs, .slots, .tasks, .ctrs, .cores, .clusters, .mem, .granger, .coll, .control, .step, .keeper, .power, .traces, .out, .free] ⊆ fs := by first | assumption | (refine List.Subset.trans ?_ (by assumption); simp) | simp) :
    KeepsO fs s0 (execMboxSelfTest a1 a2 a3) := by
  simp only [List.cons_subset, List.nil_subset, and_true] at hm
  simp (maxDischargeDepth := 60) +contextual only [execMboxSelfTest, List.cons_subset, hm, List.nil_subset, and_self, mboxSelfTest_keeps, implies_true, h3, mboxRun_keeps, keepsO_next]
theorem mboxCmd_keeps {fs : List Field} {s0 : State} {a1 : Word} {a2 : State} (h2 : Keeps fs s0 a2) (hm : [.regs, .keeper, .out] ⊆ fs := by first | assumption | (refine List.Subset.trans ?_ (by assumption); simp) | simp) :
    Keeps fs s0 (mboxCmd a1 a2) := by
  simp only [List.cons_subset, List.nil_subset, and_true] at hm
  simp (maxDischargeDepth := 60) +contextual only [mboxCmd, h2, List.cons_subset, hm, List.nil_subset, and_self, reservedWrite_keeps, logErr_keeps, keeps_keeper, keeps_ite]

end Sys2Proof.Laws
end

