-- ==== Sys2Proof/Laws/KeepsAccess.lean ====
section
/-! SUPPORT. What the operations keep (see Laws/Keeps.lean): register accesses, scalar instructions, time. -/

namespace Sys2Proof.Laws

set_option Elab.async false

open Sys2Proof.Machine Sys2Proof.Safety

theorem noPage_keeps {fs : List Field} {s0 : State} {a1 : Requester} {a2 : Nat} {a3 : State} (h3 : Keeps fs s0 a3) (hm : [.regs, .out] ⊆ fs := by first | assumption | (refine List.Subset.trans ?_ (by assumption); simp) | simp) :
    Keeps fs s0 (noPage a1 a2 a3) := by
  unfold noPage
  refine logErr_keeps ?_
  split
  · exact h3
  · exact wr_keeps h3
theorem badShape_keeps {fs : List Field} {s0 : State} {a1 : Requester} {a2 : Nat} {a3 : State} (h3 : Keeps fs s0 a3) (hm : [.regs, .out] ⊆ fs := by first | assumption | (refine List.Subset.trans ?_ (by assumption); simp) | simp) :
    Keeps fs s0 (badShape a1 a2 a3) := by
  simp only [List.cons_subset, List.nil_subset, and_true] at hm
  simp (maxDischargeDepth := 60) +contextual only [badShape]
  repeat' (split <;> (try simp (maxDischargeDepth := 60) +contextual only [List.cons_subset, List.nil_subset, and_self, logErr_keeps, noPage_keeps, h3, hm]))
  all_goals (first | done | assumption)
theorem bankStore_keeps {fs : List Field} {s0 : State} {a1 : PageRef} {a2 : Nat} {a3 : Word} {a4 : State} (h4 : Keeps fs s0 a4) (hm : [.regs, .snaps, .out] ⊆ fs := by first | assumption | (refine List.Subset.trans ?_ (by assumption); simp) | simp) :
    Keeps fs s0 (bankStore a1 a2 a3 a4) := by
  simp only [List.cons_subset, List.nil_subset, and_true] at hm
  simp (maxDischargeDepth := 60) +contextual only [bankStore, h4, List.cons_subset, hm, List.nil_subset, and_self, bankResetStore_keeps, sampleStore_keeps, snapStore_keeps, plainWrite_keeps, implies_true, onBank_keeps, cfgWrite_keeps, keeps_ite]
theorem configWrite_keeps {fs : List Field} {s0 : State} {a1 : Nat} {a2 : Nat} {a3 : Nat} {a4 : Word} {a5 : (Slot → Word → Slot)} {a6 : State} (h6 : Keeps fs s0 a6) (hm : [.regs, .slots, .out] ⊆ fs := by first | assumption | (refine List.Subset.trans ?_ (by assumption); simp) | simp) :
    Keeps fs s0 (configWrite a1 a2 a3 a4 a5 a6) := by
  simp only [List.cons_subset, List.nil_subset, and_true] at hm
  simp (maxDischargeDepth := 60) +contextual only [configWrite, h6, List.cons_subset, hm, List.nil_subset, and_self, reservedWrite_keeps, setSlot_keeps, logErr_keeps, keeps_ite]
theorem slotStore_keeps {fs : List Field} {s0 : State} {a1 : Nat} {a2 : Nat} {a3 : Word} {a4 : State} (h4 : Keeps fs s0 a4) (hm : [.regs, .slots, .tasks, .ctrs, .cores, .clusters, .mem, .granger, .coll, .control, .step, .power, .traces, .out] ⊆ fs := by first | assumption | (refine List.Subset.trans ?_ (by assumption); simp) | simp) :
    Keeps fs s0 (slotStore a1 a2 a3 a4) := by
  simp only [List.cons_subset, List.nil_subset, and_true] at hm
  simp (maxDischargeDepth := 60) +contextual only [slotStore]
  repeat' (split <;> (try simp (maxDischargeDepth := 60) +contextual only [keeps_ite, List.cons_subset, List.nil_subset, and_self, logErr_keeps, configWrite_keeps, release_keeps, abort_keeps, reservedWrite_keeps, arm_keeps, h4, hm]))
  all_goals (first | done | assumption)
theorem bar2Store_keeps {fs : List Field} {s0 : State} {a1 : Nat} {a2 : Nat} {a3 : List Word} {a4 : State} (h4 : Keeps fs s0 a4) (hm : [.regs, .slots, .tasks, .ctrs, .cores, .clusters, .mem, .granger, .coll, .control, .step, .power, .traces, .out] ⊆ fs := by first | assumption | (refine List.Subset.trans ?_ (by assumption); simp) | simp) :
    Keeps fs s0 (bar2Store a1 a2 a3 a4) := by
  simp only [List.cons_subset, List.nil_subset, and_true] at hm
  simp (maxDischargeDepth := 60) +contextual only [bar2Store, h4, List.cons_subset, hm, List.nil_subset, and_self, hostRefused_keeps, slotStore_keeps, implies_true, keeps_foldl, keeps_ite]
theorem reStoreBy_keeps {fs : List Field} {s0 : State} {a1 : Requester} {a2 : ClusterRef} {a3 : Word} {a4 : State} (h4 : Keeps fs s0 a4) (hm : [.regs, .slots, .tasks, .ctrs, .cores, .clusters, .mem, .granger, .coll, .control, .step, .power, .traces, .out] ⊆ fs := by first | assumption | (refine List.Subset.trans ?_ (by assumption); simp) | simp) :
    KeepsS fs s0 (reStoreBy a1 a2 a3 a4) := by
  simp only [List.cons_subset, List.nil_subset, and_true] at hm
  simp (maxDischargeDepth := 60) +contextual only [reStoreBy]
  repeat' (split <;> (try simp (maxDischargeDepth := 60) +contextual only [List.cons_subset, List.nil_subset, and_self, keepsS_done, keepsS_ite, and_self, reSubmit_keeps, logErr_keeps, reStoreSubmit_keeps, h4, hm]))
  all_goals (first | done | assumption)
theorem dmaParam_keeps {fs : List Field} {s0 : State} {a1 : Fin 8} {a2 : Fin 32} {a3 : Nat} {a4 : Word} {a5 : State} (h5 : Keeps fs s0 a5) (hm : [.regs, .out] ⊆ fs := by first | assumption | (refine List.Subset.trans ?_ (by assumption); simp) | simp) :
    Keeps fs s0 (dmaParam a1 a2 a3 a4 a5) := by
  simp only [List.cons_subset, List.nil_subset, and_true] at hm
  simp (maxDischargeDepth := 60) +contextual only [dmaParam, h5, List.cons_subset, hm, List.nil_subset, and_self, logErr_keeps, plainWrite_keeps, keeps_ite]
theorem taskEndStore_keeps {fs : List Field} {s0 : State} {a1 : Requester} {a2 : Fin 8} {a3 : Word} {a4 : State} (h4 : Keeps fs s0 a4) (hm : [.regs, .slots, .tasks, .ctrs, .cores, .clusters, .mem, .granger, .net, .coll, .control, .step, .power, .traces, .out, .free] ⊆ fs := by first | assumption | (refine List.Subset.trans ?_ (by assumption); simp) | simp) :
    KeepsS fs s0 (taskEndStore a1 a2 a3 a4) := by
  simp only [List.cons_subset, List.nil_subset, and_true] at hm
  simp (maxDischargeDepth := 60) +contextual only [taskEndStore]
  repeat' (split <;> (try simp (maxDischargeDepth := 60) +contextual only [List.cons_subset, List.nil_subset, and_self, keepsS_done, and_self, logErr_keeps, taskEnd_keeps, h4, hm]))
  all_goals (first | done | assumption)
theorem queryWrite_keeps {fs : List Field} {s0 : State} {a1 : Word} {a2 : State} (h2 : Keeps fs s0 a2) (hm : [.regs, .out] ⊆ fs := by first | assumption | (refine List.Subset.trans ?_ (by assumption); simp) | simp) :
    Keeps fs s0 (queryWrite a1 a2) := by
  simp only [List.cons_subset, List.nil_subset, and_true] at hm
  simp (maxDischargeDepth := 60) +contextual only [queryWrite]
  repeat' (split <;> (try simp (maxDischargeDepth := 60) +contextual only [List.cons_subset, List.nil_subset, and_self, queryResult_keeps, logErr_keeps, queryCore_keeps, queryBushel_keeps, queryCounterOwner_keeps, queryTask_keeps, reservedWrite_keeps, h2, hm]))
  all_goals (first | done | assumption)
theorem tileStore_keeps {fs : List Field} {s0 : State} {a1 : Requester} {a2 : Block} {a3 : Fin 8} {a4 : Fin 96} {a5 : Nat} {a6 : Word} {a7 : State} (h7 : Keeps fs s0 a7) (hm : [.regs, .slots, .tasks, .ctrs, .cores, .clusters, .mem, .granger, .streams, .dmas, .net, .coll, .control, .step, .power, .traces, .snaps, .out, .free] ⊆ fs := by first | assumption | (refine List.Subset.trans ?_ (by assumption); simp) | simp) :
    KeepsS fs s0 (tileStore a1 a2 a3 a4 a5 a6 a7) := by
  simp only [List.cons_subset, List.nil_subset, and_true] at hm
  simp (maxDischargeDepth := 60) +contextual only [tileStore]
  repeat' (split <;> (try simp (maxDischargeDepth := 60) +contextual only [keeps_ite, List.cons_subset, List.nil_subset, and_self, keepsS_done, keepsS_ite, and_self, dmaParam_keeps, dmaGo_keeps, bankStore_keeps, tileMarkStore_keeps, dbgSnapshot_keeps, ctrSetStore_keeps, ctrCfgStore_keeps, waitGoStore_keeps, waitValStore_keeps, signalStore_keeps, taskEndStore_keeps, stLoad_keeps, streamSubmit_keeps, streamStore_keeps, plainWrite_keeps, queryWrite_keeps, h7, hm]))
  all_goals (first | done | assumption)
theorem leadWrite_keeps {fs : List Field} {s0 : State} {a1 : Word} {a2 : State} (h2 : Keeps fs s0 a2) (hm : [.regs, .out] ⊆ fs := by first | assumption | (refine List.Subset.trans ?_ (by assumption); simp) | simp) :
    Keeps fs s0 (leadWrite a1 a2) := by
  simp only [List.cons_subset, List.nil_subset, and_true] at hm
  simp (maxDischargeDepth := 60) +contextual only [leadWrite, h2, List.cons_subset, hm, List.nil_subset, and_self, logErr_keeps, plainWrite_keeps, keeps_ite]
theorem deviceStore_keeps {fs : List Field} {s0 : State} {a1 : Requester} {a2 : Block} {a3 : PageRef} {a4 : Nat} {a5 : Word} {a6 : State} (h6 : Keeps fs s0 a6) (hm : [.now, .beacon, .regs, .slots, .tasks, .ctrs, .cores, .clusters, .mem, .granger, .streams, .ports, .coll, .control, .step, .keeper, .power, .traces, .out, .free] ⊆ fs := by first | assumption | (refine List.Subset.trans ?_ (by assumption); simp) | simp) :
    KeepsS fs s0 (deviceStore a1 a2 a3 a4 a5 a6) := by
  simp only [List.cons_subset, List.nil_subset, and_true] at hm
  simp (maxDischargeDepth := 60) +contextual only [deviceStore]
  repeat' (split <;> (try simp (maxDischargeDepth := 60) +contextual only [keeps_ite, List.cons_subset, List.nil_subset, and_self, keepsS_done, and_self, markStore_keeps, traceCtrlStore_keeps, restore_keeps, storeDone_keeps, quietWrite_keeps, nfReport_keeps, foghornLoss_keeps, epochSwitch_keeps, epochCtrlStore_keeps, groupCmd_keeps, collSubmit_keeps, collStore_keeps, linkCmd_keeps, leadWrite_keeps, epochSet_keeps, plainWrite_keeps, mboxCmd_keeps, h6, hm]))
  all_goals (first | done | assumption)
theorem blockStore_keeps {fs : List Field} {s0 : State} {a1 : Requester} {a2 : Block} {a3 : PageRef} {a4 : Nat} {a5 : Word} {a6 : State} (h6 : Keeps fs s0 a6) (hm : [.now, .beacon, .regs, .slots, .tasks, .ctrs, .cores, .clusters, .mem, .granger, .streams, .dmas, .net, .ports, .coll, .control, .step, .keeper, .power, .traces, .snaps, .out, .free] ⊆ fs := by first | assumption | (refine List.Subset.trans ?_ (by assumption); simp) | simp) :
    KeepsS fs s0 (blockStore a1 a2 a3 a4 a5 a6) := by
  simp only [List.cons_subset, List.nil_subset, and_true] at hm
  simp (maxDischargeDepth := 60) +contextual only [blockStore]
  repeat' (split <;> (try simp (maxDischargeDepth := 60) +contextual only [keeps_ite, List.cons_subset, List.nil_subset, and_self, keepsS_done, keepsS_ite, and_self, plainWrite_keeps, doUnfence_keeps, reStoreBy_keeps, tileStore_keeps, deviceStore_keeps, bankStore_keeps, h6, hm]))
  all_goals (first | done | assumption)
theorem pageStore_keeps {fs : List Field} {s0 : State} {a1 : Requester} {a2 : PageRef} {a3 : Nat} {a4 : Word} {a5 : State} (h5 : Keeps fs s0 a5) (hm : [.now, .beacon, .regs, .slots, .tasks, .ctrs, .cores, .clusters, .mem, .granger, .streams, .dmas, .net, .ports, .coll, .control, .step, .keeper, .power, .traces, .snaps, .commits, .out, .free] ⊆ fs := by first | assumption | (refine List.Subset.trans ?_ (by assumption); simp) | simp) :
    KeepsS fs s0 (pageStore a1 a2 a3 a4 a5) := by
  simp only [List.cons_subset, List.nil_subset, and_true] at hm
  simp (maxDischargeDepth := 60) +contextual only [pageStore]
  repeat' (split <;> (try simp (maxDischargeDepth := 60) +contextual only [List.cons_subset, List.nil_subset, and_self, keepsS_done, keepsS_ite, and_self, blockStore_keeps, plainWrite_keeps, evselWrite_keeps, errInject_keeps, errClear_keeps, ctrlWrite_keeps, h5, hm]))
  all_goals (first | done | assumption)
theorem windowStore_keeps {fs : List Field} {s0 : State} {a1 : Requester} {a2 : Nat} {a3 : Nat} {a4 : Word} {a5 : State} (h5 : Keeps fs s0 a5) (hm : [.now, .beacon, .regs, .slots, .tasks, .ctrs, .cores, .clusters, .mem, .granger, .streams, .dmas, .net, .ports, .coll, .control, .step, .keeper, .power, .traces, .snaps, .commits, .out, .free] ⊆ fs := by first | assumption | (refine List.Subset.trans ?_ (by assumption); simp) | simp) :
    KeepsS fs s0 (windowStore a1 a2 a3 a4 a5) := by
  simp only [List.cons_subset, List.nil_subset, and_true] at hm
  simp (maxDischargeDepth := 60) +contextual only [windowStore]
  repeat' (split <;> (try simp (maxDischargeDepth := 60) +contextual only [List.cons_subset, List.nil_subset, and_self, keepsS_done, keepsS_ite, and_self, badShape_keeps, pageStore_keeps, noPage_keeps, h5, hm]))
  all_goals (first | done | assumption)
theorem registerWrite_keeps {fs : List Field} {s0 : State} {a1 : Requester} {a2 : Bool} {a3 : Nat} {a4 : Nat} {a5 : List Word} {a6 : State} (h6 : Keeps fs s0 a6) (hm : [.now, .beacon, .regs, .slots, .tasks, .ctrs, .cores, .clusters, .mem, .granger, .streams, .dmas, .net, .ports, .coll, .control, .step, .keeper, .power, .traces, .snaps, .commits, .out, .free] ⊆ fs := by first | assumption | (refine List.Subset.trans ?_ (by assumption); simp) | simp) :
    Keeps fs s0 (registerWrite a1 a2 a3 a4 a5 a6) := by
  simp only [registerWrite]
  repeat' first | with_reducible assumption | (exact List.Subset.trans (by simp) hm) | (intro _ e; cases e; done) | with_reducible apply settle_keeps | with_reducible apply windowStore_keeps | with_reducible apply bar2Store_keeps | with_reducible apply keepsO_next | with_reducible apply keepsO_refused | with_reducible apply keepsI_ok | with_reducible apply keepsI_jump | with_reducible apply keepsI_trap | with_reducible apply keepsI_stall | with_reducible apply keepsI_defer | with_reducible apply keepsS_done | with_reducible apply keepsS_fault | with_reducible apply keepsL_value | with_reducible apply keepsL_blocks | with_reducible apply keepsR_ok | with_reducible apply keepsR_ecc | with_reducible apply keepsP_placed | with_reducible apply keepsP_refused | with_reducible apply keepsP_waits | with_reducible apply each_keeps | with_reducible apply keeps_foldl | (with_reducible refine (show ∀ x, _ = _ → _ from allOk_keeps ?_ ?_)) | (refine keeps_of_snd (by assumption) ?_) | (refine keeps_of_fst (by assumption) ?_) | (refine keeps_of_some (by assumption) ?_) | (refine keeps_of_some_snd (by assumption) ?_) | (refine keeps_of_some_fst (by assumption) ?_) | (refine keeps_of_some_snd2 (by assumption) ?_) | (refine keeps_of_okE (by assumption) ?_) | (refine keeps_of_okE_snd (by assumption) ?_) | (refine keeps_of_okE_fst (by assumption) ?_) | (refine keeps_of_okR (by assumption) ?_) | (refine keeps_of_eccR (by assumption) ?_) | (refine keeps_of_placed (by assumption) ?_) | (refine keeps_of_okI (by assumption) ?_) | (refine keeps_of_doneS (by assumption) ?_) | (refine keeps_of_valueL (by assumption) ?_) | (refine keeps_of_blocksL (by assumption) ?_) | intro _ | split
theorem execRegisterWrite_keeps {fs : List Field} {s0 : State} {a1 : Requester} {a2 : Bool} {a3 : Nat} {a4 : Nat} {a5 : List Word} {a6 : State} (h6 : Keeps fs s0 a6) (hm : [.now, .beacon, .regs, .slots, .tasks, .ctrs, .cores, .clusters, .mem, .granger, .streams, .dmas, .net, .ports, .coll, .control, .step, .keeper, .power, .traces, .snaps, .commits, .out, .free] ⊆ fs := by first | assumption | (refine List.Subset.trans ?_ (by assumption); simp) | simp) :
    KeepsO fs s0 (execRegisterWrite a1 a2 a3 a4 a5 a6) := by
  simp only [List.cons_subset, List.nil_subset, and_true] at hm
  simp (maxDischargeDepth := 60) +contextual only [execRegisterWrite, h6, List.cons_subset, hm, List.nil_subset, and_self, registerWrite_keeps, implies_true, byReq_keeps]
theorem viaReply_keeps {fs : List Field} {s0 : State} {a1 : (State → State)} {a2 : State} (h1 : ∀ y0, Keeps fs s0 y0 → Keeps fs s0 (a1 y0)) (h2 : Keeps fs s0 a2) :
    KeepsL fs s0 (viaReply a1 a2) := by
  simp (maxDischargeDepth := 60) +contextual only [viaReply]
  repeat' (split <;> (try simp (maxDischargeDepth := 60) +contextual only [keepsL_value, h1, h2]))
  all_goals (first | done | assumption)
theorem pageLoad_keeps {fs : List Field} {s0 : State} {a1 : Requester} {a2 : PageRef} {a3 : Nat} {a4 : State} (h4 : Keeps fs s0 a4) (hm : [.regs, .cores, .clusters, .mem, .granger, .net, .out, .free] ⊆ fs := by first | assumption | (refine List.Subset.trans ?_ (by assumption); simp) | simp) :
    KeepsL fs s0 (pageLoad a1 a2 a3 a4) := by
  simp only [List.cons_subset, List.nil_subset, and_true] at hm
  simp (maxDischargeDepth := 60) +contextual only [pageLoad]
  repeat' (split <;> (try simp (maxDischargeDepth := 60) +contextual only [List.cons_subset, List.nil_subset, and_self, implies_true, readPwrStat_keeps, readCollStat_keeps, readBankWait_keeps, readSlotStat_keeps, readCmRate_keeps, readCoreRate_keeps, readTtraceStat_keeps, readStreamStat_keeps, readLatMax_keeps, viaReply_keeps, waitRes_keeps, fenceLoad_keeps, h4, hm]))
  all_goals (first | done | assumption)
theorem windowLoad_keeps {fs : List Field} {s0 : State} {a1 : Requester} {a2 : Nat} {a3 : Nat} {a4 : State} (h4 : Keeps fs s0 a4) (hm : [.regs, .cores, .clusters, .mem, .granger, .net, .out, .free] ⊆ fs := by first | assumption | (refine List.Subset.trans ?_ (by assumption); simp) | simp) :
    KeepsL fs s0 (windowLoad a1 a2 a3 a4) := by
  simp only [List.cons_subset, List.nil_subset, and_true] at hm
  simp (maxDischargeDepth := 60) +contextual only [windowLoad]
  repeat' (split <;> (try simp (maxDischargeDepth := 60) +contextual only [List.cons_subset, List.nil_subset, and_self, keepsL_value, keepsL_ite, and_self, badShape_keeps, pageLoad_keeps, noPage_keeps, h4, hm]))
  all_goals (first | done | assumption)
theorem homeWrite_keeps {fs : List Field} {s0 : State} {a1 : CoreRef} {a2 : Nat} {a3 : List Byte} {a4 : State} (h4 : Keeps fs s0 a4) (hm : [.regs, .cores, .mem, .granger, .out, .free] ⊆ fs := by first | assumption | (refine List.Subset.trans ?_ (by assumption); simp) | simp) :
    Keeps fs s0 (homeWrite a1 a2 a3 a4) := by
  simp only [List.cons_subset, List.nil_subset, and_true] at hm
  simp (maxDischargeDepth := 60) +contextual only [homeWrite, h4, List.cons_subset, hm, List.nil_subset, and_self, shadowWrite_keeps, writeStorage_keeps, storeHome_keeps, keeps_ite]
theorem setX_keeps {fs : List Field} {s0 : State} {a1 : CoreRef} {a2 : Nat} {a3 : Word} {a4 : State} (h4 : Keeps fs s0 a4) (hm : [.cores] ⊆ fs := by first | assumption | (refine List.Subset.trans ?_ (by assumption); simp) | simp) :
    KeepsI fs s0 (setX a1 a2 a3 a4) := by
  simp only [List.cons_subset, List.nil_subset, and_true] at hm
  simp (maxDischargeDepth := 60) +contextual only [setX, h4, List.cons_subset, hm, List.nil_subset, and_self, setCore_keeps, keepsI_ok]
theorem atomicAt_keeps {fs : List Field} {s0 : State} {a1 : CoreRef} {a2 : Nat} {a3 : Nat} {a4 : Nat} {a5 : Nat} {a6 : Word} {a7 : State} (h7 : Keeps fs s0 a7) (hm : [.regs, .cores, .mem, .granger, .out, .free] ⊆ fs := by first | assumption | (refine List.Subset.trans ?_ (by assumption); simp) | simp) :
    KeepsI fs s0 (atomicAt a1 a2 a3 a4 a5 a6 a7) := by
  simp only [List.cons_subset, List.nil_subset, and_true] at hm
  simp (maxDischargeDepth := 60) +contextual only [atomicAt]
  repeat' (split <;> (try simp (maxDischargeDepth := 60) +contextual only [keeps_ite, List.cons_subset, List.nil_subset, and_self, illegal_keeps, homeWrite_keeps, setCore_keeps, setX_keeps, homeAccess_keeps, h7, hm]))
  all_goals (first | done | assumption)
theorem evictLine_keeps {fs : List Field} {s0 : State} {a1 : CoreRef} {a2 : Nat} {a3 : State} (h3 : Keeps fs s0 a3) (hm : [.regs, .cores, .clusters, .mem, .granger, .net, .out, .free] ⊆ fs := by first | assumption | (refine List.Subset.trans ?_ (by assumption); simp) | simp) :
    Keeps fs s0 (evictLine a1 a2 a3) := by
  simp only [List.cons_subset, List.nil_subset, and_true] at hm
  simp (maxDischargeDepth := 60) +contextual only [evictLine, h3, List.cons_subset, hm, List.nil_subset, and_self, l1Flush_keeps, dropResponses_keeps, setCore_keeps]
theorem bypass_keeps {fs : List Field} {s0 : State} {a1 : CoreRef} {a2 : (State → IRes)} {a3 : State} (h2 : ∀ y0, Keeps fs s0 y0 → KeepsI fs s0 (a2 y0)) (h3 : Keeps fs s0 a3) (hm : [.regs, .cores] ⊆ fs := by first | assumption | (refine List.Subset.trans ?_ (by assumption); simp) | simp) :
    KeepsI fs s0 (bypass a1 a2 a3) := by
  simp only [List.cons_subset, List.nil_subset, and_true] at hm
  simp (maxDischargeDepth := 60) +contextual only [bypass, h3, List.cons_subset, hm, List.nil_subset, and_self, memStall_keeps, slotUse_keeps, h2, keepsI_ite]
theorem atomicInstr_keeps {fs : List Field} {s0 : State} {a1 : CoreRef} {a2 : Nat} {a3 : Nat} {a4 : Nat} {a5 : Word} {a6 : Word} {a7 : State} (h7 : Keeps fs s0 a7) (hm : [.regs, .slots, .tasks, .ctrs, .cores, .clusters, .mem, .granger, .streams, .net, .coll, .control, .step, .power, .traces, .out, .free] ⊆ fs := by first | assumption | (refine List.Subset.trans ?_ (by assumption); simp) | simp) :
    KeepsI fs s0 (atomicInstr a1 a2 a3 a4 a5 a6 a7) := by
  simp only [List.cons_subset, List.nil_subset, and_true] at hm
  simp (maxDischargeDepth := 60) +contextual only [atomicInstr, h7, keepsI_trap, keepsI_stall, List.cons_subset, hm, List.nil_subset, and_self, reachHome_keeps, evictLine_keeps, poisonTrap_keeps, atomicAt_keeps, keepsI_ite, implies_true, bypass_keeps]
theorem csrOp_keeps {fs : List Field} {s0 : State} {a1 : CoreRef} {a2 : Nat} {a3 : Nat} {a4 : Nat} {a5 : Nat} {a6 : State} (h6 : Keeps fs s0 a6) (hm : [.cores, .free] ⊆ fs := by first | assumption | (refine List.Subset.trans ?_ (by assumption); simp) | simp) :
    KeepsI fs s0 (csrOp a1 a2 a3 a4 a5 a6) := by
  simp only [List.cons_subset, List.nil_subset, and_true] at hm
  simp (maxDischargeDepth := 60) +contextual only [csrOp, h6, List.cons_subset, hm, List.nil_subset, and_self, illegal_keeps, setCore_keeps, keeps_ite, setX_keeps, keepsI_ite]
theorem vxInstr_keeps {fs : List Field} {s0 : State} {a1 : CoreRef} {a2 : Nat} {a3 : State} (h3 : Keeps fs s0 a3) (hm : [.regs, .slots, .tasks, .ctrs, .cores, .clusters, .mem, .granger, .streams, .net, .coll, .control, .step, .power, .traces, .out, .free] ⊆ fs := by first | assumption | (refine List.Subset.trans ?_ (by assumption); simp) | simp) :
    KeepsI fs s0 (vxInstr a1 a2 a3) := by
  simp only [List.cons_subset, List.nil_subset, and_true] at hm
  simp (maxDischargeDepth := 60) +contextual only [vxInstr]
  repeat' (split <;> (try simp (maxDischargeDepth := 60) +contextual only [List.cons_subset, List.nil_subset, and_self, vmulxOp_keeps, vextOp_keeps, vsplatOp_keeps, vstOp_keeps, vldOp_keeps, illegal_keeps, h3, hm]))
  all_goals (first | done | assumption)
theorem vvInstr_keeps {fs : List Field} {s0 : State} {a1 : CoreRef} {a2 : Nat} {a3 : State} (h3 : Keeps fs s0 a3) (hm : [.cores, .free] ⊆ fs := by first | assumption | (refine List.Subset.trans ?_ (by assumption); simp) | simp) :
    KeepsI fs s0 (vvInstr a1 a2 a3) := by
  simp only [List.cons_subset, List.nil_subset, and_true] at hm
  simp (maxDischargeDepth := 60) +contextual only [vvInstr]
  repeat' (split <;> (try simp (maxDischargeDepth := 60) +contextual only [List.cons_subset, List.nil_subset, and_self, illegal_keeps, vcvtOp_keeps, vredOp_keeps, vfuncOp_keeps, vfmaOp_keeps, lanewise_keeps, h3, hm]))
  all_goals (first | done | assumption)
theorem tcInstr_keeps {fs : List Field} {s0 : State} {a1 : CoreRef} {a2 : Nat} {a3 : State} (h3 : Keeps fs s0 a3) (hm : [.regs, .slots, .tasks, .ctrs, .cores, .clusters, .mem, .granger, .coll, .control, .step, .power, .traces, .out, .free] ⊆ fs := by first | assumption | (refine List.Subset.trans ?_ (by assumption); simp) | simp) :
    KeepsI fs s0 (tcInstr a1 a2 a3) := by
  simp only [List.cons_subset, List.nil_subset, and_true] at hm
  simp (maxDischargeDepth := 60) +contextual only [tcInstr]
  repeat' (split <;> (try simp (maxDischargeDepth := 60) +contextual only [List.cons_subset, List.nil_subset, and_self, tcvtOp_keeps, tzeroOp_keeps, tmmaOp_keeps, twlOp_keeps, illegal_keeps, h3, hm]))
  all_goals (first | done | assumption)
theorem tmInstr_keeps {fs : List Field} {s0 : State} {a1 : CoreRef} {a2 : Nat} {a3 : State} (h3 : Keeps fs s0 a3) (hm : [.regs, .slots, .tasks, .ctrs, .cores, .clusters, .mem, .granger, .streams, .net, .coll, .control, .step, .power, .traces, .out, .free] ⊆ fs := by first | assumption | (refine List.Subset.trans ?_ (by assumption); simp) | simp) :
    KeepsI fs s0 (tmInstr a1 a2 a3) := by
  simp only [List.cons_subset, List.nil_subset, and_true] at hm
  simp (maxDischargeDepth := 60) +contextual only [tmInstr]
  repeat' (split <;> (try simp (maxDischargeDepth := 60) +contextual only [List.cons_subset, List.nil_subset, and_self, tdrOp_keeps, tdwOp_keeps, tldsOp_keeps, tstOp_keeps, tldOp_keeps, illegal_keeps, h3, hm]))
  all_goals (first | done | assumption)
theorem mretOp_keeps {fs : List Field} {s0 : State} {a1 : CoreRef} {a2 : State} (h2 : Keeps fs s0 a2) (hm : [.cores, .free] ⊆ fs := by first | assumption | (refine List.Subset.trans ?_ (by assumption); simp) | simp) :
    KeepsI fs s0 (mretOp a1 a2) := by
  simp only [List.cons_subset, List.nil_subset, and_true] at hm
  simp (maxDischargeDepth := 60) +contextual only [mretOp, h2, List.cons_subset, hm, List.nil_subset, and_self, illegal_keeps, setCore_keeps, keepsI_jump, keepsI_ite]
theorem systemOp_keeps {fs : List Field} {s0 : State} {a1 : CoreRef} {a2 : Nat} {a3 : State} (h3 : Keeps fs s0 a3) (hm : [.cores, .free] ⊆ fs := by first | assumption | (refine List.Subset.trans ?_ (by assumption); simp) | simp) :
    KeepsI fs s0 (systemOp a1 a2 a3) := by
  simp only [List.cons_subset, List.nil_subset, and_true] at hm
  simp (maxDischargeDepth := 60) +contextual only [systemOp]
  repeat' (split <;> (try simp (maxDischargeDepth := 60) +contextual only [List.cons_subset, List.nil_subset, and_self, keepsI_ok, keepsI_trap, keepsI_ite, and_self, illegal_keeps, mretOp_keeps, freshNat_keeps, h3, hm]))
  all_goals (first | done | assumption)
theorem orIllegal_keeps {fs : List Field} {s0 : State} {a1 : CoreRef} {a2 : Nat} {a3 : Option Word} {a4 : State} (h4 : Keeps fs s0 a4) (hm : [.cores, .free] ⊆ fs := by first | assumption | (refine List.Subset.trans ?_ (by assumption); simp) | simp) :
    KeepsI fs s0 (orIllegal a1 a2 a3 a4) := by
  simp only [List.cons_subset, List.nil_subset, and_true] at hm
  simp (maxDischargeDepth := 60) +contextual only [orIllegal]
  repeat' (split <;> (try simp (maxDischargeDepth := 60) +contextual only [List.cons_subset, List.nil_subset, and_self, illegal_keeps, setX_keeps, h4, hm]))
  all_goals (first | done | assumption)
theorem regInstr32_keeps {fs : List Field} {s0 : State} {a1 : CoreRef} {a2 : Nat} {a3 : State} (h3 : Keeps fs s0 a3) (hm : [.cores, .free] ⊆ fs := by first | assumption | (refine List.Subset.trans ?_ (by assumption); simp) | simp) :
    KeepsI fs s0 (regInstr32 a1 a2 a3) := by
  simp only [List.cons_subset, List.nil_subset, and_true] at hm
  simp (maxDischargeDepth := 60) +contextual only [regInstr32]
  repeat' (split <;> (try simp (maxDischargeDepth := 60) +contextual only [List.cons_subset, List.nil_subset, and_self, orIllegal_keeps, illegal_keeps, setX_keeps, h3, hm]))
  all_goals (first | done | assumption)
theorem regInstr_keeps {fs : List Field} {s0 : State} {a1 : CoreRef} {a2 : Nat} {a3 : State} (h3 : Keeps fs s0 a3) (hm : [.cores, .free] ⊆ fs := by first | assumption | (refine List.Subset.trans ?_ (by assumption); simp) | simp) :
    KeepsI fs s0 (regInstr a1 a2 a3) := by
  simp only [List.cons_subset, List.nil_subset, and_true] at hm
  simp (maxDischargeDepth := 60) +contextual only [regInstr]
  repeat' (split <;> (try simp (maxDischargeDepth := 60) +contextual only [List.cons_subset, List.nil_subset, and_self, illegal_keeps, setX_keeps, h3, hm]))
  all_goals (first | done | assumption)
theorem immInstr32_keeps {fs : List Field} {s0 : State} {a1 : CoreRef} {a2 : Nat} {a3 : State} (h3 : Keeps fs s0 a3) (hm : [.cores, .free] ⊆ fs := by first | assumption | (refine List.Subset.trans ?_ (by assumption); simp) | simp) :
    KeepsI fs s0 (immInstr32 a1 a2 a3) := by
  simp only [List.cons_subset, List.nil_subset, and_true] at hm
  simp (maxDischargeDepth := 60) +contextual only [immInstr32]
  repeat' (split <;> (try simp (maxDischargeDepth := 60) +contextual only [List.cons_subset, List.nil_subset, and_self, illegal_keeps, setX_keeps, h3, hm]))
  all_goals (first | done | assumption)
theorem immInstr_keeps {fs : List Field} {s0 : State} {a1 : CoreRef} {a2 : Nat} {a3 : State} (h3 : Keeps fs s0 a3) (hm : [.cores, .free] ⊆ fs := by first | assumption | (refine List.Subset.trans ?_ (by assumption); simp) | simp) :
    KeepsI fs s0 (immInstr a1 a2 a3) := by
  simp only [List.cons_subset, List.nil_subset, and_true] at hm
  simp (maxDischargeDepth := 60) +contextual only [immInstr, h3, List.cons_subset, hm, List.nil_subset, and_self, setX_keeps, illegal_keeps, keepsI_ite]
theorem storeDevice_keeps {fs : List Field} {s0 : State} {a1 : CoreRef} {a2 : Nat} {a3 : Nat} {a4 : Word} {a5 : State} (h5 : Keeps fs s0 a5) (hm : [.now, .beacon, .regs, .slots, .tasks, .ctrs, .cores, .clusters, .mem, .granger, .streams, .dmas, .net, .ports, .coll, .control, .step, .keeper, .power, .traces, .snaps, .commits, .out, .free] ⊆ fs := by first | assumption | (refine List.Subset.trans ?_ (by assumption); simp) | simp) :
    KeepsI fs s0 (storeDevice a1 a2 a3 a4 a5) := by
  simp only [storeDevice]
  repeat' first | with_reducible assumption | (exact List.Subset.trans (by simp) hm) | (intro _ e; cases e; done) | with_reducible apply windowStore_keeps | with_reducible apply keepsO_next | with_reducible apply keepsO_refused | with_reducible apply keepsI_ok | with_reducible apply keepsI_jump | with_reducible apply keepsI_trap | with_reducible apply keepsI_stall | with_reducible apply keepsI_defer | with_reducible apply keepsS_done | with_reducible apply keepsS_fault | with_reducible apply keepsL_value | with_reducible apply keepsL_blocks | with_reducible apply keepsR_ok | with_reducible apply keepsR_ecc | with_reducible apply keepsP_placed | with_reducible apply keepsP_refused | with_reducible apply keepsP_waits | with_reducible apply each_keeps | with_reducible apply keeps_foldl | (with_reducible refine (show ∀ x, _ = _ → _ from allOk_keeps ?_ ?_)) | (refine keeps_of_snd (by assumption) ?_) | (refine keeps_of_fst (by assumption) ?_) | (refine keeps_of_some (by assumption) ?_) | (refine keeps_of_some_snd (by assumption) ?_) | (refine keeps_of_some_fst (by assumption) ?_) | (refine keeps_of_some_snd2 (by assumption) ?_) | (refine keeps_of_okE (by assumption) ?_) | (refine keeps_of_okE_snd (by assumption) ?_) | (refine keeps_of_okE_fst (by assumption) ?_) | (refine keeps_of_okR (by assumption) ?_) | (refine keeps_of_eccR (by assumption) ?_) | (refine keeps_of_placed (by assumption) ?_) | (refine keeps_of_okI (by assumption) ?_) | (refine keeps_of_doneS (by assumption) ?_) | (refine keeps_of_valueL (by assumption) ?_) | (refine keeps_of_blocksL (by assumption) ?_) | intro _ | split
theorem storeOp_keeps {fs : List Field} {s0 : State} {a1 : CoreRef} {a2 : Nat} {a3 : Word} {a4 : Word} {a5 : State} (h5 : Keeps fs s0 a5) (hm : [.now, .beacon, .regs, .slots, .tasks, .ctrs, .cores, .clusters, .mem, .granger, .streams, .dmas, .net, .ports, .coll, .control, .step, .keeper, .power, .traces, .snaps, .commits, .out, .free] ⊆ fs := by first | assumption | (refine List.Subset.trans ?_ (by assumption); simp) | simp) :
    KeepsI fs s0 (storeOp a1 a2 a3 a4 a5) := by
  simp only [List.cons_subset, List.nil_subset, and_true] at hm
  simp (maxDischargeDepth := 60) +contextual only [storeOp]
  repeat' (split <;> (try simp (maxDischargeDepth := 60) +contextual only [List.cons_subset, List.nil_subset, and_self, implies_true, storeRanges_keeps, storeDevice_keeps, bypass_keeps, h5, hm]))
  all_goals (first | done | assumption)
theorem loadDevice_keeps {fs : List Field} {s0 : State} {a1 : CoreRef} {a2 : Nat} {a3 : Nat} {a4 : Bool} {a5 : Nat} {a6 : State} (h6 : Keeps fs s0 a6) (hm : [.regs, .cores, .clusters, .mem, .granger, .net, .out, .free] ⊆ fs := by first | assumption | (refine List.Subset.trans ?_ (by assumption); simp) | simp) :
    KeepsI fs s0 (loadDevice a1 a2 a3 a4 a5 a6) := by
  unfold loadDevice
  generalize windowOffset a5 = o
  split
  · exact setX_keeps (keeps_of_valueL (by assumption) (windowLoad_keeps h6))
  · exact keepsI_stall (keeps_of_blocksL (by assumption) (windowLoad_keeps h6))
theorem loadOp_keeps {fs : List Field} {s0 : State} {a1 : CoreRef} {a2 : Nat} {a3 : Nat} {a4 : Bool} {a5 : Word} {a6 : State} (h6 : Keeps fs s0 a6) (hm : [.regs, .slots, .tasks, .ctrs, .cores, .clusters, .mem, .granger, .streams, .net, .coll, .control, .step, .power, .traces, .out, .free] ⊆ fs := by first | assumption | (refine List.Subset.trans ?_ (by assumption); simp) | simp) :
    KeepsI fs s0 (loadOp a1 a2 a3 a4 a5 a6) := by
  simp only [List.cons_subset, List.nil_subset, and_true] at hm
  simp (maxDischargeDepth := 60) +contextual only [loadOp]
  repeat' (split <;> (try simp (maxDischargeDepth := 60) +contextual only [List.cons_subset, List.nil_subset, and_self, implies_true, setX_keeps, coreRead_keeps, poisonTrap_keeps, memStall_keeps, loadDevice_keeps, bypass_keeps, h6, hm]))
  all_goals (first | done | assumption)
theorem execWord_keeps {fs : List Field} {s0 : State} {a1 : CoreRef} {a2 : Nat} {a3 : Nat} {a4 : State} (h4 : Keeps fs s0 a4) (hm : [.now, .beacon, .regs, .slots, .tasks, .ctrs, .cores, .clusters, .mem, .granger, .streams, .dmas, .net, .ports, .coll, .control, .step, .keeper, .power, .traces, .snaps, .commits, .out, .free] ⊆ fs := by first | assumption | (refine List.Subset.trans ?_ (by assumption); simp) | simp) :
    KeepsI fs s0 (execWord a1 a2 a3 a4) := by
  simp only [List.cons_subset, List.nil_subset, and_true] at hm
  simp (maxDischargeDepth := 60) +contextual only [execWord]
  repeat' (split <;> (try simp (maxDischargeDepth := 60) +contextual only [List.cons_subset, List.nil_subset, and_self, keepsI_ok, keepsI_jump, keepsI_ite, and_self, vxInstr_keeps, vvInstr_keeps, tcInstr_keeps, tmInstr_keeps, csrOp_keeps, systemOp_keeps, atomicInstr_keeps, regInstr32_keeps, regInstr_keeps, immInstr32_keeps, immInstr_keeps, storeOp_keeps, loadOp_keeps, illegal_keeps, setCore_keeps, setX_keeps, h4, hm]))
  all_goals (first | done | assumption)
theorem fetchStop_keeps {fs : List Field} {s0 : State} {a1 : CoreRef} {a2 : Nat} {a3 : Nat} {a4 : State} (h4 : Keeps fs s0 a4) (hm : [.regs, .slots, .tasks, .ctrs, .cores, .clusters, .mem, .granger, .streams, .coll, .control, .step, .power, .traces, .out] ⊆ fs := by first | assumption | (refine List.Subset.trans ?_ (by assumption); simp) | simp) :
    ∀ x, (fetchStop a1 a2 a3 a4) = some x → KeepsI fs s0 x := by
  simp only [List.cons_subset, List.nil_subset, and_true] at hm
  simp only [fetchStop]
  (repeat' split) <;> (try simp (maxDischargeDepth := 60) +contextual [List.cons_subset, List.nil_subset, and_self, implies_true, poisonTrap_keeps, memStall_keeps, h4, hm])
  all_goals (first | done | assumption)
theorem fetchHigh_keeps {fs : List Field} {s0 : State} {a1 : CoreRef} {a2 : Nat} {a3 : Nat} {a4 : State} (h4 : Keeps fs s0 a4) (hm : [.now, .beacon, .regs, .slots, .tasks, .ctrs, .cores, .clusters, .mem, .granger, .streams, .dmas, .net, .ports, .coll, .control, .step, .keeper, .power, .traces, .snaps, .commits, .out, .free] ⊆ fs := by first | assumption | (refine List.Subset.trans ?_ (by assumption); simp) | simp) :
    KeepsI fs s0 (fetchHigh a1 a2 a3 a4) := by
  unfold fetchHigh
  split
  · exact (fetchStop_keeps h4) _ (by assumption)
  · have h := coreRead_keeps (a2 := a1) (a3 := addr48 (a2 + 2)) (a4 := 2) h4
    generalize coreRead a4 a1 (addr48 (a2 + 2)) 2 = p at h ⊢
    exact execWord_keeps h
theorem execFetched_keeps {fs : List Field} {s0 : State} {a1 : CoreRef} {a2 : Nat} {a3 : Nat} {a4 : State} (h4 : Keeps fs s0 a4) (hm : [.now, .beacon, .regs, .slots, .tasks, .ctrs, .cores, .clusters, .mem, .granger, .streams, .dmas, .net, .ports, .coll, .control, .step, .keeper, .power, .traces, .snaps, .commits, .out, .free] ⊆ fs := by first | assumption | (refine List.Subset.trans ?_ (by assumption); simp) | simp) :
    KeepsI fs s0 (execFetched a1 a2 a3 a4) := by
  simp only [List.cons_subset, List.nil_subset, and_true] at hm
  simp (maxDischargeDepth := 60) +contextual only [execFetched]
  repeat' (split <;> (try simp (maxDischargeDepth := 60) +contextual only [List.cons_subset, List.nil_subset, and_self, illegal_keeps, execWord_keeps, fetchHigh_keeps, h4, hm]))
  all_goals (first | done | assumption)
theorem scalarStep_keeps {fs : List Field} {s0 : State} {a1 : CoreRef} {a2 : State} (h2 : Keeps fs s0 a2) (hm : [.now, .beacon, .regs, .slots, .tasks, .ctrs, .cores, .clusters, .mem, .granger, .streams, .dmas, .net, .ports, .coll, .control, .step, .keeper, .power, .traces, .snaps, .commits, .out, .free] ⊆ fs := by first | assumption | (refine List.Subset.trans ?_ (by assumption); simp) | simp) :
    Keeps fs s0 (scalarStep a1 a2) := by
  unfold scalarStep
  split
  · exact h2
  · extract_lets pc a
    split
    · exact finish_keeps ((fetchStop_keeps h2) _ (by assumption))
    · have h := coreRead_keeps (a2 := a1) (a3 := a) (a4 := 2) h2
      generalize coreRead a2 a1 a 2 = c at h ⊢
      obtain ⟨lo, s⟩ := c
      exact finish_keeps (execFetched_keeps h)
theorem execScalarInstruction_keeps {fs : List Field} {s0 : State} {a1 : CoreRef} {a2 : State} (h2 : Keeps fs s0 a2) (hm : [.now, .beacon, .regs, .slots, .tasks, .ctrs, .cores, .clusters, .mem, .granger, .streams, .dmas, .net, .ports, .coll, .control, .step, .keeper, .power, .traces, .snaps, .commits, .out, .free] ⊆ fs := by first | assumption | (refine List.Subset.trans ?_ (by assumption); simp) | simp) :
    KeepsO fs s0 (execScalarInstruction a1 a2) := by
  simp only [List.cons_subset, List.nil_subset, and_true] at hm
  simp (maxDischargeDepth := 60) +contextual only [execScalarInstruction, h2, List.cons_subset, hm, List.nil_subset, and_self, scalarStep_keeps, implies_true, atTile_keeps]
theorem timeLine_keeps {fs : List Field} {s0 : State} {a1 : PageRef} {a2 : Block} {a3 : Nat} {a4 : Word} {a5 : State} {a6 : State} (h5 : Keeps fs s0 a5) (h6 : Keeps fs s0 a6) (hm : [.regs, .out] ⊆ fs := by first | assumption | (refine List.Subset.trans ?_ (by assumption); simp) | simp) :
    Keeps fs s0 (timeLine a1 a2 a3 a4 a5 a6) := by
  simp only [List.cons_subset, List.nil_subset, and_true] at hm
  simp (maxDischargeDepth := 60) +contextual only [timeLine, h6, List.cons_subset, hm, List.nil_subset, and_self, countLine_keeps, keeps_ite]
theorem accountTime_keeps {fs : List Field} {s0 : State} {a1 : State} (h1 : Keeps fs s0 a1) (hm : [.regs, .out] ⊆ fs := by first | assumption | (refine List.Subset.trans ?_ (by assumption); simp) | simp) :
    Keeps fs s0 (accountTime a1) := by
  simp only [accountTime]
  repeat' first | with_reducible assumption | (exact List.Subset.trans (by simp) hm) | (intro _ e; cases e; done) | with_reducible apply timeLine_keeps | with_reducible apply keepsO_next | with_reducible apply keepsO_refused | with_reducible apply keepsI_ok | with_reducible apply keepsI_jump | with_reducible apply keepsI_trap | with_reducible apply keepsI_stall | with_reducible apply keepsI_defer | with_reducible apply keepsS_done | with_reducible apply keepsS_fault | with_reducible apply keepsL_value | with_reducible apply keepsL_blocks | with_reducible apply keepsR_ok | with_reducible apply keepsR_ecc | with_reducible apply keepsP_placed | with_reducible apply keepsP_refused | with_reducible apply keepsP_waits | with_reducible apply each_keeps | with_reducible apply keeps_foldl | (with_reducible refine (show ∀ x, _ = _ → _ from allOk_keeps ?_ ?_)) | (refine keeps_of_snd (by assumption) ?_) | (refine keeps_of_fst (by assumption) ?_) | (refine keeps_of_some (by assumption) ?_) | (refine keeps_of_some_snd (by assumption) ?_) | (refine keeps_of_some_fst (by assumption) ?_) | (refine keeps_of_some_snd2 (by assumption) ?_) | (refine keeps_of_okE (by assumption) ?_) | (refine keeps_of_okE_snd (by assumption) ?_) | (refine keeps_of_okE_fst (by assumption) ?_) | (refine keeps_of_okR (by assumption) ?_) | (refine keeps_of_eccR (by assumption) ?_) | (refine keeps_of_placed (by assumption) ?_) | (refine keeps_of_okI (by assumption) ?_) | (refine keeps_of_doneS (by assumption) ?_) | (refine keeps_of_valueL (by assumption) ?_) | (refine keeps_of_blocksL (by assumption) ?_) | intro _ | split
theorem spendWaits_keeps {fs : List Field} {s0 : State} {a1 : State} (h1 : Keeps fs s0 a1) (hm : [.beacon] ⊆ fs := by first | assumption | (refine List.Subset.trans ?_ (by assumption); simp) | simp) :
    Keeps fs s0 (spendWaits a1) := by
  simp only [List.cons_subset, List.nil_subset, and_true] at hm
  simp (maxDischargeDepth := 60) +contextual only [spendWaits, h1, List.cons_subset, hm, List.nil_subset, and_self, keeps_beacon]
theorem advanceTime_keeps {fs : List Field} {s0 : State} {a1 : State} (h1 : Keeps fs s0 a1) (hm : [.now, .beacon] ⊆ fs := by first | assumption | (refine List.Subset.trans ?_ (by assumption); simp) | simp) :
    Keeps fs s0 (advanceTime a1) := by
  have h : Keeps fs s0 (spendWaits a1) := spendWaits_keeps h1
  unfold advanceTime
  extract_lets s
  have h : Keeps fs s0 s := h
  clear_value s
  exact keeps_ite (keeps_now h (fun _ => Nat.mod_lt _ (by decide))) (keeps_beacon h)
theorem retryStore_keeps {fs : List Field} {s0 : State} {a1 : State} {a2 : Nat} (h1 : Keeps fs s0 a1) (hm : [.now, .beacon, .regs, .slots, .tasks, .ctrs, .cores, .clusters, .mem, .granger, .streams, .dmas, .net, .ports, .coll, .control, .step, .keeper, .power, .traces, .snaps, .commits, .out, .free] ⊆ fs := by first | assumption | (refine List.Subset.trans ?_ (by assumption); simp) | simp) :
    Keeps fs s0 (retryStore a1 a2) := by
  simp only [retryStore]
  repeat' first | with_reducible assumption | (exact List.Subset.trans (by simp) hm) | (intro _ e; cases e; done) | with_reducible apply settle_keeps | with_reducible apply setCore_keeps | with_reducible apply windowStore_keeps | with_reducible apply keepsO_next | with_reducible apply keepsO_refused | with_reducible apply keepsI_ok | with_reducible apply keepsI_jump | with_reducible apply keepsI_trap | with_reducible apply keepsI_stall | with_reducible apply keepsI_defer | with_reducible apply keepsS_done | with_reducible apply keepsS_fault | with_reducible apply keepsL_value | with_reducible apply keepsL_blocks | with_reducible apply keepsR_ok | with_reducible apply keepsR_ecc | with_reducible apply keepsP_placed | with_reducible apply keepsP_refused | with_reducible apply keepsP_waits | with_reducible apply each_keeps | with_reducible apply keeps_foldl | (with_reducible refine (show ∀ x, _ = _ → _ from allOk_keeps ?_ ?_)) | (refine keeps_of_snd (by assumption) ?_) | (refine keeps_of_fst (by assumption) ?_) | (refine keeps_of_some (by assumption) ?_) | (refine keeps_of_some_snd (by assumption) ?_) | (refine keeps_of_some_fst (by assumption) ?_) | (refine keeps_of_some_snd2 (by assumption) ?_) | (refine keeps_of_okE (by assumption) ?_) | (refine keeps_of_okE_snd (by assumption) ?_) | (refine keeps_of_okE_fst (by assumption) ?_) | (refine keeps_of_okR (by assumption) ?_) | (refine keeps_of_eccR (by assumption) ?_) | (refine keeps_of_placed (by assumption) ?_) | (refine keeps_of_okI (by assumption) ?_) | (refine keeps_of_doneS (by assumption) ?_) | (refine keeps_of_valueL (by assumption) ?_) | (refine keeps_of_blocksL (by assumption) ?_) | intro _ | split
theorem retryStores_keeps {fs : List Field} {s0 : State} {a1 : State} (h1 : Keeps fs s0 a1) (hm : [.now, .beacon, .regs, .slots, .tasks, .ctrs, .cores, .clusters, .mem, .granger, .streams, .dmas, .net, .ports, .coll, .control, .step, .keeper, .power, .traces, .snaps, .commits, .out, .free] ⊆ fs := by first | assumption | (refine List.Subset.trans ?_ (by assumption); simp) | simp) :
    Keeps fs s0 (retryStores a1) := by
  simp only [List.cons_subset, List.nil_subset, and_true] at hm
  simp (maxDischargeDepth := 60) +contextual only [retryStores, List.cons_subset, hm, List.nil_subset, and_self, retryStore_keeps, implies_true, h1, keeps_foldl]
theorem tick_keeps {fs : List Field} {s0 : State} {a1 : State} (h1 : Keeps fs s0 a1) (hm : [.now, .beacon, .regs, .slots, .tasks, .ctrs, .cores, .clusters, .mem, .granger, .streams, .dmas, .net, .ports, .coll, .control, .step, .keeper, .power, .traces, .snaps, .commits, .out, .free] ⊆ fs := by first | assumption | (refine List.Subset.trans ?_ (by assumption); simp) | simp) :
    Keeps fs s0 (tick a1) := by
  simp only [List.cons_subset, List.nil_subset, and_true] at hm
  simp (maxDischargeDepth := 60) +contextual only [tick, h1, List.cons_subset, hm, List.nil_subset, and_self, accountTime_keeps, advanceTime_keeps, retryStores_keeps, keeps_ite]

end Sys2Proof.Laws
end

