-- ==== Sys2Proof/WellFormed.lean ====
section
/-! DEFINITION. Well-formed commands: the limits of the spec on operands that are lists and numbers. -/

namespace Sys2Proof.WellFormed

/-- A window reports the rates of sixteen cores (R14, R26). -/
def windowWf (w : ClusterWindow) : Bool := decide (w.rates.length = 16)

/-- No two windows report the same cluster. -/
def distinctClusters : List ClusterWindow → Bool
  | [] => true
  | w :: l => l.all (fun v => decide (v.cl ≠ w.cl)) && distinctClusters l

/-- A range lies in one 64-byte line (R551). -/
def inOneLine (a n : Nat) : Bool := decide (a % 64 + n ≤ 64)

/-- A packet has at most 32 data words, and HOPS fits its field (R453). -/
def packetWf (p : PeerPacket) : Bool := decide (p.data.length ≤ 2048) && decide (p.hops < 64)

/-- Times of a notice are Beacon times, and CODE and class fit their fields (R523). -/
def noticeWf (n : Notice) : Bool := decide (n.launch < 2 ^ 64) && decide (n.relaunch < 2 ^ 64) && decide (n.code < 27) && decide (n.info < 2 ^ 32)

/-- Sizes of an access: powers of two up to 64 bytes (R550). -/
def sizeWf (n : Nat) : Bool := [1, 2, 4, 8, 16, 32, 64].contains n

/-- A naturally aligned access (R550). -/
def accessWf (a n : Nat) : Bool := sizeWf n && decide (a % n = 0)

/-- An offset lies in BAR2 (4 MiB) or BAR0 (128 MiB) (R549). -/
def bar2OrBar0 (bar2 : Bool) (o : Nat) : Bool := decide (o < if bar2 then 2 ^ 22 else 2 ^ 27)

/-- A line that a self-test names is one of the array's (R199). -/
def lineWf (l : Option ArrayLine) : Bool := l.all ArrayLine.exists?

/-- A payload's length fits LEN (R623). -/
def frameWf (f : ChainFrame) : Bool := decide (f.payload.length < 2 ^ 16)

/-- The command keeps the spec's limits on its operands. -/
def wellFormed (i : Instr) : Bool :=
  match i with
  | .rateWindowEnd windows controlRates => windows.all windowWf && decide (controlRates.length ≤ 320) && distinctClusters windows
  | .unfence .. => true
  | .arraySelfTest _ faulty => lineWf faulty
  | .floorSelfTestEnd .. => true
  | .coreRateRead .. => true
  | .cmRateRead .. => true
  | .beaconSlotBoundary .. => true
  | .streamEjectSignal .. => true
  | .beaconExchange .. => true
  | .beaconStepCorrection .. => true
  | .parentLost .. => true
  | .parentFound .. => true
  | .holdoverExpiry .. => true
  | .noMasterTimeout .. => true
  | .ppsEdge .. => true
  | .refInputLost .. => true
  | .refInputTimeout .. => true
  | .epochSet .. => true
  | .arm .. => true
  | .slotPlacement .. => true
  | .rePlacement .. => true
  | .effectiveLaunch .. => true
  | .taskStart .. => true
  | .taskEnd .. => true
  | .tagQuarantineExpiry .. => true
  | .scalarInstruction .. => true
  | .trunaheadWrite .. => true
  | .tld .. => true
  | .runaheadFetch .. => true
  | .tst .. => true
  | .tlds .. => true
  | .tdw .. => true
  | .tdr .. => true
  | .twl .. => true
  | .weightFillDone .. => true
  | .tmma .. => true
  | .tmmaz .. => true
  | .tzero .. => true
  | .tcvt .. => true
  | .floorBeat .. => true
  | .vadd .. => true
  | .vsub .. => true
  | .vmul .. => true
  | .vfma .. => true
  | .vmax .. => true
  | .vmin .. => true
  | .vfunc .. => true
  | .vred .. => true
  | .vcvt .. => true
  | .vld .. => true
  | .vst .. => true
  | .vsplat .. => true
  | .vext .. => true
  | .vmulx .. => true
  | .slotStatRead .. => true
  | .bankWaitMaxRead .. => true
  | .memoryResponse .. => true
  | .requestTimeout .. => true
  | .reSubmit .. => true
  | .reFill .. => true
  | .reSmaxStep .. => true
  | .reSmaxFinal .. => true
  | .reDot .. => true
  | .reSmaxBwd .. => true
  | .reMomStep .. => true
  | .reMomFinal .. => true
  | .reSave .. => true
  | .reLoad .. => true
  | .signal .. => true
  | .waitValWrite .. => true
  | .waitGo .. => true
  | .waitResLoad .. => true
  | .waitTimeout .. => true
  | .fenceCluster .. => true
  | .fenceTile .. => true
  | .fenceDevice .. => true
  | .fenceFabric .. => true
  | .fenceComplete .. => true
  | .ctrCfgWrite .. => true
  | .ctrSet .. => true
  | .dbgSelWrite .. => true
  | .shadowMerge .. => true
  | .heatWindowEnd .. => true
  | .migrationSwitch .. => true
  | .bisnpResponse _ _ dirty => match dirty with | none => true | some b => decide (b.length = 64)
  | .biTimeout .. => true
  | .queryTask .. => true
  | .queryCounterOwner .. => true
  | .queryBushel .. => true
  | .queryCore .. => true
  | .cxlmemRead _ len _ => decide (0 < len.val)
  | .cxlmemWrite addr data => decide (0 < data.length) && inOneLine addr.toNat data.length
  | .memoryEccError .. => true
  | .memoryUnusable .. => true
  | .windowCursorVisit .. => true
  | .layerArrivalSignal .. => true
  | .streamSubmit .. => true
  | .streamFetch .. => true
  | .streamDrop .. => true
  | .streamCopy .. => true
  | .streamStatRead .. => true
  | .dmaGo .. => true
  | .dmaBurst .. => true
  | .dmaShareWindow .. => true
  | .dmaComplete .. => true
  | .patrolScrub .. => true
  | .openPacketHop .. => true
  | .stLoad .. => true
  | .stLoadDone .. => true
  | .routerBufferUe .. => true
  | .routeRewrite .. => true
  | .bridgeFlitCrcFail .. => true
  | .bridgeDown .. => true
  | .latMaxRead .. => true
  | .welurFlitReceive .. => true
  | .replayTimeout .. => true
  | .portSignalDetect .. => true
  | .linkTrainComplete .. => true
  | .linkIdentify .. => true
  | .linkTrainTimeout .. => true
  | .peerLinkLost .. => true
  | .linkCmdRetrain .. => true
  | .eqSeedSave _ seeds => decide (seeds.length = 16)
  | .peerCredit .. => true
  | .peerSlottedReceive _ packet => packetWf packet && decide (packet.kind.val = 3)
  | .peerPacketReceive _ packet => packetWf packet
  | .groupCreate .. => true
  | .groupRetire .. => true
  | .groupQuarantineExpiry .. => true
  | .collSubmit .. => true
  | .allGather .. => true
  | .reduceScatter .. => true
  | .allReduce .. => true
  | .broadcast .. => true
  | .barrier .. => true
  | .gatherShard .. => true
  | .put .. => true
  | .dispatch .. => true
  | .combine .. => true
  | .collCommandComplete .. => true
  | .epochCtrlWrite .. => true
  | .epochSwitch .. => true
  | .collStatRead .. => true
  | .stepVote .. => true
  | .stepCommit .. => true
  | .foghornLoss .. => true
  | .nfReport .. => true
  | .faultReport .. => true
  | .discardNotice notice => noticeWf notice
  | .relaunch .. => true
  | .stepTimeout .. => true
  | .stageCopyDone .. => true
  | .partnerRefreshDone .. => true
  | .flashWriteDone .. => true
  | .storeDone .. => true
  | .restore .. => true
  | .restoreDone image _ _ _ => image.all (fun e => decide (e.2.2.length = 2 ^ 21))
  | .redoWrite .. => true
  | .wverWrite .. => true
  | .abort .. => true
  | .release .. => true
  | .slotWritebackDone .. => true
  | .partialRead _ offset size => accessWf offset.toNat size
  | .mirrorWrite .. => true
  | .uioFailure .. => true
  | .ideIntegrityFail .. => true
  | .blkCommit .. => true
  | .packageCommitApply .. => true
  | .blkSoftReset .. => true
  | .softResetDone .. => true
  | .blkEnableWrite .. => true
  | .errStatClear .. => true
  | .errInjWrite .. => true
  | .registerWrite _ bar2 offset size words => bar2OrBar0 bar2 offset && decide (words.length = (size + 7) / 8) && sizeWf size
  | .deviceReset .. => true
  | .keeperWatchdog .. => true
  | .bypassRelayChange .. => true
  | .chainTailTimeout .. => true
  | .enum frame => frameWf frame
  | .setCoord frame => frameWf frame
  | .chainRead frame => frameWf frame
  | .chainWrite frame => frameWf frame
  | .stageBegin frame => frameWf frame
  | .stageEnd frame _ => frameWf frame
  | .image frame => frameWf frame
  | .activate frame => frameWf frame
  | .confirm frame => frameWf frame
  | .chainAttest frame => frameWf frame
  | .chainReset frame => frameWf frame
  | .enumWaitTimeout .. => true
  | .activationTime .. => true
  | .confirmTimeout .. => true
  | .settingsMirrorWrite .. => true
  | .bringupStageAdvance .. => true
  | .mboxAttest .. => true
  | .mboxIdentity .. => true
  | .confirmFw .. => true
  | .mboxSelfTest faulty _ => lineWf faulty
  | .mboxFuseLog .. => true
  | .mboxHealth .. => true
  | .powerControlWindow .. => true
  | .valveLoopTick .. => true
  | .protectiveShutdown .. => true
  | .inputUndervoltBand .. => true
  | .pwrStatRead .. => true
  | .counterBankReset .. => true
  | .sampleSelWrite .. => true
  | .snap .. => true
  | .snapDone .. => true
  | .traceCtrlWrite .. => true
  | .traceMark .. => true
  | .ttraceMark .. => true
  | .traceFifoWrite .. => true
  | .traceFullTimeTick .. => true
  | .traceSampleTick .. => true
  | .ttraceStatRead .. => true
  | .refInputValid .. => true
  | .bridgeTrainingLost .. => true
  | .bridgeRetrained .. => true
  | .hostLinkStateChange .. => true
  | .chainOutLinkUp .. => true
  | .inputVoltageRestored .. => true
  | .inletRange .. => true

end Sys2Proof.WellFormed
end

