-- ==== Sys2Proof/Laws/PerInstr.lean ====
section
/-! SUPPORT. Statements for every command: each row of the opcode table has its number, and a well-formed command. -/

namespace Sys2Proof.Laws

/-- The number of a command's row in the opcode table. -/
def rowOf (i : Instr) : Nat :=
  match i with
  | .rateWindowEnd .. => 0
  | .unfence .. => 1
  | .arraySelfTest .. => 2
  | .floorSelfTestEnd .. => 3
  | .coreRateRead .. => 4
  | .cmRateRead .. => 5
  | .beaconSlotBoundary .. => 6
  | .streamEjectSignal .. => 7
  | .beaconExchange .. => 8
  | .beaconStepCorrection .. => 9
  | .parentLost .. => 10
  | .parentFound .. => 11
  | .holdoverExpiry .. => 12
  | .noMasterTimeout .. => 13
  | .ppsEdge .. => 14
  | .refInputLost .. => 15
  | .refInputTimeout .. => 16
  | .epochSet .. => 17
  | .arm .. => 18
  | .slotPlacement .. => 19
  | .rePlacement .. => 20
  | .effectiveLaunch .. => 21
  | .taskStart .. => 22
  | .taskEnd .. => 23
  | .tagQuarantineExpiry .. => 24
  | .scalarInstruction .. => 25
  | .trunaheadWrite .. => 26
  | .tld .. => 27
  | .runaheadFetch .. => 28
  | .tst .. => 29
  | .tlds .. => 30
  | .tdw .. => 31
  | .tdr .. => 32
  | .twl .. => 33
  | .weightFillDone .. => 34
  | .tmma .. => 35
  | .tmmaz .. => 36
  | .tzero .. => 37
  | .tcvt .. => 38
  | .floorBeat .. => 39
  | .vadd .. => 40
  | .vsub .. => 41
  | .vmul .. => 42
  | .vfma .. => 43
  | .vmax .. => 44
  | .vmin .. => 45
  | .vfunc .. => 46
  | .vred .. => 47
  | .vcvt .. => 48
  | .vld .. => 49
  | .vst .. => 50
  | .vsplat .. => 51
  | .vext .. => 52
  | .vmulx .. => 53
  | .slotStatRead .. => 54
  | .bankWaitMaxRead .. => 55
  | .memoryResponse .. => 56
  | .requestTimeout .. => 57
  | .reSubmit .. => 58
  | .reFill .. => 59
  | .reSmaxStep .. => 60
  | .reSmaxFinal .. => 61
  | .reDot .. => 62
  | .reSmaxBwd .. => 63
  | .reMomStep .. => 64
  | .reMomFinal .. => 65
  | .reSave .. => 66
  | .reLoad .. => 67
  | .signal .. => 68
  | .waitValWrite .. => 69
  | .waitGo .. => 70
  | .waitResLoad .. => 71
  | .waitTimeout .. => 72
  | .fenceCluster .. => 73
  | .fenceTile .. => 74
  | .fenceDevice .. => 75
  | .fenceFabric .. => 76
  | .fenceComplete .. => 77
  | .ctrCfgWrite .. => 78
  | .ctrSet .. => 79
  | .dbgSelWrite .. => 80
  | .shadowMerge .. => 81
  | .heatWindowEnd .. => 82
  | .migrationSwitch .. => 83
  | .bisnpResponse .. => 84
  | .biTimeout .. => 85
  | .queryTask .. => 86
  | .queryCounterOwner .. => 87
  | .queryBushel .. => 88
  | .queryCore .. => 89
  | .cxlmemRead .. => 90
  | .cxlmemWrite .. => 91
  | .memoryEccError .. => 92
  | .memoryUnusable .. => 93
  | .windowCursorVisit .. => 94
  | .layerArrivalSignal .. => 95
  | .streamSubmit .. => 96
  | .streamFetch .. => 97
  | .streamDrop .. => 98
  | .streamCopy .. => 99
  | .streamStatRead .. => 100
  | .dmaGo .. => 101
  | .dmaBurst .. => 102
  | .dmaShareWindow .. => 103
  | .dmaComplete .. => 104
  | .patrolScrub .. => 105
  | .openPacketHop .. => 106
  | .stLoad .. => 107
  | .stLoadDone .. => 108
  | .routerBufferUe .. => 109
  | .routeRewrite .. => 110
  | .bridgeFlitCrcFail .. => 111
  | .bridgeDown .. => 112
  | .latMaxRead .. => 113
  | .welurFlitReceive .. => 114
  | .replayTimeout .. => 115
  | .portSignalDetect .. => 116
  | .linkTrainComplete .. => 117
  | .linkIdentify .. => 118
  | .linkTrainTimeout .. => 119
  | .peerLinkLost .. => 120
  | .linkCmdRetrain .. => 121
  | .eqSeedSave .. => 122
  | .peerCredit .. => 123
  | .peerSlottedReceive .. => 124
  | .peerPacketReceive .. => 125
  | .groupCreate .. => 126
  | .groupRetire .. => 127
  | .groupQuarantineExpiry .. => 128
  | .collSubmit .. => 129
  | .allGather .. => 130
  | .reduceScatter .. => 131
  | .allReduce .. => 132
  | .broadcast .. => 133
  | .barrier .. => 134
  | .gatherShard .. => 135
  | .put .. => 136
  | .dispatch .. => 137
  | .combine .. => 138
  | .collCommandComplete .. => 139
  | .epochCtrlWrite .. => 140
  | .epochSwitch .. => 141
  | .collStatRead .. => 142
  | .stepVote .. => 143
  | .stepCommit .. => 144
  | .foghornLoss .. => 145
  | .nfReport .. => 146
  | .faultReport .. => 147
  | .discardNotice .. => 148
  | .relaunch .. => 149
  | .stepTimeout .. => 150
  | .stageCopyDone .. => 151
  | .partnerRefreshDone .. => 152
  | .flashWriteDone .. => 153
  | .storeDone .. => 154
  | .restore .. => 155
  | .restoreDone .. => 156
  | .redoWrite .. => 157
  | .wverWrite .. => 158
  | .abort .. => 159
  | .release .. => 160
  | .slotWritebackDone .. => 161
  | .partialRead .. => 162
  | .mirrorWrite .. => 163
  | .uioFailure .. => 164
  | .ideIntegrityFail .. => 165
  | .blkCommit .. => 166
  | .packageCommitApply .. => 167
  | .blkSoftReset .. => 168
  | .softResetDone .. => 169
  | .blkEnableWrite .. => 170
  | .errStatClear .. => 171
  | .errInjWrite .. => 172
  | .registerWrite .. => 173
  | .deviceReset .. => 174
  | .keeperWatchdog .. => 175
  | .bypassRelayChange .. => 176
  | .chainTailTimeout .. => 177
  | .enum .. => 178
  | .setCoord .. => 179
  | .chainRead .. => 180
  | .chainWrite .. => 181
  | .stageBegin .. => 182
  | .stageEnd .. => 183
  | .image .. => 184
  | .activate .. => 185
  | .confirm .. => 186
  | .chainAttest .. => 187
  | .chainReset .. => 188
  | .enumWaitTimeout .. => 189
  | .activationTime .. => 190
  | .confirmTimeout .. => 191
  | .settingsMirrorWrite .. => 192
  | .bringupStageAdvance .. => 193
  | .mboxAttest .. => 194
  | .mboxIdentity .. => 195
  | .confirmFw .. => 196
  | .mboxSelfTest .. => 197
  | .mboxFuseLog .. => 198
  | .mboxHealth .. => 199
  | .powerControlWindow .. => 200
  | .valveLoopTick .. => 201
  | .protectiveShutdown .. => 202
  | .inputUndervoltBand .. => 203
  | .pwrStatRead .. => 204
  | .counterBankReset .. => 205
  | .sampleSelWrite .. => 206
  | .snap .. => 207
  | .snapDone .. => 208
  | .traceCtrlWrite .. => 209
  | .traceMark .. => 210
  | .ttraceMark .. => 211
  | .traceFifoWrite .. => 212
  | .traceFullTimeTick .. => 213
  | .traceSampleTick .. => 214
  | .ttraceStatRead .. => 215
  | .refInputValid .. => 216
  | .bridgeTrainingLost .. => 217
  | .bridgeRetrained .. => 218
  | .hostLinkStateChange .. => 219
  | .chainOutLinkUp .. => 220
  | .inputVoltageRestored .. => 221
  | .inletRange .. => 222

/-- The row of the command has a well-formed command, and its number is that of a row of the table. -/
def Named.Statement (i : Instr) : Prop := rowOf i < 223 ∧ ∃ j, rowOf j = rowOf i ∧ WellFormed.wellFormed j = true

theorem Named.rateWindowEnd (x0 : List ClusterWindow) (x1 : List Nat) : Named.Statement (.rateWindowEnd x0 x1) :=
  ⟨(by decide : 0 < 223), .rateWindowEnd [] [], rfl, rfl⟩
theorem Named.unfence (x0 : Requester) (x1 : ClusterRef) (x2 : Word) : Named.Statement (.unfence x0 x1 x2) :=
  ⟨(by decide : 1 < 223), .unfence x0 x1 x2, rfl, rfl⟩
theorem Named.arraySelfTest (x0 : CoreRef) (x1 : Option ArrayLine) : Named.Statement (.arraySelfTest x0 x1) :=
  ⟨(by decide : 2 < 223), .arraySelfTest ⟨0, 0, 0⟩ none, rfl, rfl⟩
theorem Named.floorSelfTestEnd (x0 : CoreRef) : Named.Statement (.floorSelfTestEnd x0) :=
  ⟨(by decide : 3 < 223), .floorSelfTestEnd x0, rfl, rfl⟩
theorem Named.coreRateRead (x0 : CoreRef) : Named.Statement (.coreRateRead x0) :=
  ⟨(by decide : 4 < 223), .coreRateRead x0, rfl, rfl⟩
theorem Named.cmRateRead (x0 : ClusterRef) : Named.Statement (.cmRateRead x0) :=
  ⟨(by decide : 5 < 223), .cmRateRead x0, rfl, rfl⟩
theorem Named.beaconSlotBoundary (x0 : List (Fin 320)) : Named.Statement (.beaconSlotBoundary x0) :=
  ⟨(by decide : 6 < 223), .beaconSlotBoundary x0, rfl, rfl⟩
theorem Named.streamEjectSignal (x0 : Fin 320) (x1 : Fin 4096) : Named.Statement (.streamEjectSignal x0 x1) :=
  ⟨(by decide : 7 < 223), .streamEjectSignal x0 x1, rfl, rfl⟩
theorem Named.beaconExchange (x0 : Fin 6) (x1 : BeaconSample) : Named.Statement (.beaconExchange x0 x1) :=
  ⟨(by decide : 8 < 223), .beaconExchange x0 x1, rfl, rfl⟩
theorem Named.beaconStepCorrection (x0 : Word) : Named.Statement (.beaconStepCorrection x0) :=
  ⟨(by decide : 9 < 223), .beaconStepCorrection x0, rfl, rfl⟩
theorem Named.parentLost : Named.Statement (.parentLost) :=
  ⟨(by decide : 10 < 223), .parentLost, rfl, rfl⟩
theorem Named.parentFound (x0 : Fin 6) (x1 : BeaconSample) : Named.Statement (.parentFound x0 x1) :=
  ⟨(by decide : 11 < 223), .parentFound x0 x1, rfl, rfl⟩
theorem Named.holdoverExpiry : Named.Statement (.holdoverExpiry) :=
  ⟨(by decide : 12 < 223), .holdoverExpiry, rfl, rfl⟩
theorem Named.noMasterTimeout : Named.Statement (.noMasterTimeout) :=
  ⟨(by decide : 13 < 223), .noMasterTimeout, rfl, rfl⟩
theorem Named.ppsEdge : Named.Statement (.ppsEdge) :=
  ⟨(by decide : 14 < 223), .ppsEdge, rfl, rfl⟩
theorem Named.refInputLost (x0 : RefInput) : Named.Statement (.refInputLost x0) :=
  ⟨(by decide : 15 < 223), .refInputLost x0, rfl, rfl⟩
theorem Named.refInputTimeout (x0 : RefInput) : Named.Statement (.refInputTimeout x0) :=
  ⟨(by decide : 16 < 223), .refInputTimeout x0, rfl, rfl⟩
theorem Named.epochSet (x0 : Requester) (x1 : Word) : Named.Statement (.epochSet x0 x1) :=
  ⟨(by decide : 17 < 223), .epochSet x0 x1, rfl, rfl⟩
theorem Named.arm (x0 : Fin 64) (x1 : Word) : Named.Statement (.arm x0 x1) :=
  ⟨(by decide : 18 < 223), .arm x0 x1, rfl, rfl⟩
theorem Named.slotPlacement (x0 : Fin 64) : Named.Statement (.slotPlacement x0) :=
  ⟨(by decide : 19 < 223), .slotPlacement x0, rfl, rfl⟩
theorem Named.rePlacement (x0 : Fin 64) : Named.Statement (.rePlacement x0) :=
  ⟨(by decide : 20 < 223), .rePlacement x0, rfl, rfl⟩
theorem Named.effectiveLaunch (x0 : Fin 64) : Named.Statement (.effectiveLaunch x0) :=
  ⟨(by decide : 21 < 223), .effectiveLaunch x0, rfl, rfl⟩
theorem Named.taskStart (x0 : CoreRef) : Named.Statement (.taskStart x0) :=
  ⟨(by decide : 22 < 223), .taskStart x0, rfl, rfl⟩
theorem Named.taskEnd (x0 : CoreRef) (x1 : Word) : Named.Statement (.taskEnd x0 x1) :=
  ⟨(by decide : 23 < 223), .taskEnd x0 x1, rfl, rfl⟩
theorem Named.tagQuarantineExpiry (x0 : ClusterRef) (x1 : BitVec 16) : Named.Statement (.tagQuarantineExpiry x0 x1) :=
  ⟨(by decide : 24 < 223), .tagQuarantineExpiry x0 x1, rfl, rfl⟩
theorem Named.scalarInstruction (x0 : CoreRef) : Named.Statement (.scalarInstruction x0) :=
  ⟨(by decide : 25 < 223), .scalarInstruction x0, rfl, rfl⟩
theorem Named.trunaheadWrite (x0 : CoreRef) (x1 : Word) : Named.Statement (.trunaheadWrite x0 x1) :=
  ⟨(by decide : 26 < 223), .trunaheadWrite x0 x1, rfl, rfl⟩
theorem Named.tld (x0 : CoreRef) (x1 : Fin 8) (x2 : Bool) : Named.Statement (.tld x0 x1 x2) :=
  ⟨(by decide : 27 < 223), .tld x0 x1 x2, rfl, rfl⟩
theorem Named.runaheadFetch (x0 : CoreRef) (x1 : Fin 8) : Named.Statement (.runaheadFetch x0 x1) :=
  ⟨(by decide : 28 < 223), .runaheadFetch x0 x1, rfl, rfl⟩
theorem Named.tst (x0 : CoreRef) (x1 : Fin 8) (x2 : Bool) : Named.Statement (.tst x0 x1 x2) :=
  ⟨(by decide : 29 < 223), .tst x0 x1 x2, rfl, rfl⟩
theorem Named.tlds (x0 : CoreRef) (x1 : Fin 8) (x2 x3 : Fin 32) : Named.Statement (.tlds x0 x1 x2 x3) :=
  ⟨(by decide : 30 < 223), .tlds x0 x1 x2 x3, rfl, rfl⟩
theorem Named.tdw (x0 : CoreRef) (x1 : Fin 8) (x2 : Fin 32) (x3 : Fin 8) : Named.Statement (.tdw x0 x1 x2 x3) :=
  ⟨(by decide : 31 < 223), .tdw x0 x1 x2 x3, rfl, rfl⟩
theorem Named.tdr (x0 : CoreRef) (x1 : Fin 8) (x2 : Fin 32) (x3 : Fin 8) : Named.Statement (.tdr x0 x1 x2 x3) :=
  ⟨(by decide : 32 < 223), .tdr x0 x1 x2 x3, rfl, rfl⟩
theorem Named.twl (x0 : CoreRef) (x1 : Fin 8) : Named.Statement (.twl x0 x1) :=
  ⟨(by decide : 33 < 223), .twl x0 x1, rfl, rfl⟩
theorem Named.weightFillDone (x0 : CoreRef) : Named.Statement (.weightFillDone x0) :=
  ⟨(by decide : 34 < 223), .weightFillDone x0, rfl, rfl⟩
theorem Named.tmma (x0 : CoreRef) (x1 x2 : Fin 8) (x3 : Bool) : Named.Statement (.tmma x0 x1 x2 x3) :=
  ⟨(by decide : 35 < 223), .tmma x0 x1 x2 x3, rfl, rfl⟩
theorem Named.tmmaz (x0 : CoreRef) (x1 x2 : Fin 8) (x3 : Bool) : Named.Statement (.tmmaz x0 x1 x2 x3) :=
  ⟨(by decide : 36 < 223), .tmmaz x0 x1 x2 x3, rfl, rfl⟩
theorem Named.tzero (x0 : CoreRef) (x1 : Fin 8) : Named.Statement (.tzero x0 x1) :=
  ⟨(by decide : 37 < 223), .tzero x0 x1, rfl, rfl⟩
theorem Named.tcvt (x0 : CoreRef) (x1 x2 : Fin 8) (x3 : Fin 8) : Named.Statement (.tcvt x0 x1 x2 x3) :=
  ⟨(by decide : 38 < 223), .tcvt x0 x1 x2 x3, rfl, rfl⟩
theorem Named.floorBeat (x0 : CoreRef) (x1 : Bool) : Named.Statement (.floorBeat x0 x1) :=
  ⟨(by decide : 39 < 223), .floorBeat x0 x1, rfl, rfl⟩
theorem Named.vadd (x0 : CoreRef) (x1 x2 x3 : Fin 128) : Named.Statement (.vadd x0 x1 x2 x3) :=
  ⟨(by decide : 40 < 223), .vadd x0 x1 x2 x3, rfl, rfl⟩
theorem Named.vsub (x0 : CoreRef) (x1 x2 x3 : Fin 128) : Named.Statement (.vsub x0 x1 x2 x3) :=
  ⟨(by decide : 41 < 223), .vsub x0 x1 x2 x3, rfl, rfl⟩
theorem Named.vmul (x0 : CoreRef) (x1 x2 x3 : Fin 128) : Named.Statement (.vmul x0 x1 x2 x3) :=
  ⟨(by decide : 42 < 223), .vmul x0 x1 x2 x3, rfl, rfl⟩
theorem Named.vfma (x0 : CoreRef) (x1 x2 x3 : Fin 128) : Named.Statement (.vfma x0 x1 x2 x3) :=
  ⟨(by decide : 43 < 223), .vfma x0 x1 x2 x3, rfl, rfl⟩
theorem Named.vmax (x0 : CoreRef) (x1 x2 x3 : Fin 128) : Named.Statement (.vmax x0 x1 x2 x3) :=
  ⟨(by decide : 44 < 223), .vmax x0 x1 x2 x3, rfl, rfl⟩
theorem Named.vmin (x0 : CoreRef) (x1 x2 x3 : Fin 128) : Named.Statement (.vmin x0 x1 x2 x3) :=
  ⟨(by decide : 45 < 223), .vmin x0 x1 x2 x3, rfl, rfl⟩
theorem Named.vfunc (x0 : CoreRef) (x1 x2 x3 : Fin 128) : Named.Statement (.vfunc x0 x1 x2 x3) :=
  ⟨(by decide : 46 < 223), .vfunc x0 x1 x2 x3, rfl, rfl⟩
theorem Named.vred (x0 : CoreRef) (x1 x2 x3 : Fin 128) : Named.Statement (.vred x0 x1 x2 x3) :=
  ⟨(by decide : 47 < 223), .vred x0 x1 x2 x3, rfl, rfl⟩
theorem Named.vcvt (x0 : CoreRef) (x1 x2 x3 : Fin 128) : Named.Statement (.vcvt x0 x1 x2 x3) :=
  ⟨(by decide : 48 < 223), .vcvt x0 x1 x2 x3, rfl, rfl⟩
theorem Named.vld (x0 : CoreRef) (x1 : Fin 128) (x2 : Fin 32) : Named.Statement (.vld x0 x1 x2) :=
  ⟨(by decide : 49 < 223), .vld x0 x1 x2, rfl, rfl⟩
theorem Named.vst (x0 : CoreRef) (x1 : Fin 128) (x2 : Fin 32) : Named.Statement (.vst x0 x1 x2) :=
  ⟨(by decide : 50 < 223), .vst x0 x1 x2, rfl, rfl⟩
theorem Named.vsplat (x0 : CoreRef) (x1 : Fin 128) (x2 : Fin 32) : Named.Statement (.vsplat x0 x1 x2) :=
  ⟨(by decide : 51 < 223), .vsplat x0 x1 x2, rfl, rfl⟩
theorem Named.vext (x0 : CoreRef) (x1 : Fin 128) (x2 x3 : Fin 32) : Named.Statement (.vext x0 x1 x2 x3) :=
  ⟨(by decide : 52 < 223), .vext x0 x1 x2 x3, rfl, rfl⟩
theorem Named.vmulx (x0 : CoreRef) (x1 : Fin 128) (x2 : Fin 32) : Named.Statement (.vmulx x0 x1 x2) :=
  ⟨(by decide : 53 < 223), .vmulx x0 x1 x2, rfl, rfl⟩
theorem Named.slotStatRead (x0 : CoreRef) : Named.Statement (.slotStatRead x0) :=
  ⟨(by decide : 54 < 223), .slotStatRead x0, rfl, rfl⟩
theorem Named.bankWaitMaxRead (x0 : CoreRef) : Named.Statement (.bankWaitMaxRead x0) :=
  ⟨(by decide : 55 < 223), .bankWaitMaxRead x0, rfl, rfl⟩
theorem Named.memoryResponse (x0 : Responder) : Named.Statement (.memoryResponse x0) :=
  ⟨(by decide : 56 < 223), .memoryResponse x0, rfl, rfl⟩
theorem Named.requestTimeout (x0 : Sender) : Named.Statement (.requestTimeout x0) :=
  ⟨(by decide : 57 < 223), .requestTimeout x0, rfl, rfl⟩
theorem Named.reSubmit (x0 : Requester) (x1 : ClusterRef) (x2 : Word) : Named.Statement (.reSubmit x0 x1 x2) :=
  ⟨(by decide : 58 < 223), .reSubmit x0 x1 x2, rfl, rfl⟩
theorem Named.reFill (x0 : ClusterRef) : Named.Statement (.reFill x0) :=
  ⟨(by decide : 59 < 223), .reFill x0, rfl, rfl⟩
theorem Named.reSmaxStep (x0 : ClusterRef) : Named.Statement (.reSmaxStep x0) :=
  ⟨(by decide : 60 < 223), .reSmaxStep x0, rfl, rfl⟩
theorem Named.reSmaxFinal (x0 : ClusterRef) : Named.Statement (.reSmaxFinal x0) :=
  ⟨(by decide : 61 < 223), .reSmaxFinal x0, rfl, rfl⟩
theorem Named.reDot (x0 : ClusterRef) : Named.Statement (.reDot x0) :=
  ⟨(by decide : 62 < 223), .reDot x0, rfl, rfl⟩
theorem Named.reSmaxBwd (x0 : ClusterRef) : Named.Statement (.reSmaxBwd x0) :=
  ⟨(by decide : 63 < 223), .reSmaxBwd x0, rfl, rfl⟩
theorem Named.reMomStep (x0 : ClusterRef) : Named.Statement (.reMomStep x0) :=
  ⟨(by decide : 64 < 223), .reMomStep x0, rfl, rfl⟩
theorem Named.reMomFinal (x0 : ClusterRef) : Named.Statement (.reMomFinal x0) :=
  ⟨(by decide : 65 < 223), .reMomFinal x0, rfl, rfl⟩
theorem Named.reSave (x0 : ClusterRef) : Named.Statement (.reSave x0) :=
  ⟨(by decide : 66 < 223), .reSave x0, rfl, rfl⟩
theorem Named.reLoad (x0 : ClusterRef) : Named.Statement (.reLoad x0) :=
  ⟨(by decide : 67 < 223), .reLoad x0, rfl, rfl⟩
theorem Named.signal (x0 : Requester) (x1 : Fin 8) (x2 : Word) : Named.Statement (.signal x0 x1 x2) :=
  ⟨(by decide : 68 < 223), .signal x0 x1 x2, rfl, rfl⟩
theorem Named.waitValWrite (x0 : Requester) (x1 : Fin 8) (x2 : Word) : Named.Statement (.waitValWrite x0 x1 x2) :=
  ⟨(by decide : 69 < 223), .waitValWrite x0 x1 x2, rfl, rfl⟩
theorem Named.waitGo (x0 : Requester) (x1 : Fin 8) (x2 : Word) : Named.Statement (.waitGo x0 x1 x2) :=
  ⟨(by decide : 70 < 223), .waitGo x0 x1 x2, rfl, rfl⟩
theorem Named.waitResLoad (x0 : Requester) : Named.Statement (.waitResLoad x0) :=
  ⟨(by decide : 71 < 223), .waitResLoad x0, rfl, rfl⟩
theorem Named.waitTimeout (x0 : CoreRef) : Named.Statement (.waitTimeout x0) :=
  ⟨(by decide : 72 < 223), .waitTimeout x0, rfl, rfl⟩
theorem Named.fenceCluster (x0 : Requester) : Named.Statement (.fenceCluster x0) :=
  ⟨(by decide : 73 < 223), .fenceCluster x0, rfl, rfl⟩
theorem Named.fenceTile (x0 : Requester) : Named.Statement (.fenceTile x0) :=
  ⟨(by decide : 74 < 223), .fenceTile x0, rfl, rfl⟩
theorem Named.fenceDevice (x0 : Requester) : Named.Statement (.fenceDevice x0) :=
  ⟨(by decide : 75 < 223), .fenceDevice x0, rfl, rfl⟩
theorem Named.fenceFabric (x0 : Requester) : Named.Statement (.fenceFabric x0) :=
  ⟨(by decide : 76 < 223), .fenceFabric x0, rfl, rfl⟩
theorem Named.fenceComplete (x0 : CoreRef) : Named.Statement (.fenceComplete x0) :=
  ⟨(by decide : 77 < 223), .fenceComplete x0, rfl, rfl⟩
theorem Named.ctrCfgWrite (x0 : Fin 8) (x1 : Word) : Named.Statement (.ctrCfgWrite x0 x1) :=
  ⟨(by decide : 78 < 223), .ctrCfgWrite x0 x1, rfl, rfl⟩
theorem Named.ctrSet (x0 : Fin 8) (x1 : Word) : Named.Statement (.ctrSet x0 x1) :=
  ⟨(by decide : 79 < 223), .ctrSet x0 x1, rfl, rfl⟩
theorem Named.dbgSelWrite (x0 : Fin 8) (x1 : Word) : Named.Statement (.dbgSelWrite x0 x1) :=
  ⟨(by decide : 80 < 223), .dbgSelWrite x0 x1, rfl, rfl⟩
theorem Named.shadowMerge (x0 : BitVec 27) : Named.Statement (.shadowMerge x0) :=
  ⟨(by decide : 81 < 223), .shadowMerge x0, rfl, rfl⟩
theorem Named.heatWindowEnd (x0 : Fin 8) : Named.Statement (.heatWindowEnd x0) :=
  ⟨(by decide : 82 < 223), .heatWindowEnd x0, rfl, rfl⟩
theorem Named.migrationSwitch (x0 : BitVec 27) : Named.Statement (.migrationSwitch x0) :=
  ⟨(by decide : 83 < 223), .migrationSwitch x0, rfl, rfl⟩
theorem Named.bisnpResponse (x0 : BitVec 27) (x1 : Fin 32768) (x2 : Option (List Byte)) : Named.Statement (.bisnpResponse x0 x1 x2) :=
  ⟨(by decide : 84 < 223), .bisnpResponse 0 0 none, rfl, rfl⟩
theorem Named.biTimeout (x0 : BitVec 27) : Named.Statement (.biTimeout x0) :=
  ⟨(by decide : 85 < 223), .biTimeout x0, rfl, rfl⟩
theorem Named.queryTask (x0 : BitVec 56) : Named.Statement (.queryTask x0) :=
  ⟨(by decide : 86 < 223), .queryTask x0, rfl, rfl⟩
theorem Named.queryCounterOwner (x0 : BitVec 56) : Named.Statement (.queryCounterOwner x0) :=
  ⟨(by decide : 87 < 223), .queryCounterOwner x0, rfl, rfl⟩
theorem Named.queryBushel (x0 : BitVec 56) : Named.Statement (.queryBushel x0) :=
  ⟨(by decide : 88 < 223), .queryBushel x0, rfl, rfl⟩
theorem Named.queryCore (x0 : BitVec 56) : Named.Statement (.queryCore x0) :=
  ⟨(by decide : 89 < 223), .queryCore x0, rfl, rfl⟩
theorem Named.cxlmemRead (x0 : BitVec 48) (x1 : Fin 65) (x2 : Bool) : Named.Statement (.cxlmemRead x0 x1 x2) :=
  ⟨(by decide : 90 < 223), .cxlmemRead 0 64 true, rfl, rfl⟩
theorem Named.cxlmemWrite (x0 : BitVec 48) (x1 : List Byte) : Named.Statement (.cxlmemWrite x0 x1) :=
  ⟨(by decide : 91 < 223), .cxlmemWrite 0 [0], rfl, rfl⟩
theorem Named.memoryEccError (x0 : StoredCopy) (x1 : Bool) : Named.Statement (.memoryEccError x0 x1) :=
  ⟨(by decide : 92 < 223), .memoryEccError x0 x1, rfl, rfl⟩
theorem Named.memoryUnusable (x0 : Fin 8) (x1 : Fin 3) : Named.Statement (.memoryUnusable x0 x1) :=
  ⟨(by decide : 93 < 223), .memoryUnusable x0 x1, rfl, rfl⟩
theorem Named.windowCursorVisit (x0 : Fin 64) : Named.Statement (.windowCursorVisit x0) :=
  ⟨(by decide : 94 < 223), .windowCursorVisit x0, rfl, rfl⟩
theorem Named.layerArrivalSignal (x0 : BitVec 16) : Named.Statement (.layerArrivalSignal x0) :=
  ⟨(by decide : 95 < 223), .layerArrivalSignal x0, rfl, rfl⟩
theorem Named.streamSubmit (x0 : Requester) (x1 : Fin 8) (x2 : Word) : Named.Statement (.streamSubmit x0 x1 x2) :=
  ⟨(by decide : 96 < 223), .streamSubmit x0 x1 x2, rfl, rfl⟩
theorem Named.streamFetch (x0 : Fin 8) : Named.Statement (.streamFetch x0) :=
  ⟨(by decide : 97 < 223), .streamFetch x0, rfl, rfl⟩
theorem Named.streamDrop (x0 : Fin 8) : Named.Statement (.streamDrop x0) :=
  ⟨(by decide : 98 < 223), .streamDrop x0, rfl, rfl⟩
theorem Named.streamCopy (x0 : Fin 8) : Named.Statement (.streamCopy x0) :=
  ⟨(by decide : 99 < 223), .streamCopy x0, rfl, rfl⟩
theorem Named.streamStatRead (x0 : Fin 8) : Named.Statement (.streamStatRead x0) :=
  ⟨(by decide : 100 < 223), .streamStatRead x0, rfl, rfl⟩
theorem Named.dmaGo (x0 : Requester) (x1 : Fin 8) (x2 : Fin 32) (x3 : Word) : Named.Statement (.dmaGo x0 x1 x2 x3) :=
  ⟨(by decide : 101 < 223), .dmaGo x0 x1 x2 x3, rfl, rfl⟩
theorem Named.dmaBurst (x0 : Fin 8) : Named.Statement (.dmaBurst x0) :=
  ⟨(by decide : 102 < 223), .dmaBurst x0, rfl, rfl⟩
theorem Named.dmaShareWindow (x0 : Fin 8) : Named.Statement (.dmaShareWindow x0) :=
  ⟨(by decide : 103 < 223), .dmaShareWindow x0, rfl, rfl⟩
theorem Named.dmaComplete (x0 : Fin 8) (x1 : Fin 32) : Named.Statement (.dmaComplete x0 x1) :=
  ⟨(by decide : 104 < 223), .dmaComplete x0 x1, rfl, rfl⟩
theorem Named.patrolScrub (x0 : Fin 8) (x1 : Fin 3) (x2 : Nat) : Named.Statement (.patrolScrub x0 x1 x2) :=
  ⟨(by decide : 105 < 223), .patrolScrub x0 x1 x2, rfl, rfl⟩
theorem Named.openPacketHop (x0 : Fin 320) (x1 : Fin 8) : Named.Statement (.openPacketHop x0 x1) :=
  ⟨(by decide : 106 < 223), .openPacketHop x0 x1, rfl, rfl⟩
theorem Named.stLoad (x0 : Fin 8) (x1 : Word) : Named.Statement (.stLoad x0 x1) :=
  ⟨(by decide : 107 < 223), .stLoad x0 x1, rfl, rfl⟩
theorem Named.stLoadDone : Named.Statement (.stLoadDone) :=
  ⟨(by decide : 108 < 223), .stLoadDone, rfl, rfl⟩
theorem Named.routerBufferUe (x0 : Fin 320) : Named.Statement (.routerBufferUe x0) :=
  ⟨(by decide : 109 < 223), .routerBufferUe x0, rfl, rfl⟩
theorem Named.routeRewrite : Named.Statement (.routeRewrite) :=
  ⟨(by decide : 110 < 223), .routeRewrite, rfl, rfl⟩
theorem Named.bridgeFlitCrcFail (x0 : Fin 8) (x1 : Fin 4) : Named.Statement (.bridgeFlitCrcFail x0 x1) :=
  ⟨(by decide : 111 < 223), .bridgeFlitCrcFail x0 x1, rfl, rfl⟩
theorem Named.bridgeDown (x0 : Fin 8) (x1 : Fin 4) : Named.Statement (.bridgeDown x0 x1) :=
  ⟨(by decide : 112 < 223), .bridgeDown x0 x1, rfl, rfl⟩
theorem Named.latMaxRead (x0 : Fin 8) : Named.Statement (.latMaxRead x0) :=
  ⟨(by decide : 113 < 223), .latMaxRead x0, rfl, rfl⟩
theorem Named.welurFlitReceive (x0 : Fin 6) (x1 : WelurFlit) : Named.Statement (.welurFlitReceive x0 x1) :=
  ⟨(by decide : 114 < 223), .welurFlitReceive x0 x1, rfl, rfl⟩
theorem Named.replayTimeout (x0 : Fin 6) : Named.Statement (.replayTimeout x0) :=
  ⟨(by decide : 115 < 223), .replayTimeout x0, rfl, rfl⟩
theorem Named.portSignalDetect (x0 : Fin 6) : Named.Statement (.portSignalDetect x0) :=
  ⟨(by decide : 116 < 223), .portSignalDetect x0, rfl, rfl⟩
theorem Named.linkTrainComplete (x0 : Fin 6) (x1 : TrainResult) : Named.Statement (.linkTrainComplete x0 x1) :=
  ⟨(by decide : 117 < 223), .linkTrainComplete x0 x1, rfl, rfl⟩
theorem Named.linkIdentify (x0 : Fin 6) (x1 : NeighbourInfo) : Named.Statement (.linkIdentify x0 x1) :=
  ⟨(by decide : 118 < 223), .linkIdentify x0 x1, rfl, rfl⟩
theorem Named.linkTrainTimeout (x0 : Fin 6) : Named.Statement (.linkTrainTimeout x0) :=
  ⟨(by decide : 119 < 223), .linkTrainTimeout x0, rfl, rfl⟩
theorem Named.peerLinkLost (x0 : Fin 6) : Named.Statement (.peerLinkLost x0) :=
  ⟨(by decide : 120 < 223), .peerLinkLost x0, rfl, rfl⟩
theorem Named.linkCmdRetrain (x0 : Fin 6) (x1 : Word) : Named.Statement (.linkCmdRetrain x0 x1) :=
  ⟨(by decide : 121 < 223), .linkCmdRetrain x0 x1, rfl, rfl⟩
theorem Named.eqSeedSave (x0 : Fin 6) (x1 : List Word) : Named.Statement (.eqSeedSave x0 x1) :=
  ⟨(by decide : 122 < 223), .eqSeedSave 0 (List.replicate 16 0), rfl, rfl⟩
theorem Named.peerCredit (x0 : Fin 6) (x1 : Word) : Named.Statement (.peerCredit x0 x1) :=
  ⟨(by decide : 123 < 223), .peerCredit x0 x1, rfl, rfl⟩
theorem Named.peerSlottedReceive (x0 : Fin 6) (x1 : PeerPacket) : Named.Statement (.peerSlottedReceive x0 x1) :=
  ⟨(by decide : 124 < 223), .peerSlottedReceive 0 ⟨3, 0, false, 0, 0, 0, 0, 0, 0, 0, 0, 0, 0, 0, 0, false, 0, 0, 0, 0, []⟩, rfl, rfl⟩
theorem Named.peerPacketReceive (x0 : Fin 6) (x1 : PeerPacket) : Named.Statement (.peerPacketReceive x0 x1) :=
  ⟨(by decide : 125 < 223), .peerPacketReceive 0 ⟨3, 0, false, 0, 0, 0, 0, 0, 0, 0, 0, 0, 0, 0, 0, false, 0, 0, 0, 0, []⟩, rfl, rfl⟩
theorem Named.groupCreate (x0 : Word) : Named.Statement (.groupCreate x0) :=
  ⟨(by decide : 126 < 223), .groupCreate x0, rfl, rfl⟩
theorem Named.groupRetire (x0 : Word) : Named.Statement (.groupRetire x0) :=
  ⟨(by decide : 127 < 223), .groupRetire x0, rfl, rfl⟩
theorem Named.groupQuarantineExpiry (x0 : BitVec 12) : Named.Statement (.groupQuarantineExpiry x0) :=
  ⟨(by decide : 128 < 223), .groupQuarantineExpiry x0, rfl, rfl⟩
theorem Named.collSubmit (x0 : Requester) (x1 : Word) : Named.Statement (.collSubmit x0 x1) :=
  ⟨(by decide : 129 < 223), .collSubmit x0 x1, rfl, rfl⟩
theorem Named.allGather (x0 : Nat) : Named.Statement (.allGather x0) :=
  ⟨(by decide : 130 < 223), .allGather x0, rfl, rfl⟩
theorem Named.reduceScatter (x0 : Nat) : Named.Statement (.reduceScatter x0) :=
  ⟨(by decide : 131 < 223), .reduceScatter x0, rfl, rfl⟩
theorem Named.allReduce (x0 : Nat) : Named.Statement (.allReduce x0) :=
  ⟨(by decide : 132 < 223), .allReduce x0, rfl, rfl⟩
theorem Named.broadcast (x0 : Nat) : Named.Statement (.broadcast x0) :=
  ⟨(by decide : 133 < 223), .broadcast x0, rfl, rfl⟩
theorem Named.barrier (x0 : Nat) : Named.Statement (.barrier x0) :=
  ⟨(by decide : 134 < 223), .barrier x0, rfl, rfl⟩
theorem Named.gatherShard (x0 : Nat) : Named.Statement (.gatherShard x0) :=
  ⟨(by decide : 135 < 223), .gatherShard x0, rfl, rfl⟩
theorem Named.put (x0 : Nat) : Named.Statement (.put x0) :=
  ⟨(by decide : 136 < 223), .put x0, rfl, rfl⟩
theorem Named.dispatch (x0 : Nat) : Named.Statement (.dispatch x0) :=
  ⟨(by decide : 137 < 223), .dispatch x0, rfl, rfl⟩
theorem Named.combine (x0 : Nat) : Named.Statement (.combine x0) :=
  ⟨(by decide : 138 < 223), .combine x0, rfl, rfl⟩
theorem Named.collCommandComplete (x0 : Nat) : Named.Statement (.collCommandComplete x0) :=
  ⟨(by decide : 139 < 223), .collCommandComplete x0, rfl, rfl⟩
theorem Named.epochCtrlWrite (x0 : Word) : Named.Statement (.epochCtrlWrite x0) :=
  ⟨(by decide : 140 < 223), .epochCtrlWrite x0, rfl, rfl⟩
theorem Named.epochSwitch (x0 : Word) : Named.Statement (.epochSwitch x0) :=
  ⟨(by decide : 141 < 223), .epochSwitch x0, rfl, rfl⟩
theorem Named.collStatRead : Named.Statement (.collStatRead) :=
  ⟨(by decide : 142 < 223), .collStatRead, rfl, rfl⟩
theorem Named.stepVote : Named.Statement (.stepVote) :=
  ⟨(by decide : 143 < 223), .stepVote, rfl, rfl⟩
theorem Named.stepCommit : Named.Statement (.stepCommit) :=
  ⟨(by decide : 144 < 223), .stepCommit, rfl, rfl⟩
theorem Named.foghornLoss (x0 : Requester) (x1 : Word) : Named.Statement (.foghornLoss x0 x1) :=
  ⟨(by decide : 145 < 223), .foghornLoss x0 x1, rfl, rfl⟩
theorem Named.nfReport (x0 : Requester) (x1 : Word) : Named.Statement (.nfReport x0 x1) :=
  ⟨(by decide : 146 < 223), .nfReport x0 x1, rfl, rfl⟩
theorem Named.faultReport (x0 : Fin 27) (x1 : BitVec 32) (x2 : Bool) : Named.Statement (.faultReport x0 x1 x2) :=
  ⟨(by decide : 147 < 223), .faultReport x0 x1 x2, rfl, rfl⟩
theorem Named.discardNotice (x0 : Notice) : Named.Statement (.discardNotice x0) :=
  ⟨(by decide : 148 < 223), .discardNotice ⟨0, 0, 0, 0, 0, 0⟩, rfl, rfl⟩
theorem Named.relaunch : Named.Statement (.relaunch) :=
  ⟨(by decide : 149 < 223), .relaunch, rfl, rfl⟩
theorem Named.stepTimeout : Named.Statement (.stepTimeout) :=
  ⟨(by decide : 150 < 223), .stepTimeout, rfl, rfl⟩
theorem Named.stageCopyDone : Named.Statement (.stageCopyDone) :=
  ⟨(by decide : 151 < 223), .stageCopyDone, rfl, rfl⟩
theorem Named.partnerRefreshDone (x0 : Option (BitVec 12 × Nat)) (x1 : Bool) : Named.Statement (.partnerRefreshDone x0 x1) :=
  ⟨(by decide : 152 < 223), .partnerRefreshDone x0 x1, rfl, rfl⟩
theorem Named.flashWriteDone (x0 : Bool) : Named.Statement (.flashWriteDone x0) :=
  ⟨(by decide : 153 < 223), .flashWriteDone x0, rfl, rfl⟩
theorem Named.storeDone (x0 : Word) : Named.Statement (.storeDone x0) :=
  ⟨(by decide : 154 < 223), .storeDone x0, rfl, rfl⟩
theorem Named.restore (x0 : Word) : Named.Statement (.restore x0) :=
  ⟨(by decide : 155 < 223), .restore x0, rfl, rfl⟩
theorem Named.restoreDone (x0 : List (Nat × Nat × List Byte)) (x1 : List Word) (x2 : List (Nat × List Byte)) (x3 : Fin 6) : Named.Statement (.restoreDone x0 x1 x2 x3) :=
  ⟨(by decide : 156 < 223), .restoreDone [] [] [] 0, rfl, rfl⟩
theorem Named.redoWrite (x0 : Word) : Named.Statement (.redoWrite x0) :=
  ⟨(by decide : 157 < 223), .redoWrite x0, rfl, rfl⟩
theorem Named.wverWrite (x0 : Word) : Named.Statement (.wverWrite x0) :=
  ⟨(by decide : 158 < 223), .wverWrite x0, rfl, rfl⟩
theorem Named.abort (x0 : Fin 64) : Named.Statement (.abort x0) :=
  ⟨(by decide : 159 < 223), .abort x0, rfl, rfl⟩
theorem Named.release (x0 : Fin 64) : Named.Statement (.release x0) :=
  ⟨(by decide : 160 < 223), .release x0, rfl, rfl⟩
theorem Named.slotWritebackDone (x0 : Fin 64) : Named.Statement (.slotWritebackDone x0) :=
  ⟨(by decide : 161 < 223), .slotWritebackDone x0, rfl, rfl⟩
theorem Named.partialRead (x0 : Fin 64) (x1 : BitVec 16) (x2 : Nat) : Named.Statement (.partialRead x0 x1 x2) :=
  ⟨(by decide : 162 < 223), .partialRead 0 0x2000 8, rfl, rfl⟩
theorem Named.mirrorWrite (x0 : Fin 64) : Named.Statement (.mirrorWrite x0) :=
  ⟨(by decide : 163 < 223), .mirrorWrite x0, rfl, rfl⟩
theorem Named.uioFailure (x0 : BitVec 48) (x1 : Sender) (x2 : Bool) : Named.Statement (.uioFailure x0 x1 x2) :=
  ⟨(by decide : 164 < 223), .uioFailure x0 x1 x2, rfl, rfl⟩
theorem Named.ideIntegrityFail : Named.Statement (.ideIntegrityFail) :=
  ⟨(by decide : 165 < 223), .ideIntegrityFail, rfl, rfl⟩
theorem Named.blkCommit (x0 : Requester) (x1 : PageRef) : Named.Statement (.blkCommit x0 x1) :=
  ⟨(by decide : 166 < 223), .blkCommit x0 x1, rfl, rfl⟩
theorem Named.packageCommitApply (x0 : PageRef) : Named.Statement (.packageCommitApply x0) :=
  ⟨(by decide : 167 < 223), .packageCommitApply x0, rfl, rfl⟩
theorem Named.blkSoftReset (x0 : Requester) (x1 : PageRef) : Named.Statement (.blkSoftReset x0 x1) :=
  ⟨(by decide : 168 < 223), .blkSoftReset x0 x1, rfl, rfl⟩
theorem Named.softResetDone (x0 : PageRef) : Named.Statement (.softResetDone x0) :=
  ⟨(by decide : 169 < 223), .softResetDone x0, rfl, rfl⟩
theorem Named.blkEnableWrite (x0 : Requester) (x1 : PageRef) (x2 : Bool) : Named.Statement (.blkEnableWrite x0 x1 x2) :=
  ⟨(by decide : 170 < 223), .blkEnableWrite x0 x1 x2, rfl, rfl⟩
theorem Named.errStatClear (x0 : PageRef) (x1 : Word) : Named.Statement (.errStatClear x0 x1) :=
  ⟨(by decide : 171 < 223), .errStatClear x0 x1, rfl, rfl⟩
theorem Named.errInjWrite (x0 : PageRef) (x1 : Word) : Named.Statement (.errInjWrite x0 x1) :=
  ⟨(by decide : 172 < 223), .errInjWrite x0 x1, rfl, rfl⟩
theorem Named.registerWrite (x0 : Requester) (x1 : Bool) (x2 : Nat) (x3 : Nat) (x4 : List Word) : Named.Statement (.registerWrite x0 x1 x2 x3 x4) :=
  ⟨(by decide : 173 < 223), .registerWrite .host false 0x28 8 [0], rfl, rfl⟩
theorem Named.deviceReset : Named.Statement (.deviceReset) :=
  ⟨(by decide : 174 < 223), .deviceReset, rfl, rfl⟩
theorem Named.keeperWatchdog : Named.Statement (.keeperWatchdog) :=
  ⟨(by decide : 175 < 223), .keeperWatchdog, rfl, rfl⟩
theorem Named.bypassRelayChange (x0 : Bool) : Named.Statement (.bypassRelayChange x0) :=
  ⟨(by decide : 176 < 223), .bypassRelayChange x0, rfl, rfl⟩
theorem Named.chainTailTimeout : Named.Statement (.chainTailTimeout) :=
  ⟨(by decide : 177 < 223), .chainTailTimeout, rfl, rfl⟩
theorem Named.enum (x0 : ChainFrame) : Named.Statement (.enum x0) :=
  ⟨(by decide : 178 < 223), .enum ⟨0, 0, 0, 0, 0, [], true⟩, rfl, rfl⟩
theorem Named.setCoord (x0 : ChainFrame) : Named.Statement (.setCoord x0) :=
  ⟨(by decide : 179 < 223), .setCoord ⟨0, 0, 0, 0, 0, [], true⟩, rfl, rfl⟩
theorem Named.chainRead (x0 : ChainFrame) : Named.Statement (.chainRead x0) :=
  ⟨(by decide : 180 < 223), .chainRead ⟨0, 0, 0, 0, 0, [], true⟩, rfl, rfl⟩
theorem Named.chainWrite (x0 : ChainFrame) : Named.Statement (.chainWrite x0) :=
  ⟨(by decide : 181 < 223), .chainWrite ⟨0, 0, 0, 0, 0, [], true⟩, rfl, rfl⟩
theorem Named.stageBegin (x0 : ChainFrame) : Named.Statement (.stageBegin x0) :=
  ⟨(by decide : 182 < 223), .stageBegin ⟨0, 0, 0, 0, 0, [], true⟩, rfl, rfl⟩
theorem Named.stageEnd (x0 : ChainFrame) (x1 : VerifyResult) : Named.Statement (.stageEnd x0 x1) :=
  ⟨(by decide : 183 < 223), .stageEnd ⟨0, 0, 0, 0, 0, [], true⟩ ⟨true, true⟩, rfl, rfl⟩
theorem Named.image (x0 : ChainFrame) : Named.Statement (.image x0) :=
  ⟨(by decide : 184 < 223), .image ⟨0, 0, 0, 0, 0, [], true⟩, rfl, rfl⟩
theorem Named.activate (x0 : ChainFrame) : Named.Statement (.activate x0) :=
  ⟨(by decide : 185 < 223), .activate ⟨0, 0, 0, 0, 0, [], true⟩, rfl, rfl⟩
theorem Named.confirm (x0 : ChainFrame) : Named.Statement (.confirm x0) :=
  ⟨(by decide : 186 < 223), .confirm ⟨0, 0, 0, 0, 0, [], true⟩, rfl, rfl⟩
theorem Named.chainAttest (x0 : ChainFrame) : Named.Statement (.chainAttest x0) :=
  ⟨(by decide : 187 < 223), .chainAttest ⟨0, 0, 0, 0, 0, [], true⟩, rfl, rfl⟩
theorem Named.chainReset (x0 : ChainFrame) : Named.Statement (.chainReset x0) :=
  ⟨(by decide : 188 < 223), .chainReset ⟨0, 0, 0, 0, 0, [], true⟩, rfl, rfl⟩
theorem Named.enumWaitTimeout : Named.Statement (.enumWaitTimeout) :=
  ⟨(by decide : 189 < 223), .enumWaitTimeout, rfl, rfl⟩
theorem Named.activationTime : Named.Statement (.activationTime) :=
  ⟨(by decide : 190 < 223), .activationTime, rfl, rfl⟩
theorem Named.confirmTimeout : Named.Statement (.confirmTimeout) :=
  ⟨(by decide : 191 < 223), .confirmTimeout, rfl, rfl⟩
theorem Named.settingsMirrorWrite (x0 : Bool) : Named.Statement (.settingsMirrorWrite x0) :=
  ⟨(by decide : 192 < 223), .settingsMirrorWrite x0, rfl, rfl⟩
theorem Named.bringupStageAdvance (x0 : StageOutcome) (x1 : Nat) : Named.Statement (.bringupStageAdvance x0 x1) :=
  ⟨(by decide : 193 < 223), .bringupStageAdvance x0 x1, rfl, rfl⟩
theorem Named.mboxAttest : Named.Statement (.mboxAttest) :=
  ⟨(by decide : 194 < 223), .mboxAttest, rfl, rfl⟩
theorem Named.mboxIdentity : Named.Statement (.mboxIdentity) :=
  ⟨(by decide : 195 < 223), .mboxIdentity, rfl, rfl⟩
theorem Named.confirmFw : Named.Statement (.confirmFw) :=
  ⟨(by decide : 196 < 223), .confirmFw, rfl, rfl⟩
theorem Named.mboxSelfTest (x0 : Option ArrayLine) (x1 : Bool) : Named.Statement (.mboxSelfTest x0 x1) :=
  ⟨(by decide : 197 < 223), .mboxSelfTest none true, rfl, rfl⟩
theorem Named.mboxFuseLog : Named.Statement (.mboxFuseLog) :=
  ⟨(by decide : 198 < 223), .mboxFuseLog, rfl, rfl⟩
theorem Named.mboxHealth : Named.Statement (.mboxHealth) :=
  ⟨(by decide : 199 < 223), .mboxHealth, rfl, rfl⟩
theorem Named.powerControlWindow (x0 : PowerSample) : Named.Statement (.powerControlWindow x0) :=
  ⟨(by decide : 200 < 223), .powerControlWindow x0, rfl, rfl⟩
theorem Named.valveLoopTick (x0 x1 x2 : Nat) (x3 : Fin 101) : Named.Statement (.valveLoopTick x0 x1 x2 x3) :=
  ⟨(by decide : 201 < 223), .valveLoopTick x0 x1 x2 x3, rfl, rfl⟩
theorem Named.protectiveShutdown (x0 : Fin 7) : Named.Statement (.protectiveShutdown x0) :=
  ⟨(by decide : 202 < 223), .protectiveShutdown x0, rfl, rfl⟩
theorem Named.inputUndervoltBand : Named.Statement (.inputUndervoltBand) :=
  ⟨(by decide : 203 < 223), .inputUndervoltBand, rfl, rfl⟩
theorem Named.pwrStatRead : Named.Statement (.pwrStatRead) :=
  ⟨(by decide : 204 < 223), .pwrStatRead, rfl, rfl⟩
theorem Named.counterBankReset (x0 : PageRef) (x1 : Word) : Named.Statement (.counterBankReset x0 x1) :=
  ⟨(by decide : 205 < 223), .counterBankReset x0 x1, rfl, rfl⟩
theorem Named.sampleSelWrite (x0 : PageRef) (x1 : Word) : Named.Statement (.sampleSelWrite x0 x1) :=
  ⟨(by decide : 206 < 223), .sampleSelWrite x0 x1, rfl, rfl⟩
theorem Named.snap (x0 : PageRef) (x1 : Word) : Named.Statement (.snap x0 x1) :=
  ⟨(by decide : 207 < 223), .snap x0 x1, rfl, rfl⟩
theorem Named.snapDone (x0 : PageRef) : Named.Statement (.snapDone x0) :=
  ⟨(by decide : 208 < 223), .snapDone x0, rfl, rfl⟩
theorem Named.traceCtrlWrite (x0 : Word) : Named.Statement (.traceCtrlWrite x0) :=
  ⟨(by decide : 209 < 223), .traceCtrlWrite x0, rfl, rfl⟩
theorem Named.traceMark (x0 : Requester) (x1 : Word) : Named.Statement (.traceMark x0 x1) :=
  ⟨(by decide : 210 < 223), .traceMark x0 x1, rfl, rfl⟩
theorem Named.ttraceMark (x0 : Requester) (x1 : Fin 8) (x2 : Word) : Named.Statement (.ttraceMark x0 x1 x2) :=
  ⟨(by decide : 211 < 223), .ttraceMark x0 x1 x2, rfl, rfl⟩
theorem Named.traceFifoWrite (x0 : Fin 9) : Named.Statement (.traceFifoWrite x0) :=
  ⟨(by decide : 212 < 223), .traceFifoWrite x0, rfl, rfl⟩
theorem Named.traceFullTimeTick : Named.Statement (.traceFullTimeTick) :=
  ⟨(by decide : 213 < 223), .traceFullTimeTick, rfl, rfl⟩
theorem Named.traceSampleTick : Named.Statement (.traceSampleTick) :=
  ⟨(by decide : 214 < 223), .traceSampleTick, rfl, rfl⟩
theorem Named.ttraceStatRead (x0 : Fin 8) : Named.Statement (.ttraceStatRead x0) :=
  ⟨(by decide : 215 < 223), .ttraceStatRead x0, rfl, rfl⟩
theorem Named.refInputValid (x0 : RefInput) : Named.Statement (.refInputValid x0) :=
  ⟨(by decide : 216 < 223), .refInputValid x0, rfl, rfl⟩
theorem Named.bridgeTrainingLost (x0 : Fin 8) (x1 : Fin 4) : Named.Statement (.bridgeTrainingLost x0 x1) :=
  ⟨(by decide : 217 < 223), .bridgeTrainingLost x0 x1, rfl, rfl⟩
theorem Named.bridgeRetrained (x0 : Fin 8) (x1 : Fin 4) (x2 : Fin 16) (x3 : Fin 4096) : Named.Statement (.bridgeRetrained x0 x1 x2 x3) :=
  ⟨(by decide : 218 < 223), .bridgeRetrained x0 x1 x2 x3, rfl, rfl⟩
theorem Named.hostLinkStateChange (x0 : Fin 3) (x1 : Fin 32) (x2 : Fin 16) : Named.Statement (.hostLinkStateChange x0 x1 x2) :=
  ⟨(by decide : 219 < 223), .hostLinkStateChange x0 x1 x2, rfl, rfl⟩
theorem Named.chainOutLinkUp : Named.Statement (.chainOutLinkUp) :=
  ⟨(by decide : 220 < 223), .chainOutLinkUp, rfl, rfl⟩
theorem Named.inputVoltageRestored : Named.Statement (.inputVoltageRestored) :=
  ⟨(by decide : 221 < 223), .inputVoltageRestored, rfl, rfl⟩
theorem Named.inletRange (x0 : Nat) : Named.Statement (.inletRange x0) :=
  ⟨(by decide : 222 < 223), .inletRange x0, rfl, rfl⟩

end Sys2Proof.Laws
end

