-- ==== Sys2Proof/Tests/Slice0.lean ====
section
/-! SUPPORT. Tests of the model: ill-formed terms that each check refuses, single commands whose results the spec's words give, and for every
statement with hypotheses a state and operands that meet them. -/

namespace Sys2Proof.Tests

set_option Elab.async false

open Sys2Proof.Machine Sys2Proof.Safety

/-! ## States that the tests start from -/

/-- A state with registers written. -/
def wrs (l : List (PageRef × Nat × Word)) (s : State) : State := l.foldl (fun s e => wr s e.1 e.2.1 e.2.2) s

/-- A state with a slot's page set. -/
def sl (n : Nat) (x : Slot) (s : State) : State := setSlot s n x

/-- A task of a slot on a core, in a state. -/
def tk (n : Nat) (k : CoreRef) (st : TaskState) : Task :=
  { slot := n, desc := 0x1000, core := k, tag := 0, gen := 0, att := none, state := st, status := 0, ctrl := 0, entry := 0, arg0 := 0, arg1 := 0,
    stack := 0, place := 0, workWord := 0, waits := [], sigs := [], waitIx := 0, work := 10, piece := 0, pieces := 1, exit := 0, cause := 0,
    deferred := false, startTime := 0, endTime := 0 }

/-- A near-memory bushel of tile 0. -/
def bu : Bushel := { tier := 1, tile := 0, cluster := 0, committed := false }

/-- A state with bushels mapped. -/
def maps (l : List (Nat × Bushel)) (s : State) : State := { s with mem := { s.mem with bushels := l } }

/-- A state at READY with the servo LOCKED. -/
def ready : State := wrs [(pgBeacon, 0x110, 0x2002), (pgIdent, 0x138, 0x19)] State.reset

/-- Core 0 with a state of its own runs a task of slot 0. -/
def cr (c : Core) (s : State) : State :=
  { wrs [(.core ⟨0, 0, 0⟩, 0x100, 1)] s with cores := [(0, c)], tasks := [tk 0 ⟨0, 0, 0⟩ .running] }

/-- Descriptors of core 0: an FP32 tile, an E4M3 tile, a BF16 tile, an empty one, one of 65 rows, and one of a reserved format. -/
def tds : List (Nat × Word) :=
  [(1, 0x100200000040), (4, 3), (8, 0x1000), (9, 0x400200000040), (10, 0x0802), (12, 3), (17, 0x400200000080), (18, 0x1001), (20, 1),
   (33, 0x104100000040), (41, 0x100200000040), (42, 9)]

/-- A weight block of 16 rows of 64 ones. -/
def wb : WBlock := { rows := 16, cols := 64, fmt := 2, scaleKind := 0, trans := false, elems := List.replicate 16 (List.replicate 64 ⟨0x38, 0⟩) }

/-- Core 0 in user mode with those descriptors, and memory at bushel 0. -/
def tcore : Core := { machine := false, tds := tds, pc := 0x100, x := [(1, 0x2000), (2, 64)], v := [(2048, 0x38), (2049, 0x40)] }
/-- A state with words stored in memory. -/
def wm (a : Nat) (ws : List Word) (s : State) : State := setBytes s a (ws.flatMap (fun w => leBytes w.toNat 8))

/-- A packet on the network. -/
def pk : NetPacket :=
  { kind := .request, src := 1, dst := 3, vc := 0, high := false, age := 0, flits := 1, progress := 0, node := 1, port := 0, line := 5 }

/-- An image of an empty slot table at address 0x1000. -/
def tab : State := wm 0x1000 [0x080001, 7, 0x0000002001400140, 1, 0x4000000040, 0, 0, 0] (wrs [(pgNet 0, 0x100, 0x1000)] (maps [(0, bu)] ready))

/-- The RUNNING attempt of a step in slot 0. -/
def stp (s : State) : State :=
  { wrs [(pgStep, 0x178, 2)] (sl 0 { state := .running, step := true, taskCount := 1, config := 1, launchedOnce := true, att := 3 } s) with
    step := { State.reset.step with slot := some 0, att := 3 } }

/-- A row-engine command's words: operation, rows, elements, source, destination, and formats. -/
def rew (op nrows len : Nat) : List Word :=
  [word (op + nrows * 2 ^ 32 + len * 2 ^ 48), word 0x2000, word 0x3000, word 0x4000, word 0x5000, word (0x100 + 5 * 2 ^ 32), word 3, 0]

/-- A command at the front of the row engine of cluster 0. -/
def req (op nrows len : Nat) : State :=
  let s := wm 0x2000 [0x3f8000003f800000, 0x4000000040000000] (wm 0x3000 [0x3f8000003f800000] (wm 0x1000 (rew op nrows len)
    (maps [(0, { bu with tier := 0 })] ready)))
  setCluster s ⟨0, 0⟩ { cluster s ⟨0, 0⟩ with reQueue := [(0x1000, none, 0)] }

/-- A state at READY with a DMA channel's registers and progress: CFG, STATE and COUNT. -/
def ch (cfg st cnt : Nat) (c : DmaChan) (s : State) : State :=
  { wrs [(pgDma 0 0, 0x010, 1), (pgDma 0 0, 0x100, 0x2000), (pgDma 0 0, 0x108, 0x4000), (pgDma 0 0, 0x110, word cnt), (pgDma 0 0, 0x118, word cfg), (pgDma 0 0, 0x130, word st)]
      (wm 0x2000 [1, 2, 3, 4] (maps [(0, bu)] s)) with dmas := [(0, c)] }

/-- A layer table of two STREAM tensors, of layers 3 and 4. -/
def lt : State :=
  wm 0x1000 [word (0x400000 + 3 * 2 ^ 48), word (100 + 2 ^ 47), word (5 + 2 ^ 19), 0, word (0x800000 + 4 * 2 ^ 48), word (100 + 2 ^ 47), word (6 + 2 ^ 19), 0]
    (wrs [(pgStream 0, 0x810, 0x1000), (pgStream 0, 0x818, 2), (pgStream 0, 0x820, 2)]
      (maps [(0, bu), (2, bu), (4, { bu with tier := 2 })] (sl 0 { state := .launched } ready)))

/-- A state with Granger's tables. -/
def gr (g : Granger) (s : State) : State := { s with granger := g }

/-- Peer port 0 in a state of its table, on a torus of 4 × 4 × 4. -/
def ls (st : Nat) (p : Port) (s : State) : State := { wrs [(pgPeer 0, 0x110, word (st + 16 * 4)), (pgColl, 0x830, 0x333000)] s with ports := [(0, p)] }

/-- A COLL packet of group 3 for this module. -/
def pcoll : PeerPacket :=
  { kind := 4, vc := 1, prio := false, dst := 0, src := 5, hops := 1, age := 0, group := 3, gen := 2, epoch := 0, mode := 0, launch := 0, seq := 0, addr := 0x1000,
    ctr := 0, ctrEn := false, inc := 0, expert := 0, token := 0x400, k := 0, data := List.replicate 64 7 }

/-- Peer ports 0 and 2 ACTIVE, group 3 live, and epoch 1 next. -/
def lact (p : Port) (s : State) : State :=
  { wrs [(pgPeer 0, 0x110, 5), (pgPeer 2, 0x110, 5), (pgColl, 0x830, 0x333000), (pgColl, 0x140, 0x10001)] s with ports := [(0, p)], coll := { groups := [(3, { gen := 2, defn := 0 })] } }

/-- A definition of group 3, generation 2: four members on the X axis. -/
def gw : Word := word (3 + 2 * 2 ^ 12 + 1 * 2 ^ 28 + 4 * 2 ^ 32)

/-- A state with GROUP_DEF and the engine's own state, on a torus of 4 × 4 × 4. -/
def cg (w : Word) (c : Coll) (s : State) : State := { wrs [(pgColl, 0x110, w), (pgColl, 0x830, 0x333000)] s with coll := c }

/-- A collective command of group 3. -/
def cc (op : Nat) : CollCmd :=
  { desc := some 0x1000, words := [word (op + 3 * 2 ^ 12 + 2 * 2 ^ 24), word 0x2000, word 0x4000, 64, 0, 1, 0, 0], epoch := 0, held := false,
    executing := false, number := 0, launch := 0, att := none, who := 0 }

/-- Collective commands in the queue with group 3 live, and a descriptor at 0x1000. -/
def cq (q : List CollCmd) (g : Coll → Coll) : State :=
  cg gw (g { groups := [(3, { gen := 2, defn := gw })], queue := q, numbers := [(3, 5)] })
    (wm 0x2000 [1, 2, 3] (wm 0x1000 [word (1 + 3 * 2 ^ 12 + 2 * 2 ^ 24), 0x2000, 0x4000, 64, 0, 0, 0, 0] (maps [(0, bu)] ready)))

/-- The same without a descriptor. -/
def cqp (q : List CollCmd) (g : Coll → Coll) : State :=
  cg gw (g { groups := [(3, { gen := 2, defn := gw })], queue := q, numbers := [(3, 5)] }) (wm 0x2000 [1, 2, 3] (maps [(0, bu)] ready))

/-- An END packet of group 3 from the module at X 1. -/
def pend : PeerPacket :=
  { kind := 6, vc := 1, prio := false, dst := 0, src := 0x100, hops := 1, age := 0, group := 3, gen := 2, epoch := 0, mode := 0, launch := 0, seq := 0, addr := 0x1000,
    ctr := 0, ctrEn := false, inc := 0, expert := 0, token := 0x400, k := 0, data := [] }

/-- A state with a Keeper, and one in a stage of bring-up. -/
def ke (k : Keeper) (s : State) : State := { s with keeper := k }
def bst (n : Nat) (s : State) : State := wrs [(pgIdent, 0x138, word n)] s

/-- A RUNNING step, and a DRAINING one. -/
def sp (f : StepCtl → StepCtl) (s : State) : State := let s := stp s; { s with step := f s.step }
def spD (f : StepCtl → StepCtl) (s : State) : State := let s := sp f s; wrs [(pgStep, 0x178, 3)] (sl 0 { slot s 0 with state := .draining } s)

/-- A state of the stage. -/
def kp (st : Nat) (f : StepCtl → StepCtl) (s : State) : State := { wrs [(pgStep, 0x178, word (st * 2 ^ 13))] s with step := f { s.step with stageStep := 7 } }

/-- A frame for chain address 5, and a state with that address and an open relay. -/
def fr (kind : Byte) (p : List Byte) : ChainFrame := { dst := 5, src := 0, kind := kind, flags := 0, seq := 9, payload := p, crcOk := true }
def kc (f : Keeper → Keeper) (s : State) : State := { wrs [(pgIdent, 0x140, 5)] s with keeper := f { s.keeper with bypass := false } }
def kr : ChainOut := ⟨5, 0x80, 0, 9, 0, []⟩

/-- The header of firmware image 7 of SVN 3 for every part. -/
def img : List Host.Cell := [(0, 0x44), (1, 0x43), (2, 0x46), (3, 0x57), (4, 7), (12, 3), (14, 0x01)]

/-- A mailbox command in progress with its buffer at 0x4000, and a state with memory there. -/
def mb (n : Nat) (f : Keeper → Keeper) (s : State) : State := { wrs [(pgMbox, 0x108, 0x4000)] s with keeper := f { s.keeper with mboxCmd := some n } }
def mo : State := wrs [(pgMbox, 0x110, 7)] (maps [(0, bu)] ready)

/-- Tracing of every class, with a region of one bushel per stream. -/
def tt (l : List (PageRef × Nat × Word)) (s : State) : State :=
  wrs (l ++ [(pgTrace, 0x110, word (1 + 0x3ff * 2 ^ 16 + 5 * 2 ^ 32)), (pgTrace, 0x118, word (1 + 2 ^ 32))]) s

/-- A core in user mode at pc 0x100 with x1 and x2, an instruction for it in memory, and two L1 lines. -/
def sc (a b : Word) : Core := { machine := false, pc := 0x100, x := [(1, a), (2, b)], csrs := [(0x305, 0x8000)] }
def prog (w : Nat) (c : Core) : State := setBytes (cr c (maps [(0, bu)] ready)) 0x100 (leBytes w 4)
def hl (c : Core) : Core :=
  { c with l1 := [⟨0x80, (List.range 64).map (fun i => BitVec.ofNat 8 i), false, false, false⟩, ⟨0x81, (List.range 64).map (fun i => BitVec.ofNat 8 (i + 64)), false, false, false⟩] }

/-- What an exchange measures: an offset and a delay in sixteenths of a ns, and the master that it announces. -/
def bx (o d : Int) (m : Option (Nat × Nat)) : BeaconSample := ⟨0, d - o, d - o, 2 * d, m⟩

/-- The instruction that the next fetch of a core reads, its length, and the state after the fetch (compare `Safety.Fetches`). -/
def fetchOf (k : CoreRef) (s : State) : Option (Nat × Nat × State) :=
  if canIssue s k && (fetchStop k (addr48 (coreOf s k).pc.toNat) 2 s).isNone then
    let e := coreRead s k (addr48 (coreOf s k).pc.toNat) 2
    if leNat e.1 % 4 ≠ 3 then (expand16 (leNat e.1)).map (fun w => (w, 2, e.2))
    else if (fetchStop k (addr48 (addr48 (coreOf s k).pc.toNat + 2)) 2 e.2).isNone then
      let d := coreRead e.2 k (addr48 (addr48 (coreOf s k).pc.toNat + 2)) 2
      some (leNat e.1 + 65536 * leNat d.1, 4, d.2)
    else none
  else none

/-- A fetch that `fetchOf` finds is one in the statements' sense. -/
theorem fetches_of_fetchOf {k : CoreRef} {s u : State} {w len : Nat} (h : fetchOf k s = some (w, len, u)) : Fetches k w len s u := by
  unfold fetchOf at h
  split at h
  case isFalse => cases h
  case isTrue h1 =>
    rcases he : coreRead s k (addr48 (coreOf s k).pc.toNat) 2 with ⟨lo, r⟩
    rw [he] at h
    simp only [Bool.and_eq_true, Option.isNone_iff_eq_none] at h1
    refine ⟨h1.1, h1.2, lo, r, he, ?_⟩
    dsimp only at h
    split at h
    case isTrue h2 =>
      obtain ⟨w', hw, e⟩ := Option.map_eq_some_iff.mp h
      simp only [Prod.mk.injEq] at e
      obtain ⟨rfl, rfl, rfl⟩ := e
      exact .inl ⟨h2, hw, rfl, rfl⟩
    case isFalse h2 =>
      split at h
      case isFalse => cases h
      case isTrue h3 =>
        rcases hd : coreRead r k (addr48 (addr48 (coreOf s k).pc.toNat + 2)) 2 with ⟨hi, u'⟩
        rw [hd] at h
        simp only [Option.some.injEq, Prod.mk.injEq] at h
        obtain ⟨rfl, rfl, rfl⟩ := h
        exact .inr ⟨by omega, Option.isNone_iff_eq_none.mp h3, rfl, hi, rfl, rfl⟩

/-- With no poisoned line in memory or in a window copy, no bushel holds one. -/
theorem bushelPoison_none {s : State} (h : s.mem.poison = []) (hw : s.mem.windowPoison = []) (n : Nat) : bushelPoison s n = none := by
  unfold bushelPoison poisonIn
  rw [List.find?_eq_none]
  intro x _
  simp [poisonedAs, h, hw]

/-- SOFT_RESET and DISABLE of a block that has both, and of one that has neither, whatever the open fields of BLK_CAP (R589). -/
theorem test_blk_cap_bits : (blkCap .dma).testBit 1 = true ∧ (blkCap .dma).testBit 2 = true ∧ (blkCap .ident).testBit 1 = false ∧
    (blkCap .ident).testBit 2 = false := by
  have h : ∀ (x j : Bool) (d e f : Nat), (d = 0 ∨ d = 1) →
      (b2n x + 2 * d + 4 * d + 8 * b2n j + 256 * min 7 e).testBit 1 = decide (d = 1) ∧
      (b2n x + 2 * d + 4 * d + 8 * b2n j + 256 * min 7 e).testBit 2 = decide (d = 1) := by
    intro x j d e f hd
    simp only [Nat.testBit_eq_decide_div_mod_eq]
    obtain rfl | rfl := hd <;> cases x <;> cases j <;> constructor <;> simp [b2n] <;> omega
  exact ⟨(h _ _ 1 _ 0 (.inr rfl)).1, (h _ _ 1 _ 0 (.inr rfl)).2, (h _ _ 0 _ 0 (.inl rfl)).1, (h _ _ 0 _ 0 (.inl rfl)).2⟩

/-- Pages of those two blocks, and a host that may write them. -/
theorem test_page_capabilities : pageBlock (pgDma 0 0) = some .dma ∧ hasPage ready (pgDma 0 0) = true ∧ pageBlock pgIdent = some .ident ∧
    hasPage ready pgIdent = true ∧ badRequester ready .host = false := by
  decide +kernel

/-! ## Ill-formed commands are refused -/

/-- A window of a cluster that reports `n` rates. -/
def win (n : Nat) (cl : ClusterRef) : ClusterWindow :=
  { cl := cl, rates := List.replicate n 2500, memRate := 0, routerRate := 0, temp16 := 0, power := 0 }

/-- A discard notice of a code. -/
def note (code launch : Nat) : Notice := { launch := launch, relaunch := 5, code := code, classOf := 1, origin := 0, info := 0 }

/-- A window reports sixteen rates, once for each cluster, and at most 320 control rates (R14, R26). -/
theorem test_wf_rate_window : WellFormed.wellFormed (.rateWindowEnd [win 16 ⟨0, 0⟩, win 16 ⟨0, 1⟩] [500]) = true ∧
    WellFormed.wellFormed (.rateWindowEnd [win 15 ⟨0, 0⟩] []) = false ∧
    WellFormed.wellFormed (.rateWindowEnd [win 16 ⟨0, 0⟩, win 16 ⟨0, 0⟩] []) = false ∧
    WellFormed.wellFormed (.rateWindowEnd [] (List.replicate 321 500)) = false := by
  decide +kernel

/-- A line that comes back dirty has 64 bytes, and a CXL.mem access lies in one line and is not empty (R551). -/
theorem test_wf_lines : WellFormed.wellFormed (.bisnpResponse 0 0 (some (List.replicate 64 0))) = true ∧
    WellFormed.wellFormed (.bisnpResponse 0 0 (some (List.replicate 63 0))) = false ∧
    WellFormed.wellFormed (.cxlmemRead 0 0 false) = false ∧ WellFormed.wellFormed (.cxlmemWrite 60 [1, 2, 3, 4]) = true ∧
    WellFormed.wellFormed (.cxlmemWrite 61 [1, 2, 3, 4]) = false ∧ WellFormed.wellFormed (.cxlmemWrite 0 []) = false := by
  decide +kernel

/-- Seeds of sixteen lanes, packets of at most 32 words with a count of hops below 64, slotted packets of their kind (R453, R463). -/
theorem test_wf_packets : WellFormed.wellFormed (.eqSeedSave 0 (List.replicate 16 0)) = true ∧
    WellFormed.wellFormed (.eqSeedSave 0 (List.replicate 15 0)) = false ∧
    WellFormed.wellFormed (.peerPacketReceive 0 pcoll) = true ∧ WellFormed.wellFormed (.peerSlottedReceive 0 pcoll) = false ∧
    WellFormed.wellFormed (.peerPacketReceive 0 { pcoll with data := List.replicate 2049 0 }) = false ∧
    WellFormed.wellFormed (.peerPacketReceive 0 { pcoll with hops := 64 }) = false := by
  decide +kernel

/-- A notice's code and its times, an aligned access of a size of R550, a store inside its window, an image of whole bushels, and a frame
whose length fits LEN (R523, R549, R550, R623). -/
theorem test_wf_others : WellFormed.wellFormed (.discardNotice (note 26 5)) = true ∧ WellFormed.wellFormed (.discardNotice (note 27 5)) = false ∧
    WellFormed.wellFormed (.discardNotice (note 1 (2 ^ 64))) = false ∧ WellFormed.wellFormed (.partialRead 0 8 8) = true ∧
    WellFormed.wellFormed (.partialRead 0 4 8) = false ∧ WellFormed.wellFormed (.partialRead 0 0 3) = false ∧
    WellFormed.wellFormed (.registerWrite .host true (2 ^ 22) 8 [0]) = false ∧
    WellFormed.wellFormed (.registerWrite .host false (2 ^ 22) 8 [0]) = true ∧
    WellFormed.wellFormed (.registerWrite .host false 0 16 [0]) = false ∧
    WellFormed.wellFormed (.restoreDone [(0, 0, [0])] [] [] 0) = false ∧ WellFormed.wellFormed (.enum (fr 1 [0])) = true := by
  decide +kernel

/-- A payload of 2^16 bytes or more does not fit LEN (R623). -/
theorem test_wf_frame (f : ChainFrame) (h : 2 ^ 16 ≤ f.payload.length) : WellFormed.wellFormed (.enum f) = false := by
  show WellFormed.frameWf f = false
  unfold WellFormed.frameWf
  exact decide_eq_false (by omega)

/-! ## Single commands, with results that the spec's words give -/

/-- What holds in the next state that a command answers. -/
def after (i : Instr) (s : State) (p : State → Bool) : Bool :=
  match exec i s with
  | .next t => p t
  | _ => false

/-- No word spells a command: the table gives its rows no bits. -/
theorem test_no_word (nbits w : Nat) : decodeTableWord nbits w = none := rfl

/-- Core 0 of cluster 0 of tile 0. -/
def k0 : CoreRef := ⟨0, 0, 0⟩

/-- A core whose registers V1 and V2 hold 1.5 and −2.25 in lane 0, and V0 holds 4.0 there. -/
def vc : Core := { tcore with v := [(2, 0x80), (3, 0x40), (258, 0xC0), (259, 0x3F), (514, 0x10), (515, 0xC0)] }

/-- 1.5 − 2.25 is −0.75, and 1.5 + 2.25 is 3.75 (R127, R169). -/
theorem test_vadd : after (.vadd k0 0 1 2) (cr vc ready) (fun t => lane (coreOf t k0) 0 0 = 0xBF400000) = true := by decide +kernel
theorem test_vsub : after (.vsub k0 0 1 2) (cr vc ready) (fun t => lane (coreOf t k0) 0 0 = 0x40700000) = true := by decide +kernel
/-- 1.5 × −2.25 is −3.375, and with 4.0 added it is 0.625 (R127, R169). -/
theorem test_vmul : after (.vmul k0 0 1 2) (cr vc ready) (fun t => lane (coreOf t k0) 0 0 = 0xC0580000) = true := by decide +kernel
theorem test_vfma : after (.vfma k0 0 1 2) (cr vc ready) (fun t => lane (coreOf t k0) 0 0 = 0x3F200000) = true := by decide +kernel
/-- The greater is the positive one, the smaller the negative one (R127). -/
theorem test_vmax : after (.vmax k0 0 1 2) (cr vc ready) (fun t => lane (coreOf t k0) 0 0 = 0x3FC00000) = true := by decide +kernel
theorem test_vmin : after (.vmin k0 0 1 2) (cr vc ready) (fun t => lane (coreOf t k0) 0 0 = 0xC0100000) = true := by decide +kernel
/-- VSPLAT copies the low word of the scalar register into every lane, and VEXT moves a lane into a scalar register (R107). -/
theorem test_vsplat : after (.vsplat k0 0 1) (cr tcore ready) (fun t => lane (coreOf t k0) 0 63 = 0x2000) = true := by decide +kernel
theorem test_vext : after (.vext k0 2 3 0) (cr vc ready) (fun t => xRd (coreOf t k0) 3 = 0xC0100000) = true := by decide +kernel

/-- A multiply of one row of 1.0 and 2.0 in E4M3 by a block of ones gives 3.0 in FP32 (R144, R160, R163). -/
theorem test_tmmaz : after (.tmmaz k0 0 1 false) (wrs [(.core k0, 0x100, 9)] (cr { tcore with active := some wb } ready)) (fun t => lane (coreOf t k0) 0 0 = 0x40400000) = true := by
  decide +kernel
/-- A multiply that accumulates adds the 4.0 that the destination holds (R142). -/
theorem test_tmma : after (.tmma k0 0 1 false)
    (wrs [(.core k0, 0x100, 9)] (cr { tcore with active := some wb, v := (2, 0x80) :: (3, 0x40) :: tcore.v } ready)) (fun t => lane (coreOf t k0) 0 0 = 0x40E00000) = true := by
  decide +kernel
/-- TZERO clears its descriptor's registers and no other (R125). -/
theorem test_tzero : after (.tzero k0 1) (cr tcore ready) (fun t => mget 0 (coreOf t k0).v 2048 = 0 && decide ((coreOf t k0).pc = 0x104)) = true := by
  decide +kernel

/-- ADDI x3, x1, 5: 000000000101 00001 000 00011 0010011 (R88). -/
theorem test_addi : after (.scalarInstruction k0) (prog 0x00508193 (sc 7 0)) (fun t => xRd (coreOf t k0) 3 = 12 && decide ((coreOf t k0).pc = 0x104)) = true := by
  decide +kernel
/-- LUI x3, 0x80000 is sign-extended: 10000000000000000000 00011 0110111. -/
theorem test_lui : after (.scalarInstruction k0) (prog 0x800001B7 (sc 0 0)) (fun t => xRd (coreOf t k0) 3 = 0xFFFFFFFF80000000) = true := by
  decide +kernel
/-- SRA x3, x1, x2 keeps the sign: 0100000 00010 00001 101 00011 0110011. -/
theorem test_sra : after (.scalarInstruction k0) (prog 0x4020D1B3 (sc 0xFFFFFFFFFFFFFFF0 2)) (fun t => xRd (coreOf t k0) 3 = 0xFFFFFFFFFFFFFFFC) = true := by
  decide +kernel
/-- DIVU x3, x1, x2 by zero gives all ones, and REM of the most negative number by −1 gives 0: 0000001 00010 00001 101/110 00011 0110011. -/
theorem test_divu_zero : after (.scalarInstruction k0) (prog 0x0220D1B3 (sc 7 0)) (fun t => xRd (coreOf t k0) 3 = 0xFFFFFFFFFFFFFFFF) = true := by
  decide +kernel
theorem test_rem_overflow : after (.scalarInstruction k0) (prog 0x0220E1B3 (sc 0x8000000000000000 0xFFFFFFFFFFFFFFFF))
    (fun t => xRd (coreOf t k0) 3 = 0) = true := by
  decide +kernel
/-- JALR x3, 3(x1) clears bit 0 of its target and links the next pc: 000000000011 00001 000 00011 1100111. -/
theorem test_jalr : after (.scalarInstruction k0) (prog 0x003081E7 (sc 0x2000 0))
    (fun t => decide ((coreOf t k0).pc = 0x2002) && decide (xRd (coreOf t k0) 3 = 0x104)) = true := by
  decide +kernel
/-- BLT x1, x2, 16 compares signed numbers: 0 000000 00010 00001 100 1000 0 1100011. -/
theorem test_blt : after (.scalarInstruction k0) (prog 0x0020C863 (sc 0xFFFFFFFFFFFFFFFF 1)) (fun t => decide ((coreOf t k0).pc = 0x110)) = true := by
  decide +kernel
/-- C.ADDI x1, 1 is two bytes long: 000 0 00001 00001 01. -/
theorem test_c_addi : after (.scalarInstruction k0) (prog 0x0085 (sc 7 0)) (fun t => decide (xRd (coreOf t k0) 1 = 8) && decide ((coreOf t k0).pc = 0x102)) = true := by
  decide +kernel
/-- ECALL from a task enters the core monitor with cause 8, at the vector, with the instruction's own pc saved (R89). -/
theorem test_ecall : after (.scalarInstruction k0) (prog 0x73 (sc 0 0))
    (fun t => let c := coreOf t k0; decide (c.pc = 0x8000) && decide (csrGet c 0x342 = 8) && decide (csrGet c 0x341 = 0x100) && c.machine) = true := by
  decide +kernel
/-- SC.W x3, x2, (x1) without a reservation stores nothing and gives 1: 00011 00 00010 00001 010 00011 0101111. -/
theorem test_sc_alone : after (.scalarInstruction k0) (prog 0x1820A1AF (sc 0x3000 9))
    (fun t => decide (xRd (coreOf t k0) 3 = 1) && decide (readMem t 0x3000 4 = [0, 0, 0, 0])) = true := by
  decide +kernel

/-- A signal adds its amount to the counter; beyond 2^64 − 1 the counter stays there, with OVERFLOW (R265). -/
theorem test_signal : after (.signal (.core k0) 0 0x300000002) { ready with ctrs := [(2, { value := 5 })] } (fun t => decide ((ctr t 2).value = 8)) = true := by
  decide +kernel
theorem test_signal_saturates : after (.signal (.core k0) 0 0x200000002) { ready with ctrs := [(2, { value := 2 ^ 64 - 1 })] }
    (fun t => decide ((ctr t 2).value = 2 ^ 64 - 1) && (ctr t 2).overflow) = true := by
  decide +kernel

/-- An ARM exactly LEAD_MIN away is taken, and one ns earlier is late (R562). -/
theorem test_arm_boundary : after (.arm 3 20000) ready (fun t => decide ((slot t 3).state = .armed ∧ (slot t 3).gen = 1)) = true ∧
    after (.arm 3 19999) ready (fun t => decide ((slot t 3).state = .idle ∧ (slot t 3).armRes = 2)) = true := by
  decide +kernel

/-- A FILL runs at the front of the queue, and the finished command leaves the queue (R217, R220). -/
theorem test_re_fill : after (.reFill ⟨0, 0⟩) (req 0 1 16) (fun t => decide ((cluster t ⟨0, 0⟩).reQueue = [])) = true := by decide +kernel

/-- A DMA burst of channel 0 copies bytes to the destination (R383). -/
theorem test_dma_burst : after (.dmaBurst 0) (ch 0 1 64 {} ready) (fun t => decide (readMem t 0x4000 16 = [1, 0, 0, 0, 0, 0, 0, 0, 2, 0, 0, 0, 0, 0, 0, 0])) = true := by
  decide +kernel

/-- The host reads back what it wrote, and no byte beside it changes (R551). -/
theorem test_cxlmem_write : after (.cxlmemWrite 0x1004 [9, 8]) (maps [(0, bu)] ready) (fun t => decide (readMem t 0x1003 4 = [0, 9, 8, 0])) = true := by
  decide +kernel

/-- A signal on every lane takes a port from DETECT to TRAIN (R462). -/
theorem test_port_detect : after (.portSignalDetect 0) (ls 1 {} ready) (fun t => decide (fld t (pgPeer 0) 0x110 3 0 = 2)) = true := by decide +kernel

/-- A write of ERR_STAT clears the bits that it has at 1, and no other (R608). -/
theorem test_err_stat_clear : after (.errStatClear (pgDma 0 0) 0x2) (wrs [(pgDma 0 0, 0x028, 0x6)] ready) (fun t => decide (rd t (pgDma 0 0) 0x028 = 0x4)) = true := by
  decide +kernel

/-- A release keeps GEN and gives IDLE (R570). -/
theorem test_release : after (.release 2) (sl 2 { state := .done, gen := 9, code := 4 } ready)
    (fun t => decide ((slot t 2).state = .idle ∧ (slot t 2).gen = 9 ∧ (slot t 2).code = 0)) = true := by
  decide +kernel

/-- A tick of a LOCKED servo with nothing waiting counts one ns (R52). -/
theorem test_tick : (match step { ready with now := 7 } with | .next t => decide (t.now = 8) | _ => false) = true := by decide +kernel

/-- The front command takes effect and leaves the queue (the model's queue). -/
theorem test_queue : (match step { ready with pending := [.arm 3 20000, .abort 3] } with
    | .next t => decide (t.pending = [.abort 3] ∧ (slot t 3).state = .armed) | _ => false) = true := by
  decide +kernel

/-! ## Witnesses of the statements about steps -/

/-- A state with memory written that meets the invariant, and its step answers a next state. -/
theorem test_hypotheses_step_keeps_invariant : Inv { tab with pending := [.arm 3 20000] } ∧
    (match step { tab with pending := [.arm 3 20000] } with | .next _ => true | _ => false) = true :=
  ⟨⟨by decide +kernel, by decide +kernel⟩, by decide +kernel⟩

/-- A command that answers a next state, on a part of eight tiles, and a page that it may name. -/
theorem test_hypotheses_command_frames : after (.arm 3 20000) ready (fun _ => true) = true ∧ ready.part.tiles = 8 ∧ pageNamed (.arm 3 20000) = none ∧
    pageNamed (.snapDone (pgDctr 0)) = some (pgDctr 0) ∧ pageBlock (pgDctr 0) = some .dctr := by
  decide +kernel

/-! ## The hypotheses of the statements are met

Each theorem has one clause for each clause of its statement that has hypotheses: a state and operands that meet them together. -/

theorem test_hypotheses_beacon_reference_inputs :
    (let s : State := { wrs [(pgBeacon, 0x808, 7), (pgBeacon, 0x110, 0xC001)] State.reset with beacon := { await10M := true, refWait := some 0 } };
     decide (isMaster s = true ∧ sel10M s = true ∧ servo s = svAcquire ∧ s.beacon.awaitPps = false)) = true ∧
    (let s : State := { wrs [(pgBeacon, 0x808, 7), (pgBeacon, 0x110, 0xC001)] State.reset with beacon := { await10M := true, refWait := some 0 } };
     decide (isMaster s = true ∧ s.beacon.await10M = true ∧ s.beacon.valid10M = false ∧ s.beacon.refWait = some 0)) = true ∧
    (let s : State := { wrs [(pgBeacon, 0x808, 7), (pgBeacon, 0x110, 0xC001)] State.reset with beacon := { awaitPps := true, refWait := some 0 } };
     decide (isMaster s = true ∧ s.beacon.awaitPps = true ∧ s.beacon.validPps = false ∧ s.beacon.refWait = some 0)) = true ∧
    (let s : State := State.reset;
     decide (isMaster s = false)) = true := by
  decide +kernel

theorem test_hypotheses_beacon_loads :
    (let r : Requester := Requester.host;
     let s : State := wrs [(pgBeacon, 0x808, 1)] State.reset;
     decide (badRequester s r = false ∧ issues s r = true ∧ isMaster s = true ∧ firstLock s = false ∧ selPps s = false)) = true ∧
    (let r : Requester := Requester.host;
     let s : State := wrs [(pgBeacon, 0x808, 5)] State.reset;
     decide (badRequester s r = false ∧ issues s r = true ∧ isMaster s = true ∧ firstLock s = false ∧ selPps s = true)) = true ∧
    (let r : Requester := Requester.host;
     let s : State := State.reset;
     decide (badRequester s r = false ∧ issues s r = true ∧ (isMaster s = false ∨ firstLock s = true))) = true ∧
    (let s : State := { wrs [(pgBeacon, 0x808, 5), (pgBeacon, 0x110, 0x8001)] State.reset with beacon := { awaitPps := true, epochPending := some 5000 } };
     decide (isMaster s = true ∧ selPps s = true ∧ (rd s pgBeacon 0x110).bit 15 = true)) = true := by
  decide +kernel

theorem test_hypotheses_beacon_servo_exchange :
    (let n : Fin 6 := 1;
     let x : BeaconSample := bx 96 800 (some (0, 0));
     let s : State := wrs [(pgPeer 1, 0x110, 5)] State.reset;
     decide (isMaster s = false ∧ stepRequired s = false ∧ linkState s n = 5 ∧ s.beacon.exchangeWait = [] ∧ parentPort s = none ∧
       x.master.isSome = true ∧ chooseParent (noteLead n x (exchangeSent n s)) = some n)) = true ∧
    (let n : Fin 6 := 1;
     let x : BeaconSample := bx 0 0 none;
     let s : State := wrs [(pgPeer 1, 0x110, 5), (pgBeacon, 0x808, 1)] State.reset;
     decide (isMaster s = true ∧ linkState s n = 5 ∧ s.beacon.exchangeWait = [] ∧ x.master = none)) = true := by
  decide +kernel

theorem test_hypotheses_beacon_servo_events :
    (let s : State := { wrs [(pgPeer 1, 0x110, 5), (pgBeacon, 0x110, 0x2012)] State.reset with ports := [(1, { lead := some (1, 0) })], now := 77 };
     (parentPort s).any (fun p =>
     decide (servo s ≠ svUnlocked ∧ chooseParent (setPort s p.val { port s p.val with lead := none }) = none))) = true ∧
    (let s : State := { wrs [(pgPeer 1, 0x110, 5), (pgPeer 2, 0x110, 5), (pgBeacon, 0x110, 0x2012)] State.reset with ports := [(1, { lead := some (1, 0) }), (2, { lead := some (2, 0) })] };
     (parentPort s).any (fun p =>
     decide (servo s ≠ svUnlocked) && (
     decide ((chooseParent (setPort s p.val { port s p.val with lead := none })).isSome = true)))) = true ∧
    (let s : State := { wrs [(pgBeacon, 0x110, 0x2073), (pgBeacon, 0x138, 50)] State.reset with now := 100 };
     decide (servo s = svHoldover ∧ (rd s pgBeacon 0x138).toNat < s.now - s.beacon.holdoverSince ∧ stepRunning s = false)) = true ∧
    (let s : State := { stp (wrs [(pgBeacon, 0x110, 0x2073), (pgBeacon, 0x138, 50)] State.reset) with now := 100 };
     decide (servo s = svHoldover ∧ (rd s pgBeacon 0x138).toNat < s.now - s.beacon.holdoverSince ∧ stepRunning s = true)) = true ∧
    (let s : State := { wrs [(pgBeacon, 0x110, 0x70)] State.reset with beacon := { noMasterWait := some 0 } };
     decide (isMaster s = false ∧ firstLock s = false ∧ parentPort s = none ∧ s.beacon.noMasterWait = some 0)) = true ∧
    (let s : State := { wrs [(pgBeacon, 0x110, 0x40002014)] State.reset with now := 1000 };
     decide (stepRequired s = true ∧ slotsQuiet s = true)) = true := by
  decide +kernel

theorem test_hypotheses_slot_arm :
    (let n : Fin 64 := 0;
     let v : Word := 20000;
     let s : State := ready;
     decide ((slot s n.val).state = .idle ∧ isReady s = true ∧ servo s = svLocked ∧ s.now + launchLead s ≤ v.toNat)) = true ∧
    (let n : Fin 64 := 0;
     let v : Word := 0;
     let s : State := ready;
     decide (((slot s n.val).state ≠ .idle ∨ isReady s = false ∨ servo s ≠ svLocked ∨ v.toNat < s.now + launchLead s))) = true := by
  decide +kernel

theorem test_hypotheses_slot_ends :
    (let n : Fin 64 := 0;
     let s : State := sl 0 { state := .armed } ready;
     decide (((slot s n.val).state = .armed ∨ (slot s n.val).state = .launched))) = true ∧
    (let n : Fin 64 := 0;
     let s : State := sl 0 { state := .running } ready;
     decide ((slot s n.val).state = .running ∧ s.step.slot ≠ some n.val)) = true ∧
    (let n : Fin 64 := 0;
     let s : State := stp ready;
     decide ((slot s n.val).state = .running ∧ s.step.slot = some n.val)) = true ∧
    (let n : Fin 64 := 0;
     let s : State := sl 0 { state := .done, step := true, gen := 7, armRes := 1, att := 3 } ready;
     decide (((slot s n.val).state = .done ∨ (slot s n.val).state = .faulted ∨ (slot s n.val).state = .aborted))) = true ∧
    (let n : Fin 64 := 0;
     let s : State := ready;
     decide (((slot s n.val).state ≠ .done ∧ (slot s n.val).state ≠ .faulted ∧ (slot s n.val).state ≠ .aborted))) = true ∧
    (let n : Fin 64 := 0;
     let s : State := ready;
     decide (((slot s n.val).state ≠ .armed ∧ (slot s n.val).state ≠ .launched ∧ (slot s n.val).state ≠ .running))) = true ∧
    (let n : Fin 64 := 0;
     let s : State := { sl 0 { state := .draining } ready with now := 9 };
     decide ((slot s n.val).state = .draining ∧ runsStep (slot s n.val) = false)) = true := by
  decide +kernel

theorem test_hypotheses_slot_placement :
    (let n : Fin 64 := 0;
     let q : Nat := 0;
     let l : List (Nat × Nat) := [];
     let s : State := { sl 0 { state := .armed } ready with granger := { queue := [(0, 0)] }, now := 5 };
     decide (s.granger.queue = (n.val, q) :: l ∧ (slot s n.val).state = .armed ∧
       (isReplay (slot s n.val) || !rePlaceFirst s (placeStart s q)) = true) && (
     (match decidePlacement s (placeStart s q) n.val (slot s n.val) with | .placed _ _ _ => true | _ => false))) = true ∧
    (let n : Fin 64 := 0;
     let q : Nat := 0;
     let l : List (Nat × Nat) := [];
     let s : State := { sl 0 { state := .armed, taskCount := 1 } ready with granger := { queue := [(0, 0)] } };
     decide (s.granger.queue = (n.val, q) :: l ∧ (slot s n.val).state = .armed ∧
       (isReplay (slot s n.val) || !rePlaceFirst s (placeStart s q)) = true) && (
     (match decidePlacement s (placeStart s q) n.val (slot s n.val) with | .refused _ => true | _ => false))) = true ∧
    (let n : Fin 64 := 1;
     let s : State := { sl 1 { state := .launched } (wrs [(.core ⟨0, 0, 0⟩, 0x100, 3)] ready) with part := .d2, tasks := [{ tk 1 ⟨0, 0, 0⟩ .placed with place := 0x403 }], now := 6 };
     decide ((slot s n.val).state = .launched ∧ stranded s n.val ≠ [] ∧ frontRuns s = none) && (
     (match allOk (rePlaceTask (rePlaceStart s n.val)) (stranded s n.val) (s, []) with | .ok (_, _) => true | _ => false))) = true ∧
    (let n : Fin 64 := 1;
     let s : State := { sl 1 { state := .launched } (wrs [(.core ⟨0, 0, 0⟩, 0x100, 3)] ready) with tasks := [{ tk 1 ⟨0, 0, 0⟩ .placed with place := 3 }] };
     decide ((slot s n.val).state = .launched ∧ stranded s n.val ≠ [] ∧ frontRuns s = none) && (
     (match allOk (rePlaceTask (rePlaceStart s n.val)) (stranded s n.val) (s, []) with | .error e => decide (e.code ≠ rfSpecLimit) | _ => false))) = true := by
  decide +kernel

theorem test_hypotheses_slot_launch :
    (let n : Fin 64 := 0;
     let s : State := { sl 0 { state := .launched } ready with now := 8 };
     decide (lostDue s n.val = none ∧ (slot s n.val).effLaunch.toNat ≤ s.now ∧ (slot s n.val).state = .launched ∧ stranded s n.val = [] ∧
       (slot s n.val).taskCount = 0 ∧ unlocked s = false ∧ tableMismatch s = false ∧ (s.net.rewriteDue = false ∨ (slot s n.val).replays = 0))) = true ∧
    (let n : Fin 64 := 0;
     let s : State := { sl 0 { state := .launched } State.reset with now := 8 };
     decide (lostDue s n.val = none ∧ (slot s n.val).effLaunch.toNat ≤ s.now ∧ (slot s n.val).state = .launched ∧ stranded s n.val = [] ∧
       runsStep (slot s n.val) = false ∧ unlocked s = true ∧ (s.net.rewriteDue = false ∨ (slot s n.val).replays = 0))) = true ∧
    (let n : Fin 64 := 1;
     let s : State := sl 1 { state := .armed } ready;
     decide (lostDue s n.val = none ∧ (slot s n.val).effLaunch.toNat ≤ s.now ∧ (slot s n.val).state = .armed)) = true ∧
    (let n : Fin 64 := 0;
     let s : State := { sl 0 { state := .launched, taskCount := 1 } ready with tasks := [tk 0 ⟨0, 0, 0⟩ .placed] };
     decide (lostDue s n.val = none ∧ (slot s n.val).effLaunch.toNat ≤ s.now ∧ (slot s n.val).state = .launched ∧ stranded s n.val = [] ∧
       (slot s n.val).taskCount ≠ 0 ∧ unlocked s = false ∧ tableMismatch s = false ∧ s.net.rewriteDue = false ∧ runsStep (slot s n.val) = false)) = true ∧
    (let n : Fin 64 := 0;
     let s : State := sl 0 { state := .launched, step := true, config := 1, taskCount := 1, replays := 1 } ready;
     decide (replaySlot s = some n.val ∧ lostDue s n.val = none ∧ (slot s n.val).effLaunch.toNat ≤ s.now ∧ (slot s n.val).state = .launched ∧
       stranded s n.val = [] ∧ (slot s n.val).taskCount ≠ 0 ∧ unlocked s = false ∧ tableMismatch s = false ∧ s.net.rewriteDue = false ∧
       runsStep (slot s n.val) = true ∧ stepInWay s n.val = false ∧ shadowShort s n.val = false ∧ redoOn s = false ∧
       launchAfter s (slot s n.val).effLaunch.toNat ≤ (slot s n.val).effLaunch.toNat)) = true := by
  decide +kernel

theorem test_hypotheses_host_reads :
    (let n : Fin 64 := 0;
     let o : BitVec 16 := 0x2000;
     let k : Nat := 8;
     let s : State := maps [(0, bu)] (sl 0 { partialSrc := 0x2000000000000 } ready);
     decide (bar2Access o.toNat k = true ∧ 0x2000 ≤ o.toNat ∧ o.toNat - 0x2000 < partialSize (slot s n.val) ∧
       o.toNat - 0x2000 + k ≤ partialSize (slot s n.val) ∧ rangeOpen s (partialBase (slot s n.val)) (partialSize (slot s n.val)) = true ∧
       poisonIn s false (partialBase (slot s n.val) + (o.toNat - 0x2000)) k = none)) = true ∧
    (let n : Fin 64 := 0;
     let o : BitVec 16 := 0x2000;
     let k : Nat := 8;
     let s : State := wrs [(pgHostif, 0x820, 1)] (sl 1 { state := .running } ready);
     decide (bar2Access o.toNat k = true ∧ 0x2000 ≤ o.toNat ∧ partialSize (slot s n.val) ≤ o.toNat - 0x2000)) = true ∧
    (let o : BitVec 16 := 0x2000;
     let k : Nat := 9;
     decide (bar2Access o.toNat k = false)) = true ∧
    (let n : Fin 64 := 0;
     let s : State := wrs [(pgHostif, 0x820, 1)] (sl 1 { state := .running } ready);
     decide ((rdA s pgHostif 0x120).bit 0 = true ∧ (slot s n.val).mirror.head? ≠ some (statusWord (slot s n.val)))) = true ∧
    (let a : BitVec 48 := 0;
     let who : Sender := Sender.core ⟨0, 0, 0⟩ true;
     let s : State := maps [(0, { bu with tier := 3 })] ready;
     decide (hasTile s (senderTile who) = true) && (
     (bushelAt s a.toNat).any (fun b =>
     decide (b.tier = 3)))) = true := by
  decide +kernel

theorem test_hypotheses_sync_counters :
    (let r : Requester := .core ⟨0, 0, 0⟩;
     let tile : Fin 8 := 0;
     let w : Word := 0x100000002;
     let s : State := (let s := cr tcore ready; { s with tasks := [{ tk 0 ⟨0, 0, 0⟩ .running with att := some 2 }] });
     decide (badRequester s r = false ∧ issues s r = true ∧ hasTile s tile.val = true ∧ hasTile s (w.bits 18 0 / 2 ^ 16) = true ∧
       s.control = [] ∧ (reqAtt s r).isSome = true ∧ reqAtt s r ≠ some s.step.att)) = true ∧
    (let i : Nat := 0;
     let att : Option Nat := none;
     let s : State := (let s := cr tcore ready; { s with tasks := [{ tk 0 ⟨0, 0, 0⟩ .running with att := some 2 }] });
     decide (hasTile s (i / 2 ^ 16) = true ∧ (att = none ∨ att = some s.step.att))) = true ∧
    (let r : Requester := .host;
     let tile : Fin 8 := 0;
     let w : Word := 0x100000002;
     let s : State := (let s := cr tcore ready; { s with tasks := [{ tk 0 ⟨0, 0, 0⟩ .running with att := some 2 }] });
     decide (badRequester s r = false ∧ issues s r = true ∧ hasTile s tile.val = true ∧ hasTile s (w.bits 18 0 / 2 ^ 16) = true ∧
       (reqAtt s r = none ∨ reqAtt s r = some s.step.att) ∧ (ctr s (w.bits 18 0)).cfg.bit 1 = false ∧
       (ctr s (w.bits 18 0)).hw.all (fun o => o.isNone) = true ∧ (ctr s (w.bits 18 0)).chain = [] ∧ s.control = [])) = true ∧
    (let tile : Fin 8 := 0;
     let s : State := (let s := cr tcore ready; { s with tasks := [{ tk 0 ⟨0, 0, 0⟩ .running with att := some 2 }] });
     decide (hasTile s tile.val = true ∧ slotsQuiet s = true ∧ (ctr s (selected s tile)).hw.all (fun o => o.isNone) = true ∧
       (ctr s (selected s tile)).chain = [] ∧ s.control = [])) = true ∧
    (let tile : Fin 8 := 0;
     let w : Word := 0x0;
     let s : State := (let s := cr tcore ready; { s with tasks := [{ tk 0 ⟨0, 0, 0⟩ .running with att := some 2 }] });
     decide (hasTile s tile.val = true ∧ slotsQuiet s = true ∧ badBarrier s (selected s tile) w = false)) = true ∧
    (let tile : Fin 8 := 0;
     let s : State := sl 0 { state := .running } ready;
     decide (hasTile s tile.val = true ∧ slotsQuiet s = false)) = true := by
  decide +kernel

theorem test_hypotheses_core_waits :
    (let k : CoreRef := ⟨0, 0, 0⟩;
     let tile : Fin 8 := 0;
     let w : Word := 0x100002;
     let s : State := { ready with ctrs := [(2, { value := 2, base := 4 })], cores := [(0, { waitVal := 2 })] };
     decide (hasTile s tile.val = true ∧ hasTile s k.tile.val = true ∧ issues s (.core k) = true ∧ w.bits 31 21 = 0 ∧ w.bits 63 48 = 0 ∧
       w.bit 19 = false ∧ hasTile s (w.bits 18 0 / 2 ^ 16) = true ∧ (coreOf s k).waitVal.toNat ≤ (ctr s (w.bits 18 0)).value)) = true ∧
    (let k : CoreRef := ⟨0, 0, 0⟩;
     let s : State := { ready with ctrs := [(2, { value := 2, base := 4 })], cores := [(0, { waitVal := 2 })] };
     decide (hasTile s k.tile.val = true ∧ issues s (.core k) = true ∧ (coreOf s k).wait = none)) = true ∧
    (let k : CoreRef := ⟨0, 0, 0⟩;
     let s : State := { ready with cores := [(0, { wait := some { ctr := 2, acquire := true, result := some 1 } })] };
     decide (hasTile s k.tile.val = true ∧ issues s (.core k) = true) && (
     (match (coreOf s k).wait with | some ⟨_, _, some _, _, _⟩ => true | _ => false))) = true ∧
    (let k : CoreRef := ⟨0, 0, 0⟩;
     let s : State := { ready with ctrs := [(2, { hw := [some { e := 9, agent := taskWho (tk 0 ⟨0, 0, 0⟩ .running), task := none, acquire := true, timeout := 5 }, none, none, none, none, none, none, none] })], cores := [(0, { wait := some { ctr := 2, acquire := true, result := none } })], tasks := [tk 0 ⟨0, 0, 0⟩ .running], now := 5 };
     decide (hasTile s k.tile.val = true ∧ issues s (.core k) = true) && (
     let i : Nat := 2;
     let a : Bool := true;
     let e := 0;
     let b := 0;
     decide ((coreOf s k).wait = some ⟨i, a, none, e, b⟩ ∧
       ((ctr s i).hw.filterMap id ++ (ctr s i).chain).any (fun w => ownWaiter k w && decide (w.timeout ≠ 0) && decide (w.timeout ≤ s.now)) = true))) = true := by
  decide +kernel

theorem test_hypotheses_fences :
    (let k : CoreRef := ⟨0, 0, 0⟩;
     let s : State := ready;
     decide (hasTile s k.tile.val = true ∧ issues s (.core k) = true ∧ (coreOf s k).fenceDone = none ∧ (coreOf s k).fence = none)) = true ∧
    (let k : CoreRef := ⟨0, 0, 0⟩;
     let s : State := { ready with cores := [(0, { fenceDone := some .tile })] };
     decide (hasTile s k.tile.val = true ∧ issues s (.core k) = true ∧ (coreOf s k).fence = none ∧ (coreOf s k).fenceDone = some .tile)) = true ∧
    (let k : CoreRef := ⟨0, 0, 0⟩;
     let s : State := { ready with cores := [(0, { fence := some .cluster })] };
     decide (hasTile s k.tile.val = true) && (
     ((coreOf s k).fence).any (fun f =>
     decide ((f ≠ .fabric ∨ putsOpen s k = false))))) = true := by
  decide +kernel

theorem test_hypotheses_tasks :
    (let k : CoreRef := ⟨0, 0, 0⟩;
     let s : State := (let s := ready; { s with tasks := [{ tk 0 ⟨0, 0, 0⟩ .ready with gen := 2 }, { tk 1 ⟨0, 0, 0⟩ .ready with gen := 3 }] });
     decide (hasTile s k.tile.val = true ∧ coreState s k = 0 ∧ readyOn s k ≠ [])) = true ∧
    (let k : CoreRef := ⟨0, 0, 0⟩;
     let s : State := (let s := cr tcore ready; { s with tasks := [{ tk 0 ⟨0, 0, 0⟩ .running with att := some 0, gen := 2 }, { tk 1 ⟨0, 0, 1⟩ .ready with gen := 3 }], ctrs := [(2, { value := 2, base := 4 })] });
     decide (hasTile s k.tile.val = true ∧ issues s (.core k) = true) && (
     (runningTask s k).any (fun u =>
     decide (taskAt s (taskKey u) = some u ∧ u.sigs = [] ∧ piecesOf s u = [u] ∧ s.control = [])))) = true ∧
    (let k : CoreRef := ⟨0, 0, 0⟩;
     let s : State := (let s := cr tcore ready; { s with tasks := [{ tk 0 ⟨0, 0, 0⟩ .running with att := some 0, gen := 2 }, { tk 1 ⟨0, 0, 1⟩ .ready with gen := 3 }], ctrs := [(2, { value := 2, base := 4 })] });
     decide (hasTile s k.tile.val = true ∧ issues s (.core k) = true) && (
     (runningTask s k).any (fun u =>
     decide (taskAt s (taskKey u) = some u ∧ (endScope u ≠ .fabric ∨ putsOpen s k = false))))) = true ∧
    (let k : CoreRef := ⟨0, 0, 0⟩;
     let s : State := (let s := cr tcore ready; { s with tasks := [{ tk 0 ⟨0, 0, 0⟩ .running with sigs := [word (3 * 2 ^ 20)] }], coll := { s.coll with puts := [(0, 1)] } });
     decide (hasTile s k.tile.val = true ∧ issues s (.core k) = true) && (
     (runningTask s k).any (fun u =>
     decide (taskAt s (taskKey u) = some u ∧ endScope u = .fabric ∧ putsOpen s k = true)))) = true ∧
    (let s : State := { wrs [(.core ⟨0, 0, 0⟩, 0x100, 1)] ready with tasks := [tk 0 ⟨0, 0, 0⟩ .running] };
     let u := tk 0 ⟨0, 0, 0⟩ .running;
     decide (taskAt s (taskKey u) = some u ∧ u.state = .running ∧ piecesOf s u = [u])) = true ∧
    (let cl : ClusterRef := ⟨0, 0⟩;
     let g : BitVec 16 := 2;
     let s : State := { ready with clusters := [(0, { tags := [(2, { next := 5, quarantine := some 3 })] })], now := 3 };
     decide (hasTile s cl.tile.val = true) && (
     ((mget {} (cluster s cl).tags g.toNat).quarantine).any (fun q =>
     decide (q ≤ s.now)))) = true := by
  decide +kernel

theorem test_hypotheses_rate_windows :
    (let w : ClusterWindow := ⟨⟨0, 0⟩, List.replicate 16 1100, 1100, 1100, 1679, 500⟩;
     let rates : List Nat := [];
     let s : State := ready;
     decide (hasTile s w.cl.tile.val = true ∧ s.now % 1024 = 0 ∧ (cluster s w.cl).window ≠ some s.now ∧
       (rates = [] ∨ s.net.controlWindow ≠ some s.now) ∧ selfTesting s w.cl = false ∧ (∀ n : Fin 16, 1100 ≤ w.rates.getD n.val 0 ∧
       w.rates.getD n.val 0 < 2 ^ 16) ∧ 1100 ≤ w.memRate ∧ w.memRate < 2 ^ 16 ∧ 1100 ≤ w.routerRate ∧ w.temp16 < 1680 ∧ (∀ r ∈ rates, 1100 ≤ r))) = true ∧
    (let k : CoreRef := ⟨0, 0, 0⟩;
     let s : State := ready;
     decide (hasTile s k.tile.val = true)) = true ∧
    (let cl : ClusterRef := ⟨0, 0⟩;
     let s : State := ready;
     decide (hasTile s cl.tile.val = true)) = true := by
  decide +kernel

theorem test_hypotheses_core_release :
    (let r : Requester := .host;
     let cl : ClusterRef := ⟨0, 0⟩;
     let v : Word := 0;
     let s : State := ready;
     decide (badRequester s r = false ∧ issues s r = true ∧ hasTile s cl.tile.val = true ∧ slotsQuiet s = true ∧ v.toNat < 2 ^ 16)) = true ∧
    (let r : Requester := .host;
     let cl : ClusterRef := ⟨0, 0⟩;
     let v : Word := 0;
     let s : State := sl 0 { state := .running } ready;
     decide (badRequester s r = false ∧ issues s r = true ∧ hasTile s cl.tile.val = true ∧ slotsQuiet s = false ∧ unfenceSelfTest cl v s = false)) = true ∧
    (let k : CoreRef := ⟨0, 0, 0⟩;
     let s : State := { wrs [(.core ⟨0, 0, 0⟩, 0x100, 4), (.cluster ⟨0, 0⟩, 0x130, 3)] ready with cores := [(0, { needArrayTest := true, arrayTest := true })] };
     decide (hasTile s k.tile.val = true ∧ (coreOf s k).arrayTest = true ∧ coreState s k = 4)) = true ∧
    (let k : CoreRef := ⟨0, 0, 0⟩;
     let s : State := bst 5 (wrs [(.core ⟨0, 0, 0⟩, 0x100, 3), (.cluster ⟨0, 0⟩, 0x130, 1), (.cluster ⟨0, 0⟩, 0x140, word ((1 + 2 * causeSelfTest) * 2 ^ 32))] ready);
     decide (hasTile s k.tile.val = true ∧ (coreOf s k).arrayTest = false ∧ awaitsRetest s k = true)) = true ∧
    (let k : CoreRef := ⟨0, 0, 0⟩;
     let s : State := { wrs [(.core ⟨0, 0, 0⟩, 0x100, 4), (.cluster ⟨0, 0⟩, 0x130, 3)] ready with cores := [(0, { floorTest := true, selfWindows := some 64, selfLow := true })] };
     decide (hasTile s k.tile.val = true ∧ (coreOf s k).floorTest = true ∧ (coreOf s k).selfWindows = some 64 ∧ (coreOf s k).selfLow = true ∧
       coreState s k = 4)) = true ∧
    (let k : CoreRef := ⟨0, 0, 0⟩;
     let s : State := { wrs [(.core ⟨0, 0, 0⟩, 0x100, 4), (.cluster ⟨0, 0⟩, 0x130, 3), (.cluster ⟨0, 0⟩, 0x140, 0x300000000)] ready with cores := [(0, { floorTest := true, selfWindows := some 64 })] };
     decide (hasTile s k.tile.val = true ∧ (coreOf s k).floorTest = true ∧ (coreOf s k).selfWindows = some 64 ∧ (coreOf s k).selfLow = false)) = true ∧
    (let k : CoreRef := ⟨0, 0, 0⟩;
     let s : State := ready;
     decide (hasTile s k.tile.val = true ∧ ((coreOf s k).floorTest = false ∨ (coreOf s k).selfWindows ≠ some 64))) = true ∧
    (let k : CoreRef := ⟨0, 0, 0⟩;
     let s : State := ready;
     decide (hasTile s k.tile.val = true ∧ (coreOf s k).arrayTest = false ∧ inTilesStage s = false)) = true := by
  decide +kernel

theorem test_hypotheses_core_memory_slots :
    (let k : CoreRef := ⟨0, 0, 0⟩;
     let s : State := cr tcore ready;
     decide (hasTile s k.tile.val = true ∧ canIssue s k = true)) = true ∧
    (let k : CoreRef := ⟨0, 0, 0⟩;
     let n : Fin 8 := 1;
     let s : State := maps [(0, bu)] { ready with cores := [(0, { ahead := [(1, [5, 6])], l1 := [⟨5, [], false, false, false⟩] })] };
     decide (hasTile s k.tile.val = true) && (
     (mget [] (coreOf s k).ahead n.val).head?.any (fun line =>
     decide ((bushelAt s (64 * line)).isSome = true ∧ attrOf s (64 * line) = .memory ∧ (l1Find (coreOf s k) line).isSome = true)))) = true ∧
    (let k : CoreRef := ⟨0, 0, 0⟩;
     let n : Fin 8 := 1;
     let s : State := maps [(0, bu)] { ready with cores := [(0, { ahead := [(1, [5, 6])] })] };
     decide (hasTile s k.tile.val = true) && (
     (mget [] (coreOf s k).ahead n.val).head?.any (fun line =>
     decide ((bushelAt s (64 * line)).isSome = true ∧ attrOf s (64 * line) = .memory ∧ l1Find (coreOf s k) line = none ∧
       (coreOf s k).requests.length < 8 ∧ slotsInUse (coreOf s k) < 40)))) = true ∧
    (let cl : ClusterRef := ⟨0, 0⟩;
     let n : Fin 32 := 3;
     let s : State := cr tcore ready;
     decide (hasTile s cl.tile.val = true ∧ (mget {} (cluster s cl).banks n.val).waiting = [] ∧ bankCores s cl n.val = [])) = true ∧
    (let cl : ClusterRef := ⟨0, 0⟩;
     let n : Fin 32 := 3;
     let s : State := { ready with cores := [(0, { requests := [⟨5, 0, some 3, 0⟩] })] };
     decide (hasTile s cl.tile.val = true ∧ (mget {} (cluster s cl).banks n.val).waiting = []) && (
     let m := 0;
     let r := ⟨5, 0, some 3, 0⟩;
     decide (bankCores s cl n.val = [.core m r]))) = true ∧
    (let node : Fin 320 := 30;
     let s : State := cr tcore ready;
     decide (hasTile s (node.val / 40) = true ∧ s.net.atHome.filter (fun p => decide (p.dst = node.val)) = [])) = true ∧
    (let node : Fin 320 := 30;
     let s : State := { ready with net := { atHome := [{ kind := .request, src := 1, dst := 30, vc := 0, high := false, age := 0, flits := 1, progress := 0, node := 30, port := 0, line := 5 }] } };
     decide (hasTile s (node.val / 40) = true) && (
     let p := { kind := .request, src := 1, dst := 30, vc := 0, high := false, age := 0, flits := 1, progress := 0, node := 30, port := 0, line := 5 };
     decide (s.net.atHome.filter (fun p => decide (p.dst = node.val)) = [p]))) = true := by
  decide +kernel

theorem test_hypotheses_tile_descriptors :
    (let k : CoreRef := ⟨0, 0, 0⟩;
     let sub : Fin 8 := 0;
     let s : State := cr tcore ready;
     decide (hasTile s k.tile.val = true ∧ canIssue s k = true ∧ sub.val ≤ 4)) = true ∧
    (let k : CoreRef := ⟨0, 0, 0⟩;
     let n : Fin 8 := 0;
     let s : State := cr tcore ready;
     decide (hasTile s k.tile.val = true ∧ canIssue s k = true ∧ checkTzero n.val (tileOf (coreOf s k) n.val) = .pass)) = true ∧
    (let k : CoreRef := ⟨0, 0, 0⟩;
     let n : Fin 8 := 1;
     let s : State := cr tcore ready;
     decide (hasTile s k.tile.val = true ∧ canIssue s k = true ∧ checkTwl n.val (tileOf (coreOf s k) n.val) = .pass)) = true := by
  decide +kernel

theorem test_hypotheses_tile_checks :
    (let k : CoreRef := ⟨0, 0, 0⟩;
     let n : Fin 8 := 0;
     let m : Fin 8 := 3;
     let a : Fin 32 := 1;
     let b : Fin 32 := 1;
     let inc : Bool := false;
     let f : Bool := false;
     let rnd : Fin 8 := 0;
     let s : State := cr tcore ready;
     decide (hasTile s k.tile.val = true ∧ canIssue s k = true ∧ rnd.val ≤ 1 ∧
       (checkTmma n.val (tileOf (coreOf s k) n.val) m.val (tileOf (coreOf s k) m.val) (nextBlock s k)) = .empty)) = true ∧
    (let k : CoreRef := ⟨0, 0, 0⟩;
     let n : Fin 8 := 0;
     let m : Fin 8 := 0;
     let a : Fin 32 := 1;
     let b : Fin 32 := 1;
     let inc : Bool := false;
     let f : Bool := false;
     let rnd : Fin 8 := 0;
     let s : State := cr tcore ready;
     decide (hasTile s k.tile.val = true ∧ canIssue s k = true ∧ rnd.val ≤ 1) && (
     (match (checkTwl n.val (tileOf (coreOf s k) n.val)) with | .format _ => true | _ => false))) = true ∧
    (let k : CoreRef := ⟨0, 0, 0⟩;
     let n : Fin 8 := 0;
     let m : Fin 8 := 0;
     let a : Fin 32 := 1;
     let b : Fin 32 := 1;
     let inc : Bool := false;
     let f : Bool := false;
     let rnd : Fin 8 := 0;
     let s : State := cr tcore ready;
     decide (hasTile s k.tile.val = true ∧ canIssue s k = true ∧ rnd.val ≤ 1) && (
     (match (checkTcvt n.val (tileOf (coreOf s k) n.val) m.val (tileOf (coreOf s k) m.val) (decide (rnd.val = 1))) with | .shape _ _ => true | _ => false))) = true := by
  decide +kernel

theorem test_hypotheses_tile_memory :
    (let k : CoreRef := ⟨0, 0, 0⟩;
     let n : Fin 8 := 0;
     let s : State := maps [(0, bu)] (cr tcore ready);
     decide (hasTile s k.tile.val = true ∧ canIssue s k = true ∧ checkRowMem n.val (tileOf (coreOf s k) n.val) = .pass ∧
       (tileOf (coreOf s k) n.val).selected ≠ [] ∧
       accessWaits s k ((tileOf (coreOf s k) n.val).selected.flatMap (tileOf (coreOf s k) n.val).ranges) = false ∧
       (∀ r ∈ (tileOf (coreOf s k) n.val).selected, badPages s ((tileOf (coreOf s k) n.val).ranges r) = [] ∧
       poisonedLines s k ((tileOf (coreOf s k) n.val).ranges r) = []))) = true ∧
    (let k : CoreRef := ⟨0, 0, 0⟩;
     let n : Fin 8 := 0;
     let a : Fin 32 := 1;
     let b : Fin 32 := 1;
     let s : State := maps [(0, bu)] (cr tcore ready);
     decide (hasTile s k.tile.val = true ∧ canIssue s k = true ∧ checkTlds n.val (tileOf (coreOf s k) n.val) = .pass ∧
       accessWaits s k ((List.range (tileOf (coreOf s k) n.val).rows).map (fun r => (((xRd (coreOf s k) a.val).toNat + r * (xRd (coreOf s k) b.val).toNat) % 2 ^ 48, (tileOf (coreOf s k) n.val).rb))) = false ∧
       (∀ r, r < (tileOf (coreOf s k) n.val).rows → badPages s [(((xRd (coreOf s k) a.val).toNat + r * (xRd (coreOf s k) b.val).toNat) % 2 ^ 48, (tileOf (coreOf s k) n.val).rb)] = [] ∧
       poisonedLines s k [(((xRd (coreOf s k) a.val).toNat + r * (xRd (coreOf s k) b.val).toNat) % 2 ^ 48, (tileOf (coreOf s k) n.val).rb)] = []))) = true ∧
    (let k : CoreRef := ⟨0, 0, 0⟩;
     let n : Fin 8 := 0;
     let s : State := maps [(0, bu)] (cr { tcore with tds := [(1, 0x100200000040), (4, 0), (9, 0x400200000040), (10, 0x0802), (12, 5)] } ready);
     decide (hasTile s k.tile.val = true ∧ canIssue s k = true ∧ checkRowMem n.val (tileOf (coreOf s k) n.val) = .pass ∧
       (tileOf (coreOf s k) n.val).selected = [])) = true ∧
    (let k : CoreRef := ⟨0, 0, 0⟩;
     let n : Fin 8 := 0;
     let s : State := maps [(0, bu)] (cr tcore ready);
     decide (hasTile s k.tile.val = true ∧ canIssue s k = true ∧ checkRowMem n.val (tileOf (coreOf s k) n.val) = .pass ∧
       (tileOf (coreOf s k) n.val).selected ≠ [] ∧
       accessWaits s k ((storeBytes (coreOf s k) (tileOf (coreOf s k) n.val)).map (fun e => (e.1, e.2.length))) = false ∧
       (∀ e ∈ storeBytes (coreOf s k) (tileOf (coreOf s k) n.val), badPages s [(e.1, e.2.length)] = [] ∧
       closedPages s k [(e.1, e.2.length)] = [] ∧ corePoisonStore s k e.1 e.2.length = none))) = true := by
  decide +kernel

theorem test_hypotheses_tile_multiply :
    (let k : CoreRef := ⟨0, 0, 0⟩;
     let n : Fin 8 := 0;
     let m : Fin 8 := 1;
     let s : State := wrs [(.core ⟨0, 0, 0⟩, 0x100, 9)] (cr { tcore with active := some wb } ready);
     decide (hasTile s k.tile.val = true ∧ canIssue s k = true) && (
     (nextBlock s k).any (fun w =>
     decide (checkTmma n.val (tileOf (coreOf s k) n.val) m.val (tileOf (coreOf s k) m.val) (some w) = .pass ∧
       twinChecked (tileOf (coreOf s k) m.val) = false)))) = true ∧
    (let k : CoreRef := ⟨0, 0, 0⟩;
     let n : Fin 8 := 0;
     let m : Fin 8 := 1;
     let s : State := wrs [(.core ⟨0, 0, 0⟩, 0x100, 9)] (cr { tcore with active := some wb, tds := [(1, 0x100100000040), (4, 1), (8, 0x1000), (9, 0x400100000040), (10, 0x0802), (12, 1)] } ready);
     decide (hasTile s k.tile.val = true ∧ canIssue s k = true) && (
     (nextBlock s k).any (fun w =>
     decide (checkTmma n.val (tileOf (coreOf s k) n.val) m.val (tileOf (coreOf s k) m.val) (some w) = .pass ∧
       twinChecked (tileOf (coreOf s k) m.val) = true)))) = true ∧
    (let k : CoreRef := ⟨0, 0, 0⟩;
     let n : Fin 8 := 1;
     let m : Fin 8 := 2;
     let rnd : Fin 8 := 0;
     let s : State := wrs [(.core ⟨0, 0, 0⟩, 0x100, 9)] (cr { tcore with active := some wb } ready);
     decide (hasTile s k.tile.val = true ∧ canIssue s k = true ∧ rnd.val ≤ 1 ∧
       checkTcvt n.val (tileOf (coreOf s k) n.val) m.val (tileOf (coreOf s k) m.val) (decide (rnd.val = 1)) = .pass)) = true := by
  decide +kernel

theorem test_hypotheses_vector_lanes :
    (let k : CoreRef := ⟨0, 0, 0⟩;
     let c : Fin 128 := 0;
     let s : State := cr tcore ready;
     decide (hasTile s k.tile.val = true ∧ canIssue s k = true ∧ c.val ≤ 7)) = true ∧
    (let k : CoreRef := ⟨0, 0, 0⟩;
     let c : Fin 128 := 0;
     let s : State := cr tcore ready;
     decide (hasTile s k.tile.val = true ∧ canIssue s k = true ∧ c.val ≤ 2)) = true := by
  decide +kernel

theorem test_hypotheses_vector_memory_and_conversion :
    (let k : CoreRef := ⟨0, 0, 0⟩;
     let r : Fin 32 := 1;
     let s : State := maps [(0, bu)] (cr tcore ready);
     decide (hasTile s k.tile.val = true ∧ canIssue s k = true ∧ (xRd (coreOf s k) r.val).toNat % 64 = 0 ∧
       badPages s [(addr48 (xRd (coreOf s k) r.val).toNat, 256)] = [] ∧ accessWaits s k [(addr48 (xRd (coreOf s k) r.val).toNat, 256)] = false ∧
       corePoison s k (addr48 (xRd (coreOf s k) r.val).toNat) 256 = none)) = true ∧
    (let k : CoreRef := ⟨0, 0, 0⟩;
     let r : Fin 32 := 1;
     let s : State := maps [(0, bu)] (cr tcore ready);
     decide (hasTile s k.tile.val = true ∧ canIssue s k = true ∧ (xRd (coreOf s k) r.val).toNat % 64 = 0 ∧
       badPages s [(addr48 (xRd (coreOf s k) r.val).toNat, 256)] = [] ∧ closedPages s k [(addr48 (xRd (coreOf s k) r.val).toNat, 256)] = [] ∧
       accessWaits s k [(addr48 (xRd (coreOf s k) r.val).toNat, 256)] = false ∧
       corePoisonStore s k (addr48 (xRd (coreOf s k) r.val).toNat) 256 = none)) = true ∧
    (let k : CoreRef := ⟨0, 0, 0⟩;
     let d : Fin 128 := 0;
     let a : Fin 128 := 0;
     let c : Fin 128 := 0;
     let s : State := maps [(0, bu)] (cr tcore ready);
     decide (hasTile s k.tile.val = true ∧ canIssue s k = true) && (
     (vcvtCode c.val).any (fun (_, _, st) =>
     decide ((st = true → d.val ≠ 127 ∧ a.val ≠ 127))))) = true := by
  decide +kernel

theorem test_hypotheses_net_packets :
    (let x : Fin 320 := 1;
     let o : Fin 8 := 1;
     let p : NetPacket := pk;
     let s : State := { ready with net := { packets := [pk] } };
     decide (hasTile s (nodeTile x.val) = true ∧ nodeFenced s x.val = false ∧ (∀ q ∈ s.net.packets, expired s q = false ∧
       injectorFenced s q = false) ∧ mget 0 s.net.heldSteps (8 * x.val + o.val) = 0 ∧ (arbOf s x.val o.val).current = none ∧
       requests s x.val o.val = [p] ∧ p.high = false ∧ o.val ≠ 0) && (
     decide ((neighbour s x.val o.val).isSome = true ∧ p.progress + 1 = p.flits))) = true ∧
    (let x : Fin 320 := 1;
     let o : Fin 8 := 1;
     let p : NetPacket := { pk with flits := 2 };
     let s : State := { ready with net := { packets := [{ pk with flits := 2 }] } };
     decide (hasTile s (nodeTile x.val) = true ∧ nodeFenced s x.val = false ∧ (∀ q ∈ s.net.packets, expired s q = false ∧
       injectorFenced s q = false) ∧ mget 0 s.net.heldSteps (8 * x.val + o.val) = 0 ∧ (arbOf s x.val o.val).current = none ∧
       requests s x.val o.val = [p] ∧ p.high = false ∧ o.val ≠ 0) && (
     decide ((neighbour s x.val o.val).isSome = true ∧ p.progress + 1 < p.flits))) = true ∧
    (let x : Fin 320 := 1;
     let o : Fin 8 := 1;
     let n : Nat := 2;
     let s : State := { ready with net := { packets := [{ pk with flits := 2 }], heldSteps := [(9, 3)] } };
     decide (hasTile s (nodeTile x.val) = true ∧ nodeFenced s x.val = false ∧ mget 0 s.net.heldSteps (8 * x.val + o.val) = n + 1 ∧
       (arbOf s x.val o.val).current = none)) = true ∧
    (let x : Fin 320 := 1;
     let o : Fin 8 := 1;
     let s : State := { ready with streams := [(0, [⟨some 0x1000, [], none, 0, 0, none⟩])] };
     decide (hasTile s (nodeTile x.val) = true ∧ (nodeFenced s x.val = true ∨ (s.net.packets = [] ∧
       mget 0 s.net.heldSteps (8 * x.val + o.val) = 0 ∧ (arbOf s x.val o.val).current = none)))) = true ∧
    (let s : State := { ready with streams := [(0, [⟨some 0x1000, [], none, 0, 0, none⟩])] };
     decide (stepRunning s = false)) = true ∧
    (let s : State := wrs [(pgDma 0 0, 0x130, 1), (pgNet 0, 0x170, 55)] ready;
     let d : Fin 8 := 0;
     let n : Fin 32 := 0;
     decide (hasTile s d.val = true ∧ dmaState s d n = dmBusy)) = true ∧
    (let s : State := { ready with streams := [(0, [⟨some 0x1000, [], none, 0, 0, none⟩])] };
     let d : Fin 8 := 1;
     let n : Fin 32 := 0;
     decide (hasTile s d.val = true ∧ dmaState s d n ≠ dmBusy)) = true ∧
    (let s : State := { ready with streams := [(0, [⟨some 0x1000, [], none, 0, 0, none⟩])] };
     let d : Fin 8 := 1;
     decide (hasTile s d.val = true ∧ streamQ s d.val = [])) = true ∧
    (let s : State := { ready with streams := [(0, [⟨some 0x1000, [], none, 0, 0, none⟩])] };
     let d : Fin 8 := 0;
     decide (hasTile s d.val = true) && (
     (streamQ s d.val).head?.any (fun c =>
     decide (c.move = none)))) = true ∧
    (let s : State := { ready with cores := [(0, { requests := [⟨5, 0, none, 0⟩] })] };
     let k : CoreRef := ⟨0, 0, 0⟩;
     let r : Request := ⟨5, 0, none, 0⟩;
     decide (hasTile s k.tile.val = true ∧ (coreOf s k).requests.filter (fun r => r.bank.isNone) = [r])) = true ∧
    (let tile : Fin 8 := 1;
     let s : State := { ready with streams := [(0, [⟨some 0x1000, [], none, 0, 0, none⟩])] };
     decide (hasTile s tile.val = true)) = true ∧
    (let s : State := { ready with streams := [(0, [⟨some 0x1000, [], none, 0, 0, none⟩])] };
     decide (s.net.rewriteDue = false)) = true ∧
    (let s : State := { wrs [(pgNet 0, 0x130, 0xFFFFFFFFFE), (pgNet 1, 0x130, 0xFFFFFFFFFF)] ready with part := .d2, net := { packets := [pk], rewriteDue := true } };
     decide (s.net.rewriteDue = true ∧ cutOff s = [])) = true := by
  decide +kernel

theorem test_hypotheses_net_bridges :
    (let tile : Fin 8 := 0;
     let side : Fin 4 := 0;
     let s : State := ready;
     decide (hasTile s tile.val = true) && (
     decide ((facing s tile.val side.val).isSome = true ∧ s.net.downEdges.contains (4 * tile.val + side.val) = false))) = true ∧
    (let tile : Fin 8 := 0;
     let side : Fin 4 := 0;
     let s : State := { ready with net := { downEdges := [0, 5] } };
     decide (hasTile s tile.val = true) && (
     decide ((facing s tile.val side.val).isSome = true ∧ s.net.downEdges.contains (4 * tile.val + side.val) = true))) = true ∧
    (let tile : Fin 8 := 0;
     let side : Fin 4 := 1;
     let s : State := ready;
     decide (hasTile s tile.val = true ∧ facing s tile.val side.val = none)) = true := by
  decide +kernel

theorem test_hypotheses_slot_tables :
    (let tile : Fin 8 := 1;
     let s : State := ready;
     decide (hasTile s tile.val = true ∧ tile.val ≠ 0)) = true ∧
    (let s : State := ready;
     decide (hasTile s 0 = true ∧ s.net.loading = none)) = true ∧
    (let s : State := { tab with net := { loading := some 0x1000 } };
     decide (hasTile s 0 = true ∧ s.net.loading ≠ none)) = true ∧
    (let s : State := { tab with net := { loading := some 0x1000 } };
     decide (hasTile s 0 = true) && (
     s.net.loading.any (fun a =>
     (match readTable { s with net := { s.net with loading := none } } a with | .ok _ => true | _ => false)))) = true ∧
    (let s : State := { wrs [(pgBeacon, 0x828, 0x0000002001800180)] tab with net := { loading := some 0x1000 } };
     decide (hasTile s 0 = true) && (
     s.net.loading.any (fun a =>
     (match readTable { s with net := { s.net with loading := none } } a with | .error (_, _) => true | _ => false)))) = true ∧
    (let s : State := ready;
     decide ((stepLive s = false ∨ s.now < s.step.launch + s.net.slotIndex * slotLen s))) = true ∧
    (let s : State := stp ready;
     decide (stepLive s = true ∧ s.step.launch + s.net.slotIndex * slotLen s ≤ s.now ∧ entriesNow s = [] ∧ s.net.buffers = [] ∧
       s.coll.slottedOut = [] ∧ s.ports.all (fun e => e.2.slotted.isEmpty) = true)) = true ∧
    (let node : Fin 320 := 1;
     let x : Fin 4096 := 0;
     let s : State := ready;
     decide (node.val < 40 * s.part.tiles ∧ s.net.ejected.find? (fun e => decide (e.1 = 4096 * node.val + x.val)) = none)) = true ∧
    (let node : Fin 320 := 1;
     let x : Fin 4096 := 0;
     let s : State := { ready with net := { ejected := [(4096, 3)], bank0 := some { tableId := 0, len := 320, work := 320, guard := 32, period := 1, rep := false, entries := [], streams := [⟨0, 0, 512, 3, false⟩, ⟨0, 0, 512, 3, true⟩] } } };
     decide (node.val < 40 * s.part.tiles) && (
     decide ((s.net.ejected.find? (fun e => decide (e.1 = 4096 * node.val + x.val))).isSome = true ∧ flitsHeld s node.val x.val = false ∧
       (streamAt s x.val).all (fun d => !d.syncEn) = true))) = true ∧
    (let node : Fin 320 := 1;
     let x : Fin 4096 := 1;
     let s : State := { ready with net := { ejected := [(4097, 3)], bank0 := some { tableId := 0, len := 320, work := 320, guard := 32, period := 1, rep := false, entries := [], streams := [⟨0, 0, 512, 3, false⟩, ⟨0, 0, 512, 3, true⟩] } } };
     decide (node.val < 40 * s.part.tiles) && (
     decide ((s.net.ejected.find? (fun e => decide (e.1 = 4096 * node.val + x.val))).isSome = true ∧ flitsHeld s node.val x.val = false) && (
     (streamAt s x.val).any (fun d =>
     decide (d.syncEn = true))))) = true := by
  decide +kernel

theorem test_hypotheses_row_engine_queue :
    (let k : CoreRef := ⟨0, 0, 0⟩;
     let v : Word := 0x1000;
     let s : State := (let s := req 1 1 16; { s with mem := { s.mem with moves := [{ bushel := 0, tier := 1, tile := 1, cluster := 0, trigger := 0, switching := true, snoops := [3] }] } });
     decide (hasTile s k.tile.val = true ∧ issues s (.core k) = true ∧ v.bits 63 48 = 0 ∧ v.bits 47 0 % 64 = 0 ∧
       localRange s (coreCl k) (v.bits 47 0) 64 = true ∧ (cluster s (coreCl k)).reQueue.length < 32)) = true ∧
    (let k : CoreRef := ⟨0, 0, 0⟩;
     let v : Word := 0x1000;
     let s : State := (let s := maps [(0, { bu with tier := 0 })] (cr tcore ready); setCluster s ⟨0, 0⟩ { cluster s ⟨0, 0⟩ with reQueue := List.replicate 32 (0x1000, none, 0) });
     decide (hasTile s k.tile.val = true ∧ issues s (.core k) = true ∧ v.bits 63 48 = 0 ∧ v.bits 47 0 % 64 = 0 ∧
       localRange s (coreCl k) (v.bits 47 0) 64 = true ∧ 32 ≤ (cluster s (coreCl k)).reQueue.length)) = true ∧
    (let k : CoreRef := ⟨0, 0, 0⟩;
     let v : Word := 0x1001;
     let s : State := maps [(0, { bu with tier := 0 })] (cr tcore ready);
     decide (hasTile s k.tile.val = true ∧ issues s (.core k) = true ∧ v.bits 63 48 = 0 ∧
       (v.bits 47 0 % 64 ≠ 0 ∨ localRange s (coreCl k) (v.bits 47 0) 64 = false) ∧ coreRunning s k = true)) = true ∧
    (let cl : ClusterRef := ⟨0, 0⟩;
     let s : State := (let s := req 1 1 16; { s with mem := { s.mem with moves := [{ bushel := 0, tier := 1, tile := 1, cluster := 0, trigger := 0, switching := true, snoops := [3] }] } });
     decide (hasTile s cl.tile.val = true) && (
     let k : CoreRef := ⟨1, 2, 3⟩;
     decide (hasTile s k.tile.val = true ∧ issues s (.core k) = true ∧ coreCl k ≠ cl))) = true ∧
    (let cl : ClusterRef := ⟨0, 0⟩;
     let s : State := maps [(0, { bu with tier := 0 })] (cr tcore ready);
     decide (hasTile s cl.tile.val = true ∧ (cluster s cl).reQueue = [])) = true ∧
    (let cl : ClusterRef := ⟨0, 0⟩;
     let s : State := (let s := req 1 1 16; { s with mem := { s.mem with moves := [{ bushel := 0, tier := 1, tile := 1, cluster := 0, trigger := 0, switching := true, snoops := [3] }] } });
     decide (hasTile s cl.tile.val = true) && (
     ((cluster s cl).reQueue).head?.any (fun (d, _, _) =>
     decide ((reCmd (descWords s d)).op ≠ 0 ∧ (reCmd (descWords s d)).op ≤ 8)))) = true ∧
    (let cl : ClusterRef := ⟨0, 0⟩;
     let s : State := (let s := req 1 1 16; { s with mem := { s.mem with moves := [{ bushel := 0, tier := 1, tile := 1, cluster := 0, trigger := 0, switching := true, snoops := [3] }] } });
     decide (hasTile s cl.tile.val = true) && (
     ((cluster s cl).reQueue).head?.any (fun (d, _, _) =>
     decide (reHeld s cl d (reCmd (descWords s d)) = true)))) = true ∧
    (let cl : ClusterRef := ⟨0, 0⟩;
     let s : State := req 1 0 16;
     decide (hasTile s cl.tile.val = true) && (
     ((cluster s cl).reQueue).head?.any (fun (d, _, _) =>
     decide ((reCmd (descWords s d)).op = 1 ∧ reHeld s cl d (reCmd (descWords s d)) = false ∧ (∀ m : Fin 32, bankLoad s cl m = 0) ∧
       poisonIn s false d 64 = none ∧ (reCmd (descWords s d)).nrows = 0)))) = true ∧
    (let cl : ClusterRef := ⟨0, 0⟩;
     let s : State := req 1 1 5000;
     decide (hasTile s cl.tile.val = true) && (
     ((cluster s cl).reQueue).head?.any (fun (d, _, _) =>
     decide ((reCmd (descWords s d)).op = 1 ∧ reHeld s cl d (reCmd (descWords s d)) = false ∧ (∀ m : Fin 32, bankLoad s cl m = 0) ∧
       poisonIn s false d 64 = none ∧ (reCmd (descWords s d)).nrows ≠ 0) && (
     decide ((reRefused s cl (reCmd (descWords s d))).isSome = true))))) = true := by
  decide +kernel

theorem test_hypotheses_row_engine_rows :
    (let cl : ClusterRef := ⟨0, 0⟩;
     let s : State := req 0 1 16;
     decide (hasTile s cl.tile.val = true) && (
     ((cluster s cl).reQueue).head?.any (fun (d, _, _) =>
     decide (s.mem.poison = [] ∧ s.mem.windowPoison = [] ∧ (cluster s cl).sidePoison = [] ∧ armedKind s (.cluster cl) ≠ 3 ∧
       (∀ m : Fin 32, bankLoad s cl m = 0) ∧ reHeld s cl d (reCmd (descWords s d)) = false ∧ reRefused s cl (reCmd (descWords s d)) = none ∧
       (reCmd (descWords s d)).op = 0)))) = true ∧
    (let cl : ClusterRef := ⟨0, 0⟩;
     let s : State := req 0 1 16;
     decide (hasTile s cl.tile.val = true) && (
     ((cluster s cl).reQueue).head?.any (fun (d, _, _) =>
     decide (s.mem.poison = [] ∧ s.mem.windowPoison = [] ∧ (cluster s cl).sidePoison = [] ∧ (∀ m : Fin 32, bankLoad s cl m = 0) ∧
       reHeld s cl d (reCmd (descWords s d)) = false ∧ reRefused s cl (reCmd (descWords s d)) = none ∧
       (reCmd (descWords s d)).first + (reCmd (descWords s d)).nrows ≤ 65536 ∧ (reCmd (descWords s d)).op = 0)))) = true ∧
    (let cl : ClusterRef := ⟨0, 0⟩;
     let s : State := req 3 1 16;
     decide (hasTile s cl.tile.val = true) && (
     ((cluster s cl).reQueue).head?.any (fun (d, _, _) =>
     decide (s.mem.poison = [] ∧ s.mem.windowPoison = [] ∧ (cluster s cl).sidePoison = [] ∧ (∀ m : Fin 32, bankLoad s cl m = 0) ∧
       reHeld s cl d (reCmd (descWords s d)) = false ∧ reRefused s cl (reCmd (descWords s d)) = none ∧
       (reCmd (descWords s d)).first + (reCmd (descWords s d)).nrows ≤ 65536 ∧ (reCmd (descWords s d)).op = 3 ∧
       (reCmd (descWords s d)).nrows = 1 ∧ 0 < (reCmd (descWords s d)).len)))) = true ∧
    (let cl : ClusterRef := ⟨0, 0⟩;
     let s : State := req 8 1 16;
     decide (hasTile s cl.tile.val = true) && (
     ((cluster s cl).reQueue).head?.any (fun (d, _, _) =>
     decide (s.mem.poison = [] ∧ s.mem.windowPoison = [] ∧ (cluster s cl).sidePoison = [] ∧ (∀ m : Fin 32, bankLoad s cl m = 0) ∧
       reHeld s cl d (reCmd (descWords s d)) = false ∧ reRefused s cl (reCmd (descWords s d)) = none ∧
       (reCmd (descWords s d)).first + (reCmd (descWords s d)).nrows ≤ 65536 ∧ (reCmd (descWords s d)).op = 8 ∧
       (reCmd (descWords s d)).nrows = 1)))) = true ∧
    (let cl : ClusterRef := ⟨0, 0⟩;
     let s : State := req 7 1 16;
     decide (hasTile s cl.tile.val = true) && (
     ((cluster s cl).reQueue).head?.any (fun (d, _, _) =>
     decide (s.mem.poison = [] ∧ s.mem.windowPoison = [] ∧ (cluster s cl).sidePoison = [] ∧ (∀ m : Fin 32, bankLoad s cl m = 0) ∧
       reHeld s cl d (reCmd (descWords s d)) = false ∧ reRefused s cl (reCmd (descWords s d)) = none ∧
       (reCmd (descWords s d)).first + (reCmd (descWords s d)).nrows ≤ 65536 ∧ (reCmd (descWords s d)).op = 7 ∧
       (reCmd (descWords s d)).nrows = 1)))) = true := by
  decide +kernel

theorem test_hypotheses_granger_moves :
    (let tile : Fin 8 := 0;
     let s : State := (let s := maps [(0, bu)] ready; { s with streams := [(0, [⟨none, [], none, 0, 0, some 0⟩])], mem := { s.mem with moves := [{ bushel := 0, tier := 0, tile := 1, cluster := 2, trigger := 0 }] } });
     decide (hasTile s tile.val = true ∧ s.now < mget 0 s.granger.heatEnd tile.val + heatWindow s)) = true ∧
    (let tile : Fin 8 := 0;
     let s : State := { maps [(0, { bu with heat := 9, accesses := 640, origin := [(0, 3)] }), (1, { bu with heat := 1, tile := 1, origin := [(0, 2)] })] ready with now := 2 ^ 40 };
     decide (hasTile s tile.val = true ∧ mget 0 s.granger.heatEnd tile.val + heatWindow s ≤ s.now ∧ freezeHeat s = false)) = true ∧
    (let tile : Fin 8 := 0;
     let s : State := (let s := maps [(0, { bu with heat := 9, accesses := 640, origin := [(0, 3)] })] ready; { wrs [(pgGranger 0, 0x800, 0xff)] s with now := 2 ^ 40 });
     decide (hasTile s tile.val = true ∧ mget 0 s.granger.heatEnd tile.val + heatWindow s ≤ s.now ∧ freezeHeat s = true)) = true ∧
    (let n : BitVec 27 := 0;
     let s : State := { maps [(0, { bu with heat := 9, accesses := 640, origin := [(0, 3)] }), (1, { bu with heat := 1, tile := 1, origin := [(0, 2)] })] ready with now := 2 ^ 40 };
     decide (copyFront s n.toNat = none)) = true ∧
    (let n : BitVec 27 := 0;
     let s : State := (let s := maps [(0, bu)] ready; { s with streams := [(0, [⟨none, [], none, 0, 0, some 0⟩])], mem := { s.mem with moves := [{ bushel := 0, tier := 0, tile := 1, cluster := 2, trigger := 0 }] } });
     (moveOf s n.toNat).any (fun m =>
     decide (m.switching = false ∧ copyFront s n.toNat ≠ none ∧ (∀ l ∈ s.mem.poison, l / 32768 ≠ n.toNat) ∧ heldLines s n.toNat = [] ∧
       s.mem.held = [] ∧ s.granger.pinMoves = []) && (
     decide ((mfind s.mem.bushels n.toNat).isSome = true)))) = true ∧
    (let n : BitVec 27 := 0;
     let s : State := (let s := maps [(0, bu)] ready; { s with streams := [(0, [⟨none, [], none, 0, 0, some 0⟩])], mem := { s.mem with snoop := [0, 1, 40000], moves := [{ bushel := 0, tier := 0, tile := 1, cluster := 2, trigger := 0 }] } });
     (moveOf s n.toNat).any (fun m =>
     decide (m.switching = false ∧ copyFront s n.toNat ≠ none ∧ (∀ l ∈ s.mem.poison, l / 32768 ≠ n.toNat) ∧ heldLines s n.toNat ≠ []))) = true ∧
    (let n : BitVec 27 := 0;
     let s : State := (let s := maps [(0, bu)] ready; { s with mem := { s.mem with snoop := [0, 1, 40000], moves := [{ bushel := 0, tier := 0, tile := 1, cluster := 2, trigger := 0, switching := true, snoops := [0, 1] }] } });
     (moveOf s n.toNat).any (fun m =>
     decide (m.switching = true ∧ s.now < m.since + biLimit s))) = true ∧
    (let n : BitVec 27 := 0;
     let s : State := (let s := maps [(0, bu)] ready; { s with now := 2 ^ 40, mem := { s.mem with moves := [{ bushel := 0, tier := 1, tile := 1, cluster := 0, trigger := 0, switching := true, snoops := [3] }] } });
     (moveOf s n.toNat).any (fun m =>
     decide (m.switching = true ∧ m.since + biLimit s ≤ s.now ∧ s.mem.held = []))) = true ∧
    (let n : BitVec 27 := 0;
     let s : State := (let s := maps [(0, bu)] ready; { s with now := 2 ^ 40, mem := { s.mem with moves := [{ bushel := 0, tier := 1, tile := 1, cluster := 0, trigger := 0, switching := true, snoops := [3] }] } });
     (moveOf s n.toNat).any (fun m =>
     decide (m.switching = true) && (
     let line : Fin 32768 := 0;
     decide (m.snoops.filter (fun x => decide (x ≠ 32768 * n.toNat + line.val)) ≠ [])))) = true ∧
    (let n : BitVec 27 := 0;
     let s : State := (let s := maps [(0, bu)] ready; { s with now := 2 ^ 40, mem := { s.mem with moves := [{ bushel := 0, tier := 1, tile := 1, cluster := 0, trigger := 0, switching := true, snoops := [3] }] } });
     (moveOf s n.toNat).any (fun m =>
     decide (m.switching = true) && (
     let line : Fin 32768 := 3;
     decide (m.snoops.filter (fun x => decide (x ≠ 32768 * n.toNat + line.val)) = [] ∧ s.mem.held = [] ∧ s.granger.pinMoves = []) && (
     decide ((mfind s.mem.bushels n.toNat).isSome = true))))) = true ∧
    (let n : BitVec 27 := 0;
     let s : State := { maps [(0, { bu with heat := 9, accesses := 640, origin := [(0, 3)] }), (1, { bu with heat := 1, tile := 1, origin := [(0, 2)] })] ready with now := 2 ^ 40 };
     let line : Fin 32768 := 0;
     let v : List Byte := List.replicate 64 7;
     decide (moveOf s n.toNat = none) && (
     (mfind s.mem.bushels n.toNat).any (fun b =>
     decide (b.tier < 2 ∧ attrOf s (64 * (32768 * n.toNat + line.val)) = .memory ∧ v.length = 64)))) = true ∧
    (let n : BitVec 27 := 1;
     let s : State := (let s := maps [(0, { bu with heat := 9, accesses := 640, origin := [(0, 3)] })] ready; { wrs [(pgGranger 0, 0x800, 0xff)] s with now := 2 ^ 40 });
     decide (mfind s.mem.bushels n.toNat = none)) = true ∧
    (let n : BitVec 27 := 0;
     let s : State := { maps [(0, { bu with heat := 9, accesses := 640, origin := [(0, 3)] }), (1, { bu with heat := 1, tile := 1, origin := [(0, 2)] })] ready with now := 2 ^ 40 };
     (mfind s.mem.bushels n.toNat).any (fun b =>
     decide (b.merging = 0))) = true ∧
    (let n : BitVec 27 := 0;
     let s : State := (let s := maps [(0, {bu with merging := 5, shadow := some 0})] ready; { s with mem := { s.mem with shadowLines := [1], shadowBytes := [⟨64, 5⟩] } });
     (mfind s.mem.bushels n.toNat).any (fun b =>
     decide (b.merging ≠ 0))) = true := by
  decide +kernel

theorem test_hypotheses_granger_queries :
    (let key : BitVec 56 := 0x1000;
     let s : State := (let s := maps [(0, bu)] ready; { s with mem := { s.mem with moves := [{ bushel := 0, tier := 0, tile := 1, cluster := 2, trigger := 0 }] } });
     decide (lastStarted (s.tasks.filter (fun t => decide (t.desc = key.toNat % 2 ^ 48))) = none)) = true ∧
    (let key : BitVec 56 := 0x1000;
     let s : State := { maps [(0, { bu with heat := 9, hint := 2 }), (7, {bu with committed := true, tile := 7, cluster := 23, tier := 2})] ready with tasks := [tk 3 ⟨0, 1, 2⟩ .running], ctrs := [(7, { owner := 5 })], cores := [(0, { speed := 70000, speedLoaded := true })] };
     decide ((lastStarted (s.tasks.filter (fun t => decide (t.desc = key.toNat % 2 ^ 48)))).isSome = true)) = true ∧
    (let key : BitVec 56 := 0x1000;
     let s : State := { maps [(0, { bu with heat := 9, hint := 2 }), (7, {bu with committed := true, tile := 7, cluster := 23, tier := 2})] ready with tasks := [tk 3 ⟨0, 1, 2⟩ .running], ctrs := [(7, { owner := 5 })], cores := [(0, { speed := 70000, speedLoaded := true })] };
     decide (mfind s.mem.bushels (key.toNat % 2 ^ 27) = none)) = true ∧
    (let key : BitVec 56 := 0;
     let s : State := { maps [(0, { bu with heat := 9, hint := 2 }), (7, {bu with committed := true, tile := 7, cluster := 23, tier := 2})] ready with tasks := [tk 3 ⟨0, 1, 2⟩ .running], ctrs := [(7, { owner := 5 })], cores := [(0, { speed := 70000, speedLoaded := true })] };
     (mfind s.mem.bushels (key.toNat % 2 ^ 27)).any (fun b =>
     decide (b.tier < 4 ∧ b.tile < 8 ∧ b.cluster < 32 ∧ b.hint < 4))) = true ∧
    (let key : BitVec 56 := 0x1000;
     let s : State := { maps [(0, { bu with heat := 9, hint := 2 }), (7, {bu with committed := true, tile := 7, cluster := 23, tier := 2})] ready with tasks := [tk 3 ⟨0, 1, 2⟩ .running], ctrs := [(7, { owner := 5 })], cores := [(0, { speed := 70000, speedLoaded := true })] };
     decide ((hasTile s (key.toNat / 2 ^ 9 % 8) = false ∨ 24 ≤ key.toNat / 16 % 32 ∨ key.toNat / 2 ^ 12 % 4096 ≠ ownCoord s))) = true ∧
    (let k : CoreRef := ⟨0, 0, 0⟩;
     let key : BitVec 56 := 0;
     let s : State := { maps [(0, { bu with heat := 9, hint := 2 }), (7, {bu with committed := true, tile := 7, cluster := 23, tier := 2})] ready with tasks := [tk 3 ⟨0, 1, 2⟩ .running], ctrs := [(7, { owner := 5 })], cores := [(0, { speed := 70000, speedLoaded := true })] };
     decide (hasTile s k.tile.val = true ∧ key.toNat = k.core.val + 16 * k.cluster.val + 2 ^ 9 * k.tile.val + 2 ^ 12 * ownCoord s)) = true := by
  decide +kernel

theorem test_hypotheses_host_memory :
    (let a : BitVec 48 := 0;
     let n : Fin 65 := 0;
     let s : State := (let s := maps [(0, { bu with tier := 0 })] ready; { s with mem := { s.mem with moves := [{ bushel := 0, tier := 1, tile := 1, cluster := 0, trigger := 0, switching := true, snoops := [3] }] } });
     decide (rangeMemory s a.toNat n.val = true ∧ heldRange s a.toNat n.val = false ∧ (linesOf a.toNat n.val).filter (poisonedAs s false) = [])) = true ∧
    (let a : BitVec 48 := 0;
     let n : Fin 65 := 3;
     let s : State := (let s := maps [(0, { bu with tier := 0 })] ready; { s with mem := { s.mem with moves := [{ bushel := 0, tier := 1, tile := 1, cluster := 0, trigger := 0, switching := true, snoops := [3] }] } });
     decide (rangeMemory s a.toNat n.val = true ∧ heldRange s a.toNat n.val = true)) = true ∧
    (let a : BitVec 48 := 0xFFFFFFFFFFFF;
     let n : Fin 65 := 3;
     let s : State := (let s := maps [(0, { bu with tier := 0 })] ready; { s with mem := { s.mem with moves := [{ bushel := 0, tier := 1, tile := 1, cluster := 0, trigger := 0, switching := true, snoops := [3] }] } });
     decide (rangeMemory s a.toNat n.val = false)) = true ∧
    (let a : BitVec 48 := 0;
     let v : List Byte := [1, 2, 3];
     let s : State := (let s := maps [(0, { bu with tier := 0 })] ready; { s with mem := { s.mem with shadowLines := [0, 64] } });
     decide (v.length ≤ 64 ∧ rangeMemory s a.toNat v.length = true ∧ heldRange s a.toNat v.length = false ∧
       (slotsQuiet s = true ∨ touchesCommitted s a.toNat v.length = false) ∧
       (∀ i ∈ bushelsOf a.toNat v.length, (mfind s.mem.bushels i).all (fun b => decide (b.tier < 2)) = true))) = true ∧
    (let a : BitVec 48 := 0;
     let v : List Byte := [1, 2, 3];
     let s : State := (let s := maps [(0, { bu with tier := 0 })] ready; { s with mem := { s.mem with moves := [{ bushel := 0, tier := 1, tile := 1, cluster := 0, trigger := 0, switching := true, snoops := [3] }] } });
     decide (v.length ≤ 64 ∧ rangeMemory s a.toNat v.length = true ∧ heldRange s a.toNat v.length = true)) = true ∧
    (let a : BitVec 48 := 0xFFFFFFFFFFFF;
     let v : List Byte := [1, 2, 3];
     let s : State := (let s := maps [(0, { bu with tier := 0 })] ready; { s with mem := { s.mem with moves := [{ bushel := 0, tier := 1, tile := 1, cluster := 0, trigger := 0, switching := true, snoops := [3] }] } });
     decide (v.length ≤ 64 ∧ rangeMemory s a.toNat v.length = false)) = true ∧
    (let a : BitVec 48 := 0;
     let v : List Byte := [1, 2, 3];
     let s : State := sl 0 { state := .running } (maps [(0, { bu with committed := true })] ready);
     decide (v.length ≤ 64 ∧ rangeMemory s a.toNat v.length = true ∧ heldRange s a.toNat v.length = false ∧ slotsQuiet s = false ∧
       touchesCommitted s a.toNat v.length = true)) = true ∧
    (let a : BitVec 48 := 0;
     let s : State := (let s := maps [(0, { bu with tier := 0 })] ready; { s with mem := { s.mem with shadowLines := [0, 64] } });
     (bushelAt s a.toNat).any (fun b =>
     decide (b.tier = 0 ∧ b.tile < 8 ∧ b.cluster < 24 ∧ lineNo a.toNat ∈ s.mem.shadowLines))) = true ∧
    (let a : BitVec 48 := 0;
     let s : State := (let s := maps [(0, { bu with tier := 0 })] ready; { s with mem := { s.mem with copies := [⟨0, 0, 0, 3, false⟩] } });
     (bushelAt s a.toNat).any (fun b =>
     decide (b.tier = 0 ∧ b.tile < 8 ∧ b.cluster < 24 ∧ copyAt s a.toNat = true))) = true ∧
    (let cl : ClusterRef := ⟨0, 0⟩;
     let s : State := (let s := maps [(0, { bu with tier := 0 })] ready; { s with mem := { s.mem with moves := [{ bushel := 0, tier := 1, tile := 1, cluster := 0, trigger := 0, switching := true, snoops := [3] }] } });
     decide (hasTile s cl.tile.val = true)) = true ∧
    (let tile : Fin 8 := 0;
     let c : Fin 3 := 0;
     let s : State := (let s := maps [(0, bu)] ready; { s with mem := { s.mem with unusable := [0] } });
     decide (hasTile s tile.val = true ∧ mcUnusable s tile.val c.val = true)) = true ∧
    (let tile : Fin 8 := 0;
     let c : Fin 3 := 0;
     let s : State := (let s := maps [(0, { bu with tier := 0 })] ready; { s with mem := { s.mem with moves := [{ bushel := 0, tier := 1, tile := 1, cluster := 0, trigger := 0, switching := true, snoops := [3] }] } });
     decide (hasTile s tile.val = true ∧ mcUnusable s tile.val c.val = false ∧ (∀ e ∈ s.mem.bushels, homeIs tile.val c.val e.2 = false) ∧
       s.mem.shadowAlloc = [] ∧ s.mem.copies = [])) = true ∧
    (let tile : Fin 8 := 0;
     let c : Fin 3 := 0;
     let s : State := wrs [(pgMc 0 0, 0x820, 0)] (maps [(0, bu)] ready);
     decide (hasTile s tile.val = true ∧ fldA s (pgMc tile c) 0x120 15 0 = 0)) = true ∧
    (let tile : Fin 8 := 0;
     let c : Fin 3 := 0;
     let n : Nat := 1;
     let s : State := (let s := maps [(0, { bu with tier := 0 })] ready; { s with mem := { s.mem with moves := [{ bushel := 0, tier := 1, tile := 1, cluster := 0, trigger := 0, switching := true, snoops := [3] }] } });
     decide (hasTile s tile.val = true ∧ fldA s (pgMc tile c) 0x120 15 0 ≠ 0 ∧ mcUnusable s tile.val c.val = false ∧ n ≠ 0)) = true := by
  decide +kernel

theorem test_hypotheses_stream_engine :
    (let r : Requester := .host;
     let tile : Fin 8 := 0;
     let s : State := cr tcore ready;
     decide (hasTile s tile.val = true ∧ badRequester s r = false ∧ issues s r = true ∧ (streamQ s tile.val).length < 64)) = true ∧
    (let r : Requester := .host;
     let tile : Fin 8 := 0;
     let s : State := { cr tcore ready with streams := [(0, List.replicate 64 ⟨some 0x1000, [], none, 0, 0, none⟩)] };
     decide (hasTile s tile.val = true ∧ badRequester s r = false ∧ issues s r = true ∧ 64 ≤ (streamQ s tile.val).length ∧
       (match r with | .core _ => false | _ => true) = true)) = true ∧
    (let r : Requester := .core ⟨0, 0, 0⟩;
     let tile : Fin 8 := 0;
     let s : State := { cr tcore ready with streams := [(0, List.replicate 64 ⟨some 0x1000, [], none, 0, 0, none⟩)] };
     decide (hasTile s tile.val = true ∧ badRequester s r = false ∧ issues s r = true ∧ 64 ≤ (streamQ s tile.val).length) && (
     (match r with | .core _ => true | _ => false))) = true ∧
    (let tile : Fin 8 := 0;
     let s : State := cr tcore ready;
     decide (hasTile s tile.val = true ∧ streamQ s tile.val = [])) = true ∧
    (let tile : Fin 8 := 0;
     let s : State := { cr tcore ready with streams := [(0, List.replicate 64 ⟨some 0x1000, [], none, 0, 0, none⟩)] };
     decide (hasTile s tile.val = true) && (
     (streamQ s tile.val).head?.any (fun c =>
     decide (stOp (streamWords s c) ≠ 1)))) = true ∧
    (let tile : Fin 8 := 0;
     let s : State := { cr tcore ready with streams := [(0, List.replicate 64 ⟨some 0x1000, [], none, 0, 0, none⟩)] };
     decide (hasTile s tile.val = true) && (
     (streamQ s tile.val).head?.any (fun c =>
     decide (stOp (streamWords s c) ≠ 2)))) = true ∧
    (let tile : Fin 8 := 0;
     let s : State := { maps [(0, bu), (1, { bu with tier := 2 }), (2, { bu with tier := 2 })] ready with streams := [(0, [⟨none, [word 1, word 0x200000, 0, word 0x400000, 0, 0, 0, 0], none, 0, 3, none⟩])] };
     decide (hasTile s tile.val = true) && (
     (streamQ s tile.val).head?.any (fun c =>
     decide ((stOp (streamWords s c) = 1 ∨ stOp (streamWords s c) = 2) ∧ descStatus s c = none)))) = true ∧
    (let tile : Fin 8 := 0;
     let s : State := { maps [(0, bu), (1, { bu with tier := 2 }), (2, { bu with tier := 2 })] ready with streams := [(0, [⟨none, [word 1, word 0x200000, 0, word 0x400000, 0, 0, 0, 0], none, 0, 3, none⟩])] };
     decide (hasTile s tile.val = true) && (
     (streamQ s tile.val).head?.any (fun c =>
     decide (streamLost s tile = false ∧ c.desc = none ∧ stOp c.words = 1 ∧ 0 < stLen c.words ∧
       rangeMemory s (stSrc c.words) (stLen c.words) = true ∧ heldRange s (stSrc c.words) (stLen c.words) = false ∧ (s.mem.poison = [] ∧
       s.mem.windowPoison = []))))) = true ∧
    (let tile : Fin 8 := 0;
     let s : State := (let s := maps [(0, bu), (1, { bu with tier := 2 }), (2, { bu with tier := 2 })] ready; { s with streams := [(0, [⟨none, [word 2, word 0x200000, 0, word 0x400000, 0, 0, 0, 0], none, 0, 3, none⟩])], mem := { s.mem with copies := [⟨1, 0, 0, 3, false⟩, ⟨2, 0, 0, 3, false⟩, ⟨2, 1, 0, 3, false⟩] } });
     decide (hasTile s tile.val = true) && (
     (streamQ s tile.val).head?.any (fun c =>
     decide (streamLost s tile = false ∧ c.desc = none ∧ stOp c.words = 2)))) = true ∧
    (let tile : Fin 8 := 0;
     let s : State := { wm 0x1000 [3, word 0x2000, word 0x3000, 64, 0, 0, 0, 0] (wm 0x2000 [1, 2, 3, 4] (maps [(0, bu)] ready)) with streams := [(0, [⟨some 0x1000, [], none, 0, 0, none⟩])] };
     decide (hasTile s tile.val = true) && (
     (streamQ s tile.val).head?.any (fun c =>
     decide (c.move = none ∧ streamLost s tile = false) && (
     c.desc.any (fun a =>
     decide (descStatus s c = none ∧ streamBad s c = false ∧ stOp (descWords s a) = 3 ∧ 0 < stLen (descWords s a) ∧
       rangeMemory s (stSrc (descWords s a)) (stLen (descWords s a)) = true ∧
       rangeMemory s (stDst (descWords s a)) (stLen (descWords s a)) = true ∧
       (slotsQuiet s = true ∨ touchesCommitted s (stDst (descWords s a)) (stLen (descWords s a)) = false) ∧
       heldRange s (stSrc (descWords s a)) (stLen (descWords s a)) = false ∧
       heldRange s (stDst (descWords s a)) (stLen (descWords s a)) = false ∧
       poisonIn s false (stSrc (descWords s a)) (stLen (descWords s a)) = none)))))) = true := by
  decide +kernel

theorem test_hypotheses_window_cursor :
    (let n : Fin 64 := 0;
     let s : State := ready;
     decide ((cursorLive s n.val = false ∨ cursorOf s n.val = none))) = true ∧
    (let n : Fin 64 := 0;
     let s : State := gr { cursors := [{ slot := 0, plan := [] }] } lt;
     decide (cursorLive s n.val = true) && (
     (cursorOf s n.val).any (fun c =>
     decide (c.plan = [])))) = true ∧
    (let n : Fin 64 := 0;
     let s : State := gr { cursors := [{ slot := 0, plan := [(3, false), (4, false)] }] } lt;
     decide (cursorLive s n.val = true) && (
     (cursorOf s n.val).any (fun c =>
     c.plan.head?.any (fun (layer, _) =>
     decide (((resident s layer || inFlight s layer) && !dropping s layer) = true))))) = true ∧
    (let n : Fin 64 := 0;
     let s : State := gr { cursors := [{ slot := 0, plan := [(4, false)] }] } (wrs [(pgStream 0, 0x820, 0)] lt);
     decide (cursorLive s n.val = true) && (
     (cursorOf s n.val).any (fun c =>
     c.plan.head?.any (fun (layer, _) =>
     decide (((resident s layer || inFlight s layer) && !dropping s layer) = false ∧ windowDepth s ≤ (heldLayers s).length ∧
       releaseChoice s layer = none))))) = true ∧
    (let n : Fin 64 := 0;
     let s : State := gr { cursors := [{ slot := 0, plan := [(4, false)] }] } lt;
     decide (cursorLive s n.val = true) && (
     (cursorOf s n.val).any (fun c =>
     c.plan.head?.any (fun (layer, _) =>
     decide (((resident s layer || inFlight s layer) && !dropping s layer) = false ∧
       ((heldLayers s).length < windowDepth s ∨ releaseChoice s layer ≠ none) ∧ (∀ i ∈ layerEntries s layer, isStream s i = true)))))) = true ∧
    (let layer : BitVec 16 := 4;
     let s : State := gr { cursors := [{ slot := 0, plan := [(4, false)] }] } lt;
     decide (resident s layer.toNat = false)) = true ∧
    (let layer : BitVec 16 := 3;
     let s : State := gr { cursors := [{ slot := 0, plan := [(4, false)] }] } lt;
     decide (resident s layer.toNat = true ∧ (s.granger.cursors.map (fun c => c.slot)).Nodup ∧
       (∀ c ∈ s.granger.cursors, cursorAtt s c.slot = none))) = true := by
  decide +kernel

theorem test_hypotheses_dma_channels :
    (let r : Requester := Requester.host;
     let tile : Fin 8 := 0;
     let n : Fin 32 := 0;
     let s : State := ch 0 1 192 {} ready;
     decide (hasTile s tile.val = true ∧ badRequester s r = false ∧ issues s r = true ∧
       (dmaState s tile n = dmBusy ∨ (rd s (pgDma tile n) 0x010).bit 0 = false))) = true ∧
    (let r : Requester := Requester.host;
     let tile : Fin 8 := 0;
     let n : Fin 32 := 0;
     let s : State := ch 0 0 192 {} ready;
     decide (hasTile s tile.val = true ∧ badRequester s r = false ∧ issues s r = true ∧ dmaState s tile n ≠ dmBusy ∧
       (rd s (pgDma tile n) 0x010).bit 0 = true ∧ dmaCount s (pgDma tile n) ≠ 0 ∧
       (srcFixed s (pgDma tile n) = true → fixedBad s (pgDma tile n) (dmaSrc s (pgDma tile n)) = false) ∧
       (dstFixed s (pgDma tile n) = true → fixedBad s (pgDma tile n) (dmaDst s (pgDma tile n)) = false))) = true ∧
    (let tile : Fin 8 := 0;
     let s : State := ready;
     decide (hasTile s tile.val = true ∧ (nextChannel s tile = none ∨ dmaLost s tile = true))) = true ∧
    (let tile : Fin 8 := 0;
     let s : State := ch 0 1 192 {} ready;
     decide (hasTile s tile.val = true ∧ dmaLost s tile = false) && (
     (nextChannel s tile).any (fun n =>
     let len := min (burstBytes s (pgDma tile n)) (dmaCount s (pgDma tile n) - (dmaOf s tile n).issued);
     let src := addr48 (if srcFixed s (pgDma tile n) then dmaSrc s (pgDma tile n) else dmaSrc s (pgDma tile n) + (dmaOf s tile n).issued);
     let dst := addr48 (if dstFixed s (pgDma tile n) then dmaDst s (pgDma tile n) else dmaDst s (pgDma tile n) + (dmaOf s tile n).issued);
     decide (rangeMemory s src len = true ∧ rangeMemory s dst len = true ∧ (slotsQuiet s = true ∨ touchesCommitted s dst len = false) ∧
       heldRange s src len = false ∧ heldRange s dst len = false ∧ poisonIn s false src len = none)))) = true ∧
    (let tile : Fin 8 := 0;
     let n : Fin 32 := 0;
     let s : State := ready;
     decide (hasTile s tile.val = true ∧ (dmaState s tile n ≠ dmBusy ∨ dmaLost s tile = true))) = true ∧
    (let tile : Fin 8 := 0;
     let n : Fin 32 := 0;
     let s : State := ch 0 1 192 { issued := 192, returned := 192 } ready;
     decide (hasTile s tile.val = true ∧ dmaState s tile n = dmBusy ∧ dmaLost s tile = false ∧ (dmaOf s tile n).finishing = false ∧
       (dmaOf s tile n).issued = dmaCount s (pgDma tile n))) = true := by
  decide +kernel

theorem test_hypotheses_peer_links :
    (let n : Fin 6 := 0;
     let s : State := ls 1 {} ready;
     decide (linkState s n = 1)) = true ∧
    (let n : Fin 6 := 0;
     let s : State := { ls 2 {} ready with now := 10 ^ 9 };
     decide (linkState s n ≠ 1)) = true ∧
    (let n : Fin 6 := 0;
     let s : State := { ls 2 {} ready with now := 10 ^ 9 };
     decide ((linkState s n = 2 ∨ linkState s n = 6))) = true ∧
    (let n : Fin 6 := 0;
     let s : State := ls 3 {} ready;
     decide (linkState s n = 3)) = true ∧
    (let n : Fin 6 := 0;
     let s : State := ls 7 { txSeq := 5 } (wrs [(pgIdent, 0x140, 0x1000000)] ready);
     decide (linkState s n ≠ 2 ∧ linkState s n ≠ 6)) = true ∧
    (let n : Fin 6 := 0;
     let s : State := { ls 2 {} ready with now := 10 ^ 9 };
     decide (linkState s n ≠ 3)) = true ∧
    (let n : Fin 6 := 0;
     let i : NeighbourInfo := ⟨1, 0x100, 0x333000⟩;
     let s : State := ls 4 {} ready;
     decide (linkState s n = 4 ∧ identifyCause s n.val i = 0)) = true ∧
    (let n : Fin 6 := 0;
     let i : NeighbourInfo := ⟨2, 0x100, 0x333000⟩;
     let s : State := ls 4 {} ready;
     decide (linkState s n = 4 ∧ identifyCause s n.val i ≠ 0 ∧ (port s n.val).retry = [] ∧ (port s n.val).waiting = [] ∧ (∃ m : Fin 6, m ≠ n ∧
       linkState s m ≠ 7))) = true ∧
    (let n : Fin 6 := 0;
     let s : State := { ls 2 {} ready with now := 10 ^ 9 };
     decide (linkState s n ≠ 4)) = true ∧
    (let n : Fin 6 := 0;
     let s : State := { ls 2 {} ready with now := 10 ^ 9 };
     decide (linkState s n ≠ 0 ∧ linkState s n ≠ 5 ∧ linkState s n ≠ 7 ∧ (port s n.val).retry = [] ∧ (port s n.val).waiting = [] ∧
       (∃ m : Fin 6, m ≠ n ∧ linkState s m ≠ 7) ∧ (port s n.val).since + (if (port s n.val).retraining then 100000000 else 200000000) ≤ s.now)) = true ∧
    (let n : Fin 6 := 0;
     let s : State := ls 7 { txSeq := 5 } (wrs [(pgIdent, 0x140, 0x1000000)] ready);
     decide ((linkState s n = 0 ∨ linkState s n = 5 ∨ linkState s n = 7 ∨ s.now < (port s n.val).since + (if (port s n.val).retraining then 100000000 else 200000000)))) = true ∧
    (let n : Fin 6 := 0;
     let s : State := ls 5 {} ready;
     decide (linkState s n = 5)) = true ∧
    (let n : Fin 6 := 0;
     let s : State := ls 7 { txSeq := 5 } ready;
     decide (linkState s n = 7 ∧ portAllowed s n.val = false ∧ (port s n.val).retry = [] ∧ (port s n.val).waiting = [])) = true ∧
    (let n : Fin 6 := 0;
     let s : State := ls 7 { txSeq := 5 } (wrs [(pgIdent, 0x140, 0x1000000)] ready);
     decide (linkState s n = 7 ∧ portAllowed s n.val = true)) = true := by
  decide +kernel

theorem test_hypotheses_peer_flits :
    (let n : Fin 6 := 0;
     let f : WelurFlit := ⟨2, 0, true, 0, false, 0⟩;
     let s : State := { lact { retry := [(1, 0, pcoll)] } ready with now := 5000 };
     decide (linkState s n = 5 ∧ (port s n.val).waiting = [] ∧ f.uncorrectable = 0 ∧ f.crcOk = true ∧ f.nak = false ∧
       f.seq.toNat = ((port s n.val).rxSeq + 1) % 2 ^ 15)) = true ∧
    (let n : Fin 6 := 0;
     let f : WelurFlit := ⟨2, 0, true, 0, false, 0⟩;
     let s : State := lact { retry := [(1, 0, pcoll)], rxSeq := 5 } ready;
     decide (linkState s n = 5 ∧ (port s n.val).waiting = [] ∧ f.uncorrectable = 0 ∧ f.crcOk = true ∧ f.nak = false ∧
       f.seq.toNat ≠ ((port s n.val).rxSeq + 1) % 2 ^ 15)) = true ∧
    (let n : Fin 6 := 0;
     let f : WelurFlit := ⟨2, 1, true, 0, false, 0⟩;
     let s : State := { lact { retry := [(1, 0, pcoll)] } ready with now := 5000 };
     decide (linkState s n = 5 ∧ (port s n.val).waiting = [] ∧ (f.uncorrectable ≠ 0 ∨ f.crcOk = false))) = true ∧
    (let n : Fin 6 := 0;
     let s : State := (let s := lact {} (maps [(0, bu)] ready); { s with mem := { s.mem with moves := [{ bushel := 0, tier := 1, tile := 1, cluster := 0, trigger := 0, switching := true, snoops := [3] }] } });
     decide (linkState s n = 5 ∧ ((port s n.val).retry = [] ∨ s.now < (port s n.val).ackSince + 4000))) = true ∧
    (let n : Fin 6 := 0;
     let s : State := { lact { retry := [(1, 0, pcoll)] } ready with now := 5000 };
     decide (linkState s n = 5 ∧ (port s n.val).retry ≠ [] ∧ (port s n.val).ackSince + 4000 ≤ s.now ∧
       (recentReplays s (port s n.val)).length < 16 ∧ (∀ e ∈ (port s n.val).retry, e.2.1 + 1 < 8))) = true ∧
    (let n : Fin 6 := 0;
     let p : PeerPacket := { pcoll with dst := 0x010, hops := 48 };
     let s : State := { lact { retry := [(1, 0, pcoll)] } ready with now := 5000 };
     decide (linkState s n = 5 ∧ 4 ≤ p.kind.val ∧ p.kind.val < 10 ∧ p.dst.toNat ≠ ownCoord s ∧ 48 ≤ p.hops)) = true ∧
    (let n : Fin 6 := 0;
     let p : PeerPacket := { pcoll with kind := 7 };
     let s : State := { lact {} ready with now := 200000 };
     decide (linkState s n = 5 ∧ 4 ≤ p.kind.val ∧ p.kind.val < 10 ∧ peerExpired s p = true ∧ (p.dst.toNat = ownCoord s ∨ p.hops < 48))) = true ∧
    (let n : Fin 6 := 0;
     let p : PeerPacket := { pcoll with dst := 0x010 };
     let s : State := { lact { retry := [(1, 0, pcoll)] } ready with now := 5000 };
     decide (linkState s n = 5 ∧ 4 ≤ p.kind.val ∧ p.kind.val < 10 ∧ p.dst.toNat ≠ ownCoord s ∧ p.hops < 48 ∧ peerExpired s p = false) && (
     (routePort s p.dst.toNat).any (fun (o, _) =>
     decide (portNode s n.val ≠ portNode s o)))) = true ∧
    (let n : Fin 6 := 0;
     let p : PeerPacket := { pcoll with epoch := 1, kind := 8 };
     let s : State := { lact { retry := [(1, 0, pcoll)] } ready with now := 5000 };
     decide (linkState s n = 5 ∧ 4 ≤ p.kind.val ∧ p.kind.val < 10 ∧ p.dst.toNat = ownCoord s ∧ peerExpired s p = false ∧
       staleLaunch s p = false ∧ (p.kind.val = 4 → staleGroup s p = false) ∧ p.epoch.toNat ≠ curEpoch s ∧ nextEpoch s = some p.epoch.toNat)) = true ∧
    (let n : Fin 6 := 0;
     let p : PeerPacket := { pcoll with kind := 7 };
     let s : State := (let s := lact {} (maps [(0, bu)] ready); { s with mem := { s.mem with moves := [{ bushel := 0, tier := 1, tile := 1, cluster := 0, trigger := 0, switching := true, snoops := [3] }] } });
     decide (linkState s n = 5 ∧ 4 ≤ p.kind.val ∧ p.kind.val < 10 ∧ p.dst.toNat = ownCoord s ∧ peerExpired s p = false ∧
       staleLaunch s p = false ∧ (p.kind.val = 4 → staleGroup s p = false) ∧ p.epoch.toNat = curEpoch s ∧
       (packetRanges s p).any (fun e => heldRange s e.1 e.2) = true)) = true ∧
    (let n : Fin 6 := 0;
     let p : PeerPacket := { pcoll with kind := 3 };
     let s : State := { lact { retry := [(1, 0, pcoll)] } ready with now := 5000 };
     decide (linkState s n = 5 ∧ p.kind.val = 3 ∧ staleLaunch s p = false ∧ staleGroup s p = false ∧
       ((port s n.val).slotted.map (fun e => slottedFlits e.2)).sum + slottedFlits p ≤ 2048)) = true ∧
    (let n : Fin 6 := 0;
     let p : PeerPacket := { pcoll with kind := 3, launch := 9 };
     let s : State := { lact { retry := [(1, 0, pcoll)] } ready with now := 5000 };
     decide (linkState s n = 5 ∧ p.kind.val = 3 ∧ staleLaunch s p = true)) = true ∧
    (let n : Fin 6 := 0;
     let p : PeerPacket := { pcoll with kind := 3, group := 9 };
     let s : State := { lact { retry := [(1, 0, pcoll)] } ready with now := 5000 };
     decide (linkState s n = 5 ∧ p.kind.val = 3 ∧ staleLaunch s p = false ∧ staleGroup s p = true)) = true ∧
    (let n : Fin 6 := 0;
     let p : PeerPacket := { pcoll with kind := 3 };
     let s : State := lact { slotted := List.replicate 2048 (0, { pcoll with kind := 3 }) } ready;
     decide (linkState s n = 5 ∧ p.kind.val = 3 ∧ staleLaunch s p = false ∧ staleGroup s p = false ∧
       2048 < ((port s n.val).slotted.map (fun e => slottedFlits e.2)).sum + slottedFlits p ∧ stepRunning s = false)) = true ∧
    (let n : Fin 6 := 0;
     let s : State := State.reset;
     decide (linkState s n ≠ 5)) = true := by
  decide +kernel

theorem test_hypotheses_coll_groups :
    (let v : Word := 0x10001;
     let s : State := cg gw {} ready;
     decide (v.bits 1 0 = 1 ∧ s.coll.groups.length < 4096 ∧ mfind s.coll.groups ((rd s pgColl 0x110).bits 11 0) = none ∧
       badGroup s (rd s pgColl 0x110) = false)) = true ∧
    (let v : Word := 0x10001;
     let s : State := cg gw { groups := (List.range 4096).map (fun i => (i, { gen := 0, defn := 0 })) } ready;
     decide (v.bits 1 0 = 1 ∧ 4096 ≤ s.coll.groups.length)) = true ∧
    (let v : Word := 0x8000000010002;
     let s : State := cg gw { queue := [cc 1] } ready;
     decide (v.bits 1 0 = 2 ∧ s.coll.queue.any (names ((rd s pgColl 0x110).bits 11 0)) = true)) = true ∧
    (let v : Word := 0x8000000010002;
     let s : State := cg gw { groups := [(3, { gen := 2, defn := gw })] } ready;
     decide (v.bits 1 0 = 2 ∧ s.coll.queue.any (names ((rd s pgColl 0x110).bits 11 0)) = false) && (
     (groupOf s ((rd s pgColl 0x110).bits 11 0)).any (fun g =>
     decide (g.gen = (rd s pgColl 0x110).bits 19 12)))) = true ∧
    (let id : BitVec 12 := 3;
     let s : State := { cg gw { groups := [(3, { gen := 2, defn := gw, quarantine := some 5 })] } ready with now := 5 };
     (mfind s.coll.groups id.toNat).any (fun g =>
     g.quarantine.any (fun q =>
     decide (q ≤ s.now)))) = true ∧
    (let id : BitVec 12 := 3;
     let s : State := cg gw { groups := [(3, { gen := 2, defn := gw, quarantine := some 5 })] } ready;
     (mfind s.coll.groups id.toNat).any (fun g =>
     g.quarantine.any (fun q =>
     decide (s.now < q)))) = true ∧
    (let id : BitVec 12 := 3;
     let s : State := cg gw { groups := (List.range 4096).map (fun i => (i, { gen := 0, defn := 0 })) } ready;
     (mfind s.coll.groups id.toNat).any (fun g =>
     decide (g.quarantine = none))) = true ∧
    (let v : Word := 0;
     let s : State := cg gw { groups := (List.range 4096).map (fun i => (i, { gen := 0, defn := 0 })) } ready;
     decide (v &&& ~~~(word (bm 16 0 + bm 51 32)) = 0 ∧ (s.coll.queue.all (fun c => !c.held) = true ∨ v.bits 15 0 = fld s pgColl 0x140 15 0))) = true ∧
    (let v : Word := 0;
     let s : State := cg gw { queue := [{ cc 1 with held := true, epoch := 1 }] } (wrs [(pgColl, 0x140, 0x10001)] ready);
     decide (v &&& ~~~(word (bm 16 0 + bm 51 32)) = 0 ∧ s.coll.queue.any (fun c => c.held) = true ∧ v.bits 15 0 ≠ fld s pgColl 0x140 15 0)) = true ∧
    (let s : State := cg gw { queue := [{ cc 1 with held := true, epoch := 1 }] } (wrs [(pgColl, 0x140, 0x10001)] ready);
     decide ((nextEpoch s).isSome = true ∧ s.coll.queue.any (fun c => decide (c.epoch = curEpoch s)) = false ∧ s.coll.heldPackets = [])) = true ∧
    (let s : State := cg gw { groups := (List.range 4096).map (fun i => (i, { gen := 0, defn := 0 })) } ready;
     decide ((nextEpoch s = none ∨ s.coll.queue.any (fun c => decide (c.epoch = curEpoch s)) = true))) = true := by
  decide +kernel

theorem test_hypotheses_coll_commands :
    (let r : Requester := .core ⟨0, 0, 0⟩;
     let s : State := (let s := cr tcore ready; { s with coll := { queue := List.replicate 64 (cc 1) } });
     decide (badRequester s r = false ∧ issues s r = true ∧ 64 ≤ s.coll.queue.length) && (
     (match r with | .core _ => true | _ => false))) = true ∧
    (let r : Requester := .host;
     let s : State := (let s := cr tcore ready; { s with coll := { queue := List.replicate 64 (cc 1) } });
     decide (badRequester s r = false ∧ issues s r = true ∧ 64 ≤ s.coll.queue.length ∧ (match r with | .core _ => false | _ => true) = true)) = true ∧
    (let r : Requester := .host;
     let v : Word := 0x1000;
     let s : State := cq [] id;
     decide (badRequester s r = false ∧ issues s r = true ∧ s.coll.queue.length < 64 ∧ cw (descWords s (v.bits 47 0)) 0 47 32 = curEpoch s ∧
       poisonIn s false (v.bits 47 0) 64 = none)) = true ∧
    (let i : Nat := 0;
     let s : State := (let s := cr tcore ready; { s with coll := { queue := List.replicate 64 (cc 1) } });
     (s.coll.queue[i]?).any (fun c =>
     decide (c.result = none ∧ (coOp c.words ≠ 2 ∨ attachmentLost s c.tile = true ∨ (cmdRanges s c).any (fun x => heldRange s x.1 x.2) = true)))) = true ∧
    (let i : Nat := 1;
     let s : State := (let s := cr tcore ready; { s with coll := { queue := List.replicate 64 (cc 1) } });
     (s.coll.queue[i]?).any (fun c =>
     decide (c.result = none ∧ coOp c.words = 1 ∧ attachmentLost s c.tile = false ∧ (cmdRanges s c).any (fun x => heldRange s x.1 x.2) = false ∧
       c.executing = false ∧ mayStart s i c = false))) = true ∧
    (let i : Nat := 0;
     let s : State := (let s := cr tcore ready; { s with coll := { queue := List.replicate 64 (cc 1) } });
     (s.coll.queue[i]?).any (fun c =>
     decide (c.result = none ∧ coOp c.words = 1 ∧ attachmentLost s c.tile = false ∧ (cmdRanges s c).any (fun x => heldRange s x.1 x.2) = false ∧
       c.executing = false ∧ mayStart s i c = true ∧ ringOf s c = none))) = true ∧
    (let i : Nat := 0;
     let s : State := cq (List.replicate 64 (cc 1)) id;
     (s.coll.queue[i]?).any (fun c =>
     decide (c.result = none ∧ coOp c.words = 1 ∧ attachmentLost s c.tile = false ∧
       (cmdRanges s c).any (fun x => heldRange s x.1 x.2) = false) && (
     (ringOf s c).any (fun r =>
     decide (c.executing = false ∧ mayStart s i c = true ∧ c.layer = none ∧ startStatus s c r = none ∧
       (ownTag { c with executing := true } r (setCmd c { c with executing := true } s)).1 = none ∧ s.coll.received = [] ∧
       c.got < chunksDue c.words r))))) = true ∧
    (let i : Nat := 0;
     let s : State := cq [{ cc 1 with executing := true }] id;
     (s.coll.queue[i]?).any (fun c =>
     decide (c.result = none ∧ coOp c.words = 1 ∧ attachmentLost s c.tile = false ∧
       (cmdRanges s c).any (fun x => heldRange s x.1 x.2) = false) && (
     (ringOf s c).any (fun r =>
     decide (c.executing = true ∧ s.coll.received.filter (contributes c) = [] ∧ c.got < chunksDue c.words r))))) = true ∧
    (let i : Nat := 0;
     let s : State := cq [{ cc 1 with executing := true, got := 3 }] id;
     (s.coll.queue[i]?).any (fun c =>
     decide (c.result = none ∧ coOp c.words = 1 ∧ attachmentLost s c.tile = false ∧
       (cmdRanges s c).any (fun x => heldRange s x.1 x.2) = false) && (
     (ringOf s c).any (fun r =>
     decide (c.executing = true ∧ s.coll.received.filter (contributes c) = [] ∧ chunksDue c.words r ≤ c.got))))) = true ∧
    (let i : Nat := 0;
     let s : State := cq [{ cc 1 with result := some 1 }, { cc 1 with result := some 1 }] id;
     (s.coll.queue[i]?).any (fun c =>
     c.result.any (fun st =>
     decide (st < 256 ∧ c.layer = none ∧ cw c.words 4 19 19 = 0 ∧ (rd s pgColl 0x140).bit 51 = false ∧ stepRunning s = false ∧ s.control = [] ∧
       endStatus s c st = st)))) = true := by
  decide +kernel

theorem test_hypotheses_put_and_exchange :
    (let i : Nat := 0;
     let s : State := cqp [cc 7] id;
     (s.coll.queue[i]?).any (fun c =>
     decide (c.result = none ∧ coOp c.words = 7 ∧ attachmentLost s c.tile = false ∧ (putRanges s c).any (fun x => heldRange s x.1 x.2) = false ∧
       c.executing = false ∧ mayStart s i c = true ∧ readStatus s (coSrc c.words) (coBytes c.words) = none ∧ cw c.words 5 11 0 ≠ ownCoord s))) = true ∧
    (let i : Nat := 0;
     let s : State := cqp [{ cc 7 with executing := true, unacked := [5] }] id;
     (s.coll.queue[i]?).any (fun c =>
     decide (c.result = none ∧ coOp c.words = 7 ∧ attachmentLost s c.tile = false ∧ (putRanges s c).any (fun x => heldRange s x.1 x.2) = false ∧
       c.executing = true ∧ c.unacked ≠ []))) = true ∧
    (let i : Nat := 0;
     let s : State := cqp [{ cc 7 with executing := true }] id;
     (s.coll.queue[i]?).any (fun c =>
     decide (c.result = none ∧ coOp c.words = 7 ∧ attachmentLost s c.tile = false ∧ (putRanges s c).any (fun x => heldRange s x.1 x.2) = false ∧
       c.executing = true ∧ c.unacked = []))) = true ∧
    (let i : Nat := 0;
     let s : State := cqp [cc 8] id;
     (s.coll.queue[i]?).any (fun c =>
     decide (c.result = none ∧ attachmentLost s c.tile = false ∧ coOp c.words = 8 ∧
       (if 8 = 8 then dispatchRanges s c else combineRanges s c).any (fun x => heldRange s x.1 x.2) = false ∧ c.executing = false ∧
       mayStart s i c = true) && (
     decide ((ringOf s c).isSome = true ∧ coCount c.words = 0 ∧ heldRows s = [])))) = true ∧
    (let i : Nat := 0;
     let s : State := cqp [{ cc 8 with executing := true }] (fun c => { c with groups := [] });
     (s.coll.queue[i]?).any (fun c =>
     decide (c.result = none ∧ attachmentLost s c.tile = false ∧ coOp c.words = 8 ∧
       (if 8 = 8 then dispatchRanges s c else combineRanges s c).any (fun x => heldRange s x.1 x.2) = false ∧ c.executing = true ∧
       ringOf s c = none))) = true ∧
    (let i : Nat := 0;
     let s : State := cqp [{ cc 8 with executing := true, unacked := [5] }] id;
     (s.coll.queue[i]?).any (fun c =>
     decide (c.result = none ∧ attachmentLost s c.tile = false ∧ coOp c.words = 8 ∧
       (if 8 = 8 then dispatchRanges s c else combineRanges s c).any (fun x => heldRange s x.1 x.2) = false ∧ c.executing = true) && (
     decide ((ringOf s c).isSome = true ∧
       (∀ p ∈ s.coll.received, p.kind.val = 6 → p.group.toNat = coGroup c.words → p.seq.toNat = c.number → shapeStatus c p = none) ∧
       c.unacked ≠ [])))) = true ∧
    (let i : Nat := 0;
     let s : State := cqp [{ cc 8 with executing := true }] (fun c => { c with received := [0x100, 0x200, 0x300].map (fun x => { pend with src := x, expert := 8 * 4096, inc := 1 }) });
     (s.coll.queue[i]?).any (fun c =>
     decide (c.result = none ∧ attachmentLost s c.tile = false ∧ coOp c.words = 8 ∧
       (if 8 = 8 then dispatchRanges s c else combineRanges s c).any (fun x => heldRange s x.1 x.2) = false ∧ c.executing = true) && (
     (ringOf s c).any (fun r =>
     decide ((∀ p ∈ s.coll.received, p.kind.val = 6 → p.group.toNat = coGroup c.words → p.seq.toNat = c.number → shapeStatus c p = none) ∧
       c.unacked = [] ∧ endsIn s c r = true))))) = true := by
  decide +kernel

theorem test_hypotheses_keeper_events :
    (let n : Fin 6 := 0;
     let s : State := ke { mirrorDue := true, copyA := [(8, 0x123)] } (wrs [(pgPeer 0, 0x110, 5)] ready);
     decide (linkState s n = 5)) = true ∧
    (let n : Fin 6 := 0;
     let s : State := { ke { actState := 2, prevB := true, wdCount := 2 } ready with now := 2 * 10 ^ 12 };
     decide (linkState s n ≠ 5)) = true ∧
    (let s : State := ke { mirrorDue := true, copyA := [(8, 0x123)] } (wrs [(pgPeer 0, 0x110, 5)] ready);
     decide (s.keeper.mirrorDue = true)) = true ∧
    (let s : State := { ke { actState := 2, prevB := true, wdCount := 2 } ready with now := 2 * 10 ^ 12 };
     decide (s.keeper.pending = false)) = true ∧
    (let s : State := { ke { actState := 2, prevB := true, wdCount := 2 } ready with now := 2 * 10 ^ 12 };
     decide ((s.keeper.pending = false ∨ s.now < s.keeper.pendingT))) = true ∧
    (let s : State := ke { pending := true } ready;
     decide (s.keeper.pending = true ∧ s.keeper.pendingT ≤ s.now ∧ slotsQuiet s = true)) = true ∧
    (let s : State := ke { pending := true } (sl 0 { state := .running } ready);
     decide (s.keeper.pending = true ∧ s.keeper.pendingT ≤ s.now ∧ slotsQuiet s = false)) = true ∧
    (let s : State := bst 2 ready;
     decide ((s.keeper.actState ≠ 2 ∨ s.now < s.keeper.actT + 900000000000))) = true ∧
    (let s : State := { ke { actState := 2, prevB := true, wdCount := 2 } ready with now := 2 * 10 ^ 12 };
     decide (s.keeper.actState = 2 ∧ s.keeper.actT + 900000000000 ≤ s.now)) = true ∧
    (let s : State := bst 2 ready;
     decide ((s.keeper.actState ≠ 2 ∨ s.keeper.wdCount < 2))) = true ∧
    (let s : State := { ke { actState := 2, prevB := true, wdCount := 2 } ready with now := 2 * 10 ^ 12 };
     decide (s.keeper.actState = 2 ∧ 2 ≤ s.keeper.wdCount)) = true ∧
    (let s : State := ke { copyA := [(8, 0x123)] } (bst 4 ready);
     decide (bootStage s = 4 ∧ s.keeper.chainKnown = false)) = true ∧
    (let s : State := { ke { actState := 2, prevB := true, wdCount := 2 } ready with now := 2 * 10 ^ 12 };
     decide ((bootStage s ≠ 4 ∨ s.keeper.chainKnown = true))) = true ∧
    (let s : State := ke { restarting := true } ready;
     decide (s.keeper.restarting = true)) = true ∧
    (let s : State := bst 0 ready;
     decide (s.keeper.restarting = false ∧ bootStage s ≤ 1)) = true ∧
    (let s : State := bst 2 ready;
     decide (s.keeper.restarting = false ∧ bootStage s = 2 ∧ headerOk s (activeSlot s) = true)) = true ∧
    (let s : State := bst 3 ready;
     decide (s.keeper.restarting = false ∧ bootStage s = 3)) = true ∧
    (let s : State := { ke { actState := 2, prevB := true, wdCount := 2 } ready with now := 2 * 10 ^ 12 };
     decide (s.keeper.restarting = false ∧ bootStage s ≠ 3)) = true ∧
    (let s : State := wrs [(pgHostif, 0x100, 2)] (bst 8 ready);
     decide (s.keeper.restarting = false ∧ bootStage s = 8 ∧ fld s pgHostif 0x100 1 0 = 2)) = true ∧
    (let s : State := bst 2 ready;
     decide (s.keeper.restarting = false) && (
     let cause : Fin 8 := 3;
     decide (failsIn (bootStage s) cause.val = true ∧ s.keeper.actState ≠ 2))) = true := by
  decide +kernel

theorem test_hypotheses_step_control :
    (let s : State := wrs [(pgStep, 0x178, 0x2002), (pgFoghorn, 0x800, 0)] (sp id ready);
     s.step.slot.any (fun n =>
     decide ((slot s n).state = .running ∧ slotTasksEnded s n = true ∧ s.step.deferred = 0 ∧ (fhOn s = true → s.step.lossWritten = true) ∧
       stage s = sgCopying))) = true ∧
    (let s : State := sp (fun c => { c with lossWritten := true }) ready;
     s.step.slot.any (fun n =>
     decide ((slot s n).state = .running ∧ slotTasksEnded s n = true ∧ s.step.deferred = 0 ∧ (fhOn s = true → s.step.lossWritten = true) ∧
       stage s ≠ sgCopying ∧ stepGroupOn s = false))) = true ∧
    (let s : State := spD (fun c => { c with voted := true, barrierDone := true }) (maps [(0, bu)] ready);
     s.step.slot.any (fun n =>
     decide (s.step.voted = true ∧ s.step.barrierDone = true ∧ (slot s n).state = .draining ∧
       s.tasks.filter (fun t => decide (t.slot = n)) = [] ∧ s.mem.shadowLines = [] ∧ s.mem.shadowPoison = [] ∧ tallyCount s = 0 ∧
       s.step.commitFail = false ∧ partnerOn s = false))) = true ∧
    (let s : State := sl 1 { state := .armed, step := true, config := 1, taskCount := 1, effLaunch := 5000 } ready;
     decide (s.step.slot = none) && (
     let m : Notice := ⟨6000, 9000, 1, 0, 3, 0⟩;
     decide (armedFor s m.launch = none ∧ s.step.aborted = none))) = true ∧
    (let s : State := sl 1 { state := .armed, step := true, config := 1, taskCount := 1, effLaunch := 5000 } ready;
     decide (s.step.slot = none) && (
     let m : Notice := ⟨5000, 9000, 1, 0, 3, 0⟩;
     decide ((armedFor s m.launch).isSome = true ∧ m.classOf = 0))) = true ∧
    (let r : Requester := .core ⟨0, 0, 0⟩;
     let v : Word := 0;
     let s : State := (let s := cr tcore (sp id ready); { s with tasks := [{ tk 0 ⟨0, 0, 0⟩ .running with att := some 2 }] });
     decide (badRequester s r = false ∧ issues s r = true ∧ v.bits 63 32 = 0 ∧ otherAttempt s r = true)) = true ∧
    (let r : Requester := .host;
     let v : Word := 0;
     let s : State := spD (fun c => { c with voted := true, barrierDone := true }) (maps [(0, bu)] ready);
     decide (badRequester s r = false ∧ issues s r = true ∧ v.bits 63 32 = 0 ∧ otherAttempt s r = false ∧
       (phase s ≠ 2 ∨ s.step.lossWritten = true))) = true ∧
    (let r : Requester := .host;
     let v : Word := 0;
     let s : State := wrs [(pgStep, 0x178, 0x2002), (pgFoghorn, 0x800, 0)] (sp id ready);
     decide (badRequester s r = false ∧ issues s r = true ∧ v.bits 63 32 = 0 ∧ otherAttempt s r = false ∧ phase s = 2 ∧
       s.step.lossWritten = false ∧ fhOn s = false)) = true ∧
    (let r : Requester := .host;
     let v : Word := 0;
     let s : State := { sp id ready with now := 2 ^ 50 };
     decide (badRequester s r = false ∧ issues s r = true ∧ v.bits 63 32 = 0 ∧ otherAttempt s r = false ∧ phase s = 2 ∧
       s.step.lossWritten = false ∧ fhOn s = true ∧ judge s (BitVec.ofNat 32 (v.bits 31 0)) = none)) = true ∧
    (let r : Requester := .host;
     let s : State := sp (fun c => { c with nfSeen := true }) (wrs [(pgFoghorn, 0x800, 1)] ready);
     decide (badRequester s r = false ∧ issues s r = true ∧ phase s = 2 ∧ fhOn s = true ∧ s.step.nfSeen = true)) = true ∧
    (let r : Requester := .host;
     let s : State := { sp id ready with now := 2 ^ 50 };
     decide (badRequester s r = false ∧ issues s r = true ∧ otherAttempt s r = false ∧ phase s = 2 ∧ fhOn s = true ∧ s.step.nfSeen = false)) = true ∧
    (let s : State := spD (fun c => { c with voted := true, barrierDone := true }) (maps [(0, bu)] ready);
     decide (stepRunning s = false)) = true ∧
    (let s : State := { sp id ready with now := 2 ^ 50 };
     decide (stepRunning s = true)) = true ∧
    (let s : State := sp (fun c => { c with faulted := some 3 }) ready;
     let c : Fin 27 := 1;
     decide (c.val ≠ 0 ∧ s.control = [] ∧ stepLive s = true ∧ s.step.faulted.isSome = true)) = true ∧
    (let s : State := sp (fun c => { c with voted := true }) ready;
     let c : Fin 27 := 1;
     decide (c.val ≠ 0 ∧ s.control = [] ∧ stepLive s = true ∧ s.step.faulted = none ∧ s.step.voted = true ∧ s.step.att < 256)) = true ∧
    (let s : State := (let s := cr tcore (sp id ready); { s with tasks := [{ tk 0 ⟨0, 0, 0⟩ .running with att := some 2 }] });
     decide ((stepLive s = false ∨ s.step.barrierDone = true ∨ s.now < s.step.launch + stepLimit s))) = true ∧
    (let s : State := { sp id ready with now := 2 ^ 50 };
     decide (s.step.slot.isSome = true ∧ stepLive s = true ∧ s.step.barrierDone = false ∧ s.step.voted = false ∧
       s.step.launch + stepLimit s ≤ s.now)) = true := by
  decide +kernel

theorem test_hypotheses_checkpoints :
    (let s : State := kp 2 (fun c => { c with dueFlash := true, dueStore := true, duePartner := true, flashSteps := [3, 2] }) ready;
     decide (stage s ≠ 1)) = true ∧
    (let s : State := kp 1 id ready;
     decide (stage s = 1 ∧ s.step.duePartner = false)) = true ∧
    (let s : State := kp 2 (fun c => { c with dueFlash := true, dueStore := true, duePartner := true, flashSteps := [3, 2] }) ready;
     decide (stage s = 2 ∧ s.step.dueFlash = true)) = true ∧
    (let s : State := kp 2 (fun c => { c with dueFlash := true, dueStore := true, duePartner := true, flashSteps := [3, 2] }) ready;
     decide (stage s = 2 ∧ s.step.dueStore = true)) = true ∧
    (let s : State := kp 2 (fun c => { c with dueFlash := true, dueStore := true, duePartner := true, flashSteps := [3, 2] }) ready;
     decide (stage s = 2 ∧ s.step.duePartner = true)) = true ∧
    (let s : State := kp 1 id ready;
     decide (s.step.dueFlash = false)) = true ∧
    (let v : Word := 0;
     let s : State := kp 3 (fun c => { c with restoring := some (2, 7) }) ready;
     decide (v &&& ~~~(word (bm 1 0 + bm 63 32)) = 0 ∧ s.step.restoring.isSome = true)) = true ∧
    (let v : Word := 0;
     let s : State := sl 0 { state := .running } ready;
     decide (v &&& ~~~(word (bm 1 0 + bm 63 32)) = 0 ∧ s.step.restoring = none ∧ slotsQuiet s = false)) = true ∧
    (let v : Word := 0;
     let s : State := kp 1 id ready;
     decide (v &&& ~~~(word (bm 1 0 + bm 63 32)) = 0 ∧ s.step.restoring = none ∧ slotsQuiet s = true ∧
       restoreHeld s (v.bits 1 0) (v.bits 63 32) = false)) = true ∧
    (let v : Word := 2;
     let s : State := kp 0 (fun c => { c with flashSteps := [1, 0] }) ready;
     decide (v &&& ~~~(word (bm 1 0 + bm 63 32)) = 0 ∧ s.step.restoring = none ∧ slotsQuiet s = true ∧
       restoreHeld s (v.bits 1 0) (v.bits 63 32) = true)) = true ∧
    (let e : Fin 6 := 3;
     let s : State := kp 3 (fun c => { c with restoring := some (2, 7) }) ready;
     decide (s.step.restoring.isSome = true ∧ e.val ≠ 0)) = true ∧
    (let e : Fin 6 := 0;
     let s : State := kp 3 (fun c => { c with restoring := some (2, 7) }) ready;
     decide (s.step.restoring.any (fun q => decide (q.1 = 2)) = true ∧ e.val = 0) && (
     true)) = true ∧
    (let v : Word := 0;
     let s : State := kp 1 id ready;
     decide (slotsQuiet s = true ∧ v &&& ~~~(word (bm 0 0 + bm 47 6)) = 0)) = true ∧
    (let v : Word := 0;
     let s : State := sl 0 { state := .running } ready;
     decide (slotsQuiet s = false ∧ v &&& ~~~(word (bm 0 0 + bm 47 6)) = 0)) = true := by
  decide +kernel

theorem test_hypotheses_commits :
    (let r : Requester := Requester.host;
     let p : PageRef := pgIdent;
     let s : State := ready;
     decide (badRequester s r = false ∧ issues s r = true ∧ hasPage s p = true) && (
     (pageBlock p).any (fun b =>
     decide (stagedValues s p b = [])))) = true ∧
    (let r : Requester := Requester.host;
     let p : PageRef := pgGranger 0;
     let s : State := wrs [(.cluster ⟨0, 0⟩, 0x010, 4), (pgGranger 0, 0x010, 5)] ready;
     decide (badRequester s r = false ∧ issues s r = true ∧ hasPage s p = true) && (
     (pageBlock p).any (fun b =>
     decide (stagedValues s p b ≠ [] ∧ (rd s p 0x010).bit 2 = true)))) = true ∧
    (let r : Requester := Requester.host;
     let p : PageRef := pgGranger 1;
     let s : State := wrs [(pgGranger 1, 0x120, 0x201000), (pgGranger 0, 0x120, 0x101000), (.cluster ⟨0, 0⟩, 0x100, 0x20)] ready;
     decide (badRequester s r = false ∧ issues s r = true ∧ hasPage s p = true) && (
     (pageBlock p).any (fun b =>
     decide (stagedValues s p b ≠ [] ∧ (rd s p 0x010).bit 2 = false) && (
     decide ((commitReject s p b).isSome = true))))) = true ∧
    (let r : Requester := Requester.host;
     let p : PageRef := pgGranger 0;
     let s : State := ready;
     decide (badRequester s r = false ∧ issues s r = true ∧ hasPage s p = true) && (
     (pageBlock p).any (fun b =>
     decide (stagedValues s p b ≠ [] ∧ (rd s p 0x010).bit 2 = false ∧ commitReject s p b = none ∧ packageWide p b = true)))) = true ∧
    (let r : Requester := Requester.host;
     let p : PageRef := pgGranger 1;
     let s : State := ready;
     decide (badRequester s r = false ∧ issues s r = true ∧ hasPage s p = true) && (
     (pageBlock p).any (fun b =>
     decide (stagedValues s p b ≠ [] ∧ (rd s p 0x010).bit 2 = false ∧ commitReject s p b = none ∧ packageWide p b = false ∧
       b ∉ [Block.beacon, .coll, .peer, .settings, .trace, .net])))) = true ∧
    (let p : PageRef := pgGranger 0;
     let s : State := ready;
     decide (hasPage s p = true ∧ mfind s.commits (pageBase p) = none)) = true ∧
    (let p : PageRef := pgGranger 0;
     let s : State := { wrs [(pgGranger 0, 0x010, 4), (pgGranger 0, 0x018, 0x10)] ready with commits := [(pageBase (pgGranger 0), [(0x100, 5), (0x108, 6)], 77)] };
     decide ((p = pgGranger 0 ∨ p = pgStream 0) ∧ hasPage s p = true) && (
     (mfind s.commits (pageBase p)).any (fun (l, _) =>
     decide ((l.map Prod.fst).Nodup)))) = true := by
  decide +kernel

theorem test_hypotheses_page_control :
    (let r : Requester := Requester.host;
     let p : PageRef := pgTrace;
     let s : State := ready;
     decide (badRequester s r = false ∧ issues s r = true ∧ hasPage s p = true) && (
     (pageBlock p).any (fun b =>
     decide (b = .trace)))) = true ∧
    (let r : Requester := Requester.host;
     let tile : Fin 8 := 0;
     let n : Fin 32 := 0;
     let s : State := wrs [(pgDma 0 0, 0x130, 1), (pgTtrace 0, 0x010, 1)] ready;
     decide (badRequester s r = false ∧ issues s r = true ∧ hasTile s tile.val = true ∧ dmaState s tile n = dmBusy ∧
       (rd s (pgDma tile n) 0x120).bit 19 = false)) = true ∧
    (let p : PageRef := pgIdent;
     let s : State := ready;
     decide (hasPage s p = true) && (
     let v : Word := 0;
     decide (v &&& ~~~(word (bm 11 0)) = 0))) = true ∧
    (let p : PageRef := pgIdent;
     let v : Word := 1;
     let s : State := ready;
     decide (hasPage s p = true) && (
     decide ((pageBlock p).isSome = true ∧ v &&& ~~~(word (injMask + bm 32 32)) = 0 ∧ v.bits 1 0 = 1 ∧ v.bits 11 8 ≤ 11))) = true ∧
    (let p : PageRef := pgIdent;
     let v : Word := 0xC01;
     let s : State := ready;
     decide (hasPage s p = true) && (
     decide ((pageBlock p).isSome = true ∧ v &&& ~~~(word (injMask + bm 32 32)) = 0 ∧ v.bits 1 0 = 1 ∧ 11 < v.bits 11 8))) = true ∧
    (let p : PageRef := pgIdent;
     let v : Word := 2;
     let s : State := ready;
     decide (hasPage s p = true) && (
     decide ((pageBlock p).isSome = true ∧ v &&& ~~~(word (injMask + bm 32 32)) = 0 ∧ 2 ≤ v.bits 1 0))) = true := by
  decide +kernel

theorem test_hypotheses_register_writes :
    (let p : PageRef := pgIdent;
     let v : Word := 0;
     let s : State := ready;
     decide (hasPage s p = true) && (
     let r : Requester := .host;
     decide (badRequester s r = false ∧ issues s r = true ∧ v &&& ~~~(word (bm 31 0)) = 0))) = true ∧
    (let p : PageRef := pgIdent;
     let s : State := ready;
     decide (hasPage s p = true) && (
     let r : Requester := .host;
     let o : Nat := 0;
     let size : Nat := 0;
     decide (badRequester s r = false ∧ issues s r = true ∧ o < 0x1000 ∧ (size ≠ 8 ∨ o % 8 ≠ 0)))) = true ∧
    (let q : Requester := .host;
     let c : ClusterRef := ⟨0, 0⟩;
     let off : Nat := 0x100;
     let v : Word := 0;
     let s : State := ready;
     decide (badRequester s q = false ∧ issues s q = true ∧ hasTile s c.tile.val = true ∧ off % 8 = 0 ∧ 0x100 ≤ off ∧ off < 0x1000 ∧
       off ≠ 0x138 ∧ off ≠ 0x200) && (
     (specAt .cluster off).any (fun r =>
     decide (r.acc = .rws ∧ v &&& ~~~(word (r.wmask ||| r.romask)) = 0)))) = true ∧
    (let q : Requester := .host;
     let c : ClusterRef := ⟨0, 0⟩;
     let off : Nat := 0x120;
     let s : State := ready;
     decide (badRequester s q = false ∧ issues s q = true ∧ hasTile s c.tile.val = true ∧ off % 8 = 0 ∧ 0x100 ≤ off ∧ off < 0x1000 ∧
       off ≠ 0x138 ∧ off ≠ 0x200) && (
     (specAt .cluster off).any (fun r =>
     decide (r.acc = .ro)))) = true ∧
    (let q : Requester := .host;
     let c : ClusterRef := ⟨0, 0⟩;
     let off : Nat := 0xFF8;
     let s : State := ready;
     decide (badRequester s q = false ∧ issues s q = true ∧ hasTile s c.tile.val = true ∧ off % 8 = 0 ∧ 0x100 ≤ off ∧ off < 0x1000 ∧
       off ≠ 0x138 ∧ off ≠ 0x200 ∧ specAt .cluster off = none ∧ activeSpec .cluster off = none)) = true ∧
    (let o : Nat := 0x3FFFFF;
     let s : State := ready;
     decide (pageOf s.part o = none)) = true ∧
    (let o : Nat := 0x400000;
     decide (64 * 0x10000 ≤ o)) = true ∧
    (let o : Nat := 0;
     let size : Nat := 0;
     decide (o < 64 * 0x10000 ∧ bar2Access o size = false)) = true ∧
    (let n : Nat := 0;
     let v : Word := 0;
     let s : State := ready;
     decide (n < 64 ∧ v &&& ~~~(word (bm 0 0 + bm 56 8)) = 0 ∧ (slot s n).state = .idle)) = true ∧
    (let n : Nat := 1;
     let v : Word := 0;
     let s : State := sl 1 { state := .running } ready;
     decide (n < 64 ∧ v &&& ~~~(word (bm 0 0 + bm 56 8)) = 0 ∧ (slot s n).state ≠ .idle)) = true := by
  decide +kernel

theorem test_hypotheses_commit_ranges :
    (let r : Requester := Requester.host;
     let tile : Fin 8 := 0;
     let s : State := wrs [(pgNet 0, 0x128, 0x0101), (pgGranger 0, 0x120, 0x201000)] ready;
     decide (badRequester s r = false ∧ issues s r = true ∧ hasTile s tile.val = true ∧ (rd s (pgNet tile) 0x010).bit 2 = false ∧
       (fld s (pgNet tile) 0x128 5 0 < 2 ∨ 63 < fld s (pgNet tile) 0x128 5 0 ∨ fld s (pgNet tile) 0x128 13 8 < 1 ∨ fld s (pgNet tile) 0x128 5 0 - 1 < fld s (pgNet tile) 0x128 13 8))) = true ∧
    (let r : Requester := Requester.host;
     let tile : Fin 8 := 0;
     let s : State := wrs [(pgNet 0, 0x128, 0x0101), (pgGranger 0, 0x120, 0x201000)] ready;
     decide (badRequester s r = false ∧ issues s r = true ∧ hasTile s tile.val = true ∧ (rd s (pgGranger tile) 0x010).bit 2 = false ∧
       fld s (pgGranger tile) 0x120 15 8 < fld s (pgGranger tile) 0x120 23 16)) = true := by
  decide +kernel

theorem test_hypotheses_tile_zero_registers :
    (let r : Requester := Requester.host;
     let tile : Fin 8 := 1;
     let off : Nat := 0x100;
     let s : State := ready;
     decide (badRequester s r = false ∧ issues s r = true ∧ hasTile s tile.val = true ∧ tile.val ≠ 0 ∧ off % 8 = 0 ∧
       tile0Reg Block.granger off = true)) = true := by
  decide +kernel

theorem test_hypotheses_late_arms :
    (let n : Fin 64 := 0;
     let v : Word := 0;
     let s : State := { wrs [(pgBeacon, 0x110, 0x2012), (pgIdent, 0x138, 0x19)] State.reset with now := 10 };
     decide ((slot s n.val).state = .idle ∧ isReady s = true ∧ servo s = svLocked ∧ v.toNat < s.now + (rd s pgBeacon 0x130).toNat)) = true ∧
    (let r : Requester := Requester.host;
     let v : Word := 2000;
     let s : State := { wrs [(pgBeacon, 0x110, 0x2012), (pgIdent, 0x138, 0x19)] State.reset with now := 10 };
     decide (badRequester s r = false ∧ 2000 ≤ v.toNat ∧ v.toNat ≤ 1000000)) = true ∧
    (let r : Requester := Requester.host;
     let v : Word := 0;
     let s : State := { wrs [(pgBeacon, 0x110, 0x2012), (pgIdent, 0x138, 0x19)] State.reset with now := 10 };
     decide (badRequester s r = false ∧ (v.toNat < 2000 ∨ 1000000 < v.toNat))) = true := by
  decide +kernel

theorem test_hypotheses_chain_relay :
    (let s : State := ready;
     decide (s.keeper.bypass = true)) = true ∧
    (let f : ChainFrame := fr 2 [0, 0, 0, 0, 0, 0, 0, 0];
     let s : State := ready;
     decide ((s.keeper.bypass = true ∨ f.kind.toNat ≠ 1))) = true ∧
    (let f : ChainFrame := { fr 2 [] with crcOk := false };
     let s : State := kc id ready;
     decide (s.keeper.bypass = false ∧ f.kind.toNat = 2 ∧ frameBad f = true)) = true ∧
    (let f : ChainFrame := fr 2 [0, 0, 0, 0, 0, 0, 0, 0];
     let s : State := kc (fun k => { k with lastSeq := some 9, lastResp := [kr] }) ready;
     decide (s.keeper.bypass = false ∧ s.keeper.restarting = false ∧ f.kind.toNat = 2 ∧ frameBad f = false ∧ chainAddr s ≠ 0xFFF ∧
       f.dst.toNat = chainAddr s ∧ s.keeper.lastSeq = some f.seq.toNat)) = true ∧
    (let f : ChainFrame := { fr 1 [7, 0] with dst := 0xFFF };
     let s : State := { ready with keeper := { bypass := false } };
     decide (s.keeper.bypass = false ∧ f.kind.toNat = 1 ∧ frameBad f = false ∧ f.payload.length = 2 ∧ chainAddr s = 0xFFF ∧ pay f 0 2 ≤ 4094)) = true ∧
    (let f : ChainFrame := { fr 1 [5, 0] with dst := 0xFFF };
     let s : State := kc id ready;
     decide (s.keeper.bypass = false ∧ f.kind.toNat = 1 ∧ frameBad f = false ∧ f.payload.length = 2 ∧ chainAddr s ≠ 0xFFF ∧
       chainAddr s = pay f 0 2 ∧ f.flags.toNat % 2 = 0)) = true ∧
    (let f : ChainFrame := fr 2 [0, 0, 0, 0, 0, 0, 0, 0];
     let s : State := kc id (sl 0 { state := .running } ready);
     decide ((s.keeper.bypass = false ∧ s.keeper.restarting = false ∧ f.kind.toNat = 2 ∧ frameBad f = false ∧ chainAddr s ≠ 0xFFF ∧
       f.dst.toNat = chainAddr s ∧ s.keeper.lastSeq ≠ some f.seq.toNat) ∧ coordShape f = true ∧ slotsQuiet s = false)) = true ∧
    (let f : ChainFrame := fr 2 [0, 0, 0, 0, 0, 0, 0, 0];
     let s : State := kc id ready;
     decide ((s.keeper.bypass = false ∧ s.keeper.restarting = false ∧ f.kind.toNat = 2 ∧ frameBad f = false ∧ chainAddr s ≠ 0xFFF ∧
       f.dst.toNat = chainAddr s ∧ s.keeper.lastSeq ≠ some f.seq.toNat) ∧ coordShape f = true ∧ slotsQuiet s = true ∧ s.control = [] ∧
       (∀ n ∈ List.range 6, linkOf s n ≠ lkActive ∧ (port s n).retry = [] ∧ (port s n).waiting = []))) = true := by
  decide +kernel

theorem test_hypotheses_chain_requests :
    (let f : ChainFrame := fr 3 [0, 0, 1, 0, 0, 0, 0, 0];
     let s : State := kc id ready;
     decide ((s.keeper.bypass = false ∧ s.keeper.restarting = false ∧ f.kind.toNat = 3 ∧ frameBad f = false ∧ chainAddr s ≠ 0xFFF ∧
       f.dst.toNat = chainAddr s ∧ s.keeper.lastSeq ≠ some f.seq.toNat) ∧ readShape f = true)) = true ∧
    (let f : ChainFrame := fr 3 [];
     let s : State := kc id ready;
     decide ((s.keeper.bypass = false ∧ s.keeper.restarting = false ∧ f.kind.toNat = 3 ∧ frameBad f = false ∧ chainAddr s ≠ 0xFFF ∧
       f.dst.toNat = chainAddr s ∧ s.keeper.lastSeq ≠ some f.seq.toNat) ∧ readShape f = false)) = true ∧
    (let f : ChainFrame := fr 4 ([0x18, 1, 0, 0, 1, 0, 0, 0] ++ [1, 0, 0, 0, 0, 0, 0, 0]);
     let s : State := kc id (wrs [(pgSettings, 0x818, 2)] ready);
     decide ((s.keeper.bypass = false ∧ s.keeper.restarting = false ∧ f.kind.toNat = 4 ∧ frameBad f = false ∧ chainAddr s ≠ 0xFFF ∧
       f.dst.toNat = chainAddr s ∧ s.keeper.lastSeq ≠ some f.seq.toNat) ∧ writeShape f = true ∧ (rdA s pgSettings 0x118).bit 1 = true)) = true ∧
    (let f : ChainFrame := fr 4 ([0x18, 1, 0, 0, 1, 0, 0, 0] ++ [1, 0, 0, 0, 0, 0, 0, 0]);
     let s : State := kc id ready;
     decide ((s.keeper.bypass = false ∧ s.keeper.restarting = false ∧ f.kind.toNat = 4 ∧ frameBad f = false ∧ chainAddr s ≠ 0xFFF ∧
       f.dst.toNat = chainAddr s ∧ s.keeper.lastSeq ≠ some f.seq.toNat) ∧ writeShape f = true ∧ (rdA s pgSettings 0x118).bit 1 = false ∧
       pay f 0 4 = 0x118 ∧ pay f 4 2 = 1 ∧ pay f 8 8 < 4 ∧ s.keeper.actState ≠ 1 ∧ s.keeper.actState ≠ 2 ∧
       (rd s pgSettings 0x010).bit 2 = false ∧ fld s pgSettings 0x110 2 1 = 0)) = true ∧
    (let f : ChainFrame := fr 5 [0, 0, 0, 0, 7, 0, 0, 0, 0, 16, 0, 0];
     let s : State := kc id ready;
     decide ((s.keeper.bypass = false ∧ s.keeper.restarting = false ∧ f.kind.toNat = 5 ∧ frameBad f = false ∧ chainAddr s ≠ 0xFFF ∧
       f.dst.toNat = chainAddr s ∧ s.keeper.lastSeq ≠ some f.seq.toNat) ∧ stageShape 0 f = true ∧ actBusy s = false)) = true ∧
    (let f : ChainFrame := fr 5 [0, 0, 0, 0, 7, 0, 0, 0, 0, 16, 0, 0];
     let s : State := kc (fun k => { k with actState := 2 }) ready;
     decide ((s.keeper.bypass = false ∧ s.keeper.restarting = false ∧ f.kind.toNat = 5 ∧ frameBad f = false ∧ chainAddr s ≠ 0xFFF ∧
       f.dst.toNat = chainAddr s ∧ s.keeper.lastSeq ≠ some f.seq.toNat) ∧ stageShape 0 f = true ∧ actBusy s = true)) = true ∧
    (let f : ChainFrame := fr 5 [1, 0, 0, 0, 7, 0, 0, 0, 0, 0, 0, 0];
     let s : State := kc (fun k => { k with staging := some (7, 4096), imageB := [(5, 5)] }) ready;
     decide ((s.keeper.bypass = false ∧ s.keeper.restarting = false ∧ f.kind.toNat = 5 ∧ frameBad f = false ∧ chainAddr s ≠ 0xFFF ∧
       f.dst.toNat = chainAddr s ∧ s.keeper.lastSeq ≠ some f.seq.toNat) ∧ stageShape 1 f = true ∧
       s.keeper.staging.any (fun e => decide (e.1 = pay f 4 4)) = true)) = true ∧
    (let f : ChainFrame := fr 5 [1, 0, 0, 0, 7, 0, 0, 0, 0, 0, 0, 0];
     let s : State := kc id ready;
     decide ((s.keeper.bypass = false ∧ s.keeper.restarting = false ∧ f.kind.toNat = 5 ∧ frameBad f = false ∧ chainAddr s ≠ 0xFFF ∧
       f.dst.toNat = chainAddr s ∧ s.keeper.lastSeq ≠ some f.seq.toNat) ∧ stageShape 1 f = true ∧ s.keeper.staging = none)) = true ∧
    (let f : ChainFrame := fr 6 [7, 0, 0, 0, 3, 0, 0, 0, 1, 2, 3];
     let s : State := kc (fun k => { k with staging := some (7, 4096), imageB := [(5, 5)] }) ready;
     decide ((s.keeper.bypass = false ∧ s.keeper.restarting = false ∧ f.kind.toNat = 6 ∧ frameBad f = false ∧ chainAddr s ≠ 0xFFF ∧
       f.dst.toNat = chainAddr s ∧ s.keeper.lastSeq ≠ some f.seq.toNat) ∧ imageShape f = true) && (
     s.keeper.staging.any (fun (id, len) =>
     decide (id = pay f 0 4 ∧ pay f 4 4 + (f.payload.length - 8) ≤ len)))) = true ∧
    (let f : ChainFrame := fr 6 [8, 0, 0, 0, 3, 0, 0, 0, 1, 2, 3];
     let s : State := kc (fun k => { k with staging := some (7, 4096), imageB := [(5, 5)] }) ready;
     decide ((s.keeper.bypass = false ∧ s.keeper.restarting = false ∧ f.kind.toNat = 6 ∧ frameBad f = false ∧ chainAddr s ≠ 0xFFF ∧
       f.dst.toNat = chainAddr s ∧ s.keeper.lastSeq ≠ some f.seq.toNat) ∧ imageShape f = true) && (
     s.keeper.staging.any (fun (id, _) =>
     decide (id ≠ pay f 0 4)))) = true ∧
    (let f : ChainFrame := fr 7 [7, 0, 0, 0, 0, 0, 0, 0, 0, 0xE8, 0x76, 0x48, 0x17, 0, 0, 0];
     let s : State := kc (fun k => { k with stateB := 2, imageB := img }) ready;
     decide ((s.keeper.bypass = false ∧ s.keeper.restarting = false ∧ f.kind.toNat = 7 ∧ frameBad f = false ∧ chainAddr s ≠ 0xFFF ∧
       f.dst.toNat = chainAddr s ∧ s.keeper.lastSeq ≠ some f.seq.toNat) ∧ activateShape f = true ∧ noImage s = false ∧
       imageState s (!activeSlot s) = 2 ∧ imageId s (!activeSlot s) = pay f 0 4 ∧ servo s = svLocked ∧ s.now + 10000000000 ≤ pay f 8 8 ∧
       pay f 8 8 ≤ s.now + 604800000000000)) = true ∧
    (let f : ChainFrame := fr 7 [7, 0, 0, 0, 0, 0, 0, 0, 0, 0xE8, 0x76, 0x48, 0x17, 0, 0, 0];
     let s : State := kc (fun k => { k with stateB := 2, imageB := img }) State.reset;
     decide ((s.keeper.bypass = false ∧ s.keeper.restarting = false ∧ f.kind.toNat = 7 ∧ frameBad f = false ∧ chainAddr s ≠ 0xFFF ∧
       f.dst.toNat = chainAddr s ∧ s.keeper.lastSeq ≠ some f.seq.toNat) ∧ activateShape f = true ∧ noImage s = false ∧
       imageState s (!activeSlot s) = 2 ∧ imageId s (!activeSlot s) = pay f 0 4 ∧ servo s ≠ svLocked)) = true ∧
    (let f : ChainFrame := fr 7 [7, 0, 0, 0, 0, 0, 0, 0, 0, 0xE8, 0x76, 0x48, 0x17, 0, 0, 0];
     let s : State := kc id ready;
     decide ((s.keeper.bypass = false ∧ s.keeper.restarting = false ∧ f.kind.toNat = 7 ∧ frameBad f = false ∧ chainAddr s ≠ 0xFFF ∧
       f.dst.toNat = chainAddr s ∧ s.keeper.lastSeq ≠ some f.seq.toNat) ∧ activateShape f = true ∧ noImage s = false ∧
       (imageState s (!activeSlot s) ≠ 2 ∨ imageId s (!activeSlot s) ≠ pay f 0 4))) = true ∧
    (let f : ChainFrame := fr 8 [7, 0, 0, 0];
     let s : State := kc (fun k => { k with imageA := img }) ready;
     decide ((s.keeper.bypass = false ∧ s.keeper.restarting = false ∧ f.kind.toNat = 8 ∧ frameBad f = false ∧ chainAddr s ≠ 0xFFF ∧
       f.dst.toNat = chainAddr s ∧ s.keeper.lastSeq ≠ some f.seq.toNat) ∧ confirmShape f = true ∧ bootStage s = 9 ∧
       imageId s (activeSlot s) = pay f 0 4)) = true ∧
    (let f : ChainFrame := fr 8 [7, 0, 0, 0];
     let s : State := kc id ready;
     decide ((s.keeper.bypass = false ∧ s.keeper.restarting = false ∧ f.kind.toNat = 8 ∧ frameBad f = false ∧ chainAddr s ≠ 0xFFF ∧
       f.dst.toNat = chainAddr s ∧ s.keeper.lastSeq ≠ some f.seq.toNat) ∧ confirmShape f = true ∧
       (bootStage s ≠ 9 ∨ imageId s (activeSlot s) ≠ pay f 0 4))) = true ∧
    (let f : ChainFrame := fr 9 (List.replicate 32 1);
     let s : State := kc id ready;
     decide ((s.keeper.bypass = false ∧ s.keeper.restarting = false ∧ f.kind.toNat = 9 ∧ frameBad f = false ∧ chainAddr s ≠ 0xFFF ∧
       f.dst.toNat = chainAddr s ∧ s.keeper.lastSeq ≠ some f.seq.toNat) ∧ attestShape f = true ∧ s.keeper.reservationOk = true ∧
       s.keeper.leafQ < 2 ^ 20 ∧ s.keeper.leafQ ≤ s.keeper.leafCeil)) = true ∧
    (let f : ChainFrame := fr 9 (List.replicate 32 1);
     let s : State := kc (fun k => { k with reservationOk := false }) ready;
     decide ((s.keeper.bypass = false ∧ s.keeper.restarting = false ∧ f.kind.toNat = 9 ∧ frameBad f = false ∧ chainAddr s ≠ 0xFFF ∧
       f.dst.toNat = chainAddr s ∧ s.keeper.lastSeq ≠ some f.seq.toNat) ∧ attestShape f = true ∧
       (s.keeper.reservationOk = false ∨ 2 ^ 20 ≤ s.keeper.leafQ))) = true ∧
    (let f : ChainFrame := fr 10 [];
     let s : State := kc id ready;
     decide ((s.keeper.bypass = false ∧ s.keeper.restarting = false ∧ f.kind.toNat = 10 ∧ frameBad f = false ∧ chainAddr s ≠ 0xFFF ∧
       f.dst.toNat = chainAddr s ∧ s.keeper.lastSeq ≠ some f.seq.toNat) ∧ f.payload = [] ∧ s.keeper.pending = false)) = true := by
  decide +kernel

theorem test_hypotheses_mailbox :
    (let v : Word := 1;
     let s : State := ready;
     decide (v &&& ~~~(word (bm 7 0)) = 0 ∧ s.keeper.mboxCmd = none ∧ 1 ≤ v.toNat ∧ v.toNat ≤ 6)) = true ∧
    (let v : Word := 0;
     let s : State := mb 1 id mo;
     decide (v &&& ~~~(word (bm 7 0)) = 0 ∧ s.keeper.mboxCmd.isSome = true)) = true ∧
    (let v : Word := 0;
     let s : State := ready;
     decide (v &&& ~~~(word (bm 7 0)) = 0 ∧ s.keeper.mboxCmd = none ∧ (v.toNat = 0 ∨ 6 < v.toNat))) = true ∧
    (let s : State := ready;
     let l : Option ArrayLine := none;
     let r : Bool := true;
     decide ((s.keeper.mboxCmd ≠ some 1 ∨ s.keeper.restarting = true))) = true ∧
    (let s : State := mb 2 id ready;
     decide (s.keeper.mboxCmd = some 2 ∧ s.keeper.restarting = false ∧ mboxOpen s (sized 2740 Config.identity).length = false)) = true ∧
    (let s : State := mb 2 id mo;
     decide (s.keeper.mboxCmd = some 2 ∧ s.keeper.restarting = false ∧ mboxOpen s (sized 2740 Config.identity).length = true ∧
       (∀ i ∈ bushelsOf (mboxBuffer s) (sized 2740 Config.identity).length, (mfind s.mem.bushels i).all (fun b => decide (b.tier < 2)) = true))) = true ∧
    (let s : State := mb 1 (fun k => { k with reservationOk := false }) mo;
     decide (s.keeper.mboxCmd = some 1 ∧ s.keeper.restarting = false ∧ mboxOpen s 3084 = true ∧
       (s.keeper.reservationOk = false ∨ 2 ^ 20 ≤ s.keeper.leafQ))) = true ∧
    (let s : State := mb 1 id mo;
     decide (s.keeper.mboxCmd = some 1 ∧ s.keeper.restarting = false ∧ mboxOpen s 3084 = true ∧ s.keeper.reservationOk = true ∧
       s.keeper.leafQ < 2 ^ 20 ∧ s.keeper.leafQ ≤ s.keeper.leafCeil ∧
       (∀ i ∈ bushelsOf (mboxBuffer s) 3084, (mfind s.mem.bushels i).all (fun b => decide (b.tier < 2)) = true))) = true ∧
    (let s : State := mb 3 (fun k => { k with imageA := img }) mo;
     decide (s.keeper.mboxCmd = some 3 ∧ s.keeper.restarting = false ∧ bootStage s = 9 ∧ imageId s (activeSlot s) = (mboxArg s 1).bits 31 0)) = true ∧
    (let s : State := mb 3 id mo;
     decide (s.keeper.mboxCmd = some 3 ∧ s.keeper.restarting = false ∧ (bootStage s ≠ 9 ∨ imageId s (activeSlot s) ≠ (mboxArg s 1).bits 31 0))) = true ∧
    (let s : State := mb 4 id (wrs [(pgMbox, 0x110, 0x1f0)] mo);
     decide (s.keeper.mboxCmd = some 4 ∧ s.keeper.restarting = false ∧ (coreNamed s (mboxArg s 1) = none ∨ mboxOpen s 8 = false))) = true ∧
    (let s : State := mb 4 id (wrs [(pgMbox, 0x110, 0)] mo);
     decide (s.keeper.mboxCmd = some 4 ∧ s.keeper.restarting = false) && (
     (coreNamed s (mboxArg s 1)).any (fun k =>
     decide (mboxOpen s 8 = true ∧ coreState s k ≠ 3)))) = true ∧
    (let s : State := mb 4 id (wrs [(pgMbox, 0x110, 0), (.core ⟨0, 0, 0⟩, 0x100, 3)] mo);
     decide (s.keeper.mboxCmd = some 4 ∧ s.keeper.restarting = false) && (
     (coreNamed s (mboxArg s 1)).any (fun k =>
     decide (mboxOpen s 8 = true ∧ coreState s k = 3 ∧ (mboxArg s 2).bit 0 = false ∧
       (∀ i ∈ bushelsOf (mboxBuffer s) 8, (mfind s.mem.bushels i).all (fun b => decide (b.tier < 2)) = true))))) = true := by
  decide +kernel

theorem test_hypotheses_power :
    (let x : PowerSample := ⟨3000, 48, 60, 1200, ⟨0, 0⟩, 640, 500⟩;
     let s : State := { State.reset with power := { State.reset.power with shutdown := true } };
     decide (hasTile s x.tjAt.tile.val = true ∧ (s.power.shutdown = true ∨ s.now % 128000 ≠ 0 ∨ s.power.window = some s.now))) = true ∧
    (let x : PowerSample := ⟨3000, 48, 60, 1200, ⟨0, 0⟩, 640, 500⟩;
     let s : State := { wrs [(pgPower, 0x800, 0x1000003E8), (pgPower, 0x808, 100), (pgPower, 0x810, 0x0F3C28), (pgPower, 0x818, 1)] State.reset with power := { State.reset.power with cap := 1500 } };
     decide (hasTile s x.tjAt.tile.val = true ∧ s.power.shutdown = false ∧ s.now % 128000 = 0 ∧ s.power.window ≠ some s.now ∧
       loopFrozen s = true)) = true ∧
    (let x : PowerSample := ⟨3000, 48, 60, 1200, ⟨0, 0⟩, 640, 500⟩;
     let s : State := { wrs [(pgPower, 0x800, 0x1000003E8), (pgPower, 0x808, 100), (pgPower, 0x810, 0x0F3C28)] State.reset with power := { State.reset.power with cap := 1900 } };
     decide (hasTile s x.tjAt.tile.val = true ∧ s.power.shutdown = false ∧ s.now % 128000 = 0 ∧ s.power.window ≠ some s.now ∧
       loopFrozen s = false ∧ s.power.outletCut = 0 ∧ x.outlet16 ≤ fldA s pgPower 0x110 15 8 * 16 ∧ upperMW s < x.inputW * 1000 ∧
       s.power.cap ≤ 1900)) = true ∧
    (let s : State := State.reset;
     decide (tilesPowered s = false)) = true ∧
    (let s : State := wrs [(pgIdent, 0x138, 9), (pgPower, 0x138, 1440), (pgPower, 0x810, 0x0F3C28)] State.reset;
     decide (tilesPowered s = true)) = true ∧
    (let s : State := State.reset;
     let c : Fin 7 := 1;
     decide (c.val ≠ 0 ∧ (c.val = 3 → tilesPowered s = true))) = true := by
  decide +kernel

theorem test_hypotheses_counter_banks :
    (let p : PageRef := pgTctr 0;
     let s : State := wrs [(pgTctr 0, 0x140, 0x1000), (pgDctr 0, 0x140, 0x1000), (pgTctr 0, 0x408, 77), (pgTctr 0, 0x208, 0xFFFF000000000005)] (maps [(0, bu)] ready);
     decide ((p = pgTctr 0 ∨ p = pgDctr 0) ∧ hasPage s p = true) && (
     let v : Word := 0;
     decide (v &&& ~~~(word (bm 5 0)) = 0))) = true ∧
    (let p : PageRef := pgTctr 0;
     let s : State := wrs [(pgTctr 0, 0x150, 1), (pgDctr 0, 0x150, 1)] ready;
     decide ((p = pgTctr 0 ∨ p = pgDctr 0) ∧ hasPage s p = true ∧ ((rd s p 0x150).bit 0 = true ∨ (rd s p 0x010).bit 0 = false))) = true ∧
    (let p : PageRef := pgTctr 0;
     let s : State := wrs [(pgTctr 0, 0x140, 0x1000), (pgDctr 0, 0x140, 0x1000), (pgTctr 0, 0x408, 77), (pgTctr 0, 0x208, 0xFFFF000000000005)] (maps [(0, bu)] ready);
     decide ((p = pgTctr 0 ∨ p = pgDctr 0) ∧ hasPage s p = true ∧ (rd s p 0x150).bit 0 = false ∧ (rd s p 0x010).bit 0 = true ∧
       rangeOpen s (fld s p 0x140 47 6 * 64) 1088 = true)) = true ∧
    (let p : PageRef := pgTctr 0;
     let s : State := ready;
     decide ((p = pgTctr 0 ∨ p = pgDctr 0) ∧ hasPage s p = true ∧ (rd s p 0x150).bit 0 = false ∧ (rd s p 0x010).bit 0 = true ∧
       rangeOpen s (fld s p 0x140 47 6 * 64) 1088 = false)) = true ∧
    (let p : PageRef := pgTctr 0;
     let s : State := wrs [(pgTctr 0, 0x140, 0x1000), (pgDctr 0, 0x140, 0x1000), (pgTctr 0, 0x408, 77), (pgTctr 0, 0x208, 0xFFFF000000000005)] (maps [(0, bu)] ready);
     decide ((p = pgTctr 0 ∨ p = pgDctr 0) ∧ hasPage s p = true ∧ mfind s.snaps (pageBase p) = none)) = true ∧
    (let p : PageRef := pgTctr 0;
     let s : State := { maps [(0, bu)] ready with snaps := [(pageBase (pgTctr 0), (0x1000, [1, 2, 3])), (pageBase (pgDctr 0), (0x1000, [1, 2, 3]))] };
     decide ((p = pgTctr 0 ∨ p = pgDctr 0) ∧ hasPage s p = true) && (
     decide ((mfind s.snaps (pageBase p)).isSome = true))) = true ∧
    (let n : Fin 16 := 1;
     let v : Word := 0;
     decide (n.val ≠ 0)) = true := by
  decide +kernel

theorem test_hypotheses_traces :
    (let v : Word := 1;
     let s : State := ready;
     decide (v &&& ~~~(word (bm 1 0 + bm 28 16 + bm 63 32)) = 0 ∧ v.bit 0 = true ∧ (rd s pgTrace 0x118).bit 0 = false)) = true ∧
    (let v : Word := 0;
     decide (v &&& ~~~(word (bm 1 0 + bm 28 16 + bm 63 32)) = 0 ∧ v.bit 0 = false)) = true ∧
    (let v : Word := 1;
     let s : State := tt [] (maps [(0, bu), (1, bu), (2, bu), (3, bu), (4, bu), (5, bu), (6, bu), (7, bu), (8, bu)] ready);
     decide (v &&& ~~~(word (bm 1 0 + bm 28 16 + bm 63 32)) = 0 ∧ v.bit 0 = true ∧ (rd s pgTrace 0x118).bit 0 = true)) = true ∧
    (let r : Requester := Requester.host;
     let s : State := tt [(pgTrace, 0x010, 0), (pgTtrace 0, 0x010, 0)] ready;
     decide (badRequester s r = false ∧ issues s r = true ∧ (rd s pgTrace 0x010).bit 0 = false)) = true ∧
    (let r : Requester := Requester.host;
     let s : State := ready;
     decide (badRequester s r = false ∧ issues s r = true ∧ (rd s pgTrace 0x010).bit 0 = true ∧ traceOn s devStream = false)) = true ∧
    (let r : Requester := Requester.host;
     let s : State := tt [] (maps [(0, bu), (1, bu), (2, bu), (3, bu), (4, bu), (5, bu), (6, bu), (7, bu), (8, bu)] ready);
     decide (badRequester s r = false ∧ issues s r = true ∧ (rd s pgTrace 0x010).bit 0 = true ∧ traceOn s devStream = true ∧
       (rd s pgTrace 0x110).bit 19 = true ∧ (traceOf s devStream).dropped = 0 ∧ (traceOf s devStream).records.length < traceDepth)) = true ∧
    (let r : Requester := Requester.host;
     let tile : Fin 8 := 0;
     let s : State := tt [(pgTrace, 0x010, 0), (pgTtrace 0, 0x010, 0)] ready;
     decide (hasTile s tile.val = true ∧ badRequester s r = false ∧ issues s r = true ∧ (rd s (pgTtrace tile) 0x010).bit 0 = false)) = true ∧
    (let r : Requester := Requester.host;
     let tile : Fin 8 := 0;
     let s : State := tt [] (maps [(0, bu), (1, bu), (2, bu), (3, bu), (4, bu), (5, bu), (6, bu), (7, bu), (8, bu)] ready);
     decide (hasTile s tile.val = true ∧ badRequester s r = false ∧ issues s r = true ∧ (rd s (pgTtrace tile) 0x010).bit 0 = true ∧
       traceOn s tile.val = true ∧ (rd s pgTrace 0x110).bit 19 = true ∧ (traceOf s tile.val).dropped = 0 ∧
       (traceOf s tile.val).records.length < traceDepth)) = true ∧
    (let i : Fin 9 := 0;
     let s : State := ready;
     decide ((i.val = 8 ∨ i.val < s.part.tiles) ∧ (traceOf s i.val).records = [])) = true ∧
    (let i : Fin 9 := 0;
     let s : State := { tt [] (maps [(0, bu), (1, bu), (2, bu), (3, bu), (4, bu), (5, bu), (6, bu), (7, bu), (8, bu)] ready) with traces := [(0, { records := [[1, 2, 3, 4], [5, 6, 7, 8]] }), (8, { records := [[1, 2, 3, 4]] })] };
     decide ((i.val = 8 ∨ i.val < s.part.tiles)) && (
     ((traceOf s i.val).records).head?.any (fun r =>
     decide (r.length = 4 ∧ (rd s pgTrace 0x118).bit 0 = true ∧ streamBushels s ≠ 0) && (
     let n := (rd s pgTrace (0x130 + 8 * streamNo s i.val)).toNat;
     decide (((rd s pgTrace 0x110).bit 1 = false ∨ n < streamBushels s * 65536)))))) = true ∧
    (let s : State := ready;
     decide ((s.now % 2 ^ 30 ≠ 0 ∨ (rd s pgTrace 0x110).bit 0 = false))) = true ∧
    (let s : State := tt [] (maps [(0, bu), (1, bu), (2, bu), (3, bu), (4, bu), (5, bu), (6, bu), (7, bu), (8, bu)] ready);
     let i : Fin 9 := 0;
     decide (s.now % 2 ^ 30 = 0 ∧ (i.val = 8 ∨ i.val < s.part.tiles) ∧ traceOn s i.val = true ∧ (traceOf s i.val).ticked ≠ some s.now ∧
       (traceOf s i.val).dropped = 0 ∧ (traceOf s i.val).records.length < traceDepth)) = true ∧
    (let s : State := ready;
     decide ((fld s pgTrace 0x110 63 32 = 0 ∨ s.now % (fld s pgTrace 0x110 63 32 * 1000) ≠ 0 ∨ (traceOf s devStream).sampled = some s.now))) = true ∧
    (let s : State := tt [] (maps [(0, bu), (1, bu), (2, bu), (3, bu), (4, bu), (5, bu), (6, bu), (7, bu), (8, bu)] ready);
     decide (sampleDue s = true ∧ (∀ tile, ∀ n ∈ List.range 64, (bankCfg s (pgTctr tile) n).bit 28 = false) ∧
       (∀ n ∈ List.range 64, (bankCfg s (pgDctr 0) n).bit 28 = false))) = true ∧
    (let s : State := (let s := tt [] ready; wrs [((bankSite (pgDctr 0) 2).1, 0x200 + 8 * (bankSite (pgDctr 0) 2).2, 0x10000000), ((bankSite (pgDctr 0) 2).1, 0x400 + 8 * (bankSite (pgDctr 0) 2).2, 99)] s);
     decide (sampleDue s = true ∧ (∀ tile, ∀ n ∈ List.range 64, (bankCfg s (pgTctr tile) n).bit 28 = false)) && (
     let n : Nat := 2;
     decide (n < 64 ∧ traceOn s devStream = true ∧ (rd s pgTrace 0x110).bit 25 = true ∧ (traceOf s devStream).dropped = 0 ∧
       (traceOf s devStream).records.length < traceDepth ∧ (∀ m ∈ List.range 64, ((bankCfg s (pgDctr 0) m).bit 28 = true ↔ m = n))))) = true := by
  decide +kernel

theorem test_hypotheses_scalar_registers :
    (let k : CoreRef := ⟨0, 0, 0⟩;
     let s : State := prog 0x2081b3 { sc 3 4 with l1 := [⟨4, leBytes 0x2081b3 4 ++ List.replicate 60 0, false, false, false⟩] };
     decide (hasTile s k.tile.val = true) && (
     (fetchOf k s).any (fun (w, _, u) =>
     decide (w % 128 = 0x33) && (
     ((fun (a b : Word) => [((0x00, 0), a + b), ((0x20, 0), a - b), ((0x00, 1), a <<< (b.toNat % 64)), ((0x00, 2), if a.toInt < b.toInt then 1 else 0), ((0x00, 3), if a.toNat < b.toNat then 1 else 0), ((0x00, 4), a ^^^ b), ((0x00, 5), a >>> (b.toNat % 64)), ((0x20, 5), a.sshiftRight (b.toNat % 64)), ((0x00, 6), a ||| b), ((0x00, 7), a &&& b), ((0x01, 0), a * b), ((0x01, 5), if b = 0 then BitVec.allOnes 64 else a / b), ((0x01, 7), if b = 0 then a else a % b)]) (xRd (coreOf u k) (bf w 19 15)) (xRd (coreOf u k) (bf w 24 20)))[0]?.any (fun e =>
     decide ((bf w 31 25, bf w 14 12) = e.1)))))) = true ∧
    (let k : CoreRef := ⟨0, 0, 0⟩;
     let s : State := prog 0xfff08193 (sc 0x8000000000000005 64);
     decide (hasTile s k.tile.val = true) && (
     (fetchOf k s).any (fun (w, _, u) =>
     decide (w % 128 = 0x13) && (
     ((fun (a : Word) => [(0, a + immI w), (2, if a.toInt < (immI w).toInt then 1 else 0), (3, if a.toNat < (immI w).toNat then 1 else 0), (4, a ^^^ immI w), (6, a ||| immI w), (7, a &&& immI w)]) (xRd (coreOf u k) (bf w 19 15)))[0]?.any (fun e =>
     decide (bf w 14 12 = e.1)))))) = true ∧
    (let k : CoreRef := ⟨0, 0, 0⟩;
     let s : State := prog 0x800001b7 (sc 0x8000000000000005 64);
     decide (hasTile s k.tile.val = true) && (
     (fetchOf k s).any (fun (w, len, u) =>
     decide (w % 128 = 0x37)))) = true ∧
    (let k : CoreRef := ⟨0, 0, 0⟩;
     let s : State := prog 0x4080e7 (sc 0x8000000000000005 64);
     decide (hasTile s k.tile.val = true) && (
     (fetchOf k s).any (fun (w, _, _) =>
     decide (w % 128 = 0x67 ∧ bf w 14 12 = 0)))) = true ∧
    (let k : CoreRef := ⟨0, 0, 0⟩;
     let s : State := prog 0x208863 (sc 0x8000000000000005 64);
     decide (hasTile s k.tile.val = true) && (
     (fetchOf k s).any (fun (w, _, u) =>
     decide (w % 128 = 0x63) && (
     ((fun (a b : Word) => [(0, decide (a = b)), (1, decide (a ≠ b)), (4, decide (a.toInt < b.toInt)), (5, decide (b.toInt ≤ a.toInt)), (6, decide (a.toNat < b.toNat)), (7, decide (b.toNat ≤ a.toNat))]) (xRd (coreOf u k) (bf w 19 15)) (xRd (coreOf u k) (bf w 24 20)))[0]?.any (fun e =>
     decide (bf w 14 12 = e.1)))))) = true ∧
    (let k : CoreRef := ⟨0, 0, 0⟩;
     let s : State := prog 0xff0000f (sc 0x8000000000000005 64);
     decide (hasTile s k.tile.val = true) && (
     (fetchOf k s).any (fun (w, _, _) =>
     decide (w % 128 = 0x0F ∧ bf w 14 12 = 0)))) = true ∧
    (let k : CoreRef := ⟨0, 0, 0⟩;
     let s : State := prog 0x2081b3 { sc 3 4 with l1 := [⟨4, leBytes 0x2081b3 4 ++ List.replicate 60 0, false, false, false⟩] };
     decide (hasTile s k.tile.val = true) && (
     (fetchOf k s).any (fun (_, len, _) =>
     decide ((linesOf (addr48 (coreOf s k).pc.toNat) len).all (fun l => (l1Find (coreOf s k) l).isSome) = true)))) = true ∧
    (let k : CoreRef := ⟨0, 0, 0⟩;
     let s : State := State.reset;
     decide (hasTile s k.tile.val = true ∧ canIssue s k = false)) = true := by
  decide +kernel

theorem test_hypotheses_scalar_memory :
    (let k : CoreRef := ⟨0, 0, 0⟩;
     let s : State := prog 0xb183 (hl (sc 0x2000 0x8000000000000007));
     decide (hasTile s k.tile.val = true) && (
     (fetchOf k s).any (fun (w, _, u) =>
     let a := addr48 (xRd (coreOf u k) (bf w 19 15) + immI w).toNat;
     decide (w % 128 = 0x03 ∧ bf w 14 12 = 3 ∧ attrOf u a = .memory ∧ a % 8 = 0 ∧ badPages u [(a, 8)] = [] ∧ corePoison u k a 8 = none ∧
       (linesOf a 8).all (fun l => (l1Find (coreOf u k) l).isSome) = true)))) = true ∧
    (let k : CoreRef := ⟨0, 0, 0⟩;
     let s : State := prog 0x20b423 (hl (sc 0x2000 0x8000000000000007));
     decide (hasTile s k.tile.val = true) && (
     (fetchOf k s).any (fun (w, _, u) =>
     let a := addr48 (xRd (coreOf u k) (bf w 19 15) + immS w).toNat;
     decide (w % 128 = 0x23 ∧ bf w 14 12 = 3 ∧ attrOf u a = .memory ∧ a % 8 = 0 ∧ badPages u [(a, 8)] = [] ∧ corePoisonStore u k a 8 = none ∧
       closedPages u k [(a, 8)] = [] ∧ (linesOf a 8).all (fun l => (l1Find (coreOf u k) l).isSome) = true ∧
       (coreOf u k).l1.all (fun l => decide (l.bytes.length = 64)) = true)))) = true ∧
    (let k : CoreRef := ⟨0, 0, 0⟩;
     let s : State := prog 0x1000b1af (sc 0x2000 0x8000000000000007);
     decide (hasTile s k.tile.val = true) && (
     (fetchOf k s).any (fun (w, _, u) =>
     let a := addr48 (xRd (coreOf u k) (bf w 19 15)).toNat;
     decide (w % 128 = 0x2F ∧ bf w 14 12 = 3 ∧ a % 8 = 0 ∧ attrOf u a = .memory ∧ heldAt u a = false ∧
       poisonedAs u (coreSpec u k) (lineNo a) = false ∧ l1Find (coreOf u k) (lineNo a) = none ∧ coreSpec u k = false ∧ slotsFull u k = false ∧
       (∀ m : Fin 32, bankLoad u (coreCl k) m = 0) ∧ bf w 31 27 = 2 ∧ bf w 24 20 = 0)))) = true ∧
    (let k : CoreRef := ⟨0, 0, 0⟩;
     let s : State := prog 0x1820b1af (sc 0x2000 0x8000000000000007);
     decide (hasTile s k.tile.val = true) && (
     (fetchOf k s).any (fun (w, _, u) =>
     let a := addr48 (xRd (coreOf u k) (bf w 19 15)).toNat;
     decide (w % 128 = 0x2F ∧ bf w 14 12 = 3 ∧ a % 8 = 0 ∧ attrOf u a = .memory ∧ heldAt u a = false ∧
       poisonedAs u (coreSpec u k) (lineNo a) = false ∧ l1Find (coreOf u k) (lineNo a) = none ∧ coreSpec u k = false ∧ slotsFull u k = false ∧
       (∀ m : Fin 32, bankLoad u (coreCl k) m = 0) ∧ committedOk u k a = true ∧ bf w 31 27 = 3 ∧ (coreOf u k).reservation ≠ some (lineNo a))))) = true ∧
    (let k : CoreRef := ⟨0, 0, 0⟩;
     let s : State := prog 0x1820b1af ({ sc 0x2008 5 with reservation := some 0x80 });
     decide (hasTile s k.tile.val = true) && (
     (fetchOf k s).any (fun (w, _, u) =>
     let a := addr48 (xRd (coreOf u k) (bf w 19 15)).toNat;
     decide (w % 128 = 0x2F ∧ bf w 14 12 = 3 ∧ a % 8 = 0 ∧ attrOf u a = .memory ∧ heldAt u a = false ∧
       poisonedAs u (coreSpec u k) (lineNo a) = false ∧ l1Find (coreOf u k) (lineNo a) = none ∧ coreSpec u k = false ∧ slotsFull u k = false ∧
       (∀ m : Fin 32, bankLoad u (coreCl k) m = 0) ∧ committedOk u k a = true ∧ (bushelAt u a).all (fun b => decide (b.tier < 2)) = true ∧
       bf w 31 27 = 3 ∧ (coreOf u k).reservation = some (lineNo a))))) = true ∧
    (let k : CoreRef := ⟨0, 0, 0⟩;
     let s : State := prog 0x20b1af (sc 0x2000 0x8000000000000007);
     decide (hasTile s k.tile.val = true) && (
     (fetchOf k s).any (fun (w, _, u) =>
     let a := addr48 (xRd (coreOf u k) (bf w 19 15)).toNat;
     decide (w % 128 = 0x2F ∧ bf w 14 12 = 3 ∧ a % 8 = 0 ∧ attrOf u a = .memory ∧ heldAt u a = false ∧
       poisonedAs u (coreSpec u k) (lineNo a) = false ∧ l1Find (coreOf u k) (lineNo a) = none ∧ coreSpec u k = false ∧ slotsFull u k = false ∧
       (∀ m : Fin 32, bankLoad u (coreCl k) m = 0) ∧ committedOk u k a = true ∧ (bushelAt u a).all (fun b => decide (b.tier < 2)) = true ∧
       bf w 31 27 = 0)))) = true := by
  decide +kernel

theorem test_hypotheses_scalar_traps :
    (let k : CoreRef := ⟨0, 0, 0⟩;
     let s : State := prog 0x73 (sc 0x2001 5);
     decide (hasTile s k.tile.val = true) && (
     (fetchOf k s).any (fun (w, _, u) =>
     decide ((coreOf u k).machine = false ∧ w = 0x00000073)))) = true ∧
    (let k : CoreRef := ⟨0, 0, 0⟩;
     let s : State := prog 0xb187 (sc 0x2001 5);
     decide (hasTile s k.tile.val = true) && (
     (fetchOf k s).any (fun (w, _, u) =>
     decide ((coreOf u k).machine = false ∧ w % 128 ∈ [0x07, 0x27, 0x43, 0x53])))) = true ∧
    (let k : CoreRef := ⟨0, 0, 0⟩;
     let s : State := prog 0x30200073 (sc 0x2001 5);
     decide (hasTile s k.tile.val = true) && (
     (fetchOf k s).any (fun (w, _, u) =>
     decide ((coreOf u k).machine = false ∧ (w = 0x30200073 ∨ w = 0x10500073))))) = true ∧
    (let k : CoreRef := ⟨0, 0, 0⟩;
     let s : State := prog 0x1000b1af (sc 0x2001 5);
     decide (hasTile s k.tile.val = true) && (
     (fetchOf k s).any (fun (w, _, u) =>
     decide ((coreOf u k).machine = false ∧ w % 128 = 0x2F ∧ bf w 14 12 = 3 ∧ (xRd (coreOf u k) (bf w 19 15)).toNat % 8 ≠ 0 ∧
       attrOf u (addr48 (xRd (coreOf u k) (bf w 19 15)).toNat) = .memory ∧ bf w 31 27 = 2 ∧ bf w 24 20 = 0)))) = true ∧
    (let k : CoreRef := ⟨0, 0, 0⟩;
     let s : State := prog 0x1820b1af (sc 0x2001 5);
     decide (hasTile s k.tile.val = true) && (
     (fetchOf k s).any (fun (w, _, u) =>
     decide ((coreOf u k).machine = false ∧ w % 128 = 0x2F ∧ bf w 14 12 = 3 ∧ (xRd (coreOf u k) (bf w 19 15)).toNat % 8 ≠ 0 ∧
       attrOf u (addr48 (xRd (coreOf u k) (bf w 19 15)).toNat) = .memory ∧ (bf w 31 27 = 3 ∨ bf w 31 27 = 0))))) = true ∧
    (let k : CoreRef := ⟨0, 0, 0⟩;
     let s : State := prog 0x8183 (sc 0x600000 5);
     decide (hasTile s k.tile.val = true) && (
     (fetchOf k s).any (fun (w, _, u) =>
     decide ((coreOf u k).machine = false) && (
     let a := addr48 (xRd (coreOf u k) (bf w 19 15) + immI w).toNat;
     decide (w % 128 = 0x03 ∧ bf w 14 12 = 0 ∧ attrOf u a = .unmapped))))) = true ∧
    (let k : CoreRef := ⟨0, 0, 0⟩;
     let s : State := prog 0x208023 (sc 0x600000 5);
     decide (hasTile s k.tile.val = true) && (
     (fetchOf k s).any (fun (w, _, u) =>
     decide ((coreOf u k).machine = false) && (
     let a := addr48 (xRd (coreOf u k) (bf w 19 15) + immS w).toNat;
     decide (w % 128 = 0x23 ∧ bf w 14 12 = 0 ∧ attrOf u a = .unmapped))))) = true ∧
    (let k : CoreRef := ⟨0, 0, 0⟩;
     let s : State := prog 0xb183 (sc 0x2001 5);
     decide (hasTile s k.tile.val = true) && (
     (fetchOf k s).any (fun (w, _, u) =>
     decide ((coreOf u k).machine = false) && (
     let a := addr48 (xRd (coreOf u k) (bf w 19 15) + immI w).toNat;
     decide (w % 128 = 0x03 ∧ bf w 14 12 = 3 ∧ attrOf u a = .memory ∧ badPages u [(a, 8)] = [] ∧ a % 8 ≠ 0))))) = true ∧
    (let k : CoreRef := ⟨0, 0, 0⟩;
     let s : State := prog 0x20b023 (sc 0x2001 5);
     decide (hasTile s k.tile.val = true) && (
     (fetchOf k s).any (fun (w, _, u) =>
     decide ((coreOf u k).machine = false) && (
     let a := addr48 (xRd (coreOf u k) (bf w 19 15) + immS w).toNat;
     decide (w % 128 = 0x23 ∧ bf w 14 12 = 3 ∧ attrOf u a = .memory ∧ badPages u [(a, 8)] = [] ∧ a % 8 ≠ 0))))) = true := by
  decide +kernel

theorem test_hypotheses_queue_step :
    (let s : State := { ready with pending := [.cxlmemRead 0 3 false, .deviceReset] };
     decide (s.pending ≠ [])) = true ∧
    (let s : State := bst 0x10F ready;
     decide (s.pending = [] ∧ noRefClock s = true)) = true ∧
    (let s : State := ready;
     decide (s.pending = [] ∧ noRefClock s = false ∧ (∀ e ∈ s.cores, e.2.heldStore = none))) = true := by
  decide +kernel

theorem test_hypotheses_reset_state :
    (let p : PageRef := pgIdent;
     decide (hasPage State.reset p = true)) = true := by
  decide +kernel

end Sys2Proof.Tests
end

section
/-! SUPPORT. How a core's instruction completes: the state after `issue`, what retiring leaves of the core and of the rest, and the
bytes of the vector registers after a write. -/

namespace Sys2Proof.Proofs

open Sys2Proof.Machine Sys2Proof.Safety Sys2Proof.Laws

/-! ### Cores by number -/

theorem coreIdx_injective : Function.Injective coreIdx := by
  rintro ⟨t, c, n⟩ ⟨t', c', n'⟩ h
  simp only [coreIdx] at h
  have ht : t = t' := Fin.ext (by omega)
  have hc : c = c' := Fin.ext (by omega)
  have hn : n = n' := Fin.ext (by omega)
  rw [ht, hc, hn]

theorem coreI_setCore (s : State) (k : CoreRef) (c : Core) (i : Nat) :
    coreI (setCore s k c) i = if i = coreIdx k then c else coreI s i := by
  by_cases h : i = coreIdx k
  · rw [if_pos h, h]
    exact mget_mset_self _ _ _ _
  · rw [if_neg h]
    exact mget_mset_ne _ _ _ h

theorem coreOf_setCore_of_ne (s : State) {k j : CoreRef} (c : Core) (h : j ≠ k) : coreOf (setCore s k c) j = coreOf s j :=
  core_setCore_ne s c fun e => h (coreIdx_injective e)

/-! ### Retiring (R88, R686) -/

@[simp] theorem retired_pc (c : Core) (p : Word) : (retired c p).pc = p := rfl

/-- Counting an instruction changes CSRs only. -/
theorem countInstr_eq (c : Core) : countInstr c = { c with csrs := (countInstr c).csrs } := by
  unfold countInstr
  split <;> rfl

/-- A retired core differs in its pc, its CSRs and the note of a stall. -/
theorem retired_eq (c : Core) (p : Word) : retired c p = { c with csrs := (countInstr c).csrs, pc := p, slotStall := false } := by
  unfold retired
  rw [countInstr_eq c]

@[simp] theorem retired_x (c : Core) (p : Word) : (retired c p).x = c.x := by rw [retired_eq]
@[simp] theorem retired_v (c : Core) (p : Word) : (retired c p).v = c.v := by rw [retired_eq]
@[simp] theorem retired_l1 (c : Core) (p : Word) : (retired c p).l1 = c.l1 := by rw [retired_eq]
@[simp] theorem retired_tds (c : Core) (p : Word) : (retired c p).tds = c.tds := by rw [retired_eq]

@[simp] theorem core_event (p : PageRef) (code n : Nat) (s : State) (j : CoreRef) : coreOf (event p code n s) j = coreOf s j :=
  core_of_frame (frame_event (fs := [.regs, .out]) (frame_refl _ s) (by simp) (by simp)) (by simp) j

theorem core_retire_self (k : CoreRef) (p : Word) (s : State) : coreOf (retire k p s) k = retired (coreOf s k) p := by
  unfold retire
  extract_lets user s'
  split <;> simp [s']

theorem core_retire_ne {k j : CoreRef} (p : Word) (s : State) (h : j ≠ k) : coreOf (retire k p s) j = coreOf s j := by
  unfold retire
  extract_lets user s'
  split <;> simp [s', coreOf_setCore_of_ne s _ h]

theorem frame_retire (k : CoreRef) (p : Word) {s t : State} (h : Frame [.regs, .cores, .out] s t) :
    Frame [.regs, .cores, .out] s (retire k p t) :=
  frame_trans h (retire_keeps (keeps_refl _ t)).frame

theorem regFrame_retire (k : CoreRef) (p : Word) (l : List (PageRef × Nat)) {s t : State} (h : RegFrame l s t) :
    RegFrame l s (retire k p t) := by
  have hc : RegFrame l s (setCore t k (retired (coreOf t k) p)) := regFrame_of_regs h rfl rfl
  unfold retire
  exact regFrame_ite (regFrame_event hc) hc

/-! ### Issuing -/

theorem issue_of_ok {k : CoreRef} {f : State → IRes} {s u : State} (hi : canIssue s k = true) (hf : f s = .ok u) :
    issue k f s = retire k ((coreOf s k).pc + 4) u := by
  unfold issue
  rw [if_pos hi, hf]
  rfl

/-- A command that issues an instruction of a core completes where the instruction does: the core retires what the instruction leaves. -/
theorem completes_of_issue {i : Instr} {k : CoreRef} {f : State → IRes} {s u : State} {P : State → Prop}
    (hexec : exec i s = atTile s k.tile (issue k f)) (ht : hasTile s k.tile.val = true) (hi : canIssue s k = true) (hf : f s = .ok u)
    (hP : exec i s = .next (retire k ((coreOf s k).pc + 4) u) → P (retire k ((coreOf s k).pc + 4) u)) : Completes i s P := by
  have hnext : exec i s = .next (retire k ((coreOf s k).pc + 4) u) := by
    rw [hexec, atTile, if_pos (of_decide_eq_true ht), issue_of_ok hi hf]
  exact ⟨_, hnext, hP hnext⟩

/-! ### Bytes of the vector registers (R94) -/

/-- Writing bytes of the vector registers changes nothing else of the core. -/
theorem vSetBytes_eq (c : Core) (n b : Nat) (l : List Byte) : vSetBytes c n b l = { c with v := (vSetBytes c n b l).v } := by
  induction l generalizing c b with
  | nil => rfl
  | cons x l ih =>
    unfold vSetBytes
    rw [ih]
    rfl

@[simp] theorem vByte_retired (c : Core) (p : Word) (n b : Nat) : vByte (retired c p) n b = vByte c n b := by simp only [vByte, retired_v]

@[simp] theorem vSetBytes_x (c : Core) (n b : Nat) (l : List Byte) : (vSetBytes c n b l).x = c.x := by rw [vSetBytes_eq]
@[simp] theorem vSetBytes_l1 (c : Core) (n b : Nat) (l : List Byte) : (vSetBytes c n b l).l1 = c.l1 := by rw [vSetBytes_eq]
@[simp] theorem vSetBytes_tds (c : Core) (n b : Nat) (l : List Byte) : (vSetBytes c n b l).tds = c.tds := by rw [vSetBytes_eq]
@[simp] theorem vSetBytes_requests (c : Core) (n b : Nat) (l : List Byte) : (vSetBytes c n b l).requests = c.requests := by
  rw [vSetBytes_eq]

theorem mget_vSetBytes_outside (c : Core) (n b : Nat) (l : List Byte) {i : Nat} (h : i < 256 * n + b ∨ 256 * n + b + l.length ≤ i) :
    mget 0 (vSetBytes c n b l).v i = mget 0 c.v i := by
  induction l generalizing c b with
  | nil => rfl
  | cons x l ih =>
    rw [List.length_cons] at h
    unfold vSetBytes
    rw [ih _ _ (by omega)]
    exact mget_mset_ne _ _ _ (by omega)

theorem vByte_vSetBytes (c : Core) (n b : Nat) (l : List Byte) {i : Nat} (h : i < l.length) :
    vByte (vSetBytes c n b l) n (b + i) = l[i] := by
  induction l generalizing c b i with
  | nil => simp at h
  | cons x l ih =>
    unfold vSetBytes
    cases i with
    | zero =>
      rw [vByte, mget_vSetBytes_outside _ _ _ _ (by omega)]
      exact mget_mset_self _ _ _ _
    | succ i =>
      have h' : i < l.length := by simpa using h
      rw [show b + (i + 1) = b + 1 + i by omega, ih _ _ h', List.getElem_cons_succ]

end Sys2Proof.Proofs
end

section
/-! SUPPORT. Accesses of a core to lines that its L1 holds (R92): no fill, no write-back, no other unit. -/

namespace Sys2Proof.Proofs

open Sys2Proof.Machine Sys2Proof.Safety Sys2Proof.Laws

/-! ### Addresses and lines -/

theorem addr48_add_mod (a i : Nat) : addr48 (addr48 a + i) = addr48 (a + i) := by
  simp only [addr48, Nat.mod_add_mod]

@[simp] theorem addr48_addr48 (a : Nat) : addr48 (addr48 a) = addr48 a := Nat.mod_mod _ _

/-- An address modulo 2^48 is its line and its place in the line. -/
theorem addr48_eq_iff (a b : Nat) : addr48 a = addr48 b ↔ lineNo a = lineNo b ∧ addr48 a % 64 = addr48 b % 64 := by
  simp only [lineNo]
  omega

theorem lineNo_mem_linesOf (a : Nat) {n i : Nat} (h : i < n) : lineNo (a + i) ∈ linesOf a n := by
  unfold linesOf
  rw [if_neg (by omega), List.mem_map]
  refine ⟨(a % 64 + i) / 64, List.mem_range.2 ?_, ?_⟩
  · have : (a % 64 + i) / 64 ≤ (a % 64 + n - 1) / 64 := Nat.div_le_div_right (by omega)
    omega
  · simp only [lineNo, addr48]
    omega

theorem addrs_nodup (a : Nat) {n : Nat} (h : n ≤ 2 ^ 48) : (addrs a n).Nodup := by
  refine List.pairwise_map.2 (List.Pairwise.imp_of_mem ?_ List.pairwise_lt_range)
  intro i j hi hj hlt e
  have hj := List.mem_range.1 hj
  simp only [addr48] at e
  omega

/-! ### Lines that L1 holds -/

/-- L1 holds a line. -/
def Held (c : Core) (line : Nat) : Prop := (l1Find c line).isSome = true

/-- Every line of L1 has 64 bytes. -/
def LinesWhole (c : Core) : Prop := ∀ l ∈ c.l1, l.bytes.length = 64

theorem held_of_all {c : Core} {ls : List Nat} (h : ls.all (fun l => (l1Find c l).isSome) = true) : ∀ l ∈ ls, Held c l :=
  List.all_eq_true.1 h

theorem l1Byte_congr (c : Core) {a b : Nat} (h : addr48 a = addr48 b) : l1Byte c a = l1Byte c b := by
  simp only [l1Byte, lineNo, h]

@[simp] theorem l1Byte_retired (c : Core) (p : Word) (a : Nat) : l1Byte (retired c p) a = l1Byte c a := by
  simp only [l1Byte, l1Find, retired_l1]

theorem l1Fill_of_held {s : State} {k : CoreRef} {line : Nat} (spec : Bool) (h : Held (coreOf s k) line) : l1Fill s k spec line = s := by
  unfold l1Fill
  exact if_pos h

theorem l1Alloc_of_held {s : State} {k : CoreRef} {line : Nat} (spec : Bool) (h : Held (coreOf s k) line) :
    l1Alloc s k spec line = s := by
  unfold l1Alloc
  exact if_pos h

theorem missing_of_held {s : State} {k : CoreRef} {a n : Nat} (h : ∀ l ∈ linesOf a n, Held (coreOf s k) l) :
    missing s k [(a, n)] = [] := by
  rw [missing, List.filter_eq_nil_iff]
  intro l hl
  have hl : l ∈ linesOf a n := by simpa using hl
  simpa using Option.isSome_iff_ne_none.1 (h l hl)

theorem takeSlots_of_held {s : State} {k : CoreRef} {a n : Nat} (h : ∀ l ∈ linesOf a n, Held (coreOf s k) l) :
    takeSlots k a n s = s := by
  simp [takeSlots, missing_of_held h]

/-! ### Reads -/

theorem foldl_coreReadByte_of_held {s : State} {k : CoreRef} (spec : Bool) (as : List Nat) (acc : List Byte)
    (h : ∀ a ∈ as, Held (coreOf s k) (lineNo a)) :
    as.foldl (coreReadByte k spec) (acc, s) = (acc ++ as.map (l1Byte (coreOf s k)), s) := by
  induction as generalizing acc with
  | nil => simp
  | cons a as ih =>
    have ha : coreReadByte k spec (acc, s) a = (acc ++ [l1Byte (coreOf s k) a], s) := by
      simp [coreReadByte, l1Fill_of_held spec (h a List.mem_cons_self)]
    rw [List.foldl_cons, ha, ih _ fun b hb => h b (List.mem_cons_of_mem _ hb)]
    simp

theorem held_of_mem_addrs {c : Core} {a n x : Nat} (h : ∀ l ∈ linesOf a n, Held c l) (hx : x ∈ addrs a n) : Held c (lineNo x) := by
  obtain ⟨i, hi, rfl⟩ := List.mem_map.1 hx
  have e : lineNo (addr48 (a + i)) = lineNo (a + i) := by simp only [lineNo, addr48_addr48]
  rw [e]
  exact h _ (lineNo_mem_linesOf a (List.mem_range.1 hi))

/-- A read of held lines returns the bytes of L1; only an armed injection of the core's page can show in the registers. -/
theorem coreRead_of_held {s : State} {k : CoreRef} {a n : Nat} (h : ∀ l ∈ linesOf a n, Held (coreOf s k) l) :
    coreRead s k a n = ((addrs a n).map (l1Byte (coreOf s k)), readStorage (.core k) (lineNo a % 2 ^ 16) s) := by
  unfold coreRead
  rw [takeSlots_of_held h, foldl_coreReadByte_of_held _ _ _ fun x hx => held_of_mem_addrs h hx]
  rfl

theorem frame_readStorage (p : PageRef) (i : Nat) (s : State) : Frame [.regs, .out] s (readStorage p i s) :=
  (readStorage_keeps (keeps_refl _ s)).frame

@[simp] theorem core_readStorage (p : PageRef) (i : Nat) (s : State) (j : CoreRef) : coreOf (readStorage p i s) j = coreOf s j :=
  core_of_frame (frame_readStorage p i s) (by simp) j

/-! ### Writes -/

theorem l1Find_l1Put (c : Core) (x : L1Line) (line : Nat) :
    l1Find (l1Put c x) line = if line = x.line then (l1Find c line).map (fun _ => x) else l1Find c line := by
  unfold l1Find l1Put
  induction c.l1 with
  | nil => simp
  | cons l ls ih =>
    rw [List.map_cons, List.find?_cons, List.find?_cons, ih]
    by_cases hl : l.line = x.line
    · by_cases hx : line = x.line
      · simp [hl, hx]
      · have hne : x.line ≠ line := fun e => hx e.symm
        simp [hl, hx, hne]
    · by_cases hx : line = x.line
      · simp [hl, hx]
      · simp [hl, hx]

theorem l1Find_spec {c : Core} {line : Nat} {l : L1Line} (h : l1Find c line = some l) : l.line = line ∧ l ∈ c.l1 :=
  ⟨by simpa using List.find?_some h, List.mem_of_find?_eq_some h⟩

theorem held_l1SetByte {c : Core} {line : Nat} (spec : Bool) (a : Nat) (v : Byte) (h : Held c line) :
    Held (l1SetByte c spec a v) line := by
  unfold l1SetByte Held
  split
  · rw [l1Find_l1Put]
    split
    · rw [Option.isSome_map]
      exact h
    · exact h
  · exact h

theorem linesWhole_l1SetByte {c : Core} (spec : Bool) (a : Nat) (v : Byte) (h : LinesWhole c) : LinesWhole (l1SetByte c spec a v) := by
  unfold l1SetByte
  split
  · next l hl =>
    intro x hx
    obtain ⟨y, hy, rfl⟩ := List.mem_map.1 hx
    split
    · simpa using h l (l1Find_spec hl).2
    · exact h y hy
  · exact h

/-- The core's L1 after one byte of a held line is written: that byte, and no other. -/
theorem l1Byte_l1SetByte {c : Core} (spec : Bool) {a : Nat} (v : Byte) (b : Nat) (hw : LinesWhole c) (ha : Held c (lineNo a)) :
    l1Byte (l1SetByte c spec a v) b = if addr48 b = addr48 a then v else l1Byte c b := by
  obtain ⟨l, hl⟩ := Option.isSome_iff_exists.1 ha
  obtain ⟨hline, hmem⟩ := l1Find_spec hl
  have hlen : l.bytes.length = 64 := hw l hmem
  unfold l1SetByte l1Byte
  rw [hl]
  dsimp only
  rw [l1Find_l1Put]
  dsimp only
  rw [hline]
  by_cases hb : lineNo b = lineNo a
  · have hlt : addr48 a % 64 < l.bytes.length := by omega
    rw [if_pos hb, hb, hl, Option.map_some]
    dsimp only
    rw [List.getD_eq_getElem?_getD, List.getElem?_set]
    by_cases ho : addr48 a % 64 = addr48 b % 64
    · rw [if_pos ho, if_pos hlt, if_pos ((addr48_eq_iff b a).2 ⟨hb, ho.symm⟩)]
      rfl
    · rw [if_neg ho, if_neg fun e => ho ((addr48_eq_iff b a).1 e).2.symm, List.getD_eq_getElem?_getD]
  · rw [if_neg hb, if_neg fun e => hb ((addr48_eq_iff b a).1 e).1]

/-- The core's L1 after bytes of held lines are written in turn. -/
def l1SetBytes (spec : Bool) (es : List (Nat × Byte)) (c : Core) : Core := es.foldl (fun c e => l1SetByte c spec e.1 e.2) c

theorem l1SetByte_eq (c : Core) (spec : Bool) (a : Nat) (v : Byte) :
    l1SetByte c spec a v = { c with l1 := (l1SetByte c spec a v).l1 } := by
  unfold l1SetByte
  split <;> rfl

theorem l1SetBytes_eq (spec : Bool) (es : List (Nat × Byte)) (c : Core) :
    l1SetBytes spec es c = { c with l1 := (l1SetBytes spec es c).l1 } := by
  induction es generalizing c with
  | nil => rfl
  | cons e es ih =>
    have h := ih (l1SetByte c spec e.1 e.2)
    rw [l1SetByte_eq] at h
    rw [l1SetBytes, List.foldl_cons, ← l1SetBytes, l1SetByte_eq]
    exact h

theorem l1Byte_l1SetBytes_of_not_mem (spec : Bool) (es : List (Nat × Byte)) {c : Core} {b : Nat} (hw : LinesWhole c)
    (hes : ∀ e ∈ es, Held c (lineNo e.1)) (hb : ∀ e ∈ es, addr48 b ≠ addr48 e.1) :
    l1Byte (l1SetBytes spec es c) b = l1Byte c b := by
  induction es generalizing c with
  | nil => rfl
  | cons e es ih =>
    rw [l1SetBytes, List.foldl_cons, ← l1SetBytes,
      ih (linesWhole_l1SetByte _ _ _ hw) (fun x hx => held_l1SetByte _ _ _ (hes x (List.mem_cons_of_mem _ hx)))
        (fun x hx => hb x (List.mem_cons_of_mem _ hx)),
      l1Byte_l1SetByte _ _ _ hw (hes e List.mem_cons_self), if_neg (hb e List.mem_cons_self)]

theorem l1Byte_l1SetBytes_of_mem (spec : Bool) (es : List (Nat × Byte)) {c : Core} {e : Nat × Byte} (hw : LinesWhole c)
    (hes : ∀ e ∈ es, Held c (lineNo e.1)) (hd : (es.map (fun e => addr48 e.1)).Nodup) (he : e ∈ es) :
    l1Byte (l1SetBytes spec es c) e.1 = e.2 := by
  induction es generalizing c with
  | nil => simp at he
  | cons x es ih =>
    obtain ⟨hx, hd⟩ := List.nodup_cons.1 hd
    have hw' := linesWhole_l1SetByte spec x.1 x.2 hw
    have hes' : ∀ y ∈ es, Held (l1SetByte c spec x.1 x.2) (lineNo y.1) :=
      fun y hy => held_l1SetByte _ _ _ (hes y (List.mem_cons_of_mem _ hy))
    rw [l1SetBytes, List.foldl_cons, ← l1SetBytes]
    obtain rfl | he := List.mem_cons.1 he
    · have hne : ∀ y ∈ es, addr48 e.1 ≠ addr48 y.1 := fun y hy h => hx (List.mem_map.2 ⟨y, hy, h.symm⟩)
      rw [l1Byte_l1SetBytes_of_not_mem _ _ hw' hes' hne, l1Byte_l1SetByte _ _ _ hw (hes e List.mem_cons_self), if_pos rfl]
    · exact ih hw' hes' hd he

theorem coreWriteByte_of_held {s : State} {k : CoreRef} (spec : Bool) (whole : List Nat) {e : Nat × Byte}
    (h : Held (coreOf s k) (lineNo e.1)) :
    coreWriteByte k spec whole s e = setCore s k (l1SetByte (coreOf s k) spec e.1 e.2) := by
  simp [coreWriteByte, l1Alloc_of_held spec h, l1Fill_of_held spec h]

/-- Writes of bytes of held lines change the core's L1 and nothing else. -/
theorem foldl_coreWriteByte_of_held {s : State} {k : CoreRef} (spec : Bool) (whole : List Nat) (es : List (Nat × Byte))
    (h : ∀ e ∈ es, Held (coreOf s k) (lineNo e.1)) :
    coreOf (es.foldl (coreWriteByte k spec whole) s) k = l1SetBytes spec es (coreOf s k) ∧
      Frame [.cores] s (es.foldl (coreWriteByte k spec whole) s) := by
  induction es generalizing s with
  | nil => exact ⟨rfl, frame_refl _ s⟩
  | cons e es ih =>
    have hstep := coreWriteByte_of_held spec whole (h e List.mem_cons_self)
    have hcore : coreOf (coreWriteByte k spec whole s e) k = l1SetByte (coreOf s k) spec e.1 e.2 := by rw [hstep, core_setCore_self]
    have hframe : Frame [.cores] s (coreWriteByte k spec whole s e) := by
      rw [hstep]
      exact frame_setCore (frame_refl _ s) (by simp)
    obtain ⟨hc, hf⟩ := ih (s := coreWriteByte k spec whole s e) fun x hx => by
      rw [hcore]
      exact held_l1SetByte _ _ _ (h x (List.mem_cons_of_mem _ hx))
    rw [List.foldl_cons]
    exact ⟨by rw [hc, hcore, l1SetBytes, l1SetBytes, List.foldl_cons], frame_trans hframe hf⟩

/-- L1 with each line replaced by one of the same number and bytes reads the same. -/
theorem l1Byte_map {c : Core} {g : L1Line → L1Line} (hline : ∀ l, (g l).line = l.line) (hbytes : ∀ l, (g l).bytes = l.bytes) (a : Nat) :
    l1Byte { c with l1 := c.l1.map g } a = l1Byte c a := by
  have hfind : l1Find { c with l1 := c.l1.map g } (lineNo a) = (l1Find c (lineNo a)).map g := by
    simp only [l1Find, List.find?_map, Function.comp_def, hline]
  unfold l1Byte
  rw [hfind]
  cases l1Find c (lineNo a) with
  | none => rfl
  | some l => simp [hbytes]

/-- Healing lines and storing one with an injected error change no byte: only marks of poison. -/
theorem core_of_l1Inject_l1Heal {k : CoreRef} {whole : List Nat} {line : Nat} {s t : State}
    (ht : t = l1Inject k line (setCore s k (l1Heal (coreOf s k) whole))) :
    (∀ a, l1Byte (coreOf t k) a = l1Byte (coreOf s k) a) ∧ (coreOf t k).x = (coreOf s k).x ∧ (coreOf t k).v = (coreOf s k).v := by
  have hheal : ∀ a, l1Byte (l1Heal (coreOf s k) whole) a = l1Byte (coreOf s k) a :=
    l1Byte_map (fun l => by split <;> rfl) (fun l => by split <;> rfl)
  subst ht
  unfold l1Inject
  split
  · have hlog : ∀ (b d : Nat) (u : State), coreOf (logErr (.core k) b d u) k = coreOf u k := fun b d u =>
      core_of_frame (frame_logErr (fs := [.regs, .out]) (frame_refl _ u) (by simp) (by simp)) (by simp) k
    simp only [takeInjection, hlog, core_setFld, core_setCore_self]
    refine ⟨fun a => ?_, rfl, rfl⟩
    rw [l1Byte_map (fun l => by split <;> rfl) (fun l => by split <;> rfl), hheal]
  · rw [core_setCore_self]
    exact ⟨hheal, rfl, rfl⟩

/-- The bytes of a write, each with its address. -/
def placed (a : Nat) (v : List Byte) : List (Nat × Byte) := List.zip (addrs a v.length) v

theorem placed_addrs (a : Nat) (v : List Byte) : (placed a v).map (fun e => addr48 e.1) = addrs a v.length := by
  have hfst : (placed a v).map Prod.fst = addrs a v.length := List.map_fst_zip (by simp [addrs])
  calc (placed a v).map (fun e => addr48 e.1) = ((placed a v).map Prod.fst).map addr48 := by rw [List.map_map]; rfl
    _ = addrs a v.length := by
      rw [hfst, addrs, List.map_map]
      exact List.map_congr_left fun i _ => addr48_addr48 _

theorem mem_placed (a : Nat) (v : List Byte) {i : Nat} (h : i < v.length) : (addr48 (a + i), v[i]) ∈ placed a v :=
  List.mem_iff_getElem.2 ⟨i, by simp [placed, addrs, h], by simp [placed, addrs]⟩

theorem coreWrite_eq_of_held {s u : State} {k : CoreRef} {a : Nat} {v : List Byte} (h : ∀ l ∈ linesOf a v.length, Held (coreOf s k) l)
    (hu : (placed a v).foldl (coreWriteByte k (coreSpec s k) (wholeLines a v.length)) s = u) :
    coreWrite s k a v = l1Inject k (lineNo a) (setCore u k (l1Heal (coreOf u k) (wholeLines a v.length))) := by
  unfold coreWrite
  rw [takeSlots_of_held h, ← hu]
  rfl

/-- What a write of bytes to held lines leaves: their bytes in L1, and no other change but to registers and marks of poison. -/
theorem coreWrite_of_held {s : State} {k : CoreRef} {a : Nat} {v : List Byte} (h : ∀ l ∈ linesOf a v.length, Held (coreOf s k) l) :
    (∀ b, l1Byte (coreOf (coreWrite s k a v) k) b = l1Byte (l1SetBytes (coreSpec s k) (placed a v) (coreOf s k)) b) ∧
    (coreOf (coreWrite s k a v) k).x = (coreOf s k).x ∧ (coreOf (coreWrite s k a v) k).v = (coreOf s k).v ∧
    Frame [.regs, .cores, .out] s (coreWrite s k a v) := by
  obtain ⟨hc, hf⟩ := foldl_coreWriteByte_of_held (coreSpec s k) (wholeLines a v.length) (placed a v)
    fun e he => held_of_mem_addrs h (List.of_mem_zip he).1
  generalize hu : (placed a v).foldl (coreWriteByte k (coreSpec s k) (wholeLines a v.length)) s = u at hc hf
  have hwrite := coreWrite_eq_of_held h hu
  obtain ⟨hbyte, hx, hv⟩ := core_of_l1Inject_l1Heal hwrite
  simp only [hc] at hbyte hx hv
  rw [l1SetBytes_eq] at hx hv
  refine ⟨hbyte, hx, hv, ?_⟩
  rw [hwrite]
  exact frame_trans (frame_setCore (frame_mono hf (by simp)) (by simp)) (l1Inject_keeps (keeps_refl _ _)).frame

/-- The bytes of L1 after a write to held lines. -/
theorem l1Byte_coreWrite_of_held {s : State} {k : CoreRef} {a : Nat} {v : List Byte}
    (h : ∀ l ∈ linesOf a v.length, Held (coreOf s k) l) (hw : LinesWhole (coreOf s k)) (hn : v.length ≤ 2 ^ 48) :
    (∀ i (hi : i < v.length), l1Byte (coreOf (coreWrite s k a v) k) (a + i) = v[i]) ∧
    (∀ b, addr48 b ∉ addrs a v.length → l1Byte (coreOf (coreWrite s k a v) k) b = l1Byte (coreOf s k) b) := by
  obtain ⟨hbyte, -⟩ := coreWrite_of_held h
  have hes : ∀ e ∈ placed a v, Held (coreOf s k) (lineNo e.1) := fun e he => held_of_mem_addrs h (List.of_mem_zip he).1
  refine ⟨fun i hi => ?_, fun b hb => ?_⟩
  · have hnd : ((placed a v).map (fun e => addr48 e.1)).Nodup := by
      rw [placed_addrs]
      exact addrs_nodup a hn
    rw [hbyte, l1Byte_congr _ (addr48_addr48 (a + i)).symm]
    exact l1Byte_l1SetBytes_of_mem _ _ hw hes hnd (mem_placed a v hi)
  · rw [hbyte]
    refine l1Byte_l1SetBytes_of_not_mem _ _ hw hes fun e he heq => hb ?_
    rw [heq, ← placed_addrs]
    exact List.mem_map_of_mem (f := fun e : Nat × Byte => addr48 e.1) he

end Sys2Proof.Proofs
end

section
/-! SUPPORT. The vector memory instructions and VCVT (R130, R131), and the statement about them. -/

namespace Sys2Proof.Proofs

open Sys2Proof.Machine Sys2Proof.Safety Sys2Proof.Laws

/-- The components that an access through L1 may change when it misses. -/
def accessFields : List Field :=
  [.regs, .slots, .tasks, .ctrs, .cores, .clusters, .mem, .granger, .streams, .net, .coll, .control, .step, .power, .traces, .out, .free]

/-! ### VLD -/

/-- A core after VLD: the bytes that a read answers are in the register. -/
def vldState (k : CoreRef) (d a : Nat) (s : State) : State :=
  setCore (coreRead s k a 256).2 k (vSetBytes (coreOf (coreRead s k a 256).2 k) d 0 (coreRead s k a 256).1)

theorem vldOp_eq {k : CoreRef} {d r : Nat} {s : State} (halign : (xRd (coreOf s k) r).toNat % 64 = 0)
    (hpages : badPages s [(addr48 (xRd (coreOf s k) r).toNat, 256)] = [])
    (hwait : accessWaits s k [(addr48 (xRd (coreOf s k) r).toNat, 256)] = false)
    (hpoison : corePoison s k (addr48 (xRd (coreOf s k) r).toNat) 256 = none) :
    vldOp k d r s = .ok (vldState k d (addr48 (xRd (coreOf s k) r).toNat) s) := by
  simp [vldOp, halign, hpages, hwait, hpoison, lowest, vldState]

/-- VLD of lines that L1 holds: the bytes of L1 in the register, and no other change but to registers of pages. -/
theorem vldState_of_held {k : CoreRef} {d a : Nat} {s : State} (h : ∀ l ∈ linesOf a 256, Held (coreOf s k) l) :
    coreOf (vldState k d a s) k = vSetBytes (coreOf s k) d 0 ((addrs a 256).map (l1Byte (coreOf s k))) ∧
      Frame [.regs, .cores, .out] s (vldState k d a s) := by
  unfold vldState
  rw [coreRead_of_held h]
  exact ⟨by simp, frame_setCore (frame_mono (frame_readStorage _ _ s) (by simp)) (by simp)⟩

theorem vByte_vldState_of_held {k : CoreRef} {d a b : Nat} {s : State} (h : ∀ l ∈ linesOf a 256, Held (coreOf s k) l) (hb : b < 256) :
    vByte (coreOf (vldState k d a s) k) d b = l1Byte (coreOf s k) (a + b) := by
  have hlen : b < ((addrs a 256).map (l1Byte (coreOf s k))).length := by simpa [addrs] using hb
  have hbyte := vByte_vSetBytes (coreOf s k) d 0 _ hlen
  rw [Nat.zero_add] at hbyte
  rw [(vldState_of_held h).1, hbyte]
  simpa [addrs] using l1Byte_congr (coreOf s k) (addr48_addr48 (a + b))

/-! ### VST -/

theorem storeRanges_eq {k : CoreRef} {l : List (Nat × List Byte)} {s : State} (hclosed : ∀ e ∈ l, closedPages s k [(e.1, e.2.length)] = [])
    (hwait : accessWaits s k (l.map (fun e => (e.1, e.2.length))) = false)
    (hpoison : ∀ e ∈ l, corePoisonStore s k e.1 e.2.length = none) : storeRanges k l s = .ok (coreWrites k l s) := by
  have hnone : closedPages s k (l.map (fun e => (e.1, e.2.length))) = [] := by
    rw [closedPages, List.flatMap_map, List.flatMap_eq_nil_iff]
    intro e he
    simpa [closedPages] using hclosed e he
  have hfind : (l.map (fun e => (e.1, e.2.length))).findSome?
      (fun r => (corePoisonStore s k r.1 r.2).map (fun line => (r.1, line))) = none := by
    rw [List.findSome?_eq_none_iff]
    intro r hr
    obtain ⟨e, he, rfl⟩ := List.mem_map.1 hr
    simp [hpoison e he]
  simp only [storeRanges, hnone, lowest, hwait, hfind, Bool.false_eq_true, if_false]

/-- The bytes of a register. -/
def vBytes (c : Core) (d : Nat) : List Byte := (List.range 256).map (vByte c d)

@[simp] theorem vBytes_length (c : Core) (d : Nat) : (vBytes c d).length = 256 := by simp [vBytes]

theorem vstOp_eq {k : CoreRef} {d r : Nat} {s : State} (halign : (xRd (coreOf s k) r).toNat % 64 = 0)
    (hpages : badPages s [(addr48 (xRd (coreOf s k) r).toNat, 256)] = [])
    (hclosed : closedPages s k [(addr48 (xRd (coreOf s k) r).toNat, 256)] = [])
    (hwait : accessWaits s k [(addr48 (xRd (coreOf s k) r).toNat, 256)] = false)
    (hpoison : corePoisonStore s k (addr48 (xRd (coreOf s k) r).toNat) 256 = none) :
    vstOp k d r s = .ok (coreWrite s k (addr48 (xRd (coreOf s k) r).toNat) (vBytes (coreOf s k) d)) := by
  have hstore := storeRanges_eq (k := k) (l := [(addr48 (xRd (coreOf s k) r).toNat, vBytes (coreOf s k) d)]) (s := s)
    (by simpa using hclosed) (by simpa using hwait) (by simpa using hpoison)
  simpa [vstOp, halign, hpages, lowest, vBytes, coreWrites] using hstore

/-! ### VCVT -/

theorem vcvtOp_eq {k : CoreRef} {d a c src dst : Nat} {st : Bool} {s : State} (hcode : vcvtCode c = some (src, dst, st))
    (hst : st = true → d ≠ 127 ∧ a ≠ 127) :
    vcvtOp k d a c s = .ok (setCore s k (advanceStream (streamOf (coreOf s k) st) 16
      (vSetBytes (coreOf s k) d 0 (vcvtBytes (coreOf s k) a src dst (streamOf (coreOf s k) st))))) := by
  have hlegal : (st && (decide (d = 127) || decide (a = 127))) = false := by
    cases st with
    | false => rfl
    | true => simp [hst rfl]
  simp [vcvtOp, hcode, hlegal]

/-- Settles O22: each instruction issues, its operation answers ok under the premises, and L1 serves the lines that it holds. -/
theorem vectorMemoryAndConversion : Obligations.VectorMemoryAndConversion := by
  unfold Obligations.VectorMemoryAndConversion
  refine ⟨?vld, ?vst, ?vcvt⟩
  case vld =>
    intro k d r s ht hi halign hpages hwait hpoison
    refine completes_of_issue rfl ht hi (vldOp_eq halign hpages hwait hpoison) fun hnext => ?_
    rw [core_retire_self]
    refine ⟨rfl, (execVld_keeps (keeps_refl accessFields s) (List.Subset.refl accessFields) _ hnext).frame, fun hall => ?_⟩
    have hheld := held_of_all hall
    obtain ⟨hcore, hframe⟩ := vldState_of_held (d := d.val) hheld
    refine ⟨fun b hb => ?_, fun i hi => ?_, by simp [hcore], by simp [hcore], frame_retire _ _ hframe⟩
    · rw [vByte_retired, vByte_vldState_of_held hheld hb]
      exact l1Byte_congr _ (addr48_add_mod _ _)
    · rw [retired_v, hcore]
      exact mget_vSetBytes_outside _ _ _ _ (by simpa [addrs] using hi)
  case vst =>
    intro k d r s ht hi halign hpages hclosed hwait hpoison
    refine completes_of_issue rfl ht hi (vstOp_eq halign hpages hclosed hwait hpoison) fun hnext => ?_
    rw [core_retire_self]
    refine ⟨rfl, (execVst_keeps (keeps_refl accessFields s) (List.Subset.refl accessFields) _ hnext).frame, fun hall hwhole => ?_⟩
    have hheld : ∀ l ∈ linesOf (addr48 (xRd (coreOf s k) r.val).toNat) (vBytes (coreOf s k) d.val).length, Held (coreOf s k) l := by
      rw [vBytes_length]
      exact held_of_all hall
    have hlines : LinesWhole (coreOf s k) := fun l hl => of_decide_eq_true (List.all_eq_true.1 hwhole l hl)
    obtain ⟨-, hx, hv, hframe⟩ := coreWrite_of_held hheld
    obtain ⟨hin, hout⟩ := l1Byte_coreWrite_of_held hheld hlines (by simp)
    simp only [l1Byte_retired, retired_x, retired_v]
    refine ⟨hx, hv, fun b hb => ?_, fun a ha => hout a (by simpa using ha), frame_retire _ _ hframe⟩
    rw [← l1Byte_congr _ (addr48_add_mod _ b), hin b (by simpa using hb)]
    simp [vBytes]
  case vcvt =>
    intro k d a c src dst st s ht hi hcode hst
    refine completes_of_issue rfl ht hi (vcvtOp_eq hcode hst) fun _ => ?_
    refine ⟨by rw [core_retire_self, core_setCore_self], fun j hj => ?_, ?_, ?_⟩
    · rw [core_retire_ne _ _ hj, coreOf_setCore_of_ne _ _ hj]
    · exact frame_retire _ _ (frame_setCore (frame_refl _ s) (by simp))
    · exact regFrame_retire _ _ _ (regFrame_of_regs (regFrame_refl _ s) rfl rfl)

end Sys2Proof.Proofs
end

section
/-! SUPPORT. Accesses of a core through L1 disturb no task's operands while no request waits at a bank of its cluster: fills and
write-backs change L1, memory, counts and reservations, but no general register, vector register, descriptor or request slot of any core,
and nothing that waits at a bank. (Where a request does wait, the bank may answer it first, and what that answer sets off may end tasks.) -/

namespace Sys2Proof.Proofs

open Sys2Proof.Machine Sys2Proof.Safety Sys2Proof.Laws

/-- What a core's instructions work on, and its outstanding requests. -/
def operands (c : Core) : List (Nat × Word) × List (Nat × Byte) × List (Nat × Word) × List Request := (c.x, c.v, c.tds, c.requests)

/-- From `s` to `t` no core's operands or requests change, and no packet comes to or leaves a bank's queue. -/
structure Undisturbed (s t : State) : Prop where
  operands : ∀ i, operands (coreI t i) = operands (coreI s i)
  waiting : ∀ cl n, (bankAt t cl n).waiting = (bankAt s cl n).waiting

/-- Components that hold no core and no bank. -/
abbrev quietFields : List Field := [.regs, .mem, .granger, .net, .out, .free]

section

variable {s0 s t : State}

theorem undisturbed_refl (s : State) : Undisturbed s s := ⟨fun _ => rfl, fun _ _ => rfl⟩

theorem undisturbed_trans (h : Undisturbed s0 s) (k : Undisturbed s t) : Undisturbed s0 t :=
  ⟨fun i => (k.operands i).trans (h.operands i), fun cl n => (k.waiting cl n).trans (h.waiting cl n)⟩

theorem undisturbed_ite {c : Prop} [Decidable c] (h : Undisturbed s0 s) (k : Undisturbed s0 t) : Undisturbed s0 (if c then s else t) := by
  split <;> assumption

theorem undisturbed_foldl {α : Type} {f : State → α → State} (l : List α) (hf : ∀ t x, Undisturbed s0 t → Undisturbed s0 (f t x))
    (h : Undisturbed s0 s) : Undisturbed s0 (l.foldl f s) := by
  induction l generalizing s with
  | nil => exact h
  | cons x l ih => exact ih (hf _ _ h)

theorem undisturbed_of_keeps (h : Undisturbed s0 s) (hk : Keeps quietFields s t) : Undisturbed s0 t := by
  have hcores : t.cores = s.cores := hk.frame .cores (by simp)
  have hclusters : t.clusters = s.clusters := hk.frame .clusters (by simp)
  refine undisturbed_trans h ⟨fun i => ?_, fun cl n => ?_⟩
  · simp only [coreI, hcores]
  · simp only [bankAt, cluster, hclusters]

theorem undisturbed_coreI {i : Nat} {c : Core} (h : Undisturbed s0 s) (hc : operands c = operands (coreI s i)) :
    Undisturbed s0 { s with cores := mset {} s.cores i c } := by
  refine undisturbed_trans h ⟨fun j => ?_, fun _ _ => rfl⟩
  by_cases hj : j = i
  · rw [hj, ← hc]
    exact congrArg operands (mget_mset_self _ _ _ _)
  · exact congrArg operands (mget_mset_ne _ _ _ hj)

theorem undisturbed_setCore {k : CoreRef} {c : Core} (h : Undisturbed s0 s) (hc : operands c = operands (coreOf s k)) :
    Undisturbed s0 (setCore s k c) := undisturbed_coreI h hc

theorem undisturbed_setL1 (k : CoreRef) (l : List L1Line) (h : Undisturbed s0 s) :
    Undisturbed s0 (setCore s k { coreOf s k with l1 := l }) := undisturbed_setCore h rfl

theorem clIdx_injective : Function.Injective clIdx := by
  rintro ⟨t, c⟩ ⟨t', c'⟩ h
  simp only [clIdx] at h
  have ht : t = t' := Fin.ext (by omega)
  have hc : c = c' := Fin.ext (by omega)
  rw [ht, hc]

theorem bankAt_setBank (s : State) (cl cl' : ClusterRef) (n m : Nat) (b : Bank) :
    bankAt (setBank s cl n b) cl' m = if cl' = cl ∧ m = n then b else bankAt s cl' m := by
  unfold bankAt setBank
  by_cases hcl : cl' = cl
  · subst hcl
    rw [cluster_setCluster_self]
    by_cases hm : m = n
    · rw [if_pos ⟨rfl, hm⟩, hm]
      exact mget_mset_self _ _ _ _
    · rw [if_neg fun e => hm e.2]
      exact mget_mset_ne _ _ _ hm
  · rw [if_neg fun e => hcl e.1, cluster_setCluster_ne _ _ fun e => hcl (clIdx_injective e)]

theorem undisturbed_setBank {cl : ClusterRef} {n : Nat} {b : Bank} (h : Undisturbed s0 s) (hb : b.waiting = (bankAt s cl n).waiting) :
    Undisturbed s0 (setBank s cl n b) := by
  refine undisturbed_trans h ⟨fun _ => rfl, fun cl' m => ?_⟩
  rw [bankAt_setBank]
  split
  · next e => rw [e.1, e.2, hb]
  · rfl

@[simp] theorem countGrant_waiting (b : Bank) (nonCore : Bool) : (countGrant b nonCore).waiting = b.waiting := by
  unfold countGrant
  split <;> rfl

/-! ### Writes at homes -/

theorem dropReservations_undisturbed (ls : List Nat) (h : Undisturbed s0 s) : Undisturbed s0 (dropReservations s ls) :=
  undisturbed_foldl _ (fun _ _ h => undisturbed_coreI h rfl) h

theorem writeMem_undisturbed (a : Nat) (v : List Byte) (h : Undisturbed s0 s) : Undisturbed s0 (writeMem s a v) :=
  dropReservations_undisturbed _ ⟨h.operands, h.waiting⟩

theorem report_undisturbed (tile : Fin 8) (ty n att : Nat) (w2 w3 : Word) (h : Undisturbed s0 s) :
    Undisturbed s0 (report tile ty n att w2 w3 s) := by
  unfold report
  extract_lets p size seq a s1 s2 s3 s4
  have h1 : Undisturbed s0 s1 := undisturbed_of_keeps h (setFld_keeps (keeps_refl _ s))
  have h4 : Undisturbed s0 s4 := writeMem_undisturbed _ _ (writeMem_undisturbed _ _ (writeMem_undisturbed _ _ h1))
  exact undisturbed_ite h (undisturbed_ite (writeMem_undisturbed _ _ h4) (undisturbed_of_keeps h1 (logErr_keeps (keeps_refl _ s1))))

theorem switchHome_undisturbed (n : Nat) (home : Home) (place trigger ns : Nat) (h : Undisturbed s0 s) :
    Undisturbed s0 (switchHome n home place trigger ns s) := by
  unfold switchHome
  split
  · exact h
  · exact report_undisturbed _ _ _ _ _ _
      (undisturbed_of_keeps h (addReg_keeps (setBushel_keeps (storeBushel_keeps (keeps_refl _ s)))))

theorem growBushel_undisturbed (n : Nat) (h : Undisturbed s0 s) : Undisturbed s0 (growBushel s n) := by
  unfold growBushel
  split
  · exact h
  · refine undisturbed_ite h (undisturbed_ite h (undisturbed_ite ?_ ?_))
    · exact undisturbed_of_keeps h (setBushel_keeps (keeps_refl _ s))
    · exact switchHome_undisturbed _ _ _ _ _ (undisturbed_of_keeps h (placeIn_keeps (keeps_refl _ s)))

theorem storeHome_undisturbed (tile a : Nat) (v : List Byte) (h : Undisturbed s0 s) : Undisturbed s0 (storeHome tile a v s) := by
  unfold storeHome
  refine undisturbed_foldl _ (fun _ _ h => growBushel_undisturbed _ h) ?_
  have hw := writeMem_undisturbed a v (undisturbed_of_keeps h (homeAccesses_keeps (a1 := true) (a2 := tile) (a3 := a) (a4 := v.length)
    (keeps_refl _ s)))
  split
  · exact undisturbed_of_keeps hw (writeStorage_keeps (keeps_refl _ _))
  · exact hw

theorem storeShadow_undisturbed (line : Nat) (v : List Byte) (h : Undisturbed s0 s) : Undisturbed s0 (storeShadow line v s) := by
  have hopen : Undisturbed s0 ((linesOf (64 * line) v.length).foldl shadowOpen s) :=
    undisturbed_foldl _ (fun t _ h => undisturbed_of_keeps h (shadowOpen_keeps (keeps_refl _ t))) h
  have hw : Undisturbed s0 (shadowWrite s (64 * line) v) := dropReservations_undisturbed _ ⟨hopen.operands, hopen.waiting⟩
  exact undisturbed_of_keeps hw (writeStorage_keeps (keeps_refl _ _))

/-! ### Write-backs and room in L1 -/

theorem sendBack_undisturbed (k : CoreRef) (line : Nat) (h : Undisturbed s0 s) : Undisturbed s0 (sendBack k line s) := by
  unfold sendBack
  extract_lets s1
  have h1 : Undisturbed s0 s1 := undisturbed_of_keeps h (dropResponses_keeps (keeps_refl _ s))
  split
  · exact h1
  · refine undisturbed_ite ?_ ?_
    · exact undisturbed_setBank h1 (countGrant_waiting _ _)
    · exact undisturbed_of_keeps h1 (carry_keeps (carry_keeps (keeps_refl _ s1)))

theorem acceptLine_undisturbed (k : CoreRef) (x : L1Line) (h : Undisturbed s0 s) : Undisturbed s0 (acceptLine k x s) := by
  have hb := sendBack_undisturbed k x.line h
  unfold acceptLine
  split
  · exact h
  · refine undisturbed_ite (undisturbed_ite ?_ h) ?_
    · exact undisturbed_of_keeps (storeShadow_undisturbed _ _ hb) (passPoison_keeps (keeps_refl _ _))
    · exact undisturbed_of_keeps (storeHome_undisturbed _ _ _ hb) (passPoison_keeps (keeps_refl _ _))

theorem l1Room_undisturbed (k : CoreRef) (h : Undisturbed s0 s) : Undisturbed s0 (l1Room s k) := by
  unfold l1Room
  refine undisturbed_ite h ?_
  have hc : Undisturbed s0 (choose s l1Lines).2 := undisturbed_of_keeps h (choose_keeps (keeps_refl _ s))
  generalize choose s l1Lines = r at hc
  obtain ⟨i, s1⟩ := r
  dsimp only at hc ⊢
  split
  · refine undisturbed_setL1 k _ ?_
    exact undisturbed_ite (acceptLine_undisturbed _ _ (undisturbed_of_keeps hc (slotUse_keeps (keeps_refl _ s1)))) hc
  · exact hc

end

/-! ### Turns at a bank -/

/-- No request and no packet waits at a bank of a cluster. -/
def BanksIdle (cl : ClusterRef) (s : State) : Prop := ∀ m : Fin 32, bankLoad s cl m = 0

theorem bankLoad_congr {s t : State} (hreq : ∀ k, (coreOf t k).requests = (coreOf s k).requests)
    (hwait : ∀ cl n, (bankAt t cl n).waiting = (bankAt s cl n).waiting) (cl : ClusterRef) (n : Nat) : bankLoad t cl n = bankLoad s cl n := by
  simp only [bankLoad, bankCores, hreq, hwait]

theorem banksIdle_of_undisturbed {cl : ClusterRef} {s t : State} (hi : BanksIdle cl s) (h : Undisturbed s t) : BanksIdle cl t :=
  fun m => (bankLoad_congr (fun k => congrArg (fun o => o.2.2.2) (h.operands (coreIdx k))) h.waiting cl m).trans (hi m)

theorem banksIdle_setCore {cl : ClusterRef} {s : State} {k : CoreRef} {c : Core} (hi : BanksIdle cl s)
    (hc : c.requests = (coreOf s k).requests) : BanksIdle cl (setCore s k c) := by
  have hreq : ∀ j, (coreOf (setCore s k c) j).requests = (coreOf s j).requests := by
    intro j
    by_cases hj : j = k
    · rw [hj, core_setCore_self, hc]
    · rw [coreOf_setCore_of_ne _ _ hj]
  exact fun m => (bankLoad_congr hreq (fun _ _ => rfl) cl m).trans (hi m)

theorem bankOf_lt (b : Bushel) (line : Nat) : bankOf b line < 32 :=
  Nat.xor_lt_two_pow (n := 5) (Nat.mod_lt _ (by decide)) (Nat.mod_lt _ (by decide))

/-- At a bank where nothing waits, a core's access is granted at once. -/
theorem bankTurn_of_idle {cl : ClusterRef} {n : Nat} {s : State} (m : Fin 16) (r : Request) (fuel : Nat) (h : bankLoad s cl n = 0) :
    bankTurn cl n (.core m r) (fuel + 1) s = setBank s cl n (countGrant (bankAt s cl n) false) := by
  obtain ⟨hcores, hwaiting⟩ := Nat.add_eq_zero_iff.1 h
  have hcores : bankCores s cl n = [] := List.eq_nil_of_length_eq_zero hcores
  have hwaiting : (bankAt s cl n).waiting = [] := List.eq_nil_of_length_eq_zero hwaiting
  simp [bankTurn, hcores, hwaiting, openWindow, nextWaiter, oldest]

section

variable {s0 s : State} {k : CoreRef}

theorem reachHome_undisturbed (line : Nat) (hi : BanksIdle (coreCl k) s0) (h : Undisturbed s0 s) :
    Undisturbed s0 (reachHome k line s) := by
  unfold reachHome
  split
  · exact h
  · next b _ =>
    refine undisturbed_ite ?_ ?_
    · have hload : bankLoad s (coreCl k) (bankOf b line) = 0 := banksIdle_of_undisturbed hi h ⟨_, bankOf_lt b line⟩
      dsimp only
      rw [bankTurn_of_idle _ _ _ hload]
      exact undisturbed_setBank h (countGrant_waiting _ _)
    · exact undisturbed_of_keeps h (carry_keeps (carry_keeps (keeps_refl _ s)))

/-! ### Accesses through L1 -/

theorem l1Fill_undisturbed (spec : Bool) (line : Nat) (hi : BanksIdle (coreCl k) s0) (h : Undisturbed s0 s) :
    Undisturbed s0 (l1Fill s k spec line) := by
  unfold l1Fill
  extract_lets s1 s2 s3 c
  have h1 : Undisturbed s0 s1 := reachHome_undisturbed line hi h
  have h3 : Undisturbed s0 s3 := undisturbed_of_keeps (l1Room_undisturbed k h1) (event_keeps (homeAccess_keeps (keeps_refl _ _)))
  exact undisturbed_ite h (undisturbed_ite h1 (undisturbed_setL1 k _ h3))

theorem l1Alloc_undisturbed (spec : Bool) (line : Nat) (h : Undisturbed s0 s) : Undisturbed s0 (l1Alloc s k spec line) := by
  unfold l1Alloc
  exact undisturbed_ite h (undisturbed_setL1 k _ (l1Room_undisturbed k h))

theorem takeSlots_undisturbed (a n : Nat) (h : Undisturbed s0 s) : Undisturbed s0 (takeSlots k a n s) :=
  undisturbed_of_keeps h (takeSlots_keeps (keeps_refl _ s))

theorem foldl_coreReadByte_undisturbed (spec : Bool) (as : List Nat) {r : List Byte × State} (hi : BanksIdle (coreCl k) s0)
    (h : Undisturbed s0 r.2) : Undisturbed s0 (as.foldl (coreReadByte k spec) r).2 := by
  induction as generalizing r with
  | nil => exact h
  | cons a as ih => exact ih (l1Fill_undisturbed _ _ hi h)

theorem coreRead_undisturbed (a n : Nat) (hi : BanksIdle (coreCl k) s0) (h : Undisturbed s0 s) :
    Undisturbed s0 (coreRead s k a n).2 :=
  undisturbed_of_keeps (foldl_coreReadByte_undisturbed _ _ hi (takeSlots_undisturbed a n h)) (readStorage_keeps (keeps_refl _ _))

theorem operands_l1SetByte (c : Core) (spec : Bool) (a : Nat) (v : Byte) : operands (l1SetByte c spec a v) = operands c := by
  rw [l1SetByte_eq]
  rfl

theorem coreWriteByte_undisturbed (spec : Bool) (whole : List Nat) (e : Nat × Byte) (hi : BanksIdle (coreCl k) s0)
    (h : Undisturbed s0 s) : Undisturbed s0 (coreWriteByte k spec whole s e) := by
  unfold coreWriteByte
  refine undisturbed_setCore ?_ (operands_l1SetByte _ _ _ _)
  exact undisturbed_ite (l1Alloc_undisturbed _ _ h) (l1Fill_undisturbed _ _ hi h)

theorem l1Inject_undisturbed (line : Nat) (h : Undisturbed s0 s) : Undisturbed s0 (l1Inject k line s) := by
  have h1 : Undisturbed s0 (takeInjection (.core k) (line % 2 ^ 16) s) := undisturbed_of_keeps h (takeInjection_keeps (keeps_refl _ s))
  unfold l1Inject
  generalize takeInjection (.core k) (line % 2 ^ 16) s = s1 at h1
  exact undisturbed_ite (undisturbed_of_keeps (undisturbed_setL1 k _ h1) (logErr_keeps (keeps_refl _ _))) h

theorem coreWrite_undisturbed (a : Nat) (v : List Byte) (hi : BanksIdle (coreCl k) s0) (h : Undisturbed s0 s) :
    Undisturbed s0 (coreWrite s k a v) := by
  unfold coreWrite
  refine l1Inject_undisturbed _ (undisturbed_setL1 k _ ?_)
  exact undisturbed_foldl _ (fun _ _ h => coreWriteByte_undisturbed _ _ _ hi h) (takeSlots_undisturbed _ _ h)

theorem coreWrites_undisturbed (l : List (Nat × List Byte)) (hi : BanksIdle (coreCl k) s0) (h : Undisturbed s0 s) :
    Undisturbed s0 (coreWrites k l s) :=
  undisturbed_foldl _ (fun _ _ h => coreWrite_undisturbed _ _ hi h) h

end

end Sys2Proof.Proofs
end

section
/-! SUPPORT. TLD, TLDS and TST of rows that meet no fault (R112 to R121), and the statement about them. -/

namespace Sys2Proof.Proofs

open Sys2Proof.Machine Sys2Proof.Safety Sys2Proof.Laws

/-! ### Descriptors (R98, R112) -/

theorem tdRd_tdWr_self (c : Core) (n sub : Nat) (v : Word) : tdRd (tdWr c n sub v) n sub = v &&& word (tdMask sub) :=
  mget_mset_self _ _ _ _

theorem tdRd_tdWr_ne (c : Core) (n : Nat) {sub sub' : Nat} (v : Word) (h : sub' ≠ sub) : tdRd (tdWr c n sub v) n sub' = tdRd c n sub' :=
  mget_mset_ne _ _ _ (by omega)

theorem tdRd_congr {c d : Core} (h : c.tds = d.tds) (n sub : Nat) : tdRd c n sub = tdRd d n sub := by simp only [tdRd, h]

theorem tileOf_congr {c d : Core} (h : c.tds = d.tds) (n : Nat) : tileOf c n = tileOf d n := by simp only [tileOf, tdRd_congr h]

theorem tdRd_setRmask (c : Core) (n : Nat) (m : Word) : tdRd (setRmask c n m) n 4 = m := by
  unfold setRmask
  rw [tdRd_tdWr_self]
  exact BitVec.and_allOnes

/-- Setting RMASK keeps every other field of the descriptor. -/
theorem tileOf_setRmask (c : Core) (n : Nat) (m : Word) : tileOf (setRmask c n m) n = { tileOf c n with rmask := m } := by
  have h : ∀ sub, sub ≠ 4 → tdRd (setRmask c n m) n sub = tdRd c n sub := fun sub hs => tdRd_tdWr_ne _ _ _ hs
  simp only [tileOf, tdRd_setRmask, h 0 (by decide), h 1 (by decide), h 2 (by decide), h 3 (by decide)]

theorem rowAddr_lt (t : Tile) (r : Nat) : t.rowAddr r < 2 ^ 48 := by
  unfold Tile.rowAddr
  omega

theorem tdRd_advance_rmask (c : Core) (n : Nat) : tdRd (advance c n) n 4 = tdRd c n 4 := by
  have h0 := tdRd_tdWr_ne c n (sub := 0) (sub' := 4) (word ((tileOf c n).rowAddr (tileOf c n).rows)) (by decide)
  simp only [advance]
  split
  · exact h0
  · rw [tdRd_tdWr_ne _ _ _ (by decide), h0]

/-- BASE after an advance: the address one row after the last. -/
theorem tileOf_advance_base (c : Core) (n : Nat) : (tileOf (advance c n) n).base = (tileOf c n).rowAddr (tileOf c n).rows := by
  have hread : tdRd (advance c n) n 0 = word ((tileOf c n).rowAddr (tileOf c n).rows) &&& word (tdMask 0) := by
    simp only [advance]
    split
    · exact tdRd_tdWr_self _ _ _ _
    · rw [tdRd_tdWr_ne _ _ _ (by decide), tdRd_tdWr_self]
  have hmask : tdMask 0 = 2 ^ 48 - 1 := by decide
  have hlt := rowAddr_lt (tileOf c n) (tileOf c n).rows
  change (tdRd (advance c n) n 0).bits 47 0 = _
  rw [hread]
  simp only [Word.bits, BitVec.toNat_and, word_toNat, hmask]
  rw [Nat.mod_eq_of_lt (by omega : 2 ^ 48 - 1 < 2 ^ 64), Nat.and_two_pow_sub_one_eq_mod]
  omega

/-- An advance changes the descriptors of the core and nothing else. -/
theorem advance_eq (c : Core) (n : Nat) : advance c n = { c with tds := (advance c n).tds } := by
  simp only [advance]
  split <;> rfl

@[simp] theorem advance_x (c : Core) (n : Nat) : (advance c n).x = c.x := by rw [advance_eq]
@[simp] theorem advance_v (c : Core) (n : Nat) : (advance c n).v = c.v := by rw [advance_eq]

theorem core_startAhead (k : CoreRef) (n : Nat) (s : State) :
    (coreOf (startAhead k n s) k).x = (coreOf s k).x ∧ (coreOf (startAhead k n s) k).tds = (coreOf s k).tds := by
  unfold startAhead
  rw [core_setCore_self]
  split <;> exact ⟨rfl, rfl⟩

/-! ### Rows without a fault (R113 to R115) -/

/-- Rows that a load brings in whole: none faults. -/
def cleanRows (l : List (Nat × List (Nat × Nat))) : List LoadRow := l.map (fun e => (e.1, e.2, none))

theorem rowFault_of_clean {s : State} {k : CoreRef} {rs : List (Nat × Nat)} (hpages : badPages s rs = [])
    (hlines : poisonedLines s k rs = []) : rowFault s k rs = none := by
  simp [rowFault, hpages, hlines, lowest]

theorem metLines_cleanRows {s : State} {k : CoreRef} {l : List (Nat × List (Nat × Nat))}
    (hlines : ∀ e ∈ l, poisonedLines s k e.2 = []) : metLines s k (cleanRows l) = [] := by
  rw [metLines, List.flatMap_eq_nil_iff]
  intro e he
  obtain ⟨x, hx, rfl⟩ := List.mem_map.1 (List.mem_filter.1 he).1
  simp [hlines x hx]

theorem loadDone_of_clean {s : State} {k : CoreRef} {l : List (Nat × List (Nat × Nat))}
    (hlines : ∀ e ∈ l, poisonedLines s k e.2 = []) (u : State) :
    loadDone k (metLines s k (cleanRows l)) (shadowMet s k (cleanRows l)) u = .ok u := by
  rw [shadowMet, metLines_cleanRows hlines]
  rfl

theorem rowsWait_cleanRows (s : State) (k : CoreRef) (l : List (Nat × List (Nat × Nat))) :
    rowsWait s k (cleanRows l) = accessWaits s k (l.flatMap (fun e => e.2)) := by
  simp only [rowsWait, cleanRows, List.flatMap_map]

theorem rowFaults_eq_cleanRows {s : State} {k : CoreRef} {l : List (Nat × List (Nat × Nat))}
    (h : ∀ e ∈ l, badPages s e.2 = [] ∧ poisonedLines s k e.2 = []) : l.map (fun e => (e.1, e.2, rowFault s k e.2)) = cleanRows l :=
  List.map_congr_left fun e he => by rw [rowFault_of_clean (h e he).1 (h e he).2]

/-- The state once rows have come in one by one. -/
def broughtIn (k : CoreRef) (n : Nat) (l : List (Nat × List (Nat × Nat))) (s : State) : State :=
  (cleanRows l).foldl (fun u e => loadOneRow k (tileOf (coreOf s k) n) e.1 e.2.1 e.2.2.isSome u) s

/-- A load of rows without a fault leaves its mask as RMASK and masks no row. -/
theorem loadRows_cleanRows (k : CoreRef) (n : Nat) (l : List (Nat × List (Nat × Nat))) (m : Word) (s : State) :
    loadRows k n (cleanRows l) m s =
      setCore (broughtIn k n l s) k (endAhead (setRmask (coreOf (broughtIn k n l s) k) n m) n) := by
  have hnone : (cleanRows l).filter (fun e => e.2.2.isSome) = [] := by
    rw [List.filter_eq_nil_iff]
    intro e he
    obtain ⟨x, -, rfl⟩ := List.mem_map.1 he
    simp
  have hmask : m &&& ~~~(word (bitsOf [])) = m := BitVec.and_allOnes
  simp only [loadRows, noteMasked, hnone, List.map_nil, hmask]
  rfl

/-! ### Descriptors and general registers during a load -/

/-- The bytes of a row's ranges, read in turn. -/
def readRanges (k : CoreRef) (rs : List (Nat × Nat)) (acc : List (List Byte) × State) : List (List Byte) × State :=
  rs.foldl (fun acc x => (acc.1 ++ [(coreRead acc.2 k x.1 x.2).1], (coreRead acc.2 k x.1 x.2).2)) acc

theorem loadOneRow_eq (k : CoreRef) (t : Tile) (r : Nat) (rs : List (Nat × Nat)) (s : State) :
    loadOneRow k t r rs false s = setCore (readRanges k rs ([], s)).2 k
      (setRowScales (loadRow (coreOf (readRanges k rs ([], s)).2 k) t r ((readRanges k rs ([], s)).1.getD 0 [])) t r
        ((readRanges k rs ([], s)).1.getD 1 [])) := rfl

theorem readRanges_undisturbed {k : CoreRef} {s0 : State} (rs : List (Nat × Nat)) {acc : List (List Byte) × State}
    (hi : BanksIdle (coreCl k) s0) (h : Undisturbed s0 acc.2) : Undisturbed s0 (readRanges k rs acc).2 := by
  induction rs generalizing acc with
  | nil => exact h
  | cons x rs ih => exact ih (coreRead_undisturbed x.1 x.2 hi h)

theorem tds_of_undisturbed {s t : State} (h : Undisturbed s t) (k : CoreRef) : (coreOf t k).tds = (coreOf s k).tds :=
  congrArg (fun o => o.2.2.1) (h.operands (coreIdx k))

theorem x_of_undisturbed {s t : State} (h : Undisturbed s t) (k : CoreRef) : (coreOf t k).x = (coreOf s k).x :=
  congrArg (fun o => o.1) (h.operands (coreIdx k))

theorem v_of_undisturbed {s t : State} (h : Undisturbed s t) (k : CoreRef) : (coreOf t k).v = (coreOf s k).v :=
  congrArg (fun o => o.2.1) (h.operands (coreIdx k))

/-- A row that comes in over idle banks leaves them idle, and keeps the descriptors and the general registers. -/
theorem loadOneRow_of_idle {k : CoreRef} {s : State} (t : Tile) (r : Nat) (rs : List (Nat × Nat)) (hi : BanksIdle (coreCl k) s) :
    BanksIdle (coreCl k) (loadOneRow k t r rs false s) ∧
      (coreOf (loadOneRow k t r rs false s) k).tds = (coreOf s k).tds ∧
      (coreOf (loadOneRow k t r rs false s) k).x = (coreOf s k).x := by
  have hu := readRanges_undisturbed rs (acc := ([], s)) hi (undisturbed_refl s)
  rw [loadOneRow_eq, core_setCore_self]
  refine ⟨banksIdle_setCore (banksIdle_of_undisturbed hi hu) (by simp [setRowScales, loadRow]), ?_, ?_⟩
  · simpa [setRowScales, loadRow] using tds_of_undisturbed hu k
  · simpa [setRowScales, loadRow] using x_of_undisturbed hu k

theorem foldl_loadOneRow_of_idle {k : CoreRef} {s : State} (t : Tile) (l : List (Nat × List (Nat × Nat))) (hi : BanksIdle (coreCl k) s) :
    (coreOf ((cleanRows l).foldl (fun u e => loadOneRow k t e.1 e.2.1 e.2.2.isSome u) s) k).tds = (coreOf s k).tds ∧
      (coreOf ((cleanRows l).foldl (fun u e => loadOneRow k t e.1 e.2.1 e.2.2.isSome u) s) k).x = (coreOf s k).x := by
  induction l generalizing s with
  | nil => exact ⟨rfl, rfl⟩
  | cons e l ih =>
    obtain ⟨hidle, htds, hx⟩ := loadOneRow_of_idle t e.1 e.2 hi
    obtain ⟨htds', hx'⟩ := ih hidle
    exact ⟨htds'.trans htds, hx'.trans hx⟩

/-! ### TLD and TLDS (R112, R120, R121) -/

/-- TLD's rows, each with its ranges. -/
def tldRows (t : Tile) : List (Nat × List (Nat × Nat)) := t.selected.map (fun r => (r, t.ranges r))

/-- The state after TLD's rows have come in: RMASK, and with INC 1 the advanced addresses and the run-ahead. -/
def tldState (k : CoreRef) (n : Nat) (inc : Bool) (s : State) : State :=
  let t := tileOf (coreOf s k) n
  let u := loadRows k n (cleanRows (tldRows t)) (t.rmask &&& lowMask t.rows) s
  if inc then startAhead k n (setCore u k (advance (coreOf u k) n)) else u

theorem tldOp_eq {k : CoreRef} {n : Nat} (inc : Bool) {s : State} (hpass : checkRowMem n (tileOf (coreOf s k) n) = .pass)
    (hsel : (tileOf (coreOf s k) n).selected ≠ [])
    (hwait : accessWaits s k ((tileOf (coreOf s k) n).selected.flatMap (tileOf (coreOf s k) n).ranges) = false)
    (hrows : ∀ r ∈ (tileOf (coreOf s k) n).selected, badPages s ((tileOf (coreOf s k) n).ranges r) = [] ∧
      poisonedLines s k ((tileOf (coreOf s k) n).ranges r) = []) :
    tldOp k n inc s = .ok (tldState k n inc s) := by
  have hclean : ∀ e ∈ tldRows (tileOf (coreOf s k) n), badPages s e.2 = [] ∧ poisonedLines s k e.2 = [] := by
    intro e he
    obtain ⟨r, hr, rfl⟩ := List.mem_map.1 he
    exact hrows r hr
  have hrowsEq := rowFaults_eq_cleanRows hclean
  rw [tldRows, List.map_map, ← tldRows] at hrowsEq
  simp only [Function.comp_def] at hrowsEq
  have hwaits : rowsWait s k (cleanRows (tldRows (tileOf (coreOf s k) n))) = false := by
    rw [rowsWait_cleanRows, tldRows, List.flatMap_map]
    exact hwait
  have hdone := loadDone_of_clean (s := s) (k := k) fun e he => (hclean e he).2
  unfold tldOp
  simp only [hpass, afterChecks, hrowsEq]
  split
  · next hnil => exact absurd (by simpa [cleanRows, tldRows] using hnil) hsel
  · next e l hcons =>
    have hmem : e ∈ cleanRows (tldRows (tileOf (coreOf s k) n)) := hcons ▸ List.mem_cons_self
    obtain ⟨x, hx, rfl⟩ := List.mem_map.1 hmem
    simp only [(hclean x hx).1, lowest, hwaits, hdone, Bool.false_eq_true, if_false, tldState]

/-- The range of TLDS's row: RS2 apart from RS1 (R120). -/
def tldsRange (c : Core) (t : Tile) (a b r : Nat) : Nat × Nat := (((xRd c a).toNat + r * (xRd c b).toNat) % 2 ^ 48, t.rb)

/-- TLDS's rows, each with its one range. -/
def tldsRows (c : Core) (t : Tile) (a b : Nat) : List (Nat × List (Nat × Nat)) :=
  (List.range t.rows).map (fun r => (r, [tldsRange c t a b r]))

/-- The state after TLDS. -/
def tldsState (k : CoreRef) (n a b : Nat) (s : State) : State :=
  loadRows k n (cleanRows (tldsRows (coreOf s k) (tileOf (coreOf s k) n) a b)) (lowMask (tileOf (coreOf s k) n).rows) s

theorem tldsOp_eq {k : CoreRef} {n a b : Nat} {s : State} (hpass : checkTlds n (tileOf (coreOf s k) n) = .pass)
    (hwait : accessWaits s k
      ((List.range (tileOf (coreOf s k) n).rows).map (tldsRange (coreOf s k) (tileOf (coreOf s k) n) a b)) = false)
    (hrows : ∀ r, r < (tileOf (coreOf s k) n).rows → badPages s [tldsRange (coreOf s k) (tileOf (coreOf s k) n) a b r] = [] ∧
      poisonedLines s k [tldsRange (coreOf s k) (tileOf (coreOf s k) n) a b r] = []) :
    tldsOp k n a b s = .ok (tldsState k n a b s) := by
  have hclean : ∀ e ∈ tldsRows (coreOf s k) (tileOf (coreOf s k) n) a b, badPages s e.2 = [] ∧ poisonedLines s k e.2 = [] := by
    intro e he
    obtain ⟨r, hr, rfl⟩ := List.mem_map.1 he
    exact hrows r (List.mem_range.1 hr)
  have hrowsEq := rowFaults_eq_cleanRows hclean
  rw [tldsRows, List.map_map, ← tldsRows] at hrowsEq
  simp only [Function.comp_def, tldsRange] at hrowsEq
  have hwaits : rowsWait s k (cleanRows (tldsRows (coreOf s k) (tileOf (coreOf s k) n) a b)) = false := by
    rw [rowsWait_cleanRows, tldsRows, List.flatMap_map]
    rw [List.map_eq_flatMap] at hwait
    exact hwait
  have hpages : badPages s ((cleanRows (tldsRows (coreOf s k) (tileOf (coreOf s k) n) a b)).flatMap (fun e => e.2.1)) = [] := by
    rw [badPages, List.flatMap_assoc, List.flatMap_eq_nil_iff]
    intro e he
    obtain ⟨x, hx, rfl⟩ := List.mem_map.1 he
    exact (hclean x hx).1
  have hdone := loadDone_of_clean (s := s) (k := k) fun e he => (hclean e he).2
  simp only [tldsOp, hpass, afterChecks, hrowsEq, hpages, lowest, hwaits, hdone, Bool.false_eq_true, if_false, tldsState]

/-! ### What a load leaves in the descriptor -/

theorem rmask_loadRows_cleanRows (k : CoreRef) (n : Nat) (l : List (Nat × List (Nat × Nat))) (m : Word) (s : State) :
    tdRd (coreOf (loadRows k n (cleanRows l) m s) k) n 4 = m := by
  rw [loadRows_cleanRows, core_setCore_self]
  exact tdRd_setRmask _ _ _

theorem loadRows_cleanRows_of_idle {k : CoreRef} {s : State} (n : Nat) (l : List (Nat × List (Nat × Nat))) (m : Word)
    (hi : BanksIdle (coreCl k) s) :
    tileOf (coreOf (loadRows k n (cleanRows l) m s) k) n = { tileOf (coreOf s k) n with rmask := m } ∧
      (coreOf (loadRows k n (cleanRows l) m s) k).x = (coreOf s k).x := by
  obtain ⟨htds, hx⟩ := foldl_loadOneRow_of_idle (tileOf (coreOf s k) n) l hi
  rw [loadRows_cleanRows, core_setCore_self]
  refine ⟨?_, hx⟩
  rw [← tileOf_congr htds n]
  exact tileOf_setRmask _ _ _

theorem rmask_tldState (k : CoreRef) (n : Nat) (inc : Bool) (s : State) :
    tdRd (coreOf (tldState k n inc s) k) n 4 = (tileOf (coreOf s k) n).rmask &&& lowMask (tileOf (coreOf s k) n).rows := by
  have hload := rmask_loadRows_cleanRows k n (tldRows (tileOf (coreOf s k) n))
    ((tileOf (coreOf s k) n).rmask &&& lowMask (tileOf (coreOf s k) n).rows) s
  cases inc with
  | false => exact hload
  | true =>
    simp only [tldState, if_true]
    rw [tdRd_congr (core_startAhead k n _).2, core_setCore_self, tdRd_advance_rmask, hload]

theorem tldState_of_idle {k : CoreRef} {s : State} (n : Nat) (inc : Bool) (hi : BanksIdle (coreCl k) s) :
    (tileOf (coreOf (tldState k n inc s) k) n).base = (if inc then (tileOf (coreOf s k) n).rowAddr (tileOf (coreOf s k) n).rows
        else (tileOf (coreOf s k) n).base) ∧
      (coreOf (tldState k n inc s) k).x = (coreOf s k).x := by
  obtain ⟨htile, hx⟩ := loadRows_cleanRows_of_idle n (tldRows (tileOf (coreOf s k) n))
    ((tileOf (coreOf s k) n).rmask &&& lowMask (tileOf (coreOf s k) n).rows) hi
  have hbase := congrArg Tile.base htile
  cases inc with
  | false => exact ⟨hbase, hx⟩
  | true =>
    simp only [tldState, if_true]
    generalize loadRows k n _ _ s = u at htile hx
    obtain ⟨hx', htds⟩ := core_startAhead k n (setCore u k (advance (coreOf u k) n))
    rw [core_setCore_self] at hx' htds
    refine ⟨?_, by rw [hx', advance_x, hx]⟩
    rw [tileOf_congr htds, tileOf_advance_base, htile]
    rfl

/-! ### TST (R119) -/

/-- The state after TST's bytes are written: with INC 1 the advanced addresses. -/
def tstState (k : CoreRef) (n : Nat) (inc : Bool) (s : State) : State :=
  let u := coreWrites k (storeBytes (coreOf s k) (tileOf (coreOf s k) n)) s
  if inc then setCore u k (endAhead (advance (coreOf u k) n) n) else u

theorem tstOp_eq {k : CoreRef} {n : Nat} (inc : Bool) {s : State} (hpass : checkRowMem n (tileOf (coreOf s k) n) = .pass)
    (hsel : (tileOf (coreOf s k) n).selected ≠ [])
    (hwait : accessWaits s k ((storeBytes (coreOf s k) (tileOf (coreOf s k) n)).map (fun e => (e.1, e.2.length))) = false)
    (hrows : ∀ e ∈ storeBytes (coreOf s k) (tileOf (coreOf s k) n), badPages s [(e.1, e.2.length)] = [] ∧
      closedPages s k [(e.1, e.2.length)] = [] ∧ corePoisonStore s k e.1 e.2.length = none) :
    tstOp k n inc s = .ok (tstState k n inc s) := by
  have hpages : badPages s ((storeBytes (coreOf s k) (tileOf (coreOf s k) n)).map (fun e => (e.1, e.2.length))) = [] := by
    rw [badPages, List.flatMap_map, List.flatMap_eq_nil_iff]
    intro e he
    simpa [badPages] using (hrows e he).1
  have hstore := storeRanges_eq (fun e he => (hrows e he).2.1) hwait fun e he => (hrows e he).2.2
  simp only [tstOp, hpass, afterChecks, hpages, lowest, hstore, List.isEmpty_eq_false_iff.2 hsel, Bool.false_eq_true, if_false]
  rfl

theorem tstState_of_idle {k : CoreRef} {s : State} (n : Nat) (inc : Bool) (hi : BanksIdle (coreCl k) s) :
    (tileOf (coreOf (tstState k n inc s) k) n).rmask = (tileOf (coreOf s k) n).rmask ∧
      (tileOf (coreOf (tstState k n inc s) k) n).base = (if inc then (tileOf (coreOf s k) n).rowAddr (tileOf (coreOf s k) n).rows
        else (tileOf (coreOf s k) n).base) ∧
      (coreOf (tstState k n inc s) k).x = (coreOf s k).x ∧ (coreOf (tstState k n inc s) k).v = (coreOf s k).v := by
  have hu := coreWrites_undisturbed (storeBytes (coreOf s k) (tileOf (coreOf s k) n)) hi (undisturbed_refl s)
  have htile := tileOf_congr (tds_of_undisturbed hu k) n
  have hx := x_of_undisturbed hu k
  have hv := v_of_undisturbed hu k
  cases inc with
  | false => exact ⟨congrArg Tile.rmask htile, congrArg Tile.base htile, hx, hv⟩
  | true =>
    simp only [tstState, if_true, core_setCore_self]
    generalize coreWrites k _ s = u at htile hx hv
    refine ⟨?_, ?_, ?_, ?_⟩
    · exact (tdRd_advance_rmask _ _).trans (congrArg Tile.rmask htile)
    · rw [← htile]
      exact tileOf_advance_base _ _
    · exact (advance_x _ _).trans hx
    · exact (advance_v _ _).trans hv

@[simp] theorem tileOf_retired (c : Core) (p : Word) (n : Nat) : tileOf (retired c p) n = tileOf c n := tileOf_congr (retired_tds c p) n

@[simp] theorem tdRd_retired (c : Core) (p : Word) (n sub : Nat) : tdRd (retired c p) n sub = tdRd c n sub :=
  tdRd_congr (retired_tds c p) n sub

/-- An instruction whose operation leaves the state as it is only retires. -/
theorem retire_only {k : CoreRef} {s : State} (p : Word) :
    coreOf (retire k p s) k = retired (coreOf s k) p ∧ Frame [.regs, .cores, .out] s (retire k p s) :=
  ⟨core_retire_self k p s, frame_retire k p (frame_refl _ s)⟩

/-- Settles O19: the operations answer ok under the premises; what the accesses set off leaves the core's descriptors and registers
alone while its cluster's banks are idle. -/
theorem tileMemory : Obligations.TileMemory := by
  unfold Obligations.TileMemory
  refine ⟨?tld, ?tlds, fun k n inc s ht hi hpass => ⟨fun hnil => ⟨?tldEmpty, ?tstEmpty⟩, ?tst⟩⟩
  case tld =>
    intro k n inc s ht hi hpass hsel hwait hrows
    refine completes_of_issue rfl ht hi (tldOp_eq inc hpass hsel hwait hrows) fun hnext => ?_
    have hframe := (execTld_keeps (keeps_refl accessFields s) (List.Subset.refl accessFields) _ hnext).frame
    rw [core_retire_self, tdRd_retired, tileOf_retired, retired_x]
    exact ⟨rfl, rmask_tldState k n inc s, fun hidle => tldState_of_idle n inc hidle, hframe⟩
  case tlds =>
    intro k n a b s ht hi hpass hwait hrows
    refine completes_of_issue rfl ht hi (tldsOp_eq hpass hwait hrows) fun hnext => ?_
    have hframe := (execTlds_keeps (keeps_refl accessFields s) (List.Subset.refl accessFields) _ hnext).frame
    rw [core_retire_self, tdRd_retired, tileOf_retired, retired_x]
    refine ⟨rfl, rmask_loadRows_cleanRows _ _ _ _ _, fun hidle => ?_, hframe⟩
    obtain ⟨htile, hx⟩ := loadRows_cleanRows_of_idle n.val (tldsRows (coreOf s k) (tileOf (coreOf s k) n.val) a.val b.val)
      (lowMask (tileOf (coreOf s k) n.val).rows) hidle
    have hbase := congrArg Tile.base htile
    exact ⟨hbase, hx⟩
  case tldEmpty =>
    have hop : tldOp k n.val inc s = .ok s := by simp [tldOp, hpass, afterChecks, hnil]
    exact completes_of_issue rfl ht hi hop fun _ => retire_only _
  case tstEmpty =>
    have hop : tstOp k n.val inc s = .ok s := by simp [tstOp, hpass, afterChecks, hnil]
    exact completes_of_issue rfl ht hi hop fun _ => retire_only _
  case tst =>
    intro hsel hwait hrows
    refine completes_of_issue rfl ht hi (tstOp_eq inc hpass hsel hwait hrows) fun hnext => ?_
    have hframe := (execTst_keeps (keeps_refl accessFields s) (List.Subset.refl accessFields) _ hnext).frame
    rw [core_retire_self, tileOf_retired, retired_x, retired_v]
    exact ⟨rfl, fun hidle => tstState_of_idle n inc hidle, hframe⟩

end Sys2Proof.Proofs
end

section
/-! SUPPORT. Commits that a rule of their block rejects (R601), and the statement about them. -/

namespace Sys2Proof.Proofs

open Sys2Proof.Machine Sys2Proof.Safety Sys2Proof.Laws

/-! ### The error log (R606) -/

theorem rd_logErr_of_ne (p : PageRef) (bit detail : Nat) (s : State) {o : Nat} (h28 : o ≠ 0x028) (h38 : o ≠ 0x038) :
    rd (logErr p bit detail s) p o = rd s p o := by
  unfold logErr
  extract_lets stat s1 s2
  have h1 : rd s1 p o = rd s p o := by
    unfold s1
    split
    · rw [rd_wr_page, if_neg h38]
    · rfl
  have h2 : rd s2 p o = rd s p o := by rw [rd_wr_page, if_neg h28, h1]
  split <;> simpa using h2

/-- An error is set in ERR_STAT. -/
theorem rd_logErr_stat (p : PageRef) (bit detail : Nat) (s : State) :
    rd (logErr p bit detail s) p 0x028 = rd s p 0x028 ||| word (2 ^ bit) := by
  unfold logErr
  extract_lets stat s1 s2
  split <;> simp [s2, stat]

/-! ### A commit that fails a rule (R601) -/

theorem lowest_isSome_of_mem {l : List Nat} {a : Nat} (h : a ∈ l) : ∃ o, lowest l = some o := by
  cases l with
  | nil => simp at h
  | cons b l => exact ⟨_, rfl⟩

theorem commitReject_of_rule {s : State} {p : PageRef} {b : Block} {o : Nat} (h : (true, o) ∈ commitRules s p b) :
    ∃ d, commitReject s p b = some d :=
  lowest_isSome_of_mem (List.mem_map.2 ⟨(true, o), List.mem_filter.2 ⟨h, rfl⟩, rfl⟩)

theorem commitPage_of_reject {p : PageRef} {b : Block} {s : State} {d : Nat} (hblock : pageBlock p = some b)
    (hstaged : stagedValues s p b ≠ []) (hidle : (rd s p 0x010).bit 2 = false) (hreject : commitReject s p b = some d) :
    commitPage p s = logErr p errCommit d (setFld s p 0x018 6 5 2) := by
  simp [commitPage, hblock, hstaged, hidle, hreject]

theorem byPage_of_issues {r : Requester} {p : PageRef} {f : State → State} {s : State} (hreq : badRequester s r = false)
    (hissues : issues s r = true) (hpage : hasPage s p = true) : byPage s r p f = .next (f s) := by
  simp [byPage, atPage, issuedBy, hreq, hissues, hpage]

/-- A commit that fails a rule of its block on a register completes REJECTED, and the register keeps its staged and its active value. -/
theorem completes_blkCommit_of_rule {r : Requester} {p : PageRef} {b : Block} {s : State} {o : Nat} (hreq : badRequester s r = false)
    (hissues : issues s r = true) (hpage : hasPage s p = true) (hblock : pageBlock p = some b) (hstaged : stagedValues s p b ≠ [])
    (hidle : (rd s p 0x010).bit 2 = false) (hrule : (true, o) ∈ commitRules s p b) (ho : 0x038 < o) :
    Completes (.blkCommit r p) s (fun t => rd t p o = rd s p o ∧ rdA t p o = rdA s p o ∧ fld t p 0x018 6 5 = 2 ∧
      (rd t p 0x028).bit 3 = true ∧ Frame [.regs, .out] s t) := by
  obtain ⟨d, hd⟩ := commitReject_of_rule hrule
  have hexec : exec (.blkCommit r p) s = byPage s r p (commitPage p) := rfl
  refine ⟨_, hexec.trans (byPage_of_issues hreq hissues hpage), ?_⟩
  rw [commitPage_of_reject hblock hstaged hidle hd]
  have hsame : ∀ x, 0x038 < x → rd (logErr p errCommit d (setFld s p 0x018 6 5 2)) p x = rd s p x := fun x hx => by
    rw [rd_logErr_of_ne _ _ _ _ (by omega) (by omega), rd_setFld_ne _ _ _ _ _ _ _ _ (by omega)]
  refine ⟨hsame o ho, hsame (o + 0x700) (by omega), ?_, ?_, frame_logErr (frame_setFld (frame_refl _ s) (by simp)) (by simp) (by simp)⟩
  · rw [fld, rd_logErr_of_ne _ _ _ _ (by decide) (by decide)]
    exact fld_setFld s p 0x018 6 5 2 (by decide) (by decide)
  · rw [rd_logErr_stat, Word.bit, BitVec.toNat_or, Nat.testBit_or]
    exact Bool.or_eq_true_iff.2 (Or.inr (by decide))

theorem hasPage_tile {s : State} {tile : Fin 8} {page : Fin 96} (htile : hasTile s tile.val = true)
    (hblock : (pageBlock (.tile tile page)).isSome = true) : hasPage s (.tile tile page) = true := by
  simp [hasPage, hblock, pageTile?, htile]

/-- Settles O45: what the statement calls out of range is a rule of the block that the commit fails. -/
theorem commitRanges : Obligations.CommitRanges := by
  unfold Obligations.CommitRanges
  intro r tile s hreq hissues htile
  refine ⟨fun hidle hrange => ?net, fun hidle hmarks => ?granger⟩
  case net =>
    have hwin : fld s (pgNet tile) 0x128 5 0 < 64 := Nat.mod_lt _ (by decide)
    have hout : (decide (fld s (pgNet tile) 0x128 5 0 < 2) || decide (fld s (pgNet tile) 0x128 13 8 = 0)
        || decide (fld s (pgNet tile) 0x128 5 0 ≤ fld s (pgNet tile) 0x128 13 8)) = true := by
      simp only [Bool.or_eq_true, decide_eq_true_eq]
      omega
    have hrule : (true, 0x128) ∈ commitRules s (pgNet tile) .net := by
      simp only [commitRules, hout, List.mem_cons, true_or, or_true]
    exact completes_blkCommit_of_rule hreq hissues (hasPage_tile htile rfl) rfl (List.cons_ne_nil _ _) hidle hrule (by decide)
  case granger =>
    have hrule : (true, 0x120) ∈ commitRules s (pgGranger tile) .granger := by simp [commitRules, hmarks]
    exact completes_blkCommit_of_rule hreq hissues (hasPage_tile htile rfl) rfl (List.cons_ne_nil _ _) hidle hrule (by decide)

end Sys2Proof.Proofs
end

section
/-! SUPPORT. Granger's queries (R339), and the statement about them. -/

namespace Sys2Proof.Proofs

open Sys2Proof.Machine Sys2Proof.Safety Sys2Proof.Laws

/-! ### The result words -/

@[simp] theorem rd_queryResult_res0 (s : State) (r0 r1 : Word) : rd (queryResult s r0 r1) (pgGranger 0) 0x1A8 = r0 := by
  simp [queryResult, rd_wr_page]

@[simp] theorem rd_queryResult_res1 (s : State) (r0 r1 : Word) : rd (queryResult s r0 r1) (pgGranger 0) 0x1B0 = r1 := by
  simp [queryResult]

theorem frame_queryResult (s : State) (r0 r1 : Word) : Frame [.regs] s (queryResult s r0 r1) :=
  frame_wr (frame_wr (frame_refl _ s) (by simp)) (by simp)

theorem regFrame_queryResult (s : State) (r0 r1 : Word) :
    RegFrame [(pgGranger 0, 0x1A8), (pgGranger 0, 0x1B0)] s (queryResult s r0 r1) :=
  regFrame_wr (regFrame_wr (regFrame_refl _ s) (by simp)) (by simp)

/-- A query completes with its two result words, and changes nothing else. -/
theorem completes_queryResult {i : Instr} {s : State} {r0 r1 : Word} (h : exec i s = .next (queryResult s r0 r1)) :
    Completes i s (fun t => rd t (pgGranger 0) 0x1A8 = r0 ∧ rd t (pgGranger 0) 0x1B0 = r1 ∧ Frame [.regs] s t ∧
      RegFrame [(pgGranger 0, 0x1A8), (pgGranger 0, 0x1B0)] s t) :=
  ⟨_, h, rd_queryResult_res0 .., rd_queryResult_res1 .., frame_queryResult s r0 r1, regFrame_queryResult s r0 r1⟩

theorem completes_mono {i : Instr} {s : State} {P Q : State → Prop} (h : Completes i s P) (hPQ : ∀ t, P t → Q t) : Completes i s Q :=
  let ⟨t, hexec, hP⟩ := h
  ⟨t, hexec, hPQ t hP⟩

/-! ### Fields of a word that is a sum -/

theorem b2n_le_one (b : Bool) : b2n b ≤ 1 := by cases b <;> decide

theorem bit_of_div_mod {w : Word} {n : Nat} {b : Bool} (h : w.toNat / 2 ^ n % 2 = b2n b) : w.bit n = b := by
  rw [Word.bit, Nat.testBit_eq_decide_div_mod_eq, h]
  cases b <;> rfl

theorem bits_word (n hi lo : Nat) : (word n).bits hi lo = n % 2 ^ 64 / 2 ^ lo % 2 ^ (hi + 1 - lo) := by
  rw [Word.bits, word_toNat, Nat.shiftRight_eq_div_pow]

theorem bit_word_of_div_mod {n i : Nat} {b : Bool} (h : n % 2 ^ 64 / 2 ^ i % 2 = b2n b) : (word n).bit i = b :=
  bit_of_div_mod (by rwa [word_toNat])

/-! ### Kind 3: a bushel -/

/-- QUERY_RES0 of a bushel that is mapped. -/
def bushelWord (s : State) (n : Nat) (b : Bushel) : Word :=
  word (1 + b.tier <<< 1 + b.tile <<< 3 + b.cluster <<< 6 + b2n b.committed <<< 11
    + b2n (b.tierPin.isSome || b.tilePin.isSome || b.clusterPin.isSome) <<< 12 + b2n b.shadow.isSome <<< 13
    + b2n (moving s n) <<< 14 + b.hint <<< 15)

theorem queryBushel_of_mapped {key : Nat} {s : State} {b : Bushel} (h : mfind s.mem.bushels (key % 2 ^ 27) = some b) :
    queryBushel key s = queryResult s (bushelWord s (key % 2 ^ 27) b) (word b.heat) := by
  simp only [queryBushel, h, bushelWord]

theorem queryBushel_of_unmapped {key : Nat} {s : State} (h : mfind s.mem.bushels (key % 2 ^ 27) = none) :
    queryBushel key s = queryResult s 0 0 := by
  simp only [queryBushel, h]

/-- The fields of a bushel's word do not overlap. -/
theorem bushelWord_fields (s : State) (n : Nat) {b : Bushel} (htier : b.tier < 4) (htile : b.tile < 8) (hcluster : b.cluster < 32)
    (hhint : b.hint < 4) :
    (bushelWord s n b).bit 0 = true ∧ (bushelWord s n b).bits 2 1 = b.tier ∧ (bushelWord s n b).bits 5 3 = b.tile ∧
    (bushelWord s n b).bits 10 6 = b.cluster ∧ (bushelWord s n b).bit 11 = b.committed ∧ (bushelWord s n b).bit 14 = moving s n ∧
    (bushelWord s n b).bits 16 15 = b.hint := by
  have hcommitted := b2n_le_one b.committed
  have hpinned := b2n_le_one (b.tierPin.isSome || b.tilePin.isSome || b.clusterPin.isSome)
  have hshadow := b2n_le_one b.shadow.isSome
  have hmoving := b2n_le_one (moving s n)
  simp only [bushelWord, Nat.shiftLeft_eq, bits_word]
  refine ⟨bit_word_of_div_mod ?_, ?_, ?_, ?_, bit_word_of_div_mod ?_, bit_word_of_div_mod ?_, ?_⟩
  · rw [show b2n true = 1 from rfl]
    omega
  all_goals omega

/-! ### Kind 4: a core -/

/-- QUERY_RES0 of a core of this module. -/
def coreWord (s : State) (k : CoreRef) : Word :=
  word (sat 16 (speedOf s k) + sat 16 (coreOf s k).speed <<< 16 + b2n (excluded s k) <<< 32)

/-- QUERY_RES1 of a core of this module: when its tasks end. -/
def coreEndWord (s : State) (k : CoreRef) : Word := word (s.now + mget 0 (loadsOf s (fun _ => true)) (coreIdx k) / 65536)

theorem ownCoord_lt (s : State) : ownCoord s < 4096 := Nat.mod_lt _ (by decide)

theorem queryCore_of_own {k : CoreRef} {key : Nat} {s : State} (htile : hasTile s k.tile.val = true)
    (hkey : key = k.core.val + 16 * k.cluster.val + 2 ^ 9 * k.tile.val + 2 ^ 12 * ownCoord s) :
    queryCore key s = queryResult s (coreWord s k) (coreEndWord s k) := by
  have hcoord := ownCoord_lt s
  have hT : key / 2 ^ 9 % 8 = k.tile.val := by omega
  have hC : key / 16 % 32 = k.cluster.val := by omega
  have hN : key % 16 = k.core.val := by omega
  have hM : key / 2 ^ 12 % 4096 = ownCoord s := by omega
  have hC24 : ¬ 24 ≤ k.cluster.val := by omega
  simp only [queryCore, hT, hC, hN, hM, htile, hC24, Fin.ofNat_val_eq_self, coreWord, coreEndWord, Bool.not_true, decide_false, ne_eq,
    not_true, Bool.or_self, Bool.false_eq_true, if_false]

theorem queryCore_of_absent {key : Nat} {s : State}
    (h : hasTile s (key / 2 ^ 9 % 8) = false ∨ 24 ≤ key / 16 % 32 ∨ key / 2 ^ 12 % 4096 ≠ ownCoord s) :
    queryCore key s = queryResult s 0 0 := by
  have htest : (!hasTile s (key / 2 ^ 9 % 8) || decide (24 ≤ key / 16 % 32) || decide (key / 2 ^ 12 % 4096 ≠ ownCoord s)) = true := by
    simpa [or_assoc] using h
  simp only [queryCore, htest, if_true]

theorem sat_lt (n v : Nat) : sat n v < 2 ^ n :=
  Nat.lt_of_le_of_lt (Nat.min_le_right _ _) (Nat.sub_lt (Nat.two_pow_pos n) Nat.one_pos)

theorem coreWord_fields (s : State) (k : CoreRef) :
    (coreWord s k).bits 15 0 = sat 16 (speedOf s k) ∧ (coreWord s k).bits 31 16 = sat 16 (coreOf s k).speed ∧
    (coreWord s k).bit 32 = excluded s k := by
  have hnow := sat_lt 16 (speedOf s k)
  have hfull := sat_lt 16 (coreOf s k).speed
  have hexcluded := b2n_le_one (excluded s k)
  simp only [coreWord, Nat.shiftLeft_eq, bits_word]
  refine ⟨?_, ?_, bit_word_of_div_mod ?_⟩ <;> omega

/-- Settles O29: each kind of query answers two words, whose fields are read where the statement names them. -/
theorem grangerQueries : Obligations.GrangerQueries := by
  unfold Obligations.GrangerQueries
  refine ⟨fun key s => ⟨fun hnone => ?unknownTask, fun u hsome => ?task, ?counter, fun hnone => ?unmapped,
    fun b hsome htier htile hcluster hhint => ?bushel, fun habsent => ?absent⟩, fun k key s htile hkey => ?core⟩
  case unknownTask =>
    have hq : queryTask key.toNat s = queryResult s 0 0 := by simp only [queryTask, hnone]
    exact completes_queryResult (congrArg _ hq)
  case task =>
    have hq : queryTask key.toNat s = queryResult s (taskWho u) (word (u.state.code + u.pieces <<< 8)) := by
      simp only [queryTask, hsome]
    exact completes_queryResult (congrArg _ hq)
  case counter => exact completes_queryResult rfl
  case unmapped =>
    refine completes_mono (completes_queryResult (congrArg _ (queryBushel_of_unmapped hnone))) ?_
    exact fun t ⟨hres0, hres1, hframe, _⟩ => ⟨hres0, hres1, hframe⟩
  case bushel =>
    refine completes_mono (completes_queryResult (congrArg _ (queryBushel_of_mapped hsome))) ?_
    intro t ⟨hres0, hres1, hframe, _⟩
    obtain ⟨hmapped, htier', htile', hcluster', hcommitted, hmoving, hhint'⟩ :=
      bushelWord_fields s (key.toNat % 2 ^ 27) htier htile hcluster hhint
    simp only [fld, hres0]
    exact ⟨hmapped, htier', htile', hcluster', hcommitted, hmoving, hhint', hres1, hframe⟩
  case absent =>
    refine completes_mono (completes_queryResult (congrArg _ (queryCore_of_absent habsent))) ?_
    exact fun t ⟨hres0, hres1, hframe, _⟩ => ⟨hres0, hres1, hframe⟩
  case core =>
    refine completes_mono (completes_queryResult (congrArg _ (queryCore_of_own htile hkey))) ?_
    intro t ⟨hres0, _, hframe, hregs⟩
    obtain ⟨hnow, hfull, hexcluded⟩ := coreWord_fields s k
    simp only [fld, hres0]
    exact ⟨hnow, hfull, hexcluded, hframe, hregs⟩

end Sys2Proof.Proofs
end

section
/-! SUPPORT. How a slot's placement and its re-placement end (R303, R328 to R330, R565), and the statement about them. -/

namespace Sys2Proof.Proofs

open Sys2Proof.Machine Sys2Proof.Safety Sys2Proof.Laws

/-! ### A refusal (R330, R565) -/

theorem slot_endSlot_self (s : State) (n : Nat) (st : SlotState) (source code : Nat) :
    slot (endSlot s n st source code) n = { slot s n with state := st, source := source, code := code, endTime := nowW s } :=
  mget_mset_self _ _ _ _

/-- A slot that Granger refuses ends FAULTED with SOURCE 1 and the refusal's code. -/
theorem slot_refuseSlot (n : Nat) (e : Refuse) (s : State) :
    (slot (refuseSlot n e s) n).state = .faulted ∧ (slot (refuseSlot n e s) n).source = 1 ∧
    (slot (refuseSlot n e s) n).code = e.code := by
  simp only [refuseSlot, slot_endSlot_self, and_self]

/-! ### The end of a placement -/

/-- The placement of the slot at the front of Granger's queue ends: the slot is ARMED, and unless it is a replay no re-placement is due first
(R303, R328). -/
structure PlacementEnds (n queued : Nat) (s : State) : Prop where
  front : ∃ l, s.granger.queue = (n, queued) :: l
  armed : (slot s n).state = .armed
  first : (isReplay (slot s n) || !rePlaceFirst s (placeStart s queued)) = true

/-- The slot as placement leaves it. -/
def placedSlot (x : Slot) (p : Plan) (now : Word) : Slot :=
  { x with
    state := .launched, placeTime := now
    placed := word ((p.placed.filter (fun e => decide (e.1.piece = 0))).length
      + (p.placed.filter (fun e => decide (1 < e.1.pieces))).length <<< 24) }

/-- A slot that placement accepts leaves the queue LAUNCHED, the tiles report, and the cursor of a step starts. -/
def acceptSlot (n start : Nat) (x : Slot) (p : Plan) (b : Nat) (s : State) : State :=
  let u := setSlot (dequeue s n) n (placedSlot (slot (dequeue s n) n) p (nowW (dequeue s n)))
  let v := (tilesOf u).foldl (reportTile n b (u.now - start) (placeBound u p b) p) u
  if runsStep x then startCursor n v else v

/-- What each outcome of a placement does. -/
def settlePlacing (n start : Nat) (s : State) : Placing → State
  | .waits => s
  | .refused e => refuseSlot n e s
  | .placed s' p b => acceptSlot n start (slot s n) p b s'

theorem exec_slotPlacement (n : Fin 64) (s : State) : exec (.slotPlacement n) s = .next (slotPlacement n.val s) := rfl

theorem slotPlacement_of_ends {n queued : Nat} {s : State} (h : PlacementEnds n queued s) :
    slotPlacement n s =
      settlePlacing n (placeStart s queued) s (decidePlacement s (placeStart s queued) n (slot s n)) := by
  obtain ⟨⟨l, hq⟩, harmed, hfirst⟩ := h
  have hdue : (!isReplay (slot s n) && rePlaceFirst s (placeStart s queued)) = false := by
    cases hreplay : isReplay (slot s n) with
    | true => rfl
    | false =>
      simpa only [hreplay, Bool.false_or, Bool.not_eq_true', Bool.not_false, Bool.true_and] using hfirst
  simp only [slotPlacement, hq, harmed, hdue, ne_eq, not_true, decide_false, Bool.or_self, Bool.false_eq_true, if_false]
  cases decidePlacement s (placeStart s queued) n (slot s n) <;> rfl

theorem frame_reportTiles (n b d bound : Nat) (p : Plan) (s : State) :
    Frame [.regs, .cores, .mem, .out] s ((tilesOf s).foldl (reportTile n b d bound p) s) :=
  (keeps_foldl (fun _ _ h => reportTile_keeps h) (keeps_refl _ s)).frame

theorem frame_dequeue (s : State) (n : Nat) : Frame [.granger] s (dequeue s n) := (dequeue_keeps (keeps_refl _ s)).frame

theorem not_mem_queue_dequeue (s : State) (n : Nat) : n ∉ (dequeue s n).granger.queue.map (fun e => e.1) := by
  simp [dequeue]

theorem frame_startCursor (n : Nat) (s : State) : Frame [.granger] s (startCursor n s) := (startCursor_keeps (keeps_refl _ s)).frame

@[simp] theorem startCursor_queue (n : Nat) (s : State) : (startCursor n s).granger.queue = s.granger.queue := rfl

/-- What follows an accepted slot's launch leaves the slots and the queue. -/
theorem acceptSlot_leaves (n start : Nat) (x : Slot) (p : Plan) (b : Nat) (s : State) :
    slot (acceptSlot n start x p b s) n = placedSlot (slot s n) p (nowW s) ∧
    n ∉ (acceptSlot n start x p b s).granger.queue.map (fun e => e.1) := by
  unfold acceptSlot
  extract_lets u v
  have hu : slot u n = placedSlot (slot s n) p (nowW s) := by
    have hnow : (dequeue s n).now = s.now := frame_dequeue s n .now (by simp)
    rw [slot_setSlot_self, slot_of_frame (frame_dequeue s n) (by simp), nowW, nowW, hnow]
  have hreports : Frame [.regs, .cores, .mem, .out] u v := frame_reportTiles _ _ _ _ _ _
  have hv : slot v n = placedSlot (slot s n) p (nowW s) := by rw [slot_of_frame hreports (by simp), hu]
  have hgranger : v.granger = (dequeue s n).granger := hreports .granger (by simp)
  have hqueue : n ∉ v.granger.queue.map (fun e => e.1) := by
    rw [hgranger]
    exact not_mem_queue_dequeue s n
  split
  · rw [slot_of_frame (frame_startCursor n v) (by simp), startCursor_queue]
    exact ⟨hv, hqueue⟩
  · exact ⟨hv, hqueue⟩

/-- Deciding a placement takes no time and changes no slot. -/
theorem decidePlacement_frame {s s' : State} {start n b : Nat} {x : Slot} {p : Plan} (h : decidePlacement s start n x = .placed s' p b) :
    Frame [.regs, .tasks, .clusters, .mem, .granger, .streams, .free] s s' :=
  (keeps_of_placed h (decidePlacement_keeps (keeps_refl _ s))).frame

/-! ### The end of a re-placement (R328) -/

/-- The re-placement of a slot ends: the slot is LAUNCHED, has stranded tasks, and no other placement runs. -/
structure RePlacementEnds (n : Nat) (s : State) : Prop where
  launched : (slot s n).state = .launched
  stranded : stranded s n ≠ []
  alone : frontRuns s = none

theorem exec_rePlacement (n : Fin 64) (s : State) : exec (.rePlacement n) s = .next (rePlacement n.val s) := rfl

theorem rePlacement_of_error {n : Nat} {s : State} {e : Refuse} (h : RePlacementEnds n s)
    (he : allOk (rePlaceTask (rePlaceStart s n)) (stranded s n) (s, []) = .error e) (hcode : e.code ≠ rfSpecLimit) :
    rePlacement n s = refuseSlot n e s := by
  simp [rePlacement, h.launched, h.stranded, h.alone, he, hcode]

/-- The tiles' records of a re-placement that found cores, and its time (R328, R338). -/
def noteRePlacement (n duration : Nat) (l : List (Task × Fin 8)) (s : State) : State :=
  let u := remapReports n l s
  (tilesOf u).foldl (fun u t => setFld u (pgGranger t) 0x148 63 32 (sat 32 duration)) u

theorem frame_noteRePlacement (n duration : Nat) (l : List (Task × Fin 8)) (s : State) :
    Frame [.regs, .cores, .mem, .out] s (noteRePlacement n duration l s) :=
  (keeps_foldl (fun _ _ h => setFld_keeps h) (remapReports_keeps (keeps_refl _ s))).frame

/-- A re-placement that found cores ends: the slot takes its placement time (R328). -/
def endRePlacement (n : Nat) (s : State) : State := placementEnd (setSlot s n { slot s n with placeTime := nowW s })

theorem slot_endRePlacement (n : Nat) (s : State) : slot (endRePlacement n s) n = { slot s n with placeTime := nowW s } :=
  slot_setSlot_self s n _

theorem rePlacement_of_ok {n : Nat} {s s' : State} {l : List (Task × Fin 8)} (h : RePlacementEnds n s)
    (hok : allOk (rePlaceTask (rePlaceStart s n)) (stranded s n) (s, []) = .ok (s', l)) :
    rePlacement n s = endRePlacement n (noteRePlacement n (s.now - rePlaceStart s n) l s') := by
  simp only [rePlacement]
  rw [if_neg (by simp [h.launched, h.stranded, h.alone]), hok]
  rfl

/-- A re-placement that finds cores leaves the slot as it is but for its placement time. -/
theorem slot_rePlacement_of_ok {n : Nat} {s s' : State} {l : List (Task × Fin 8)} (h : RePlacementEnds n s)
    (hok : allOk (rePlaceTask (rePlaceStart s n)) (stranded s n) (s, []) = .ok (s', l)) :
    slot (rePlacement n s) n = { slot s n with placeTime := nowW s } := by
  have htasks : Frame [.regs, .tasks, .clusters, .free] s s' :=
    (keeps_of_okE_fst hok (allOk_keeps (P := fun r : State × List (Task × Fin 8) => Keeps _ s r.1)
      (fun _ _ hr => rePlaceTask_keeps hr) (keeps_refl _ s))).frame
  have hnote := frame_noteRePlacement n (s.now - rePlaceStart s n) l s'
  have hnow : (noteRePlacement n (s.now - rePlaceStart s n) l s').now = s.now := (hnote .now (by simp)).trans (htasks .now (by simp))
  rw [rePlacement_of_ok h hok, slot_endRePlacement, slot_of_frame hnote (by simp), slot_of_frame htasks (by simp), nowW, nowW, hnow]

/-- Settles O7: the placement decides or refuses, what follows leaves the slot, and so does a re-placement's search but for its time. -/
protected theorem slotPlacement : Obligations.SlotPlacement := by
  unfold Obligations.SlotPlacement
  refine ⟨?placed, ?refused, ?replaced, ?failed⟩
  case placed =>
    intro n q l s s' p b hq harmed hfirst hd
    have hends : slotPlacement n.val s = acceptSlot n.val (placeStart s q) (slot s n.val) p b s' := by
      rw [slotPlacement_of_ends ⟨⟨l, hq⟩, harmed, hfirst⟩, hd]
      rfl
    obtain ⟨hslot, hqueue⟩ := acceptSlot_leaves n.val (placeStart s q) (slot s n.val) p b s'
    have hnow : s'.now = s.now := decidePlacement_frame hd .now (by simp)
    refine ⟨_, (exec_slotPlacement n s).trans (congrArg _ hends), ?_, ?_, hqueue⟩
    · rw [hslot]
      rfl
    · rw [hslot, placedSlot, nowW, hnow]
  case refused =>
    intro n q l s e hq harmed hfirst hd
    have hends : slotPlacement n.val s = refuseSlot n.val e s := by
      rw [slotPlacement_of_ends ⟨⟨l, hq⟩, harmed, hfirst⟩, hd]
      rfl
    exact ⟨_, (exec_slotPlacement n s).trans (congrArg _ hends), slot_refuseSlot n.val e s⟩
  case replaced =>
    intro n s s' l hlaunched hstranded halone hok
    have hslot := slot_rePlacement_of_ok ⟨hlaunched, hstranded, halone⟩ hok
    refine ⟨_, exec_rePlacement n s, ?_, ?_⟩
    · rw [hslot, hlaunched]
    · rw [hslot, nowW]
  case failed =>
    intro n s e hlaunched hstranded halone he hcode
    have hends := rePlacement_of_error ⟨hlaunched, hstranded, halone⟩ he hcode
    exact ⟨_, (exec_rePlacement n s).trans (congrArg _ hends), slot_refuseSlot n.val e s⟩

end Sys2Proof.Proofs
end
